-- ==== Sys2Proof/Word.lean ====
section
/-! DEFINITION. The word types of the Golner: the 24-bit register word (R3), the byte, and the index types of
its channels. -/
namespace Sys2Proof

/-- A register word: 24 bits, bit 23 the most significant (R3). -/
abbrev Word := BitVec 24

/-- A byte of a frame, a record or the depot. -/
abbrev Byte := BitVec 8

/-- A 12-bit register address (R473 to R476). -/
abbrev Addr := BitVec 12

/-- A count of 1/32768 s since 1970-01-01 00:00:00 UTC (R9). -/
abbrev Time := BitVec 48

/-- A contactor and its coil channel: 0 is K1, 1 is K2, 2 is K3, 3 is K4 (R285). -/
abbrev K := Fin 4

end Sys2Proof
end

