-- ==== Sys2Proof/Syntax.lean ====
section
/-! DEFINITION. The commands of the block: one constructor of `Instr` for each row of the table of operations
and events, with the row's operands. What the environment decides (a sample, a level, the outcome of a proof,
a received frame) is an operand. -/
namespace Sys2Proof

/-- The clock domains that start and stop (R57, SUP_DOMREQ and SUP_DOMSTAT). AO never stops. -/
inductive Domain where
  | per | can | mod | dep | evo | eng
deriving DecidableEq, Repr, Inhabited

/-- The task classes (R92). -/
inductive Cls where
  | s | c | e | b
deriving DecidableEq, Repr, Inhabited

/-- The three passes (R96). -/
inductive Pass where
  | lead | escort | rearguard
deriving DecidableEq, Repr, Inhabited

/-- The two CAN channels. -/
inductive Ch where
  | can0 | can1
deriving DecidableEq, Repr, Inhabited

/-- The two ports of the ring (R161). -/
inductive Port where
  | eva | evb
deriving DecidableEq, Repr, Inhabited

/-- The wake sources (R22), in the bit positions of MODE_WAKECFG; `call` is the cause CALL of CAN0. -/
inductive WakeSource where
  | can0 | call | can1 | wakePin | csn | rtc | guard | seal | sweep
deriving DecidableEq, Repr, Inhabited

/-- The inputs of the safety latch (R361), in the bit order of SAF_LATCH.SRC. -/
inductive LatchSource where
  | power | guard | watchdog | clock | engine
deriving DecidableEq, Repr, Inhabited

/-- The command registers (names ending in _CMD, R477). -/
inductive CmdReg where
  | mode | seq | sup | est | lim | pwr | saf | tol | lgr | can0 | can1 | hst | dep | lif
deriving DecidableEq, Repr, Inhabited

/-- One gate-drive channel of PWR_GDRVx: the four coil channels, the pump and the dump (R289). -/
inductive DriveChannel where
  | coil (k : K) | pump | dump
deriving DecidableEq, Repr, Inhabited

/-- A CAN frame (R435): 11-bit or 29-bit identifier, remote flag, FD flag, bit rate switch, DLC, payload. -/
structure CanFrame where
  ide : Bool
  id : BitVec 29
  fdf : Bool
  brs : Bool
  rtr : Bool
  dlc : BitVec 4
  data : List Byte
deriving DecidableEq, Repr, Inhabited

/-- A chain frame as it arrives at a port: header word, data words and CRC-16 (R162, R164). -/
structure ChainFrame where
  header : Word
  words : List Word
  crc : BitVec 16
deriving DecidableEq, Repr, Inhabited

/-- A chain request before it gets its SEQ and tag (R167): address field, command code and data words. -/
structure ChainRequest where
  addr : BitVec 6
  cmd : BitVec 6
  words : List Word
deriving DecidableEq, Repr, Inhabited

/-- What a depot device answers at muster step 5 (R505). -/
structure DepotDevice where
  mfr : Byte
  dev : BitVec 16
  sfdpOk : Bool
  mbit : Nat
  octal : Bool
  listsErase : Bool
  /-- Its SFDP tables list the deep power-down command (R542). -/
  deepPower : Bool := false
deriving DecidableEq, Repr, Inhabited

/-- A stage as enumeration reads it: its 64-bit ID and its cell count (R168). -/
structure StageId where
  id : BitVec 64
  cells : Byte
deriving DecidableEq, Repr, Inhabited

/-- Why an authentication failed (EST_AUTHSTAT.REASON, R247, R258). -/
inductive AuthFail where
  | timeout | certificate | signature | cellCount | duplicate
deriving DecidableEq, Repr, Inhabited

/-- What a stage returns to a challenge: the certificate's 144 bytes where it was read, and the 64-byte signature
(R185, R247). `none` for the signature is no result within 600 ms (R186). -/
structure AuthReply where
  cert : List Byte
  sig : Option (List Byte)
deriving DecidableEq, Repr, Inhabited

/-- One stage's part of a snap: 18 cell voltages in µV, 8 temperatures in 0.01 °C (`none` where invalid), and
MEAS_FAULT of the status word (R168, R184). -/
structure SnapReading where
  stage : Fin 32
  cells : List Nat
  temps : List (Option Int)
  measFault : Bool
deriving DecidableEq, Repr, Inhabited

/-- The node voltages judged in an off-state diagnostic phase, in mV (R307). -/
structure DiagNodes where
  hi : Nat
  lo : Nat
  vcoils : Nat
deriving DecidableEq, Repr, Inhabited

/-- The nodes of the whole off-state sequence: coil channels 1 to 4 (phase S, phase K), pump (S, K), dump (DD in
`hi`), and the comparators that fail the self-test of R308. -/
structure DiagInputs where
  coilS : Vector DiagNodes 4
  coilK : Vector DiagNodes 4
  pumpS : DiagNodes
  pumpK : DiagNodes
  dump : DiagNodes
  compFails : BitVec 23
deriving DecidableEq, Repr, Inhabited

/-- The node voltage of a live proof pulse in mV, from 10 µs after the off command to the pulse's end: the lowest and the
highest (R335). -/
structure ProofNode where
  lowest : Nat
  highest : Nat
deriving DecidableEq, Repr, Inhabited

/-- What a protection monitor has seen for longer than its deglitch time (R300): the switch or channel, and the monitored
voltage in mV. That is VDS, the distance of an amplifier output from 1.65 V, VDRV, VCP − VCOILS, or VCOILS; the DRV_EN monitor
has none. -/
structure Monitored where
  place : BitVec 4
  level : Nat
deriving DecidableEq, Repr, Inhabited

/-- What the environment shows a start (R136): everything the muster or the resume path measures. -/
structure MusterInputs where
  /-- The level of TEST at the rising edge of RSTN (R544). -/
  test : Bool
  /-- The CRC-16 over the retained content is correct (R44). -/
  retainedCrcOk : Bool
  /-- VAO has dipped below the retention threshold since the previous start, too briefly for the detector (R43, R47). -/
  shortDip : Bool := false
  mainOsc : Bool
  pllLock : Bool
  otpOk : Bool
  selfTestOk : Bool
  /-- The bank, word and bit whose injection a comparator missed at step 4 (R136). -/
  injectionMiss : Option (Fin 3 × Fin 64 × Fin 24)
  cs0 : DepotDevice
  cs1 : DepotDevice
  /-- The retained image digests match at the resume path (R154). -/
  digestOk : Bool
  /-- DRV_EN is high. -/
  drvEn : Bool
  diag : DiagInputs
  /-- The raw guard levels at the first tick after the reset, bit order of SAF_GSTAT.RAW. -/
  guardLevels : Byte
  /-- Which guards opened on their test switch within 50 ms, and which closed again within 50 ms (R146). -/
  guardOpened : BitVec 4
  guardClosed : BitVec 4
  /-- The levels of SEAL0 and SEAL1. -/
  seal0 : Bool
  seal1 : Bool
  /-- The stages that take an address from EVA, in order, and, on a break, those from EVB in descending order. -/
  fromA : List StageId
  ringIntact : Bool
  fromB : List StageId
  /-- t_m of the ECHOs in µs, from EVA and from EVB, by stage address (R177). -/
  echoes : List (Fin 32 × Rat × Rat) := []
  /-- The replies to the challenges, by stage address. -/
  auth : List (Fin 32 × AuthReply)
  /-- The first snaps (step 15). -/
  snaps : List SnapReading
  /-- Duration in ms (SYS_MTIME). -/
  duration : Nat
  /-- The step during which something else happens before the muster goes on: 0 or above 16 for none. -/
  cutAfter : Nat
deriving DecidableEq, Repr, Inhabited

/-- What SECDED finds when a word of a result hold is read (R99, R100). -/
inductive HoldError where
  | clean | single | double
deriving DecidableEq, Repr, Inhabited

/-- One output word of a task as its passes leave it, each in its own coding (R96), the escort's as the coded terms whose sum
it is (R97); the state of its three result hold words (R100); and whether CMP-A and CMP-B judge it rightly (R101). -/
structure ResultWord where
  lead : Word
  escort : List Word
  rearguard : BitVec 40
  holds : Vector HoldError 3 := .replicate 3 .clean
  cmpA : Bool := true
  cmpB : Bool := true
deriving DecidableEq, Repr, Inhabited

/-- One word of the context that the passes of a task leave, each in its own coding, at its lead-context address (R96,
R105). -/
structure ContextWord where
  addr : Word
  lead : Word
  escort : Word
  rearguard : BitVec 40
deriving DecidableEq, Repr, Inhabited

/-- A task whose passes end in a frame (R96, R101, R104, R107): its class and number, its output words and context. In
Paired the rearguard words are those of the re-execution, should resolution run it; in the degraded state `rerun` is what
the two remaining passes leave when they run again (R109). `second` marks a task of the second Split stream (R110), and
`selfTestOk` is the verdict of the self-test of a resolution. -/
structure TaskResult where
  cls : Cls
  task : Byte
  second : Bool := false
  words : List ResultWord
  context : List ContextWord := []
  selfTestOk : Bool := true
  rerun : List ResultWord := []
deriving DecidableEq, Repr, Inhabited

/-- What an engine frame captures and sees (R92, R113). -/
structure FrameInputs where
  /-- Source register addresses of the items on which IS-A and IS-B disagree (R114). -/
  disagree : List Addr
  /-- The tasks whose passes end in the frame. -/
  results : List TaskResult
  /-- VCOILS, VCP, VDRV in mV (R300, PWR_VRAIL); VSUP and VBKUP in mV (SUP_VMON). -/
  vcoils : Nat
  vcp : Nat
  vdrv : Nat
  vsup : Nat
  vbkup : Nat
  /-- The codes of the 20 samples of the pump current in the frame (R219, R220). -/
  pump : Vector (BitVec 12) 20
deriving DecidableEq, Repr, Inhabited

/-- What a ring probe finds (R179): the ring rejoined, or the next stage on a side answered. -/
structure ProbeResult where
  rejoined : Bool
  nextA : Option StageId
  nextB : Option StageId
  identities : List (Fin 32 × StageId)
  /-- t_m of the ECHOs in µs, from EVA and from EVB, by stage address (R177). -/
  echoes : List (Fin 32 × Rat × Rat) := []
deriving DecidableEq, Repr, Inhabited

/-- The thresholds of R259. -/
inductive Threshold where
  | vHigh1 | vHigh2 | vLow1 | vLow2 | tHigh1 | tHigh2 | tLow1 | tLow2 | ntcHigh1 | ntcHigh2
deriving DecidableEq, Repr, Inhabited

/-- The commands of the block. -/
inductive Instr where
  -- supplies, backup cell, clocks
  | powerGood (m : MusterInputs)
  | brownOut
  | pinReset (m : MusterInputs)
  | retentionLoss (m : MusterInputs)
  | aoSourceHandover (toBackup : Bool)
  | backupCellLow (absent : Bool)
  | powerFailWarning
  | finalCommitComplete
  | pfWarnClear
  | powerFailRecovery (m : MusterInputs)
  | energyShadowWrite
  | finalShadowWrite
  | crystalFailover
  | crystalReturn
  | rtcCorrection (temp : Rat)
  | mainClockFailure (m : MusterInputs)
  | alarm
  | setTime (tok : Byte)
  | resetCmd (tok : Byte) (m : MusterInputs)
  | armAlarm (tok : Byte)
  | disarm (tok : Byte)
  | domainStarted (dom : Domain)
  | domainStop (dom : Domain)
  -- modes
  | watch (tok : Byte)
  | watchEntryComplete
  | watchSweep (snaps : List SnapReading)
  | wake (src : WakeSource) (m : MusterInputs)
  | call (f : CanFrame) (m : MusterInputs)
  | benchEnter (tok : Byte)
  | benchExit (tok : Byte)
  | lockAck (tok : Byte)
  -- the drover and the coils
  | closeCmd (tok : Byte)
  | openCmd (tok : Byte)
  | holdCmd (tok : Byte)
  | releaseCmd (tok : Byte)
  | tHoldExpiry
  | coilCurrentSample (k : K) (code : BitVec 12)
  | closingTimeout (k : K)
  | pullInEnd (k : K)
  | bounceWindowEnd (k : K)
  | k3ReleaseDelay
  | prechargeRetryWindowEnd
  | tGraceExpiry
  | releaseHighSideTimeout (k : K)
  | releaseVerdictTimeout (k : K)
  | liveSwitchProof (k : K) (node : ProofNode)
  | feedbackCheck (k : K)
  | feedbackCheckEnd (k : K)
  | openLoopExpiry (k : K)
  | feedbackRestored (k : K)
  | rappUpdate (k : K)
  | pwrKnew (data : Word)
  -- the engine
  | engineFrame (f : FrameInputs)
  | classCPeriod
  | seam
  | injectionTest (cmpA cmpB : Bool)
  | engModecfgWrite (data : Word)
  | ipStatus (op : BitVec 4) (crc : Byte)
  | halt (crc : Byte)
  | engineHalt
  | ipResume (crc : Byte)
  | ipStep (crc : Byte) (f : FrameInputs)
  | ipRead (addr : Word) (crc : Byte)
  | leadViewCapture
  | ipWrite (addr data : Word) (crc : Byte)
  | traceCtl (data : Word) (crc : Byte)
  | tracePop (crc : Byte)
  | replayStat (crc : Byte)
  | ipDisable (data : Word)
  | engClrDisagree
  | engClrLoad
  | engClrEcc
  | engClrOdd
  | engClrMismatch
  | frameWatchdogTrip (m : MusterInputs)
  -- the chain
  | snap
  | chainTransactionStart (req : ChainRequest)
  | chainResponse (port : Port) (f : ChainFrame)
  | crossingClear (pos : Fin 576) (th : Threshold)
  | chainAttemptFailed (tag : Fin 32)
  | notReadyRepeat (tag : Fin 32)
  | ringBreak (lastA firstB : BitVec 6)
  | ringProbe (r : ProbeResult)
  | stageStale (stage : Fin 32)
  | balanceRefresh (masks : Vector (BitVec 18) 32)
  | chnRetrycfgWrite (stale : Bool) (data : Word)
  | chnClrLoss
  | chnClrRetry
  | chnClrErr
  | chnClrPeak
  -- sensing
  | sampleSet (density : Vector Rat 6) (unacknowledged : Bool)
  | inputLost (n : Fin 6)
  | inputActiveAgain (n : Fin 6)
  | inputFrozen (n : Fin 6)
  | inputUnfrozen (n : Fin 6)
  | sarConversion (volts : Rat)
  | settlingEnd
  | senCfgWrite (data : Word)
  | senClrCnt
  -- estimation and module identity
  | restFusion
  | burstEnd
  | stepFitted
  | confidenceDecay (cell : Fin 576)
  | stepRequestMissed
  | authentication (stage : Fin 32) (r : AuthReply)
  | authTimeout (stage : Fin 32)
  | authPeriodic (stage : Fin 32)
  | authNow (tok : Byte)
  | stepNow (tok : Byte)
  | estClrStep
  | estClrFit
  -- limits and the safety latch
  | faultClr (tok : Byte)
  | limClrUl
  | safetyLatchSet (src : LatchSource) (fault : Fin 39)
  -- the power stage
  | softTurnOffStep2
  | protectionTrip (cause : Fin 8) (seen : Monitored)
  | dumpOn
  | dumpOff
  | dumpTimeout
  | dumpRearm
  | dumpSwitchFault
  | offStateDiagnostics (inp : DiagInputs)
  | diagPhaseEnd (n : DiagNodes)
  | comparatorSelfTest (fails : BitVec 23)
  | autoDiagnostics
  | pwrClr (tok : Byte)
  | ctst (tok : Byte)
  | diag (tok : Byte)
  | drvEnFall
  | drvEnRise (lowNs : Nat)
  | extPwmEdge (levels : BitVec 4)
  | extPwmRevoke
  | extRevokedClear
  | tachEdge (period : Nat)
  | tachLost (frozen : Bool)
  | tachRecovered
  | pumpCycleLimit (level : Nat)
  | switchEdgeMeasured (ch : DriveChannel) (turnOn : Bool) (ns : Option Nat)
  | pwrCntclr
  -- guards and permission
  | guardChannelChange (ch : Fin 8) (level : Bool)
  | guardDiscrepancy (g : Fin 4)
  | gtest (g : Fin 4) (tok : Byte)
  | guardTestVerdict (g : Fin 4) (opened closed : Bool)
  | guardRetest (g : Fin 4)
  | permissionRefreshMissed
  | safClrCnt
  -- the toll
  | sessionOpen (tok : Byte)
  | sessionClose (tok : Byte)
  | tolResume (tok : Byte)
  | snapshot (tok : Byte)
  | calOpen (tok : Byte)
  | calClose (tok : Byte)
  | interimRecordDue
  | meterStopEnd
  | impulse
  | enclosureChange (seal0 seal1 : Bool)
  | rwsWrite (addr : Addr) (data : Word)
  | tolTagWrite (k : Fin 6) (data : Word)
  -- the ledger
  | recordSigned
  | ledgerCommit
  | ledgerCommitEnd (first second : Bool)
  | commitRetry
  | ack (tok : Byte)
  | recordCheck
  -- CAN
  | arbitration (ch : Ch) (won : Bool)
  | txAttemptEnd (ch : Ch) (sent : Bool)
  | canFrameReceived (ch : Ch) (f : CanFrame)
  | canErrorFrame (ch : Ch)
  | hostMessageTimeout (ch : Ch)
  | timetableEntryDue (ch : Ch) (j : Fin 32)
  | statusFrameDue
  | stepReqFrameDue
  | busOff (ch : Ch)
  | busOffRecovered (ch : Ch)
  | txQueue (ch : Ch) (tok : Byte)
  | txCancel (ch : Ch) (tok : Byte)
  | rxPop (ch : Ch) (tok : Byte)
  | ttLoad (ch : Ch) (tok : Byte)
  | boRecover (ch : Ch) (tok : Byte)
  | canCntClr (ch : Ch) (tok : Byte)
  | rxdatRead (ch : Ch)
  | txdatWrite (ch : Ch) (data : Word)
  | pubcfgWrite (ch : Ch) (data : Word)
  | canRetryConfigWrite (ch : Ch) (hcfg : Bool) (data : Word)
  -- the host port
  | nop
  | abort
  | badFrame (raw : BitVec 48) (edges : Nat)
  | accessComplete
  | registerWrite (addr : Addr) (data : Word)
  | registerRead (addr : Addr)
  | unknownCommand (reg : CmdReg) (tok code : Byte)
  | winSelWrite (data : Word)
  | windowAccessInc (addr : Addr) (write : Option Word)
  | manifestWindowWrite (data : Word)
  | pop (tok : Byte)
  | hstCntClr (tok : Byte)
  | watermarkConfigWrite (addr : Addr) (data : Word)
  | watermarkClear (addr : Addr) (data : Word)
  -- the depot and lifetime records
  | eventLogWrite
  | lifetimeFlushDue
  | depotTransactionStart
  | depotTransactionEnd (ok : Bool)
  | manErase (tok : Byte)
  | manSwitch (tok : Byte)
  | logUnpin (tok : Byte)
  | lifFlush (tok : Byte)
  | depCfgWrite (data : Word)
  | depClrErr
  | depClrShed
  | clrK (tok : Byte)
  | clrPump (tok : Byte)
  | backupCellReplaced (full : Bool)
deriving DecidableEq, Repr, Inhabited

end Sys2Proof
end

