-- ==== Sys2Proof/Decode.lean ====
section
/-! DEFINITION. Decoding of the command table's bits: every row of spec/opcode_table.json has an empty list of
fields, so that no word spells a command. -/
namespace Sys2Proof

/-- The command that a word spells by the table's bits: none, as the table gives no row any. -/
def decodeTableWord (_nbits _w : Nat) : Option Instr := none

end Sys2Proof
end

