-- ==== Sys2Proof/Config.lean ====
section
/-! DEFINITION. What an installation fixes (the manifest), what the part fixes (OTP, mask ROM), and the free values:
constants without a body, so that no proof can see what they are. -/
namespace Sys2Proof

/-- A fault class (R267). -/
inductive FaultClass where
  | a | b | c | d
deriving DecidableEq, Repr, Inhabited

/-- The crossing levels of R259: cell voltages in µV, cell temperatures in 0.01 °C, NTC temperatures in 0.1 °C. -/
structure Thresholds where
  vMax : Int
  vHigh1 : Int
  vHigh2 : Int
  vMin : Int
  vLow1 : Int
  vLow2 : Int
  tHigh1 : Int
  tHigh2 : Int
  tLow1 : Int
  tLow2 : Int
  ntcHigh1 : Int
  ntcHigh2 : Int
deriving DecidableEq, Repr, Inhabited

/-- What the manifest gives a fault (R268 to R270): class, lockout flag, charge and discharge factors in %. -/
structure FaultSetting where
  cls : FaultClass
  lockout : Bool
  chg : Nat
  dis : Nat
deriving DecidableEq, Repr, Inhabited

/-- The parameters of the manifest in use (R513). -/
structure Manifest where
  stageCount : Nat
  cellCounts : List Nat
  makerKeys : List (Word × List Byte)
  guardKind : BitVec 12
  benchTest : Bool
  splitC : Bool
  hallFitted : Bool
  /-- Capacity C in Ah, T_rest in s, S_MIN in V per unit SoC, K_CONF, balancing current in mA. -/
  capacity : Rat
  /-- Default of R152. -/
  tRest : Nat := 7200
  /-- Default of R228. -/
  sMin : Rat := 1 / 2
  kConf : Rat
  balCurrent : Rat
  /-- The OCV table: SoC points, temperatures in °C, and for each temperature the voltages at the SoC points in V. -/
  ocvSoc : List Rat
  ocvTemp : List Rat
  ocv : List (List Rat)
  /-- Impedance temperature factors at the OCV temperatures; defaults Rs_25, Rp_25 in Ω and τp in s. -/
  impFactor : List Rat
  rs25 : Rat
  rp25 : Rat
  taup : Rat
  th : Thresholds
  /-- Limit factors against temperature (°C) and SoC; pack maximums in A for 2 s, 10 s and 60 s. -/
  chgTemp : List (Rat × Rat)
  disTemp : List (Rat × Rat)
  chgSoc : List (Rat × Rat)
  disSoc : List (Rat × Rat)
  chgMax : Vector Rat 3
  disMax : Vector Rat 3
  faults : List FaultSetting
  /-- R_pre in Ω, C_link in F, coil resistances in mΩ, reference rail voltage in mV. -/
  rPre : Rat
  cLink : Rat
  coilR : Vector Nat 4
  railRef : Nat
  /-- The coil shunts in Ω, which the Golner must know to read a current from a code (R219, R322).
  PRESUMED: notes/assumptions/70.md. -/
  coilShunt : Vector Rat 4 := .replicate 4 (1 / 50)
  pumpShunt : Rat := 1 / 50
  /-- t_max and b_max in 0.1 ms, and the rated openings N_b of the ten break-current bins, per contactor. -/
  tMax : Vector Nat 4
  bMax : Vector Nat 4
  ratedOpenings : Vector (List Nat) 4
  /-- Pump speed in rpm against temperature (0.1 °C), minimum and maximum duty in 0.1 %. -/
  pumpTable : List (Rat × Rat)
  pumpMin : Nat
  pumpMax : Nat
  /-- Crystal turnover temperature in °C and coefficient in ppm per °C². -/
  xtalTurnover : Rat
  xtalCoef : Rat
  /-- NTC tables, resistance in Ω against temperature in °C, and bias resistances in Ω. -/
  ntcTable : Vector (List (Rat × Rat)) 4
  ntcBias : Vector Rat 4
  /-- Initial sealed toll parameters, in the address order of R399. -/
  toll : Vector Word 7
deriving DecidableEq, Repr, Inhabited

namespace Config

/-- The 64-bit serial number in OTP (R413, R576).
DESIGN CHOICE: notes/assumptions/67.md. -/
opaque serial : BitVec 64
/-- The mask ROM version (SYS_FWVER.ROM, R576). -/
opaque romVersion : BitVec 8
/-- The SHA-256 digest of the toll partition's code, mask ROM part and patch part, for a patch version; `none` for
mask ROM alone (R400).
DESIGN CHOICE: notes/assumptions/67.md. -/
opaque tollDigest : Option (BitVec 16) → List Byte
/-- The toll partition's version, TOL_SWID (R400). -/
opaque tollVersion : Option (BitVec 16) → Word
/-- The device key in OTP, the nonce of a signature, by the record's number and digest, and Yilastey's device root key: none is
ever readable (R411, R413).
DESIGN CHOICE: notes/assumptions/67.md. -/
opaque deviceSecret : Nat
opaque signNonce : Nat → List Byte → Nat
opaque yilasteySecret : Nat
/-- The public keys in mask ROM: the Yilastey patch key (R141) and the manifest root key (R142). -/
opaque patchKey : List Byte
opaque manifestRootKey : List Byte
/-- The parameters that the sections of a manifest hold; R513 names their contents and gives no byte layout.
DESIGN CHOICE: notes/assumptions/67.md. -/
opaque manifestParams : List (BitVec 16 × List Byte) → Manifest
/-- The natural logarithm or the square root of a number outside its domain, where the formulas give nothing.
DESIGN CHOICE: notes/assumptions/42.md. -/
opaque outside : Rat → Rat
/-- A manifest table read between or beyond its points, where the spec states no interpolation (R263, R296).
DESIGN CHOICE: notes/assumptions/42.md. -/
opaque lookup : List (Rat × Rat) → Rat → Rat
/-- The temperature input (0 to 7) that serves a cell input (0 to 17); the spec maps none to the other.
DESIGN CHOICE: notes/assumptions/42.md. -/
opaque tempInput : Nat → Nat
/-- Whether a temperature word of a snap is valid; the spec gives the invalid ones no code.
DESIGN CHOICE: notes/assumptions/42.md. -/
opaque tempValid : Word → Bool
/-- Conversion of a value to a count of register units, where the spec states no rounding: up to the next unit, or down.
DESIGN CHOICE: notes/assumptions/25.md. -/
opaque roundsUp : Rat → Bool
/-- The current of a code in mA while no manifest gives the shunt.
PRESUMED: notes/assumptions/70.md. -/
opaque unscaled : BitVec 12 → Int
/-- The pump's PI controller, in 0.1 % of duty: setpoint and measured speed in rpm, duty before (R296: no gains given).
DEDUCED: notes/assumptions/63.md. -/
opaque pumpPi : Rat → Rat → Nat → Nat
/-- The coil PI controller, in 1/6000 of the period: setpoint and measured current in mA, duty before (R321: no gains).
DEDUCED: notes/assumptions/63.md. -/
opaque coilPi : Int → Int → Nat → Nat
/-- A fresh free value: the part of a value that the spec leaves open, numbered by the counter of State.
DESIGN CHOICE: notes/assumptions/5.md. -/
opaque freeBool : Nat → Bool
opaque freeWord : Nat → Word
opaque freeBytes : Nat → List Byte
/-- DATA of an event whose chapter defines none (R494): by source and SUB.
DESIGN CHOICE: notes/assumptions/16.md. -/
opaque eventData : Nat → Nat → Word
/-- Which of several equal extremes a register names, where the spec states no tie rule (R245, EST_SIGMA).
DESIGN CHOICE: notes/assumptions/25.md. -/
opaque tie : Nat → Nat
/-- The temperature word of a cell whose temperature is invalid (window 1 of R485 gives it no code).
DESIGN CHOICE: notes/assumptions/42.md. -/
opaque invalidTemp : Word
/-- The word that the firmware has at an address of the lead context (R118).
DESIGN CHOICE: notes/assumptions/15.md. -/
opaque leadWord : Nat → Word
/-- The addresses of the engine's SRAM that are lead-context regions (R118).
DESIGN CHOICE: notes/assumptions/15.md. -/
opaque leadRegion : Nat → Bool

end Config
end Sys2Proof
end

