-- ==== Sys2Proof/Machine/State.lean ====
section
/-! DEFINITION. The state of the Golner: every register, buffer, counter, mode and pin the spec gives it, as plain
data, and the queue of waiting commands. A field's default is its reset value (R570): the value the register table
states, and where the spec states none, the value that notes/assumptions/4.md names. -/
namespace Sys2Proof.Machine

/-! ### Shared shapes -/

/-- One command register: the token it last executed (R482), the command it holds until it executes (R483: token and
code), and its result register (R484). -/
structure CmdState where
  kept : Option Byte := none
  held : Option (Byte × Byte) := none
  result : Word := 0
deriving DecidableEq, Repr, Inhabited

/-- The fourteen command registers. -/
structure Cmds where
  mode : CmdState := {}
  seq : CmdState := {}
  sup : CmdState := {}
  est : CmdState := {}
  lim : CmdState := {}
  pwr : CmdState := {}
  saf : CmdState := {}
  tol : CmdState := {}
  lgr : CmdState := {}
  can0 : CmdState := {}
  can1 : CmdState := {}
  hst : CmdState := {}
  dep : CmdState := {}
  lif : CmdState := {}
deriving DecidableEq, Repr, Inhabited

/-- A queue's watermark fields (R497). LIVE is the comparison of the level with HIGH and is not stored. -/
structure Watermark where
  latched : Bool := false
  count : Nat := 0
  peak : Nat := 0
deriving DecidableEq, Repr, Inhabited

/-- A two-copy area (R510): generation and payload of each copy, `none` where the copy is not valid.
DESIGN CHOICE: notes/assumptions/3.md. -/
structure Copies (α : Type) where
  copy0 : Option (Nat × α) := none
  copy1 : Option (Nat × α) := none
deriving DecidableEq, Repr, Inhabited

/-- Addressed memory as a canonical list of cells: addresses strictly rising, no cell equal to what an unlisted
address reads as. -/
abbrev Mem := List Host.Cell

/-! ### Supplies and the always-on domain -/

/-- A commit of shadows at a power failure (R48, R67). -/
inductive CommitKind where
  | final | shadowOnly
deriving DecidableEq, Repr, Inhabited

/-- Which clock domains run (SUP_DOMSTAT).
DEDUCED: notes/assumptions/64.md. -/
structure Domains where
  per : Bool := false
  can : Bool := false
  mod : Bool := false
  dep : Bool := false
  evo : Bool := false
  eng : Bool := false
deriving DecidableEq, Repr, Inhabited

/-- The SUP page and the always-on domain.
DESIGN CHOICE: notes/assumptions/2.md. -/
structure Sup where
  /-- VSUP is above the brown-out level (R40). -/
  powered : Bool := true
  /-- RSTN is low (R39). -/
  inReset : Bool := false
  pfHold : Bool := false
  timeValid : Bool := false
  lfrc : Bool := true
  vbkLow : Bool := false
  vbkAbsent : Bool := false
  pfWarn : Bool := false
  aoBackup : Bool := false
  start : BitVec 2 := 0
  startReg : Word := 0x000001
  pfcfg : Word := 0x000006
  domreq : Word := 0
  doms : Domains := {}
  pllA : Bool := false
  pllB : Bool := false
  mainOsc : Bool := false
  clkcfg : Word := 0
  vmon : Word := 0
  rtc : Time := 0
  /-- The part of a tick that temperature correction has not yet added (R61). -/
  rtcResidue : Rat := 0
  /-- SET_TIME has written the RTC in the present tick period (R69). -/
  tickTaken : Bool := false
  tsetHi : Word := 0
  tsetLo : Word := 0
  alarmHi : Word := 0
  alarmLo : Word := 0
  alarm : Option Time := none
  /-- The canary word is correct (R43, R44). -/
  canary : Bool := true
  /-- VAO has risen from below the retention threshold since the previous start (R47). -/
  vaoDipped : Bool := true
  /-- The first power-fail warning of this reset cycle has been seen in Run or muster (R48, R67). -/
  pfSeen : Bool := false
  /-- The power-fail warning event has been queued in this reset cycle, or waits for PER (R48, R67). -/
  pfEvent : Bool := false
  pfEventDue : Bool := false
  commit : Option CommitKind := none
  restStamp : Option Time := none
  /-- The latched reset cause as SUP_START bits (R47), and the contactors confirmed closed when the reset began (R54). -/
  latched : Word := 0
  closedAtReset : BitVec 4 := 0
  /-- Turnover temperature and coefficient of the crystal, as the always-on domain uses them (R61). -/
  xtal : Option (Rat × Rat) := none
  /-- The frame watchdog is armed (R89, R91). -/
  wdArmed : Bool := false
deriving DecidableEq, Repr, Inhabited

/-- The SYS page (R576 and the muster registers). -/
structure Sys where
  fwver : Word := 0
  sn : BitVec 64 := 0
  path : BitVec 2 := 0b01
  mstate : BitVec 2 := 0b00
  romOnly : Bool := false
  patchSlot : Bool := false
  manSlot : Bool := false
  attempts : BitVec 2 := 0
  /-- The reset made the count 3: step 4 stops with code 0x0C (R139). -/
  repeated : Bool := false
  step : Nat := 1
  failCode : Byte := 0
  failDetail : BitVec 16 := 0
  find : Word := 0
  mtime : Nat := 0
  /-- The inputs of a muster that was cut short and that the idle step goes on with (the model's own). -/
  todo : Option MusterInputs := none
deriving DecidableEq, Repr, Inhabited

/-! ### Modes and the drover -/

/-- MODE_STAT.MODE (R10). -/
inductive Mode where
  | muster | watch | run
deriving DecidableEq, Repr, Inhabited

/-- The MODE page. The run state is Lockout exactly while the drover is in LOCKOUT (R13), else Bench or Normal as
`bench` says; during Lockout `bench` is LOCK_FROM (R31). -/
structure ModeBlock where
  mode : Mode := .muster
  bench : Bool := false
  lockCause : Byte := 0
  /-- The lock cause of a class D fault latched outside Run, which takes effect at Run entry (R156, R374), and the
  fault-episode ID of that fault. -/
  lockDue : Byte := 0
  lockEpisode : Nat := 0
  /-- The fault that led to the Lockout of cause 0x08 (R30). -/
  lockFault : Nat := 0
  wakecfg : Word := 0x0001FD
  wakecause : Word := 0
  watchcfg : Word := 0x00000A
  /-- A Watch entry is in progress (R21, R33). -/
  entering : Bool := false
deriving DecidableEq, Repr, Inhabited

/-- The drover's states (R15); `openS` is OPEN. -/
inductive Drover where
  | openS | precharge | closed | output | hold | breaking | lockout
deriving DecidableEq, Repr, Inhabited

/-- The SEQ page, the captured sequence parameters (R24) and the sequences of R330 to R334. -/
structure Seq where
  drover : Drover := .openS
  holdFrom : Drover := .openS
  holdcfg : Word := 0x00003C
  /-- Captured I_break (A), T_grace (0.1 s) and τ (s). -/
  iBreak : Nat := 0
  tGrace : Nat := 0
  tau : Rat := 0
  /-- Captured I_pull and I_hold in mA per channel, and T_pull in 10 ms. -/
  iPull : Vector Nat 4 := .replicate 4 0
  iHold : Vector Nat 4 := .replicate 4 0
  tPull : Nat := 0
  /-- T_grace is running (LIM_STAT.TGRACE). -/
  grace : Bool := false
  /-- The last valid |I_pack| in mA (R274). -/
  lastI : Nat := 0
  /-- The openings of BREAKING have started, and the contactors that still wait for their release (R334). -/
  opening : Bool := false
  toRelease : List K := []
  /-- A session end waits for the current, or releases K4 alone (R16, R334). -/
  sessionEnding : Bool := false
  /-- PWR_PRESTAT.PHASE: the step of R330 in progress, 0 idle. -/
  phase : Nat := 0
  /-- V_0 and V_p at the K3 command in mV, frames since it, the frame of the rise start (R330, R331). -/
  v0 : Int := 0
  vp : Int := 0
  k3Frames : Nat := 0
  riseAt : Option Nat := none
  judged : Bool := false
  weldWindow : Bool := false
  /-- PWR_PRESTAT.ABORT, the RTC times of the aborts counted under R332, oldest first, and whether further K3 commands
  fail. -/
  abort : Nat := 0
  aborts : List Time := []
  retryBlocked : Bool := false
  riseMs : Nat := 0
  t95 : Nat := 0
deriving DecidableEq, Repr, Inhabited

/-- PWR_LOOPSTAT.PHASEn. -/
inductive CoilPhase where
  | released | signature | pullIn | hold | releasing | openLoop
deriving DecidableEq, Repr, Inhabited

/-- One coil channel with its contactor (R320 to R340). Currents in mA, sample counts in 50 µs.
DESIGN CHOICE: notes/assumptions/4.md. -/
structure Coil where
  phase : CoilPhase := .released
  /-- The high-side and low-side gates are commanded on (the low side under its duty). -/
  hi : Bool := false
  lo : Bool := false
  /-- Duty in 1/6000 of the 20 kHz period (R291). -/
  duty : Nat := 0
  setpoint : Nat := 0
  sum : Int := 0
  count : Nat := 0
  mean : Int := 0
  /-- Consecutive samples at a rail code, consecutive frames of too low a mean (R336). -/
  railRun : Nat := 0
  lowRun : Nat := 0
  lost : Bool := false
  frozen : Bool := false
  /-- The signature of R324: samples since the pull-in command, i_pk and its instant, the dip and its lowest point. -/
  samples : Nat := 0
  iPk : Int := 0
  iPkAt : Nat := 0
  dip : Bool := false
  iLow : Int := 0
  iLowAt : Nat := 0
  /-- Confirmed closed (SEQ_STAT.K_CLOSED). -/
  confirmed : Bool := false
  /-- VCOILS has stayed within ±10 % of the reference throughout the pull-in (R325). -/
  railOk : Bool := true
  /-- The bounce window of R324: open, the preceding local maximum, the sample before, whether it fell, the last
  bounce. -/
  bouncing : Bool := false
  bMax : Int := 0
  bPrev : Int := 0
  bFalling : Bool := false
  bLast : Nat := 0
  /-- The release: under R326 (slow decay) or R327, samples since the low side turned off, the minimum so far and its
  instant, the mark; whether the contactor was confirmed closed and its feedback valid when the release began. -/
  slow : Bool := false
  relSamples : Nat := 0
  relMin : Int := 0
  relMinAt : Nat := 0
  mark : Option Nat := none
  wasClosed : Bool := false
  /-- Break current in mA, taken in the frame in which the high-side gate turned off (R277). -/
  breakI : Nat := 0
  breakDue : Bool := false
  /-- The last release ended welded or not confirmed (R328): the contactor has not been judged open. -/
  stuck : Bool := false
  /-- Feedback checks (R337): failed in a row, raise in progress, mean before the raise. -/
  checkFails : Nat := 0
  raising : Bool := false
  before : Int := 0
  /-- Frames in a row with a loop error within 2 % (R323). -/
  steady : Nat := 0
  /-- The next live proof pulse is on the low side (R335). -/
  proofLow : Bool := false
  /-- A release fell due in HOLD, where none starts: at the end of T_coil_ol or of an unconfirmed pull-in. It starts when HOLD
  ends (R338, R347). -/
  olDue : Bool := false
  /-- R_app in mΩ (R323), learned t_L, b_L and baselines t_0, b_0 in 0.1 ms (R325), learned closings since the
  baseline restart, S_prev, S and the forecast (R340). -/
  rApp : Rat := 0
  tL : Rat := 0
  bL : Rat := 0
  t0 : Rat := 0
  b0 : Rat := 0
  learned : Nat := 0
  sPrev : Rat := 0
  s : Rat := 0
  remain : Nat := 0x3FFF
  /-- PWR_KLASTn. -/
  tClose : Nat := 0
  tRel : Nat := 0
  unverified : Bool := false
  lastLearned : Bool := false
  /-- I²t of the closed interval in A²s (R278). -/
  i2t : Rat := 0
  /-- Frames of near-zero readings away from the rail codes since the release (R339). -/
  quiet : Nat := 0
deriving DecidableEq, Repr, Inhabited

/-! ### Engine and inspection port -/

/-- An item whose two samplers have disagreed (R114): disagreeing and agreeing frames in a row, fault raised. -/
structure InputItem where
  item : Addr
  bad : Nat
  good : Nat
  fault : Bool
deriving DecidableEq, Repr, Inhabited

/-- A word of a task context at its lead-context address, in the codings of the passes that have one, and in the entry
context (R96, R105, R107, R110); the class of its task where one has left it. -/
structure CtxWord where
  addr : Nat
  cls : Option Cls
  lead : Option Word
  escort : Option Word
  rear : Option (BitVec 40)
  entry : BitVec 40
deriving DecidableEq, Repr, Inhabited

/-- The outputs of a task: its words in natural coding, and the unchecked mark (R104, R108, R111). -/
structure TaskOutput where
  cls : Cls
  task : Byte
  second : Bool := false
  words : List Word
  unchecked : Bool := false
deriving DecidableEq, Repr, Inhabited

/-- The ENG page. Modes: 0 Paired, 1 Triple, 2 Split. -/
structure Eng where
  modecfg : Word := 0x000040
  sAct : BitVec 2 := 1
  cAct : BitVec 2 := 0
  eAct : BitVec 2 := 0
  bAct : BitVec 2 := 0
  degraded : Bool := false
  dropped : Option Pass := none
  /-- The outputs of the tasks, as they stand (R104, R108). -/
  outputs : List TaskOutput := []
  /-- Classes whose results carry the unchecked mark (R111), and those in the first period after a rejoin (R112). -/
  uncheckedC : Bool := false
  uncheckedE : Bool := false
  uncheckedB : Bool := false
  frame : Word := 0
  reserveMin : Nat := 0x3E8
  busyPeak : Nat := 0
  resolved : Nat := 0
  storage : Nat := 0
  withheld : Nat := 0
  oddLead : Nat := 0
  oddEscort : Nat := 0
  oddRear : Nat := 0
  eccDouble : Nat := 0
  eccSingle : Nat := 0
  cmptest : Word := 0
  disagree : Nat := 0
  item : Addr := 0
  items : List InputItem := []
  lastcause : Word := 0
  ovf : Word := 0
  ipcfg : Word := 0
  /-- Odd passes for execution causes within the last second: frames ago and pass (R106). -/
  oddHist : List (Nat × Pass) := []
  /-- The class withheld its outputs in its last period (R108, R133). -/
  heldS : Bool := false
  heldC : Bool := false
  heldE : Bool := false
  heldB : Bool := false
  /-- Class C and class E have withheld their outputs in the period that runs. -/
  nowC : Bool := false
  nowE : Bool := false
  /-- The limits of a class E period wait for a class C period whose outputs are not withheld (R92, R108, R266). -/
  publishDue : Bool := false
  /-- The frame's count within the 100-frame seam period, and whether the seam and the class C period that fell due last
  have started (R94). -/
  sinceSeam : Nat := 0
  seamDone : Bool := true
  cDone : Bool := true
  /-- The next frame rebuilds the contexts of the classes that left Split (R112). -/
  rebuild : Bool := false
  /-- The next injection's word, bit and pass (R102). -/
  injWord : Nat := 0
  injBit : Nat := 0
  injPass : Pass := .lead
  /-- The injection test of this seam has not run yet. -/
  injDue : Bool := false
  /-- The result hold banks of the lead, escort and rearguard passes (R99), `none` a word without a usable value: as the
  last task left them, and as the last class S task did.
  DESIGN CHOICE: notes/assumptions/72.md. -/
  holds : Vector (Vector (Option Word) 64) 3 := .replicate 3 (.replicate 64 (some 0))
  sHolds : Vector (Vector (Option Word) 64) 3 := .replicate 3 (.replicate 64 (some 0))
  /-- The context words that tasks have left or the port has written, addresses rising (R105, R118, R121). -/
  ctx : List CtxWord := []
deriving DecidableEq, Repr, Inhabited

/-- The inspection port (R115 to R124). -/
structure Insp where
  halted : Bool := false
  haltReq : Bool := false
  replay : List (Word × Word) := []
  peak : Nat := 0
  traceOn : Bool := false
  traceCls : BitVec 4 := 0
  traceOvf : Bool := false
  trace : List Word := []
  /-- A lead-context word asked for while the engine runs, and the word captured (R119). -/
  asked : Option Word := none
  captured : Option (Word × Word) := none
  /-- The response: ack, data and their CRC-8 (R115, R116); `none` where the port does not answer. -/
  resp : Option (BitVec 3 × Word × Byte) := none
deriving DecidableEq, Repr, Inhabited

/-! ### Chain -/

/-- A snap fully read: its stage, timestamp, 18 voltages in µV, 8 temperatures in 0.01 °C, and MEAS_FAULT (R184). -/
structure HeldSnap where
  stage : Fin 32
  ts : Option Word
  volts : List Nat
  temps : List (Option Int)
  fault : Bool
deriving DecidableEq, Repr, Inhabited

/-- One of the 32 tags: its transaction, the SEQ awaited, the port of the last attempt, failed attempts, whether the
last answer was NOT_READY (R174, R193, R194). -/
structure Tag where
  tag : Nat
  req : ChainRequest
  seq : Byte
  port : Port
  fails : Nat := 0
  notReady : Bool := false
  /-- The request waits for its side of the broken ring (R172). -/
  unsent : Bool := false
deriving DecidableEq, Repr, Inhabited

/-- What the Golner holds of one stage address.
DESIGN CHOICE: notes/assumptions/4.md. -/
structure Stage where
  /-- Reachable (CHN_PRES), and its identity as last read and as recorded at the last full enumeration (R180). -/
  present : Bool := false
  id : Option StageId := none
  recorded : Option StageId := none
  stale : Bool := false
  /-- The newest snap fully read, and the timestamps whose A part and B part have been read (R195). -/
  newest : Option Word := none
  partA : Option (Word × List Word) := none
  partB : Option (Word × List Word) := none
  /-- Timestamp of the snap fully read before the newest; burst snaps read (R236); ENG_FRAME when the last snap was fully
  read (R527). -/
  prior : Option Word := none
  burstRead : Nat := 0
  readFrame : Option Word := none
  auth : Bool := false
  /-- The number of the nonce of an outstanding challenge (R247). -/
  challenge : Option Nat := none
  lastAuth : Time := 0
  /-- The certificate whose key is cached (R247). -/
  cert : List Byte := []
  /-- What AUTH_RESULT and CERT_READ have returned to the outstanding challenge (R185, R247). -/
  sigRead : Option (List Byte) := none
  certRead : List Byte := []
  mask : BitVec 18 := 0
  /-- RTC time of the last frame addressed to it that it has answered: 2 s after it balancing is off (R187). -/
  heard : Time := 0
  dlyP : BitVec 12 := 0
  dlyQ : BitVec 12 := 0
  /-- It took its ASSIGN on the port that faces EVB (R177). -/
  viaB : Bool := false
  episode : Option Nat := none
deriving DecidableEq, Repr, Inhabited

/-- A carried event count (R80, R81): the sender's 4-bit occurrence count, the consumed count that the receiver returns,
and the overrun flag. The wires carry the counts in Gray code. -/
structure Carried where
  sent : BitVec 4 := 0
  returned : BitVec 4 := 0
  overrun : Bool := false
deriving DecidableEq, Repr, Inhabited

/-- The CHN page and the transactions. -/
structure Chn where
  running : Bool := false
  intact : Bool := false
  enumDone : Bool := false
  tagPeak : Nat := 0
  lastA : Nat := 0
  firstB : Nat := 0
  retrycfg : Word := 0x0A0A03
  stalecfg : Word := 0x00012C
  seq : Byte := 0
  tags : List Tag := []
  waiting : List ChainRequest := []
  /-- The last frame sent: port and frame. -/
  sent : Option (Port × ChainFrame) := none
  crcA : Nat := 0
  crcB : Nat := 0
  retries : Nat := 0
  failed : Nat := 0
  staleEv : Nat := 0
  snapLost : Nat := 0
  ovf : Word := 0
  /-- Timestamp of the newest SNAP, and the number of the free value by which the count of µs leads the frames' since they
  last started (R181). -/
  snapTs : Word := 0
  phase : Nat := 0
  /-- Bit 0 for EVA, bit 1 for EVB: the stages on that side sleep, and its next frame follows a wake burst; the length in µs
  of the burst that went before the last frame, 0 for none (R188). -/
  sleeping : BitVec 2 := 0
  wakeBurst : Nat := 0
  /-- Snaps fully read whose cell table entries wait for the next frame's agreed snapshot (R113, R114), oldest first. -/
  heldSnaps : List HeldSnap := []
  /-- The response buffer: what each tag's slot holds assembled (R174). -/
  buffer : Vector (List Word) 32 := .replicate 32 []
  /-- The carried counts of the tag completions and of the ring events, and what the occurrences that PER has not
  consumed have left in the response buffer: the frames with their ports, and the sides found (R72, R80 to R82). -/
  doneCount : Carried := {}
  ringCount : Carried := {}
  heldFrames : List (Port × ChainFrame) := []
  heldBreaks : List (BitVec 6 × BitVec 6) := []
  stages : Vector Stage 32 := .replicate 32 {}
deriving DecidableEq, Repr, Inhabited

/-! ### Sensing -/

/-- The SEN page and the accumulation of a frame (R205 to R225).
DEDUCED: notes/assumptions/64.md. -/
structure Sen where
  cfg : Word := 0x00004A
  lost : BitVec 6 := 0
  frozen : BitVec 6 := 0
  settling : Bool := false
  ovrSat : Bool := false
  detSat : Bool := false
  frzcfg : Word := 0x000014
  plscfg : Word := 0x007828
  src : BitVec 2 := 0b11
  none_ : Bool := false
  disc : Bool := false
  impl : BitVec 3 := 0
  /-- Consecutive frames with and without a discrepancy, for A, B and H (R214). -/
  bad : Vector Nat 3 := .replicate 3 0
  good : Vector Nat 3 := .replicate 3 0
  iPack : Int := 0
  vals : Vector Int 6 := .replicate 6 0
  hall : Int := 0
  gain : Vector Word 4 := .replicate 4 0x400000
  ofs : Vector Word 4 := .replicate 4 0
  gainH : Word := 0x010000
  ofsH : Word := 0x000800
  ain : Vector Nat 8 := .replicate 8 0
  /-- NTC temperatures in 0.1 °C, `none` invalid (code 0x800); reset reads 0. -/
  ntc : Vector (Option Int) 4 := .replicate 4 (some 0)
  csacfg : Word := 0x000155
  /-- A sample set has been dropped since the last frame boundary (R224). -/
  dropped : Bool := false
  det : Nat := 0
  ovr : Nat := 0
  /-- Sums over the valid values of the present frame, their number, whether A or B was out of range (R208, R225). -/
  sums : Vector Int 6 := .replicate 6 0
  sets : Vector Nat 6 := .replicate 6 0
  outA : Bool := false
  outB : Bool := false
  /-- Engineering values of the last sample set (R277). -/
  last : Vector Int 6 := .replicate 6 0
  /-- The SAR round: slot, sums and counts of the frame for AIN and NTC, the last VCC5/2 code (R216, R218). -/
  slot : Nat := 0
  ainSum : Vector Nat 8 := .replicate 8 0
  ainCnt : Vector Nat 8 := .replicate 8 0
  ntcSum : Vector Nat 4 := .replicate 4 0
  ntcCnt : Vector Nat 4 := .replicate 4 0
  vcc5 : Nat := 0
  /-- The frame mean of the AIN0 codes (R208), of which the Hall current is formed. -/
  ain0 : Rat := 0
  /-- The filter settings in force in MOD: a change of SEN_CFG reaches them at a decimation boundary (R221). -/
  inForce : Word := 0x00004A
  /-- The sample set in the hold register that PER has not acknowledged (R74, R76). -/
  held : Option (Vector (BitVec 24) 6) := none
deriving DecidableEq, Repr, Inhabited

/-! ### Estimation -/

/-- An OCV anchor of a cell (R229, R244): SoC, σ before fusion, coulomb counter, balancing charge, RTC. -/
structure Anchor where
  soc : Rat
  sigma : Rat
  charge : Int
  bal : Rat
  time : Nat
  /-- Taken in Split (R111, R256). -/
  unchecked : Bool := false
deriving DecidableEq, Repr, Inhabited

/-- One cell position of the cell table (R226 to R245, R261). Voltages in µV, temperatures in 0.01 °C, the rest in V,
Ω, s, Ah and fractions.
DESIGN CHOICE: notes/assumptions/4.md. -/
structure Cell where
  v : Nat := 0
  t : Option Int := none
  soc : Rat := 0
  var : Rat := 0
  vp : Rat := 0
  rs : Rat := 0
  rp : Rat := 0
  taup : Rat := 0
  conf : Nat := 0
  cap : Rat := 0
  /-- Class E periods since the last correction (R227). -/
  sinceCorr : Nat := 0
  balCharge : Rat := 0
  anchor : Option Anchor := none
  /-- Times of 12 h since the last accepted fit, and outliers in a row (R239 to R241). -/
  sinceFit : Nat := 0
  outliers : Nat := 0
  fits : Nat := 0
  unchecked : Bool := false
  /-- The impedance comes from an unchecked fit (R256). -/
  fitUnchecked : Bool := false
  measFault : Bool := false
  /-- Active crossings in the order of `Threshold`, and consecutive snaps beyond each (R261). -/
  crossed : BitVec 8 := 0
  beyond : Vector Nat 8 := .replicate 8 0
  /-- Pre-step snap: voltage (V) and cell current (A); first burst snap: voltage (V) and the balancing current (A) at it
  (R233, R234). -/
  pre : Option (Rat × Rat) := none
  first : Option (Rat × Rat) := none
  /-- The burst snaps read: timestamp and voltage (V) (R235); one of the fit's snaps carried MEAS_FAULT (R236). -/
  points : List (Word × Rat) := []
  fitFault : Bool := false
  /-- The voltage of the snap fully read before the newest, in µV, and its MEAS_FAULT. -/
  vPrior : Nat := 0
  faultPrior : Bool := false
  /-- An inserted module's cell, whose start value waits for its first snap (R250). -/
  inserted : Bool := false
deriving DecidableEq, Repr, Inhabited

/-- A snap as broadcast: its timestamp, the frame boundaries since the end of its frame, and that frame's mean of I_pack
in mA, `none` until the frame ends (R234). -/
structure SnapTime where
  ts : Word
  /-- ENG_FRAME when it was broadcast: no second one follows on the same grid point (R181). -/
  frame : Word := 0
  age : Nat := 0
  mean : Option Int := none
  /-- It belongs to the latest burst (R232). -/
  burst : Bool := false
deriving DecidableEq, Repr, Inhabited

/-- The EST page. -/
structure Est where
  cfg : Word := 0x000114
  stepcfg : Word := 0x008038
  /-- EST_CFG and EST_STEPCFG as the last class E period took them (R252). -/
  cfgUse : Word := 0x000114
  stepUse : Word := 0x008038
  derated : Bool := false
  stepReq : Bool := false
  fitting : Bool := false
  burst : Bool := false
  /-- The burst serves the outstanding request of a deliberate step (R243, R255). -/
  delib : Bool := false
  /-- Burst snaps broadcast so far (R232) and frames of I_pack means, newest first (R231). -/
  burstSnaps : Nat := 0
  means : List Int := []
  /-- The snaps that can still be fresh or lie among the last 32, newest first; the timestamps of the pre-step snap and of the first burst snap (R233, R234). -/
  snaps : List SnapTime := []
  preTs : Option Word := none
  firstTs : Option Word := none
  /-- Amplitude in A and direction of the outstanding request (R242). -/
  stepAmp : Rat := 0
  stepDis : Bool := false
  /-- Frames with |I_pack| below I_quiet (R229, R241); RTC time of the last request; fused once in this rest. -/
  quiet : Nat := 0
  sinceReq : Option Time := none
  fused : Bool := false
  coulomb : Int := 0
  coulRem : Int := 0
  coulLast : Int := 0
  /-- The ±5 % condition of R235 holds so far; the current of the first burst snap (mA). -/
  flat : Bool := false
  i1 : Option Int := none
  authFails : Nat := 0
  authStage : Nat := 0
  authReason : Nat := 0
  accepted : Nat := 0
  rejected : Nat := 0
  requested : Nat := 0
  missed : Nat := 0
  ovf : Word := 0
  cells : Vector Cell 576 := .replicate 576 {}
deriving DecidableEq, Repr, Inhabited

/-! ### Limits -/

/-- The episode last given to a fault at an instance (R284): the frames since the fault ended, and whether the fault has been
counted in it. -/
structure FaultEpisode where
  fault : Nat
  inst : Nat
  id : Nat
  age : Nat := 0
  counted : Bool := true
deriving DecidableEq, Repr, Inhabited

/-- The LIM page: limits in 0.1 A, index 0 for 2 s, 1 for 10 s, 2 for 60 s. -/
structure Lim where
  chg : Vector Nat 3 := .replicate 3 0
  dis : Vector Nat 3 := .replicate 3 0
  clampChg : Vector Bool 3 := .replicate 3 false
  clampDis : Vector Bool 3 := .replicate 3 false
  /-- The last limits computed from checked inputs only (R264). -/
  checkedChg : Vector Nat 3 := .replicate 3 0
  checkedDis : Vector Nat 3 := .replicate 3 0
  last : Nat := 0
  classB : Bool := false
  brkcfg : Word := 0x001405
  /-- Bit F: the cause of fault F is present (`active`), a class D fault is latched (`latched`). -/
  active : BitVec 39 := 0
  latched : BitVec 39 := 0
  /-- The episodes that faults have, or had until less than 1 s ago (R284). -/
  episodes : List FaultEpisode := []
  /-- Faults raised since the last frame boundary: F, INST and ID (R281, R348, R373). -/
  frameFaults : List (Nat × Nat × Nat) := []
  clsel : Word := 0
  underLoad : Vector Nat 4 := .replicate 4 0
  /-- The wear events of 80 % and 100 % have been given, for W and for S (R279, R340). -/
  wear80 : BitVec 8 := 0
  wear100 : BitVec 8 := 0
  brklast : Word := 0
  ovf : Word := 0
  /-- NTC levels (R259, R261): frames beyond level 1 and level 2 per NTC, active crossings. -/
  ntc1 : Vector Nat 4 := .replicate 4 0
  ntc2 : Vector Nat 4 := .replicate 4 0
  ntcCross : BitVec 8 := 0
deriving DecidableEq, Repr, Inhabited

/-! ### Power stage -/

/-- The PWR page but for the coil channels.
DEDUCED: notes/assumptions/64.md. -/
structure Pwr where
  drvEn : Bool := false
  cpOk : Bool := false
  dumpOn : Bool := false
  dumpDis : Bool := false
  /-- The 950 ms pause of R305. -/
  dumpPause : Bool := false
  extRevoked : Bool := false
  tachLost : Bool := false
  tachFrozen : Bool := false
  /-- Index of the diagnostic phase in progress (R307): 0 to 7 coil S/K, 8, 9 pump S/K, 10 dump. -/
  diagPhase : Option Nat := none
  /-- The off-state sequence is in progress (PWR_STAT.DIAG_RUN), and a comparator self-test is due (R307, R308). -/
  diagSeq : Bool := false
  ctstDue : Bool := false
  fltCause : Byte := 0
  fltWhere : BitVec 4 := 0
  causes : BitVec 9 := 0
  episode : Option Nat := none
  diagDone : Bool := false
  diagPass : Bool := false
  verdicts : BitVec 18 := 0
  ctstPass : Bool := false
  ctstFails : Nat := 0
  ctstFirst : Nat := 0
  /-- The off-state diagnostics have passed since the last opening (R17). -/
  passedSince : Bool := false
  vcfg : Word := 0x011140
  soft : Word := 0x000012
  oc : Word := 0x07BDEF
  ocp : Word := 0x0001B3
  gdrv : Vector Word 6 := .replicate 6 0x03F088
  vds : Vector Word 6 := .replicate 6 0x000399
  /-- ADAPT codes: source (turn-on) and sink (turn-off) per gate-drive channel (R290). -/
  source : Vector Nat 6 := .replicate 6 0
  sink : Vector Nat 6 := .replicate 6 0
  pumpcfg : Word := 0x100000
  /-- PWR_PUMPCFG as the pump bridge uses it, and whether external control is revoked there: both follow at a PWM period
  boundary (R295, R313). -/
  pumpUse : Word := 0x100000
  extOff : Bool := false
  pumpSet : Nat := 0
  pumpMeas : Nat := 0
  /-- The measured speed of the agreed snapshot (R113). -/
  agreedSpeed : Nat := 0
  duty : Nat := 0
  /-- The external input levels in the order of GHA, GLA, GHB, GLB (bits 0 to 3). -/
  extIn : BitVec 4 := 0
  /-- Frame ages of the conflicts of the last 10 ms (R295), conflict event given in this frame (R294). -/
  conflictAges : List Nat := []
  conflictEvt : Bool := false
  /-- The pump's active high side is off for the rest of the PWM period (R299). -/
  cycleOff : Bool := false
  /-- Last tach period in 1/120 µs (R296). -/
  tachPeriod : Nat := 0
  iPump : Int := 0
  vcp : Nat := 0
  vcoils : Nat := 0
  /-- VCOILS in mV as the dump comparator has last shown it, in every mode (R288). -/
  rail : Nat := 0
  conflict : Nat := 0
  ilim : Nat := 0
  trips : Nat := 0
  cntOvf : Bool := false
  /-- The step of a soft turn-off in progress: 0 none, 1, 2 (R302). -/
  softStep : Nat := 0
  kcur : Vector Word 4 := .replicate 4 0x8981F4
  coiltim : Word := 0x003C0A
  proofFails : Nat := 0
  /-- Switches whose last proof failed: bit 2n the high side of channel n + 1, bit 2n + 1 its low side. -/
  proofBad : BitVec 8 := 0
  proofValid : Bool := false
  proofSide : Bool := false
  proofChannel : Nat := 0
deriving DecidableEq, Repr, Inhabited

/-! ### Guards, permission, latch -/

/-- The SAF page. Channel bits in the order of SAF_GSTAT.RAW: GRD0A, GRD0B, …, GRD3B. -/
structure Saf where
  gkind : BitVec 12 := 0
  gfilt : Word := 0x005555
  raw : Byte := 0
  filt : Byte := 0
  /-- The filtered levels of the agreed snapshot (R113). -/
  agreed : Byte := 0
  kindsLoaded : Bool := false
  seenOpen : Byte := 0
  provenCh : Byte := 0
  disc : BitVec 4 := 0
  testing : BitVec 4 := 0
  /-- The channels of a guard under test have disagreed for more than 50 ms: the test fails (R357). -/
  testBad : BitVec 4 := 0
  gtst : BitVec 4 := 0
  /-- Guards whose opening set the latch and that have not closed since (R362). -/
  openInput : BitVec 4 := 0
  episode : Vector (Option Nat) 4 := .replicate 4 none
  latch : Bool := false
  src : BitVec 5 := 0
  /-- The engine's input to the latch is active; so is that of the frame watchdog or the clock monitor, until the reset that it
  causes (R362). -/
  engInput : Bool := false
  resetInput : Bool := false
  granted : Bool := false
  /-- Consecutive missing refreshes by class S (R360); at reset none has come. -/
  missing : Nat := 2
  opens : Nat := 0
  discs : Nat := 0
  ovf : Word := 0
deriving DecidableEq, Repr, Inhabited

/-! ### Toll -/

/-- TOL_STAT.SESSION (R382). -/
inductive Session where
  | none_ | opening | active | closing | suspended
deriving DecidableEq, Repr, Inhabited

/-- What a muster restores of a session (R391, R426). -/
structure EnergyShadow where
  exp : Nat
  imp : Nat
  resExp : Nat
  resImp : Nat
  session : Session
  sessionId : Nat
  /-- The last session ID that was given (R384, R415). -/
  lastId : Nat
  tag : Vector Word 6
  sexp : Nat
  simp : Nat
  unmeasured : Nat
  recordNo : Nat
  startTime : Time
  marks : BitVec 10
  audit : Nat
  time : Time
deriving DecidableEq, Repr, Inhabited

/-- A write that waits for the depot, with what it writes as that stood when the write fell due (R419, R507). -/
inductive DepotJob where
  /-- Bytes of CS0: a header copy (class 1), the manifest pointer or the sealed toll block (class 2). -/
  | bytes (header : Bool) (addr : Nat) (bs : List Byte)
  /-- The energy and session shadow, with the pack current shadow while a contactor is closed. -/
  | energy (e : EnergyShadow) (pack : Option (Nat × Time))
  /-- The coulomb counter with the rest-time stamp, and SoC and σ of the cells. -/
  | estimates (coul : Int) (rest : Option Time) (soc : List (Rat × Rat))
  /-- The event log state. -/
  | logState (seq unpin : Nat)
  /-- A manifest slot erased. -/
  | erase (slot : Nat)
deriving DecidableEq, Repr, Inhabited

/-- A session record that has fallen due and waits for a staging entry (R384 to R390). -/
inductive TollRecord where
  | start | interim | suspended | resumed | ended
deriving DecidableEq, Repr, Inhabited

/-- The TOL page. Energies in mJ, residues in µW per output period. -/
structure Toll where
  session : Session := .none_
  /-- The Opening state comes from RESUME (R390). -/
  resuming : Bool := false
  stopInput : Bool := false
  stopStaging : Bool := false
  stop : Bool := false
  absent : Nat := 0
  tamper : Bool := false
  /-- The enclosure opened during the present session (R404): the status of its later records. -/
  sessionTamper : Bool := false
  /-- Session records that have fallen due, oldest first. -/
  due : List TollRecord := []
  /-- The suspended record waits for the verdict on K4 (R388). -/
  suspendDue : Bool := false
  paramBad : Bool := false
  refuse : Nat := 0
  pulseOvf : Bool := false
  owed : Nat := 0
  pulseRes : Nat := 0
  exp : Nat := 0
  imp : Nat := 0
  resExp : Nat := 0
  resImp : Nat := 0
  sexp : Nat := 0
  simp : Nat := 0
  sessionId : Nat := 0
  lastId : Nat := 0
  tagReg : Vector Word 6 := .replicate 6 0
  tag : Vector Word 6 := .replicate 6 0
  gainV : Word := 0
  ofsV : Word := 0
  gainI : Word := 0
  ofsI : Word := 0
  rcable : Word := 0
  pulse : Word := 0
  cfg : Word := 0x00000F
  swid : Word := 0
  digest : List Byte := []
  storedDigest : List Byte := []
  shasel : Word := 0
  audit : Nat := 0
  pdig : List Byte := []
  sealOpen : Bool := false
  enclOpen : Bool := false
  opened : Bool := false
  seal0 : Bool := false
  seal1 : Bool := false
  /-- The RTC times of the enclosure openings latched while PER was stopped, oldest first (R433, R551). -/
  openings : List Time := []
  /-- Unmeasured time of the session in 0.2 µs (R381), status marks since the last record (R409), record number (R410), time of the
  start record. -/
  unmeasured : Nat := 0
  marks : BitVec 10 := 0
  recordNo : Nat := 0
  startTime : Time := 0
  /-- Frames in a row with the output mean below 60 V (R333). -/
  outLow : Nat := 0
  /-- The session accumulators follow (R385). -/
  following : Bool := false
  /-- RTC time from which T_int counts, and the T_int in force in min (R386, R402). -/
  intFrom : Time := 0
  tInt : Nat := 15
deriving DecidableEq, Repr, Inhabited

/-! ### Ledger -/

/-- A frozen record: sequence number, body bytes 0 to 183 (R407, R417). -/
structure Frozen where
  seq : Nat
  body : List Byte
deriving DecidableEq, Repr, Inhabited

/-- A sealed record: bytes 0 to 251 (R407, R417). -/
structure Sealed where
  seq : Nat
  bytes : List Byte
deriving DecidableEq, Repr, Inhabited

/-- The LGR page. -/
structure Ledger where
  next : Nat := 0
  commit : Nat := 0
  ack : Nat := 0
  depotErr : Bool := false
  corrupt : Bool := false
  signing : List Frozen := []
  staging : List Sealed := []
  committing : Bool := false
  acksetHi : Word := 0
  acksetLo : Word := 0
  /-- An ACK whose effect waits for the end of a commit (R432). -/
  ackDue : Option Nat := none
  cfg : Word := 0x0000D8
  recovered : Nat := 0
  damaged : Nat := 0
  corruptCnt : Nat := 0
  bad : Word := 0
  certsel : Word := 0
  gen : Nat := 0
  /-- The next record carries the restart status (R415). -/
  restartDue : Bool := false
  /-- This muster has continued the numbers from CS1 (R415). -/
  restarted : Bool := false
  /-- The three points of R424 armed. -/
  armed : BitVec 3 := 0b111
  /-- Sequence numbers of the unacknowledged records judged damaged or corrupt (R428). -/
  judged : List Nat := []
  /-- The audit records that wait for a frame boundary or for an entry, oldest first: kind and the rest of the type area
  (R410, R417, R430, R433). -/
  waitingAudit : List (Nat × List Byte) := []
  cursor : Nat := 0
deriving DecidableEq, Repr, Inhabited

/-! ### CAN -/

/-- A frame of the transmit FIFO with its tag and failed attempts (R440, R442). -/
structure TxFrame where
  tag : Nat
  frame : CanFrame
  tries : Nat := 0
deriving DecidableEq, Repr, Inhabited

/-- The frames of R458 that the Golner sends: offset, PUBCFG enable bit and rolling counter share one number. -/
inductive OwnFrame where
  | limitsChg | limitsDis | status | stepReq | cellSum
deriving DecidableEq, Repr, Inhabited

/-- A frame in the priority buffer: which frame it is an instance of, and its failed attempts (R441). -/
structure OwnTx where
  kind : OwnFrame
  frame : CanFrame
  tries : Nat := 0
deriving DecidableEq, Repr, Inhabited

/-- Where the frame on the bus comes from (R438). -/
inductive TxSource where
  | priority (kind : OwnFrame) | timetable (j : Fin 32) | fifo
deriving DecidableEq, Repr, Inhabited

/-- The frame on the bus: its source, the frame, and a cancel that waits for the attempt's end (R443). -/
structure OnBus where
  source : TxSource
  frame : CanFrame
  /-- The outcome with which the frame leaves if the attempt fails: 2 or 3 (R443, R463). -/
  cancel : Option Nat := none
  /-- Failed attempts before this one. -/
  tries : Nat := 0
deriving DecidableEq, Repr, Inhabited

/-- One timetable entry: TTENT word, frame, due, failed attempts, a load that waits for the attempt's end (R446, R447).
A frame stands with whether it is the Golner's own CELL_SUM (R458). -/
structure TtEntry where
  ent : Word := 0
  frame : CanFrame := default
  due : Bool := false
  tries : Nat := 0
  own : Bool := false
  load : Option (CanFrame × Bool) := none
  /-- The entry fell due again during its attempt. -/
  again : Bool := false
deriving DecidableEq, Repr, Inhabited

/-- One CAN channel. -/
structure Can where
  cfg : Word
  nbt : Word := 0x09F0FF
  dbt : Word := 0x079DC0
  tdc : Word := 0x800020
  /-- 0 active, 1 passive, 2 bus-off. -/
  state : BitVec 2 := 0
  ovf : BitVec 5 := 0
  tec : Nat := 0
  rec_ : Nat := 0
  recovering : Bool := false
  cmdarg : Word := 0
  txid : Word := 0
  txinfo : Word := 0
  txdat : Vector Word 22 := .replicate 22 0
  lastTag : Nat := 0
  lastOut : Nat := 0
  fifo : List TxFrame := []
  nextTag : Nat := 0
  /-- The priority buffer, lowest identifier first (R441). -/
  prio : List OwnTx := []
  onBus : Option OnBus := none
  /-- Frames sent, newest first, as the last one only. -/
  lastSent : Option CanFrame := none
  txwm : Watermark := {}
  rxwm : Watermark := {}
  wmcfg : Word := 0x000C30
  rxsel : Word := 0x001000
  rxfifo : List CanFrame := []
  mbox : Vector (Option CanFrame) 16 := .replicate 16 none
  mbnew : BitVec 16 := 0
  mbsel : Word := 0
  mbid : Vector Word 16 := .replicate 16 0
  mbmask : Vector Word 16 := .replicate 16 0
  ttcfg : Word := 0x800064
  missed : Nat := 0
  ttsel : Word := 0
  tt : Vector TtEntry 32
  hcfg : Word
  pubcfg : Word
  retries : Nat := 0
  txfail : Nat := 0
  rxovr : Nat := 0
  mblost : Nat := 0
  hto : Nat := 0
  callsel : Word := 0
  call : Vector Word 6 := .replicate 6 0
  /-- HOST_ALIVE: the last byte 0 (R461), frames counted since a timeout, timeout in force. -/
  aliveLast : Option Byte := none
  aliveCount : Nat := 0
  timedOut : Bool := false
  /-- A counted HOST_ALIVE or a retried frame has succeeded in the present engine frame (R527). -/
  succeeded : Bool := false
  /-- Rolling counters of LIMITS_CHG, LIMITS_DIS, STATUS, STEP_REQ, CELL_SUM (R458). -/
  roll : Vector (BitVec 4) 5 := .replicate 5 0
  episode : Option Nat := none
  /-- Transmit requests of this channel alone are being shed (R523). -/
  shed : Bool := false
  /-- The notice of R525 for that shedding has been given. -/
  shedSaid : Bool := false
deriving DecidableEq, Repr, Inhabited

/-- The AO wake detector's copies (R457) and its error count (R456).
DESIGN CHOICE: notes/assumptions/4.md. -/
structure WakeDetector where
  call : Vector Word 6 := .replicate 6 0
  nbt : Word := 0
  errors : Nat := 0
deriving DecidableEq, Repr, Inhabited

/-! ### Host port, events -/

/-- A host access that has not completed (R85). -/
inductive Access where
  | read (addr : Addr) (inc : Bool := false)
  | write (addr : Addr) (data : Word) (inc : Bool := false)
  | command (reg : CmdReg) (tok code : Byte)
  | winRead (inc : Bool)
  | winWrite (inc : Bool) (data : Word)
deriving DecidableEq, Repr, Inhabited

/-- What a response waits for: nothing, the access that its frame made (R478: BUSY stays), or the result that its NOP
fetches. -/
inductive RespKind where
  | fixed | access | nop
deriving DecidableEq, Repr, Inhabited

/-- The response to the latest frame, as the next frame carries it (R474, R475). -/
structure Response where
  kind : RespKind := .fixed
  seq : BitVec 4 := 0
  err : BitVec 3 := 0
  busy : Bool := false
  abort : BitVec 2 := 0
  data : Word := 0
deriving DecidableEq, Repr, Inhabited

/-- The HST page, the windows and the frame state. -/
structure Hst where
  frame : BitVec 4 := 0
  resp : Response := {}
  access : Option Access := none
  /-- The access has been delivered to its domain (R87). -/
  delivered : Bool := false
  /-- Number, opcode and address of the frame that made the access, for HST_LASTERR (R478). -/
  accessFrame : BitVec 4 := 0
  /-- Error and data of the latest completed access, while fetchable (R478). -/
  fetch : Option (BitVec 3 × Word) := none
  lasterr : Word := 0
  errCrc : Nat := 0
  errOther : Nat := 0
  ovf : Word := 0
  cmdarg : Word := 0
  evqwm : Watermark := {}
  evqcfg : Word := 0x0000C0
  wmovf : Word := 0
  winSel : Word := 0
  winAddr : Word := 0
  /-- Captured multi-word values: lowest address and words (R6). -/
  captured : List (Addr × List Word) := []
  /-- CFG_INCONSISTENT per page (HST_CFGINC, R488) as last found. -/
  cfginc : BitVec 17 := 0
deriving DecidableEq, Repr, Inhabited

/-- A dispatch queue entry (R494) with the RTC at queuing for the log (R515). -/
structure Entry where
  src : Nat
  sub : Nat
  cls : Nat
  inst : Nat
  time : Time
  episode : Nat
  rep : Nat
  data : Word
deriving DecidableEq, Repr, Inhabited

/-- An entry of the log buffer: not placed in the dispatch queue (byte 22 bit 2), or a copy of a pinned entry with its
original number (R515, R516). -/
structure LogEntry where
  entry : Entry
  logOnly : Bool := false
deriving DecidableEq, Repr, Inhabited

/-- The EVT page, the dispatch queue and its shedding.
DESIGN CHOICE: notes/assumptions/19.md. -/
structure Evt where
  stat : BitVec 64 := 0
  mask : BitVec 64 := 0
  queue : List Entry := []
  logBuf : List LogEntry := []
  /-- The RTC second of the last log write, and the entries written in it (R518). -/
  logSec : Nat := 0
  logDone : Nat := 0
  shed : Nat := 0
  /-- The source 62 notice of the present stage has been given (R525). -/
  noticed : Bool := false
  /-- The last fault-episode ID given (R495). -/
  episode : Nat := 0
  /-- The level of IRQN at the last Watch entry, which it holds in Watch (R538). -/
  irqWatch : Bool := false
deriving DecidableEq, Repr, Inhabited

/-! ### Depot and lifetime records -/

/-- The classes of depot transactions, in the order of R507. -/
inductive DepotTx where
  | commit | header | shadow | window | log | lifetime
deriving DecidableEq, Repr, Inhabited

/-- A contactor block (R520): closings, openings, openings under load, break-current and I²t histograms. -/
structure KBlock where
  closings : Nat := 0
  openings : Nat := 0
  underLoad : Nat := 0
  brk : Vector Nat 10 := .replicate 10 0
  i2t : Vector Nat 8 := .replicate 8 0
deriving DecidableEq, Repr, Inhabited

/-- The counts that collect in the accumulation RAM and in the lifetime record (R519, R520). -/
structure LifeBlocks where
  k : Vector KBlock 4 := .replicate 4 {}
  /-- Pump: run hours, starts, tach losses, external revocations, PWM conflicts. -/
  pump : Vector Nat 5 := .replicate 5 0
  pack : Vector Nat 8 := .replicate 8 0
  temp : Vector Nat 8 := .replicate 8 0
deriving DecidableEq, Repr, Inhabited

/-- A record of the impedance history (R251). -/
structure HistoryRec where
  id : BitVec 64
  cells : Byte
  unchecked : Bool
  authenticated : Bool
  seen : Time
  authTime : Time
  certDigest : List Byte
  cell : List (Rat × Rat × Rat × Nat × Rat × Nat)
deriving DecidableEq, Repr, Inhabited

/-- What a flush in progress has not yet replaced in CS1, for a power-fail warning to keep (R510, R533). -/
structure FlushUndo where
  total : LifeBlocks
  inc : LifeBlocks
  lines : BitVec 64
  gen : Nat
  copy : Bool
  history : List HistoryRec
  histGen : Nat
  histCopy : Bool
deriving DecidableEq, Repr, Inhabited

/-- The LIF page and the lifetime counts. -/
structure Lif where
  age : Nat := 0
  copy : Bool := false
  sat : Word := 0
  cmdarg : Word := 0
  gen : Nat := 0
  /-- The 22 device counters of R520, in its order, in the always-on domain. -/
  device : Vector Nat 22 := .replicate 22 0
  /-- Increments in the accumulation RAM, and the counts of the lifetime record. -/
  inc : LifeBlocks := {}
  total : LifeBlocks := {}
  /-- Lines of the accumulation RAM that hold increments (queue 7), one mark per line. -/
  lines : BitVec 64 := 0
  /-- Frames within the present minute and minutes within the present hour of Run; frames of the pump's present run hour. -/
  frames : Nat := 0
  minutes : Nat := 0
  pumpFrames : Nat := 0
  due : Bool := false
  /-- Seconds of the present hour of Watch (R520). -/
  watchSec : Nat := 0
  /-- What a flush in progress replaces (R533). -/
  undo : Option FlushUndo := none
  /-- The carried count of the counter increments from PER into the always-on domain (R72, R80). -/
  count : Carried := {}
deriving DecidableEq, Repr, Inhabited

/-- The DEP page and the two memories. -/
structure Dep where
  cs0Ok : Bool := false
  cs1Ok : Bool := false
  quad : Bool := false
  pinOvf : Bool := false
  logBad : Bool := false
  flushing : Bool := false
  cfg : Word := 0x000004
  id0 : Word := 0
  id1 : Word := 0
  argHi : Word := 0
  argLo : Word := 0
  logSeq : Nat := 0
  unpin : Nat := 0
  /-- Sequence numbers of the pinned entries, oldest first (R516, R517). -/
  pinned : List Nat := []
  /-- Log sectors out of use until the next power cycle (R534). -/
  badSectors : List Nat := []
  coalesced : Nat := 0
  diag : Nat := 0
  txref : Nat := 0
  hostq : Nat := 0
  err0 : Nat := 0
  err1 : Nat := 0
  ovf : Word := 0
  tagwm : Watermark := {}
  stgwm : Watermark := {}
  histwm : Watermark := {}
  wmcfg : Word := 0x1C0630
  /-- The transaction in progress and those that wait (R507). -/
  busy : Option DepotTx := none
  waiting : List DepotTx := []
  cs0 : Mem := []
  cs1 : Mem := []
  energy : Copies EnergyShadow := {}
  coul : Copies Int := {}
  pack : Copies (Nat × Time) := {}
  soc : Copies (List (Rat × Rat)) := {}
  counters : Copies (Vector Nat 22 × LifeBlocks) := {}
  history : List HistoryRec := []
  /-- Generation of the newest copy of the impedance history in CS1, and which copy that is (R509, R510). -/
  histGen : Nat := 0
  histCopy : Bool := false
  /-- The event log state, head sequence number and unpin mark, and the rest-time stamp, as CS0 holds them (R508). -/
  logState : Copies (Nat × Nat) := {}
  rest : Copies (Option Time) := {}
  /-- The writes that wait for the depot, oldest first (R419, R507). -/
  jobs : List DepotJob := []
  /-- Bit n for CSn: its SFDP tables list deep power-down; it has been sent 0xB9 and not 0xAB since (R542). -/
  deepOk : BitVec 2 := 0
  deepDown : BitVec 2 := 0
  /-- The settings in force on the depot: a write to DEP_CFG takes effect between transactions (R529). -/
  inForce : Word := 0x000004
  /-- The carried count of the completions, and the results of those that PER has not consumed (R72, R80 to R82). -/
  doneCount : Carried := {}
  heldEnds : List Bool := []
deriving DecidableEq, Repr, Inhabited

/-! ### The device and the state -/

/-- The reset values of a CAN channel (R577 and the register table). -/
def canReset : Ch → Can
  | .can0 =>
    { cfg := 0xF80003, hcfg := 0x800032, pubcfg := 0x3F00A0,
      tt := (Vector.replicate 32 {}).set 0 { ent := 0x80FF32 } }
  | .can1 => { cfg := 0x980003, hcfg := 0x000032, pubcfg := 0x0000A0, tt := .replicate 32 {} }

/-- Everything but the queue of waiting commands.
DESIGN CHOICE: notes/assumptions/4.md. -/
structure Dev where
  cmds : Cmds := {}
  sup : Sup := {}
  sys : Sys := {}
  mode : ModeBlock := {}
  seq : Seq := {}
  coil : Vector Coil 4 := .replicate 4 {}
  eng : Eng := {}
  insp : Insp := {}
  chn : Chn := {}
  sen : Sen := {}
  est : Est := {}
  lim : Lim := {}
  pwr : Pwr := {}
  saf : Saf := {}
  tol : Toll := {}
  lgr : Ledger := {}
  can0 : Can := canReset .can0
  can1 : Can := canReset .can1
  wakeDet : WakeDetector := {}
  inh : Bool := false
  hst : Hst := {}
  evt : Evt := {}
  dep : Dep := {}
  lif : Lif := {}
  /-- The manifest in use, `none` before step 7 has loaded one. -/
  man : Option Manifest := none
  /-- The number of the next free value (the model's own; no statement rests on it). -/
  free : Nat := 0
deriving DecidableEq, Repr, Inhabited

/-- The machine: the device and the commands that wait, first in first out. -/
structure State where
  dev : Dev
  pending : List Instr
deriving DecidableEq, Repr, Inhabited

/-- The block has no fault that stops it: every reaction the spec gives is an effect on the state, so no command
raises one. -/
inductive Fault where
deriving DecidableEq, Repr

/-- Why the model gives a command no meaning. -/
inductive Refusal where
  /-- Raised by the arm of a command that has no meaning yet; safe. -/
  | notModelled (mnemonic : String)
deriving DecidableEq, Repr

/-- The machine right after reset, before muster has loaded anything (R570); no command waits.
DESIGN CHOICE: notes/assumptions/2.md, DESIGN CHOICE: notes/assumptions/3.md, DESIGN CHOICE: notes/assumptions/4.md. -/
def State.reset : State := { dev := {}, pending := [] }

end Sys2Proof.Machine
end

