-- ==== Sys2Proof/Machine/Operands.lean ====
section
/-! DEFINITION. The operand forms of the block: fields of a register word, bytes of frames and records, check values
and the SHA-256 digest. -/
namespace Sys2Proof.Machine

/-! ### Fields of a word -/

/-- A word from a count. -/
def word (n : Nat) : Word := BitVec.ofNat 24 n

/-- Bit `n` of a word. -/
def bit (w : Word) (n : Nat) : Bool := w.getLsbD n

/-- The field of `len` bits whose lowest bit is `lo`. -/
def field (w : Word) (lo len : Nat) : Nat := (w.toNat >>> lo) % 2 ^ len

/-- A value placed at bit `lo`. -/
def place (v lo : Nat) : Nat := v * 2 ^ lo

/-- A flag placed at bit `n`. -/
def flag (b : Bool) (n : Nat) : Nat := if b then 2 ^ n else 0

/-- A two's complement field of `len` bits (R4). -/
def signedField (w : Word) (lo len : Nat) : Int :=
  let v := field w lo len
  if v < 2 ^ (len - 1) then v else (v : Int) - 2 ^ len

/-- A signed value as a field of `len` bits (R4). -/
def ofSigned (len : Nat) (i : Int) : Nat := (i % (2 ^ len : Int)).toNat

/-- A value limited to a range. -/
def clampInt (lo hi i : Int) : Int := if i < lo then lo else if hi < i then hi else i

/-- A rational limited to a range. -/
def clampRat (lo hi r : Rat) : Rat := if r < lo then lo else if hi < r then hi else r

/-- An unsigned field that holds at most `max`. -/
def clampNat (max n : Nat) : Nat := if n ≤ max then n else max

/-- The nearest integer, ties away from zero (R207). -/
def roundAway (r : Rat) : Int :=
  if 0 ≤ r then (r + 1 / 2).floor else -((-r + 1 / 2).floor)

/-- One of the two whole numbers next to a quantity, where the spec states no rounding.
DESIGN CHOICE: notes/assumptions/25.md. -/
def upOrDown (r : Rat) : Int := if Config.roundsUp r then r.ceil else r.floor

/-- The nearest integer, where the spec names no rule for a tie: there the result is free.
DESIGN CHOICE: notes/assumptions/25.md. -/
def roundNearest (r : Rat) : Int := if r - (r.floor : Rat) = 1 / 2 then upOrDown r else roundAway r

/-- A quantity in units of its register: exact where it is a whole number; elsewhere the spec states no rounding, and
which of the two neighbours results is free.
DESIGN CHOICE: notes/assumptions/25.md. -/
def quantise (r : Rat) : Int := if r.den = 1 then r.num else upOrDown r

/-- The magnitude of a rational. -/
def absRat (r : Rat) : Rat := if r < 0 then -r else r

/-- A count of sub-units, never negative. -/
def natOf (i : Int) : Nat := i.toNat

/-- An increment that saturates (R528).
DEDUCED: notes/assumptions/18.md. -/
def satInc (max n : Nat) : Nat := if n < max then n + 1 else max

/-- An addition that saturates (R528). -/
def satAdd (max n k : Nat) : Nat := if n + k < max then n + k else max

/-- A saturating increment together with whether the counter has now saturated.
DEDUCED: notes/assumptions/18.md. -/
def satIncFlag (max n : Nat) : Nat × Bool := (satInc max n, decide (max ≤ n + 1))

/-- The flags of `old` with `bits` set where `b` holds. -/
def setFlag (old : Word) (n : Nat) (b : Bool) : Word := if b then old ||| BitVec.ofNat 24 (2 ^ n) else old

/-- Which items of the snapshot keep their last agreed value in this frame, by register address (R114). -/
abbrev Kept := Nat → Bool

/-! ### Bytes -/

/-- The `k` big-endian bytes of a value (R7). -/
def be : Nat → Nat → List Byte
  | 0, _ => []
  | k + 1, v => be k (v / 256) ++ [BitVec.ofNat 8 v]

/-- The value of big-endian bytes. -/
def ofBe (bs : List Byte) : Nat := bs.foldl (fun a b => a * 256 + b.toNat) 0

/-- The `k` little-endian bytes of a value (R7, CAN signals). -/
def le : Nat → Nat → List Byte
  | 0, _ => []
  | k + 1, v => BitVec.ofNat 8 v :: le k (v / 256)

/-- `k` zero bytes. -/
def zeros (k : Nat) : List Byte := List.replicate k 0

/-- Bytes `lo` to `lo + len - 1`. -/
def slice (lo len : Nat) (bs : List Byte) : List Byte := (bs.drop lo).take len

/-- Exactly `k` bytes: cut, or filled with zeros. -/
def fit (k : Nat) (bs : List Byte) : List Byte := (bs ++ zeros (k - bs.length)).take k

/-- Word `w` of a byte structure: bytes 3w to 3w + 2, unused trailing bytes 0 (R485). -/
def wordOf (bs : List Byte) (w : Nat) : Word := word (ofBe (fit 3 (slice (3 * w) 3 bs)))

/-! ### Check values -/

/-- One step of an MSB-first CRC of `w` bits. -/
def crcBit {w : Nat} (poly reg : BitVec w) : BitVec w :=
  if reg.msb then (reg <<< 1) ^^^ poly else reg <<< 1

/-- One byte into an MSB-first CRC. -/
def crcByte {w : Nat} (poly reg : BitVec w) (b : Byte) : BitVec w :=
  Nat.repeat (crcBit poly) 8 (reg ^^^ (b.setWidth w <<< (w - 8)))

/-- The CRC-8 of the host frames: polynomial 0x2F, initial 0xFF, final XOR 0xFF (R471). -/
def crc8 (bs : List Byte) : Byte := bs.foldl (crcByte 0x2F) 0xFF ^^^ 0xFF

/-- The CRC-16 of the chain and the log: polynomial 0x1021, initial 0xFFFF (R165). -/
def crc16 (bs : List Byte) : BitVec 16 := bs.foldl (crcByte 0x1021) 0xFFFF

/-- One byte into a reflected CRC-32. -/
def crc32Byte (reg : BitVec 32) (b : Byte) : BitVec 32 :=
  Nat.repeat (fun r => if r.getLsbD 0 then (r >>> 1) ^^^ 0xEDB88320 else r >>> 1) 8 (reg ^^^ b.setWidth 32)

/-- The CRC-32 of the ledger and the depot areas (R412). -/
def crc32 (bs : List Byte) : BitVec 32 := bs.foldl crc32Byte 0xFFFFFFFF ^^^ 0xFFFFFFFF

/-! ### SHA-256 (R411) -/

/-- The greatest number that fits in what `n` bits add to `r` and whose `k`-th power is at most `x`. -/
def rootFrom (k x : Nat) : Nat → Nat → Nat
  | 0, r => r
  | n + 1, r => rootFrom k x n (if (r + 2 ^ n) ^ k ≤ x then r + 2 ^ n else r)

/-- The first 32 bits of the fractional part of the `k`-th root of a number below 2^9. -/
def rootBits (k p : Nat) : BitVec 32 := BitVec.ofNat 32 (rootFrom k (p * 2 ^ (32 * k)) 38 0)

/-- The primes up to 311, of which there are 64. -/
def primes : List Nat :=
  (List.range 312).filter fun p => decide (2 ≤ p) && (List.range 18).all fun q => decide (q < 2 ∨ q = p ∨ p % q ≠ 0)

/-- The constants of the rounds, of the cube roots of the first 64 primes. -/
def shaK : List (BitVec 32) := primes.map (rootBits 3)

/-- The eight working words of SHA-256. -/
structure ShaRegs where
  a : BitVec 32
  b : BitVec 32
  c : BitVec 32
  d : BitVec 32
  e : BitVec 32
  f : BitVec 32
  g : BitVec 32
  h : BitVec 32
deriving DecidableEq, Repr

/-- The hash value before the first block, of the square roots of the first eight primes. -/
def shaInit : ShaRegs :=
  let r (i : Nat) : BitVec 32 := rootBits 2 (primes.getD i 0)
  ⟨r 0, r 1, r 2, r 3, r 4, r 5, r 6, r 7⟩

/-- One round with constant `k` and schedule word `w`. -/
def shaRound (s : ShaRegs) (k w : BitVec 32) : ShaRegs :=
  let s1 := s.e.rotateRight 6 ^^^ s.e.rotateRight 11 ^^^ s.e.rotateRight 25
  let ch := (s.e &&& s.f) ^^^ (~~~s.e &&& s.g)
  let t1 := s.h + s1 + ch + k + w
  let s0 := s.a.rotateRight 2 ^^^ s.a.rotateRight 13 ^^^ s.a.rotateRight 22
  let maj := (s.a &&& s.b) ^^^ (s.a &&& s.c) ^^^ (s.b &&& s.c)
  ⟨t1 + (s0 + maj), s.a, s.b, s.c, s.d + t1, s.e, s.f, s.g⟩

/-- The next word of the schedule, whose words so far stand newest first. -/
def shaNext (ws : List (BitVec 32)) : BitVec 32 :=
  let at' (n : Nat) : BitVec 32 := ws.getD (n - 1) 0
  let s0 := (at' 15).rotateRight 7 ^^^ (at' 15).rotateRight 18 ^^^ (at' 15 >>> 3)
  let s1 := (at' 2).rotateRight 17 ^^^ (at' 2).rotateRight 19 ^^^ (at' 2 >>> 10)
  at' 16 + s0 + at' 7 + s1

/-- The 64 words of the schedule, oldest first. -/
def shaSchedule (block : List Byte) : List (BitVec 32) :=
  let first := (List.range 16).map fun i => BitVec.ofNat 32 (ofBe (slice (4 * i) 4 block))
  (Nat.repeat (fun ws => shaNext ws :: ws) 48 first.reverse).reverse

/-- One block of 64 bytes into the hash. -/
def shaBlock (s : ShaRegs) (block : List Byte) : ShaRegs :=
  let t := (shaK.zip (shaSchedule block)).foldl (fun r kw => shaRound r kw.1 kw.2) s
  ⟨s.a + t.a, s.b + t.b, s.c + t.c, s.d + t.d, s.e + t.e, s.f + t.f, s.g + t.g, s.h + t.h⟩

/-- All blocks of a padded message; `n` bounds their number. -/
def shaBlocks : Nat → ShaRegs → List Byte → ShaRegs
  | 0, s, _ => s
  | n + 1, s, bs => shaBlocks n (shaBlock s (bs.take 64)) (bs.drop 64)

/-- The SHA-256 digest, 32 bytes (R411). -/
def sha256 (msg : List Byte) : List Byte :=
  let padded := msg ++ [0x80] ++ zeros ((119 - msg.length % 64) % 64) ++ be 8 (8 * msg.length)
  let s := shaBlocks (padded.length / 64) shaInit padded
  [s.a, s.b, s.c, s.d, s.e, s.f, s.g, s.h].flatMap fun w => be 4 w.toNat

end Sys2Proof.Machine
end

