-- ==== Sys2Proof/Machine/Reals.lean ====
section
/-! DEFINITION. The exponential function, the natural logarithm and the square root of the formulas of chapters 07 to 11
(R218, R227, R235, R262, R331), to 2⁻¹²⁸; and a table without a rule of interpolation. -/
namespace Sys2Proof.Machine

/-- A quantity cut to 128 places after the point. -/
def cut (x : Rat) : Rat := ((x * 2 ^ 128).floor : Rat) / 2 ^ 128

/-- The exponential function on 0 to 1 by its series, in the form of Horner: 1 + x · (1 + x/2 · (1 + x/3 · …)).
DESIGN CHOICE: notes/assumptions/42.md. -/
def expSeries (x : Rat) : Rat := (List.range 36).foldr (fun i a => cut (1 + x * a / (i + 1 : Nat))) 1

/-- The `n`-th power of a number, cut after every factor. -/
def cutPow (b : Rat) (n : Nat) : Rat := Nat.repeat (fun a => cut (a * b)) n 1

/-- The exponential function: the whole part of the argument as a power of e or of 1/e, and the rest by the series. Below −89
it is less than 2⁻¹²⁸.
DESIGN CHOICE: notes/assumptions/42.md. -/
def expOf (x : Rat) : Rat :=
  let n := x.floor
  let rest := expSeries (x - n)
  if n < -89 then 0
  else if n < 0 then cut (cutPow (1 / expSeries 1) n.natAbs * rest)
  else cutPow (expSeries 1) n.natAbs * rest

/-- ln ((1 + z) / (1 − z)) by its series, for |z| of at most 1/3. -/
def lnSeries (z : Rat) : Rat := 2 * z * (List.range 42).foldr (fun i a => cut (1 / (2 * i + 1 : Nat) + z * z * a)) 0

/-- The natural logarithm of a positive number: its power of two, and the rest by the series. At 0 and below the formulas
give nothing, and the result is free.
DESIGN CHOICE: notes/assumptions/42.md. -/
def lnOf (x : Rat) : Rat :=
  if x ≤ 0 then Config.outside x
  else
    let k : Int := (x.num.natAbs.log2 : Int) - x.den.log2
    let y := if k < 0 then x * 2 ^ k.natAbs else x / 2 ^ k.natAbs
    k * lnSeries (1 / 3) + lnSeries (cut ((y - 1) / (y + 1)))

/-- The whole square root. -/
def rootOf (n : Nat) : Nat := rootFrom 2 n (n.log2 / 2 + 1) 0

/-- The square root: exact where it is a fraction. Below 0 the formulas give nothing, and the result is free.
DESIGN CHOICE: notes/assumptions/42.md. -/
def sqrtOf (x : Rat) : Rat :=
  if x < 0 then Config.outside x
  else
    let a := rootOf x.num.natAbs
    let b := rootOf x.den
    if a * a = x.num.natAbs ∧ b * b = x.den then (a : Rat) / b
    else (rootOf (x * 2 ^ 256).floor.natAbs : Rat) / 2 ^ 128

/-- A table read at a value: its own value at a point, free between and beyond its points, for which the spec states no rule
(R263, R296).
DESIGN CHOICE: notes/assumptions/42.md. -/
def tableAt (pts : List (Rat × Rat)) (x : Rat) : Rat :=
  match pts.find? fun p => p.1 = x with
  | some p => p.2
  | none => Config.lookup pts x

end Sys2Proof.Machine
end

