-- ==== Sys2Proof/Machine/Curve.lean ====
section
/-! DEFINITION. ECDSA over NIST P-256 (R141, R142, R247, R411, R413): the group of the curve, signing and verification, and
the keys that the part holds. -/
namespace Sys2Proof.Machine

/-- The prime of the field, the coefficient b (a is −3), and the order of the group. -/
def p256P : Nat := 0xFFFFFFFF00000001000000000000000000000000FFFFFFFFFFFFFFFFFFFFFFFF
def p256B : Nat := 0x5AC635D8AA3A93E7B3EBBD55769886BC651D06B0CC53B0F63BCE3C3E27D2604B
def p256N : Nat := 0xFFFFFFFF00000000FFFFFFFFFFFFFFFFBCE6FAADA7179E84F3B9CAC2FC632551

/-- A point of the curve; `none` is the point at infinity. -/
abbrev Point := Option (Nat × Nat)

/-- The base point. -/
def p256G : Point := some (
  0x6B17D1F2E12C4247F8BCE6E563A440F277037D812DEB33A0F4A13945D898C296,
  0x4FE342E2FE1A7F9B8EE7EB4A7C0F9E162BCE33576B315ECECBB6406837BF51F5)

/-- A power modulo `m`, with an exponent of `bits` bits: its bits from the highest to the lowest. -/
def powMod (m x e : Nat) : Nat → Nat → Nat
  | 0, acc => acc
  | n + 1, acc => powMod m x e n (if e.testBit n then acc * acc % m * x % m else acc * acc % m)

/-- The inverse modulo a prime. -/
def invMod (m x : Nat) : Nat := powMod m (x % m) (m - 2) 256 1

/-- A difference modulo the field's prime. -/
def subMod (a b : Nat) : Nat := (a + p256P - b % p256P) % p256P

/-- The third point on the line of slope `k` through two points, reflected. -/
def chord (k : Nat) (a b : Nat × Nat) : Nat × Nat :=
  let x := subMod (subMod (k * k) a.1) b.1
  (x, subMod (k * subMod a.1 x) a.2)

/-- The sum of two points. -/
def addPoint : Point → Point → Point
  | none, q => q
  | p, none => p
  | some a, some b =>
    if a.1 = b.1 then
      if (a.2 + b.2) % p256P = 0 then none
      else some (chord (subMod (3 * a.1 * a.1) 3 * invMod p256P (2 * a.2) % p256P) a a)
    else some (chord (subMod b.2 a.2 * invMod p256P (subMod b.1 a.1) % p256P) a b)

/-- A multiple of a point, from the highest bit of the factor to the lowest. -/
def mulPoint (k : Nat) (p : Point) : Point :=
  (List.range 256).foldr (fun i acc =>
    let twice := addPoint acc acc
    if k.testBit i then addPoint twice p else twice) none

/-- The bytes X‖Y of a public key. -/
def keyBytes : Point → List Byte
  | some a => be 32 a.1 ++ be 32 a.2
  | none => zeros 64

/-- The point of a public key X‖Y, where it is one of the curve. -/
def keyPoint (key : List Byte) : Point :=
  let x := ofBe (slice 0 32 key)
  let y := ofBe (slice 32 32 key)
  if key.length = 64 ∧ x < p256P ∧ y < p256P ∧ y * y % p256P = (x * x * x + p256B + (p256P - 3) * x) % p256P then
    some (x, y)
  else none

/-- The x coordinate of a point modulo the order of the group; 0 at infinity. -/
def xMod (p : Point) : Nat := match p with | some a => a.1 % p256N | none => 0

/-- The public key of a secret key. -/
def publicKey (secret : Nat) : List Byte := keyBytes (mulPoint secret p256G)

/-- The signature r‖s of a digest with a secret key and a nonce (R411). -/
def ecdsaSign (secret nonce : Nat) (digest : List Byte) : List Byte :=
  let r := xMod (mulPoint nonce p256G)
  be 32 r ++ be 32 (invMod p256N nonce * (ofBe digest + r * secret) % p256N)

/-- Verification of a signature r‖s: key X‖Y, digest, signature (R141, R142, R247, R411). -/
def ecdsaVerify (key digest sig : List Byte) : Bool :=
  let r := ofBe (slice 0 32 sig)
  let s := ofBe (slice 32 32 sig)
  let w := invMod p256N s
  let q := keyPoint key
  let p := addPoint (mulPoint (ofBe digest * w % p256N) p256G) (mulPoint (r * w % p256N) q)
  q.isSome && decide (0 < r ∧ r < p256N ∧ 0 < s ∧ s < p256N) && p.isSome && decide (xMod p = r)

/-! ### The device's own keys -/

/-- The device public key (R411, R413). -/
def deviceKey : List Byte := publicKey Config.deviceSecret

/-- The signature of a record's digest with the device key (R411); `seq` is the record's number. -/
def deviceSign (seq : Nat) (digest : List Byte) : List Byte :=
  ecdsaSign Config.deviceSecret (Config.signNonce seq digest) digest

/-- The device certificate (R413): Yilastey's signature is over its first 76 bytes. -/
def certBytes : List Byte :=
  let b := be 8 Config.serial.toNat ++ be 2 0x8640 ++ be 1 1 ++ be 1 1 ++ deviceKey
  b ++ ecdsaSign Config.yilasteySecret (Config.signNonce 0 b) (sha256 b) ++ zeros 4

end Sys2Proof.Machine
end

