-- ==== Sys2Proof/Machine/Ops.lean ====
section
/-! DEFINITION. The named operations over the state: addressed memory, the command queue's shell, the copies of a
two-copy area, and what several families ask of the state. -/
namespace Sys2Proof.Machine

/-! ### Addressed memory -/

/-- The byte at an address; an unlisted address reads as `dflt`. -/
def Mem.read (dflt : Byte) : Mem → Nat → Byte
  | [], _ => dflt
  | (a, b) :: m, k => if a = k then b else Mem.read dflt m k

/-- The memory with one byte written, in the canonical form. -/
def Mem.write (dflt : Byte) : Mem → Nat → Byte → Mem
  | [], k, v => if v = dflt then [] else [(k, v)]
  | (a, b) :: m, k, v =>
    if k < a then (if v = dflt then (a, b) :: m else (k, v) :: (a, b) :: m)
    else if k = a then (if v = dflt then m else (k, v) :: m)
    else (a, b) :: Mem.write dflt m k v

/-- Every address of the memory is above `lo`. -/
def Mem.above (lo : Nat) (m : Mem) : Bool := m.all fun c => decide (lo < c.1)

/-- The canonical form: addresses strictly rising, no cell that equals what an unlisted address reads as. -/
def Mem.wf (dflt : Byte) : Mem → Bool
  | [] => true
  | (a, b) :: m => decide (b ≠ dflt) && Mem.above a m && Mem.wf dflt m

/-- `n` bytes from an address on. -/
def Mem.readBytes (dflt : Byte) (m : Mem) (a n : Nat) : List Byte :=
  (List.range n).map fun i => Mem.read dflt m (a + i)

/-- The memory with bytes written from an address on. -/
def Mem.writeBytes (dflt : Byte) (m : Mem) (a : Nat) : List Byte → Mem
  | [] => m
  | b :: bs => Mem.writeBytes dflt (Mem.write dflt m a b) (a + 1) bs

/-- The memory with `n` bytes from `a` on erased to what an unlisted address reads as. -/
def Mem.erase (m : Mem) (a n : Nat) : Mem := m.filter fun c => decide (c.1 < a ∨ a + n ≤ c.1)

/-- What a CS0 byte that nothing has written reads as (notes/assumptions/3.md).
DESIGN CHOICE: notes/assumptions/3.md. -/
def cs0Default : Byte := 0x00

/-- What an erased CS1 byte reads as (notes/assumptions/3.md).
DESIGN CHOICE: notes/assumptions/3.md. -/
def cs1Default : Byte := 0xFF

/-- Bytes of CS0. -/
def Dev.cs0 (d : Dev) (a n : Nat) : List Byte := Mem.readBytes cs0Default d.dep.cs0 a n

/-- Bytes of CS1. -/
def Dev.cs1 (d : Dev) (a n : Nat) : List Byte := Mem.readBytes cs1Default d.dep.cs1 a n

/-- CS0 with bytes written. -/
def Dev.setCs0 (d : Dev) (a : Nat) (bs : List Byte) : Dev :=
  { d with dep := { d.dep with cs0 := Mem.writeBytes cs0Default d.dep.cs0 a bs } }

/-- CS1 with bytes written (programmed after an erase). -/
def Dev.setCs1 (d : Dev) (a : Nat) (bs : List Byte) : Dev :=
  { d with dep := { d.dep with cs1 := Mem.writeBytes cs1Default d.dep.cs1 a bs } }

/-- CS1 with `n` bytes erased. -/
def Dev.eraseCs1 (d : Dev) (a n : Nat) : Dev := { d with dep := { d.dep with cs1 := Mem.erase d.dep.cs1 a n } }

/-! ### Two-copy areas (R510) -/

/-- The valid copy with the higher generation. -/
def Copies.newest {α : Type} (c : Copies α) : Option (Nat × α) :=
  match c.copy0, c.copy1 with
  | none, b => b
  | a, none => a
  | some a, some b => if b.1 ≤ a.1 then some a else some b

/-- A write raises the generation by 1 and goes to the copy with the older generation. -/
def Copies.put {α : Type} (c : Copies α) (v : α) : Copies α :=
  let gen := match c.newest with | some (g, _) => g + 1 | none => 1
  match c.copy0, c.copy1 with
  | none, _ => { c with copy0 := some (gen, v) }
  | some _, none => { c with copy1 := some (gen, v) }
  | some a, some b => if a.1 ≤ b.1 then { c with copy0 := some (gen, v) } else { c with copy1 := some (gen, v) }

/-- The payload in use. -/
def Copies.value {α : Type} (c : Copies α) : Option α := c.newest.map (·.2)

/-! ### The shell of a command -/

/-- A command whose whole effect is an effect on the device: it always answers a next state, and the queue stays as
it is.
DESIGN CHOICE: notes/assumptions/1.md. -/
def State.effect (s : State) (f : Dev → Dev) : Host.Outcome State Fault Refusal := .next { s with dev := f s.dev }

/-- The device with a free value's number used up.
DESIGN CHOICE: notes/assumptions/5.md. -/
def Dev.tick (d : Dev) : Dev := { d with free := d.free + 1 }

/-! ### Vectors -/

/-- Element `i` replaced. -/
def upd {α : Type} {n : Nat} (v : Vector α n) (i : Fin n) (a : α) : Vector α n := v.set i a

/-- Element `i` changed by a function. -/
def modify {α : Type} {n : Nat} (v : Vector α n) (i : Fin n) (f : α → α) : Vector α n := v.set i (f (v.get i))

/-! ### Modes (R10 to R14) -/

/-- The run states of R12. -/
inductive RunState where
  | normal | bench | lockout
deriving DecidableEq, Repr, Inhabited

/-- The run state: Lockout exactly while the drover is in LOCKOUT (R13). -/
def Dev.runState (d : Dev) : RunState :=
  if d.seq.drover = .lockout then .lockout else if d.mode.bench then .bench else .normal

/-- MODE_STAT.RUNSTATE. -/
def RunState.code : RunState → Nat
  | .normal => 0 | .bench => 1 | .lockout => 2

/-- MODE_STAT.MODE. -/
def Mode.code : Mode → Nat
  | .muster => 0 | .watch => 1 | .run => 2

/-- SEQ_STAT.DROVER. -/
def Drover.code : Drover → Nat
  | .openS => 0 | .precharge => 1 | .closed => 2 | .output => 3 | .hold => 4 | .breaking => 5 | .lockout => 6

/-- The device is powered and not held in reset, so that it answers at all (R40, R502). -/
def Dev.alive (d : Dev) : Bool := d.sup.powered && !d.sup.inReset

/-- The mode is Run. -/
def Dev.inRun (d : Dev) : Bool := d.mode.mode = .run

/-- Muster is stopped under R138. -/
def Dev.stopped (d : Dev) : Bool := d.mode.mode = .muster && d.sys.mstate = 0b01

end Sys2Proof.Machine
end

