-- ==== Sys2Proof/Machine/Flags.lean ====
section
/-! DEFINITION. The flag computations: event bits and IRQN, the dispatch queue with its watermark and shedding,
episode numbers, the effective class of a fault, and the conditions computed from the state. -/
namespace Sys2Proof.Machine

/-! ### Watermarks (R497) -/

/-- What a rise of a queue's level to `level` from `before` does to its watermark: the new fields, whether it is a
crossing, and whether COUNT has saturated. -/
def Watermark.rise (w : Watermark) (high before level : Nat) : Watermark × Bool × Bool :=
  let peak := max w.peak level
  if before < high ∧ high ≤ level then
    ({ latched := true, count := satInc 255 w.count, peak := peak }, true, decide (255 ≤ w.count + 1))
  else ({ w with peak := peak }, false, false)

/-- A write of 1 to LATCHED (R498). -/
def Watermark.clear (level : Nat) : Watermark := { latched := false, count := 0, peak := level }

/-- The register form of a watermark: COUNT, LIVE, LATCHED, PEAK. -/
def Watermark.reg (w : Watermark) (high level : Nat) : Word :=
  word (place w.count 16 + flag (decide (high ≤ level)) 15 + flag w.latched 14 + w.peak % 512)

/-! ### The dispatch queue -/

/-- HST_EVQCFG.HIGH. -/
def Dev.evqHigh (d : Dev) : Nat := field d.hst.evqcfg 0 9

/-- HST_EVQ.LEVEL. -/
def Dev.evqLevel (d : Dev) : Nat := d.evt.queue.length

/-- The shedding stage at a level, from the stage before (R523).
DEDUCED: notes/assumptions/61.md. -/
def shedStage (high level stage : Nat) : Nat :=
  let e2 := high + (256 - high) / 2
  let e3 := 256 - (256 - high) / 4
  if e3 ≤ level ∨ (stage = 3 ∧ e2 ≤ level) then 3
  else if e2 ≤ level ∨ (2 ≤ stage ∧ high ≤ level) then 2
  else if high ≤ level ∨ (1 ≤ stage ∧ high - 16 ≤ level) then 1
  else 0

/-- The stage brought up to the present level; an entry into a higher stage re-arms its notice (R525). -/
def Dev.restage (d : Dev) : Dev :=
  let s := shedStage d.evqHigh d.evqLevel d.evt.shed
  { d with evt := { d.evt with shed := s, noticed := d.evt.noticed && decide (s ≤ d.evt.shed) } }

/-- Whether an entry may be shed (R524). -/
def Entry.sheddable (e : Entry) : Bool :=
  decide (e.cls ≤ 1) && !(e.src = 2 || e.src = 5 || (44 ≤ e.src && e.src ≤ 55) || e.src = 62 || e.src = 63)

/-- Whether an entry may be pinned (R516). -/
def Entry.pinEligible (e : Entry) : Bool := (3 ≤ e.cls && e.cls ≤ 5) || (44 ≤ e.src && e.src ≤ 55)

/-- Whether `e` merges into `q` (R523, stage 1). -/
def Entry.sameAs (e q : Entry) : Bool :=
  q.src = e.src && q.sub = e.sub && q.inst = e.inst && q.episode = e.episode

/-- The queue with the newest entry of the source of `e` counting one more occurrence, where that entry is the same
event; `none` where it is not.
DESIGN CHOICE: notes/assumptions/19.md. -/
def coalesce (e : Entry) (q : List Entry) : Option (List Entry) :=
  let rec go : List Entry → Option (List Entry)
    | [] => none
    | x :: xs =>
      if x.src = e.src then
        if e.sameAs x then some ({ x with rep := satInc 4095 x.rep } :: xs) else none
      else (go xs).map (x :: ·)
  (go q.reverse).map List.reverse

/-- One count of DEP_SHED0 or DEP_SHED1 with its overflow bit. -/
def Dev.countShed (d : Dev) (which : Fin 4) : Dev :=
  let dp := d.dep
  let ovf (n : Nat) (c : Nat) := setFlag dp.ovf n (decide (4095 ≤ c + 1))
  match which with
  | 0 => { d with dep := { dp with coalesced := satInc 4095 dp.coalesced, ovf := ovf 0 dp.coalesced } }
  | 1 => { d with dep := { dp with diag := satInc 4095 dp.diag, ovf := ovf 1 dp.diag } }
  | 2 => { d with dep := { dp with txref := satInc 4095 dp.txref, ovf := ovf 2 dp.txref } }
  | 3 => { d with dep := { dp with hostq := satInc 4095 dp.hostq, ovf := ovf 3 dp.hostq } }

/-- The log buffer of 128 entries with one more (R518): where it is full, a pin-eligible entry takes the place of the newest
one that is not, and an entry that is not pin-eligible is not logged.
DESIGN CHOICE: notes/assumptions/19.md. -/
def bufferLog (buf : List LogEntry) (x : LogEntry) : List LogEntry :=
  if buf.length < 128 then buf ++ [x]
  else if x.entry.pinEligible then (buf.reverse.eraseP fun y => !y.entry.pinEligible).reverse ++ [x]
  else buf

/-- An entry for the event log (R515).
DESIGN CHOICE: notes/assumptions/19.md. -/
def Dev.logEntry (d : Dev) (e : Entry) (logOnly : Bool) : Dev :=
  { d with evt := { d.evt with logBuf := bufferLog d.evt.logBuf { entry := e, logOnly := logOnly } } }

/-- A watermark COUNT of queue `q` has saturated (R497). -/
def Dev.wmSaturated (d : Dev) (q : Nat) (b : Bool) : Dev :=
  { d with hst := { d.hst with wmovf := setFlag d.hst.wmovf q b } }

/-- What became of an entry: queued without or with a crossing of the watermark, or shed. -/
inductive Placed where
  | queued | crossed | shed
deriving DecidableEq, Repr

/-- An entry offered to the dispatch queue and the log (R494, R515, R523, R524).
DEDUCED: notes/assumptions/61.md. -/
def Dev.placeEntry (d : Dev) (e : Entry) : Dev × Placed :=
  match (if 1 ≤ d.evt.shed then coalesce e d.evt.queue else none) with
  | some q =>
    let d := (({ d with evt := { d.evt with queue := q } } : Dev).countShed 0)
    (if e.sheddable then d else d.logEntry e true, .shed)
  | none =>
    if e.sheddable && (2 ≤ d.evt.shed || 256 ≤ d.evqLevel) then (d.countShed 1, .shed)
    else if 256 ≤ d.evqLevel then ((d.countShed 3).logEntry e true, .shed)
    else
      let n := d.evqLevel
      let r := d.hst.evqwm.rise d.evqHigh n (n + 1)
      let d := { d with evt := { d.evt with queue := d.evt.queue ++ [e] }, hst := { d.hst with evqwm := r.1 } }
      (((d.logEntry e false).wmSaturated 0 r.2.2).restage, if r.2.1 then .crossed else .queued)

/-- An event bit (R491). -/
def Dev.setEvt (d : Dev) (src : Nat) : Dev :=
  { d with evt := { d.evt with stat := d.evt.stat ||| BitVec.ofNat 64 (2 ^ src) } }

/-- The entry of source 62: queue number in INST, level in DATA (R497). -/
def Dev.queueEntry62 (d : Dev) (q level : Nat) : Entry :=
  { src := 62, sub := 0, cls := 0, inst := q, time := d.sup.rtc, episode := 0, rep := 0, data := word level }

/-- An entry placed, with the crossing that its arrival makes (R497). -/
def Dev.placeWithCrossing (d : Dev) (e : Entry) : Dev × Bool :=
  match d.placeEntry e with
  | (d, .queued) => (d, false)
  | (d, .shed) => (d, true)
  | (d, .crossed) =>
    let r := (d.setEvt 62).placeEntry (d.queueEntry62 0 d.evqLevel)
    (r.1, decide (r.2 = .shed))

/-- The notice of the first item shed after an entry into a stage (R525).
DEDUCED: notes/assumptions/61.md. -/
def Dev.shedNotice (d : Dev) (shed : Bool) : Dev :=
  if shed && !d.evt.noticed then
    let d := { d with evt := { d.evt with noticed := true } }
    ((d.setEvt 62).placeWithCrossing { d.queueEntry62 0 0 with data := Config.eventData 62 0 }).1
  else d

/-- An event fires: its bit is set and its entry queued (R491). -/
def Dev.fire (d : Dev) (e : Entry) : Dev :=
  let r := (d.setEvt e.src).placeWithCrossing e
  r.1.shedNotice r.2

/-- An event with its fields (R494); DATA is the source's own.
DESIGN CHOICE: notes/assumptions/16.md. -/
def Dev.event (d : Dev) (src : Nat) (sub cls inst episode : Nat) (data : Word) : Dev :=
  d.fire { src := src, sub := sub, cls := cls, inst := inst, time := d.sup.rtc, episode := episode, rep := 0, data := data }

/-- An event of no fault, whose DATA no chapter defines.
DESIGN CHOICE: notes/assumptions/16.md. -/
def Dev.notice (d : Dev) (src sub inst : Nat) : Dev := d.event src sub 0 inst 0 (Config.eventData src sub)

/-- A notice inside a fault episode (R495).
DESIGN CHOICE: notes/assumptions/16.md. -/
def Dev.noticeIn (d : Dev) (src sub inst episode : Nat) : Dev :=
  d.event src sub 0 inst episode (Config.eventData src sub)

/-- A crossing of the watermark of another queue (R497). -/
def Dev.queueCrossed (d : Dev) (q level : Nat) (crossed saturated : Bool) : Dev :=
  let d := d.wmSaturated q saturated
  if crossed then d.fire (d.queueEntry62 q level) else d

/-- IRQN is asserted (R492). -/
def Dev.irq (d : Dev) : Bool := decide (d.evt.stat &&& ~~~d.evt.mask ≠ 0)

/-! ### Episodes (R495) -/

/-- The next fault-episode ID: 1 to 4095, then 1 again. -/
def nextEpisode (n : Nat) : Nat := if n < 4095 then n + 1 else 1

/-- A new episode. -/
def Dev.newEpisode (d : Dev) : Dev × Nat :=
  let e := nextEpisode d.evt.episode
  ({ d with evt := { d.evt with episode := e } }, e)

/-! ### Lifetime counters (R520, R521) -/

/-- Occurrences sent and not yet consumed. -/
def Carried.ahead (c : Carried) : Nat := (c.sent - c.returned).toNat

/-- A further occurrence fits into the count (R81). -/
def Carried.fits (c : Carried) : Bool := decide (c.ahead < 15)

/-- One occurrence at the sender: counted, or the overrun flag where the count is 15 ahead (R80, R81). -/
def Carried.send (c : Carried) : Carried := if c.fits then { c with sent := c.sent + 1 } else { c with overrun := true }

/-- The receiver has consumed every occurrence, and the overrun flag clears (R81). -/
def Carried.consumed (c : Carried) : Carried := { c with returned := c.sent, overrun := false }

/-- No occurrence is unconsumed (R84). -/
def Carried.idle (c : Carried) : Bool := decide (c.sent = c.returned) && !c.overrun

/-- One count of device counter `i` of R520, saturating and flagged in LIF_SAT. The increment crosses into the always-on
domain, which always runs, as a carried event count that is consumed at once (R72, R80).
DESIGN CHOICE: notes/assumptions/65.md. -/
def Dev.countDevice (d : Dev) (i : Fin 22) : Dev :=
  let n := d.lif.device.get i
  { d with lif := { d.lif with
      count := d.lif.count.send.consumed, device := upd d.lif.device i (satInc 0xFFFFFF n), sat := setFlag d.lif.sat 0 (decide (0xFFFFFF ≤ n + 1)) } }

/-- The counts of a contactor block, and of all blocks, in the order of the lifetime record (R520). -/
def KBlock.counts (b : KBlock) : List Nat := [b.closings, b.openings, b.underLoad] ++ b.brk.toList ++ b.i2t.toList
def LifeBlocks.counts (b : LifeBlocks) : List Nat :=
  (b.k.toList.flatMap KBlock.counts) ++ b.pump.toList ++ b.pack.toList ++ b.temp.toList

/-- The line of the accumulation RAM that holds count `i` of the 105: the counts are spread over the 64 lines in their order
(R519 places none).
DESIGN CHOICE: notes/assumptions/65.md. -/
def accLine (i : Nat) : Nat := 64 * i / 105

/-- The lines whose counts differ between two contents of the accumulation RAM. -/
def changedLines (a b : LifeBlocks) : BitVec 64 :=
  ((a.counts.zip b.counts).zipIdx.filter fun x => decide (x.1.1 ≠ x.1.2)).foldl
    (fun m x => m ||| BitVec.ofNat 64 (2 ^ accLine x.2)) 0

/-- The number of lines marked. -/
def lineCount (m : BitVec 64) : Nat := ((List.range 64).filter fun i => m.getLsbD i).length

/-- Increments collect in the accumulation RAM (queue 7): their lines are marked, with its watermark, and from HIST_HIGH lines
on a flush is due (R519, R522).
DESIGN CHOICE: notes/assumptions/65.md. -/
def Dev.collect (d : Dev) (f : LifeBlocks → LifeBlocks) : Dev :=
  let inc := f d.lif.inc
  let lines := d.lif.lines ||| changedLines d.lif.inc inc
  let high := field d.dep.wmcfg 0 7
  let r := d.dep.histwm.rise high (lineCount d.lif.lines) (lineCount lines)
  let due := d.lif.due || decide (high ≤ lineCount lines)
  let d := { d with lif := { d.lif with inc := inc, lines := lines, due := due }, dep := { d.dep with histwm := r.1 } }
  d.queueCrossed 7 (lineCount lines) r.2.1 r.2.2

/-- The increments of a contactor changed. -/
def Dev.countK (d : Dev) (k : K) (f : KBlock → KBlock) : Dev := d.collect fun b => { b with k := modify b.k k f }

/-- One count of the pump block: run hours, starts, tach losses, revocations, conflicts (R520). -/
def Dev.countPump (d : Dev) (i : Fin 5) : Dev :=
  d.collect fun b => { b with pump := modify b.pump i (satInc 0xFFFFFF) }

/-! ### Fault classes (R267 to R270) -/

/-- The class as CLASS codes it: 1 to 4 for A to D. -/
def classCode : FaultClass → Nat
  | .a => 1 | .b => 2 | .c => 3 | .d => 4

/-- The default class, the allowed classes, and the default lockout flag of fault F (R268). -/
def faultRow : Nat → FaultClass × List FaultClass × Bool
  | 0 | 2 | 4 | 6 | 9 => (.b, [.a, .b], false)
  | 1 | 5 => (.d, [.c, .d], true)
  | 3 => (.c, [.c, .d], false)
  | 7 | 10 => (.c, [.b, .c], false)
  | 8 => (.b, [.a, .b, .c], false)
  | 11 | 13 | 14 => (.a, [.a, .b], false)
  | 12 | 15 => (.c, [.c], false)
  | 16 => (.c, [.b, .c], false)
  | 17 | 20 => (.b, [.a, .b, .c], false)
  | 18 => (.c, [.c, .d], false)
  | 19 | 21 | 22 => (.a, [.a, .b], false)
  | 23 | 25 => (.b, [.b, .c], false)
  | 24 => (.a, [.a], false)
  | 26 => (.d, [.d], true)
  | 27 | 28 => (.d, [.d], false)
  | 29 => (.d, [.d], true)
  | 30 => (.c, [.c], false)
  | 31 => (.c, [.c, .d], false)
  | 32 => (.b, [.a, .b, .c], false)
  | 33 => (.d, [.d], false)
  | 34 => (.d, [.d], true)
  | 35 => (.c, [.c], false)
  | 36 => (.c, [.b, .c], false)
  | 37 => (.a, [.a, .b], false)
  | 38 => (.d, [.d], true)
  | _ => (.a, [.a], false)

/-- The manifest's entry for fault F. -/
def Dev.faultSetting (d : Dev) (f : Nat) : Option FaultSetting := d.man.bind fun m => m.faults[f]?

/-- The effective class: the manifest's where allowed, else the default (R269). -/
def Dev.faultClass (d : Dev) (f : Nat) : FaultClass :=
  match d.faultSetting f with
  | some s => if (faultRow f).2.1.contains s.cls then s.cls else (faultRow f).1
  | none => (faultRow f).1

/-- Faults whose lockout flag cannot be changed (R268). -/
def lockoutFixed (f : Nat) : Bool := f = 26 || f = 38

/-- The lockout flag, which applies only while the effective class is D (R268, R269). -/
def Dev.lockoutFlag (d : Dev) (f : Nat) : Bool :=
  match d.faultSetting f with
  | some s => if lockoutFixed f then (faultRow f).2.2 else s.lockout
  | none => (faultRow f).2.2

/-- The default charge and discharge factors in % (R270). -/
def defaultFactor : Nat → Nat × Nat
  | 0 | 6 => (0, 100)
  | 2 => (100, 0)
  | _ => (50, 50)

/-- The charge and discharge factors in %. -/
def Dev.faultFactor (d : Dev) (f : Nat) : Nat × Nat :=
  match d.faultSetting f with
  | some s => (s.chg, s.dis)
  | none => defaultFactor f

/-- The 39 fault numbers. -/
def faultNumbers : List Nat := List.range 39

/-- Faults that are active or latched (LIM_ACT0 and LIM_ACT1). -/
def Dev.faultBits (d : Dev) : BitVec 39 := d.lim.active ||| d.lim.latched

/-- A fault of class `c` is active. -/
def Dev.anyActive (d : Dev) (cls : FaultClass) : Bool :=
  faultNumbers.any fun f => d.lim.active.getLsbD f && decide (d.faultClass f = cls)

/-- A class C fault is active. -/
def Dev.classC (d : Dev) : Bool := d.anyActive .c

/-- A class D fault is latched. -/
def Dev.latchedD (d : Dev) : Bool := decide (d.lim.latched ≠ 0)

/-- LIM_STAT.MAXCLASS: the highest class among the active and latched faults. -/
def Dev.maxClass (d : Dev) : Nat :=
  if d.latchedD || d.anyActive .d then 3 else if d.classC then 2 else if d.anyActive .b then 1 else 0

/-- LIM_STAT.ZCAUSE: the first of the conditions of R265, 0 where none holds. -/
def Dev.zcause (d : Dev) : Nat :=
  if d.classC then 1 else if d.latchedD then 2
  else if d.seq.drover = .breaking ∨ d.seq.drover = .lockout then 3
  else if d.sup.pfWarn || d.sup.pfHold then 4
  else if d.insp.halted then 5 else 0

/-- All six limits are zero (LIM_STAT.ZERO). -/
def Dev.limitsZero (d : Dev) : Bool := d.lim.chg.toList.all (· == 0) && d.lim.dis.toList.all (· == 0)

/-- A published limit is zero (SEQ_BLOCK.LIMIT_ZERO). -/
def Dev.anyLimitZero (d : Dev) : Bool := d.lim.chg.toList.any (· == 0) || d.lim.dis.toList.any (· == 0)

/-! ### Guards and permission (R350 to R360) -/

/-- The manifest's kind bits of guard `g`: used, antivalent, test switch. -/
def Dev.guardUsed (d : Dev) (g : Fin 4) : Bool := d.saf.gkind.getLsbD (3 * g.val)
def Dev.guardAnti (d : Dev) (g : Fin 4) : Bool := d.saf.gkind.getLsbD (3 * g.val + 1)
def Dev.guardSwitch (d : Dev) (g : Fin 4) : Bool := d.saf.gkind.getLsbD (3 * g.val + 2)

/-- Channel A or B of guard `g` is closed (R350). -/
def Dev.closedA (d : Dev) (g : Fin 4) : Bool := d.saf.filt.getLsbD (2 * g.val)
def Dev.closedB (d : Dev) (g : Fin 4) : Bool := d.saf.filt.getLsbD (2 * g.val + 1) != d.guardAnti g

/-- The guard is closed: both filtered channels are (R352). -/
def Dev.guardClosed (d : Dev) (g : Fin 4) : Bool := d.closedA g && d.closedB g

/-- The guard is proven: both channels are (R355). -/
def Dev.guardProven (d : Dev) (g : Fin 4) : Bool :=
  d.saf.provenCh.getLsbD (2 * g.val) && d.saf.provenCh.getLsbD (2 * g.val + 1)

/-- The four guards. -/
def guards : List (Fin 4) := [0, 1, 2, 3]

/-- Every used guard is proven and closed and none is under test. -/
def Dev.guardsGood (d : Dev) : Bool :=
  guards.all fun g => !d.guardUsed g || (d.guardProven g && d.guardClosed g && !d.saf.testing.getLsbD g.val)

/-- No used guard is in discrepancy. -/
def Dev.noDiscrepancy (d : Dev) : Bool := guards.all fun g => !d.guardUsed g || !d.saf.disc.getLsbD g.val

/-- SAF_PERMIT.WHY: the unmet conditions of R358.
DEDUCED: notes/assumptions/38.md. -/
def Dev.why (d : Dev) : Nat :=
  flag (!(d.inRun && decide (d.seq.drover ≠ .lockout))) 0 + flag d.saf.latch 1 + flag (!d.guardsGood) 2 +
  flag (!d.noDiscrepancy) 3 + flag (decide (2 ≤ d.saf.missing)) 4

/-- Every condition of R358 holds.
DEDUCED: notes/assumptions/38.md. -/
def Dev.permitted (d : Dev) : Bool := decide (d.why = 0)

/-- A power-fail warning has stopped chain traffic and the tasks of classes E and B, until the next reset (R48, R53).
DEDUCED: notes/assumptions/36.md. -/
def Dev.powerFailing (d : Dev) : Bool := d.sup.commit.isSome || d.sup.pfHold

/-- The engine runs frames: in Run, and in muster from the end of step 4 onward (R584). -/
def Dev.framesRun (d : Dev) : Bool :=
  d.alive && d.sup.doms.eng && !d.insp.halted &&
    (d.inRun || (decide (d.mode.mode = Mode.muster) && decide (4 < d.sys.step) && !d.stopped))

/-- The domains may start: outside Watch, with the clocks of muster step 2 running.
DESIGN CHOICE: notes/assumptions/11.md. -/
def Dev.mayStart (d : Dev) : Bool :=
  d.alive && d.sup.mainOsc && (d.inRun || (decide (d.mode.mode = Mode.muster) && decide (2 < d.sys.step)))

/-- The Golner's own work needs the depot: where the domain is stopped it requests it and waits until PLL B has locked and
it runs (R58, R63, R89).
DESIGN CHOICE: notes/assumptions/11.md. -/
def Dev.needDepot (d : Dev) : Dev :=
  if d.mayStart && !d.sup.doms.dep then
    { d with sup := { d.sup with doms := { d.sup.doms with dep := true }, pllB := true } }
  else d

/-- The Golner's own work needs the chain: as `needDepot`, for EVO (R58, R63, R89).
DESIGN CHOICE: notes/assumptions/11.md. -/
def Dev.needEvo (d : Dev) : Dev :=
  if d.mayStart && !d.sup.doms.evo then
    { d with sup := { d.sup with doms := { d.sup.doms with evo := true }, pllA := true } }
  else d

/-- FLT_N is low (R363). -/
def Dev.fltLow (d : Dev) : Bool := d.saf.latch || d.stopped

/-! ### Gates (R303) -/

/-- The gates of a coil channel that are on: commanded, with the latch clear and DRV_EN high. -/
def Dev.gatesOn (d : Dev) : Bool := !d.saf.latch && d.pwr.drvEn
def Dev.highOn (d : Dev) (k : K) : Bool := d.gatesOn && (d.coil.get k).hi
def Dev.lowOn (d : Dev) (k : K) : Bool := d.gatesOn && (d.coil.get k).lo

/-- Some coil channel has a gate commanded on (R354). -/
def Dev.coilCommanded (d : Dev) : Bool := d.coil.toList.any fun c => c.hi || c.lo

/-- The pump bridge may be driven: its gates may turn on, in Run outside LOCKOUT (R19, R135). -/
def Dev.pumpMayRun (d : Dev) : Bool := d.gatesOn && d.inRun && decide (d.seq.drover ≠ Drover.lockout)

/-- The external inputs drive the pump (PWR_STAT.PUMP_EXT, R293). -/
def Dev.pumpExt (d : Dev) : Bool := bit d.pwr.pumpUse 23 && !d.pwr.extOff

/-- Both inputs of half-bridge A or B are high. -/
def bothHigh (l : BitVec 4) (b : Bool) : Bool := if b then l.getLsbD 2 && l.getLsbD 3 else l.getLsbD 0 && l.getLsbD 1

/-- The gates that input levels drive: both switches of a half-bridge off while both of its inputs are high (R293,
R294).
DEDUCED: notes/assumptions/64.md. -/
def extGates (l : BitVec 4) : BitVec 4 :=
  (if bothHigh l false then 0 else l &&& 0b0011) ||| (if bothHigh l true then 0 else l &&& 0b1100)

/-- The gates of the internal speed loop: one half-bridge modulates, the low side of the other is on (R292).
DEDUCED: notes/assumptions/64.md. -/
def Dev.loopGates (d : Dev) : BitVec 4 := if d.pwr.duty = 0 then 0 else if bit d.pwr.pumpUse 22 then 0b1110 else 0b1011

/-- A pump phase of the off-state diagnostics is in progress: the pump stops for it (R310). -/
def Dev.pumpPhase (d : Dev) : Bool := decide (d.pwr.diagPhase = some 8) || decide (d.pwr.diagPhase = some 9)

/-- GHA, GLA, GHB, GLB commanded on (bits 0 to 3): the source in control drives them while the bridge may be driven (R292,
R293, R312), and the cycle limit keeps the high sides off (R299). -/
def Dev.pumpGates (d : Dev) : BitVec 4 :=
  if !d.pumpMayRun || d.pumpPhase then 0
  else
    let g := if d.pumpExt then extGates d.pwr.extIn else d.loopGates
    if d.pwr.cycleOff then g &&& 0b1010 else g

/-- A PWM period boundary of the pump bridge: PWR_PUMPCFG takes effect, external control resumes where it is not revoked any
more, and the cycle limit ends (R295, R299, R313).
DESIGN CHOICE: notes/assumptions/40.md. -/
def Dev.pwmBoundary (d : Dev) : Dev :=
  { d with pwr := { d.pwr with pumpUse := d.pwr.pumpcfg, extOff := d.pwr.extRevoked, cycleOff := false } }

/-- All twelve gates are off and no turn-on is requested (R300). -/
def Dev.allGatesOff (d : Dev) : Bool := !d.coilCommanded && decide (d.pumpGates = 0)

end Sys2Proof.Machine
end

