-- ==== Sys2Proof/Machine/Records.lean ====
section
/-! DEFINITION. The shared operations of the ledger and of the toll's records: the record body and its freeze, the
header copies, the free count and its events, and what a session seals. -/
namespace Sys2Proof.Machine

/-! ### Ledger counts -/

/-- Frozen records in the staging buffer (LGR_STAT.STAGED): those that are being signed and those that are sealed. -/
def Dev.staged (d : Dev) : Nat := d.lgr.signing.length + d.lgr.staging.length

/-- Free staging entries, of 8 (R417). -/
def Dev.stagingFree (d : Dev) : Nat := 8 - d.staged

/-- LGR_FREE (R423).
DEDUCED: notes/assumptions/56.md. -/
def Ledger.free (l : Ledger) : Nat := l.ack + 1536 - (l.next - 1)

/-- The three points of R424, lowest first: LGR_FREE reaches 0, falls below LOW / 2, falls below LOW. -/
def Ledger.reached (l : Ledger) (i : Fin 3) (free : Nat) : Bool :=
  match i with
  | 0 => free = 0
  | 1 => 2 * free < field l.cfg 0 11
  | 2 => free < field l.cfg 0 11

/-- LGR_FREE is back above a point. -/
def Ledger.aboveLow (l : Ledger) (i : Fin 3) (free : Nat) : Bool :=
  match i with
  | 0 => 0 < free
  | 1 => field l.cfg 0 11 < 2 * free
  | 2 => field l.cfg 0 11 < free

/-- One point of R424 after LGR_FREE moved from `before`: armed again above it, and once per fall an event. -/
def Dev.lowPoint (d : Dev) (before : Nat) (i : Fin 3) : Dev :=
  let free := d.lgr.free
  let bit : BitVec 3 := BitVec.ofNat 3 (2 ^ i.val)
  if d.lgr.reached i free && !d.lgr.reached i before && d.lgr.armed.getLsbD i.val then
    ({ d with lgr := { d.lgr with armed := d.lgr.armed &&& ~~~bit } } : Dev).event 54 0 0 0 0 (word free)
  else if d.lgr.aboveLow i free then { d with lgr := { d.lgr with armed := d.lgr.armed ||| bit } }
  else d

/-- The ledger-low events after a change of LGR_FREE (R424).
DEDUCED: notes/assumptions/56.md. -/
def Dev.lowCheck (d : Dev) (before : Nat) : Dev :=
  ((d.lowPoint before 2).lowPoint before 1).lowPoint before 0

/-! ### Writes to the depot (R419, R507) -/

/-- The depot is free for a transaction. -/
def Dev.depotFree (d : Dev) : Bool := d.sup.doms.dep && decide (d.dep.busy = none)

/-- The class of a write among the waiting transactions. -/
def DepotJob.tx : DepotJob → DepotTx
  | .bytes true _ _ => .header
  | .bytes false _ _ | .energy _ _ | .estimates _ _ _ | .logState _ _ => .shadow
  | .erase _ => .window

/-- A write carried out. -/
def Dev.doJob (d : Dev) : DepotJob → Dev
  | .bytes _ a bs => d.setCs0 a bs
  | .energy e pack => { d with dep := { d.dep with
      energy := d.dep.energy.put e, pack := match pack with | some p => d.dep.pack.put p | none => d.dep.pack } }
  | .estimates q rest soc =>
    { d with dep := { d.dep with coul := d.dep.coul.put q, rest := d.dep.rest.put rest, soc := d.dep.soc.put soc } }
  | .logState n u => { d with dep := { d.dep with logState := d.dep.logState.put (n, u) } }
  | .erase slot => d.eraseCs1 (0x10000 * slot) 0x10000

/-- A transaction of class `t` waits for the depot, which the Golner's own work starts (R89, R507). -/
def Dev.queueTx (d : Dev) (t : DepotTx) : Dev :=
  let d := d.needDepot
  if d.dep.waiting.contains t then d else { d with dep := { d.dep with waiting := d.dep.waiting ++ [t] } }

/-- A write of the Golner's own: at once where the depot is free and no write waits, else when its transaction starts; no
write divides a commit or another transaction (R419, R507).
DESIGN CHOICE: notes/assumptions/49.md. -/
def Dev.depotWrite (d : Dev) (j : DepotJob) : Dev :=
  let d := d.queueTx j.tx
  if d.depotFree && d.dep.jobs.isEmpty then d.doJob j else { d with dep := { d.dep with jobs := d.dep.jobs ++ [j] } }

/-! ### The header (R421) -/

/-- A header copy: magic, generation, next and acknowledged sequence number, CRC-32 of its first 20 bytes. -/
def headerBytes (gen next ack : Nat) : List Byte :=
  let b := be 4 0x46564C48 ++ be 4 gen ++ be 4 next ++ be 4 ack ++ zeros 4
  b ++ be 4 (crc32 b).toNat

/-- The next header copy written: the generation rises by 1 and the copy is the generation modulo 2.
DEDUCED: notes/assumptions/56.md. -/
def Dev.writeHeader (d : Dev) (next : Nat) : Dev :=
  let gen := d.lgr.gen + 1
  let d := { d with lgr := { d.lgr with gen := gen } }
  d.setCs0 (32 * (gen % 2)) (headerBytes gen next d.lgr.ack)

/-- The header copy that an acknowledgement writes, in its turn (R422, R507). -/
def Dev.queueHeader (d : Dev) (next : Nat) : Dev :=
  let gen := d.lgr.gen + 1
  let d := { d with lgr := { d.lgr with gen := gen } }
  d.depotWrite (.bytes true (32 * (gen % 2)) (headerBytes gen next d.lgr.ack))

/-- A header copy as found: generation, next and acknowledged sequence number where magic and CRC are correct. -/
def Dev.headerCopy (d : Dev) (i : Nat) : Option (Nat × Nat × Nat) :=
  let b := d.cs0 (32 * i) 24
  if ofBe (slice 0 4 b) = 0x46564C48 ∧ ofBe (slice 20 4 b) = (crc32 (slice 0 20 b)).toNat then
    some (ofBe (slice 4 4 b), ofBe (slice 8 4 b), ofBe (slice 12 4 b))
  else none

/-- The valid header copy with the higher generation. -/
def Dev.header (d : Dev) : Option (Nat × Nat × Nat) :=
  match d.headerCopy 0, d.headerCopy 1 with
  | none, b => b
  | a, none => a
  | some a, some b => if b.1 ≤ a.1 then some a else some b

/-- The address of the slot of sequence number `n` (R414, R508). -/
def slotAddr (n : Nat) : Nat := 0x20000 + 256 * (n % 1536)

/-- The commit markers of R418. -/
def markerWriting : Nat := 0xA5A5A5A5
def markerCommitted : Nat := 0x5A5A5A5A

/-! ### Sealed parameters (R399) -/

/-- The parameter string: 21 bytes, every bit that is not an RWS field 0. -/
def Toll.paramString (t : Toll) : List Byte :=
  be 3 t.gainV.toNat ++ be 3 t.ofsV.toNat ++ be 3 t.gainI.toNat ++ be 3 t.ofsI.toNat ++
  be 3 (t.rcable &&& 0x00FFFF).toNat ++ be 3 (t.pulse &&& 0x01FFFF).toNat ++ be 3 (t.cfg &&& 0xFFFF00).toNat

/-- The sealed block: the parameter string, the stored toll digest and a CRC-32 over both. -/
def Toll.sealedBlock (t : Toll) : List Byte :=
  let b := t.paramString ++ fit 32 t.storedDigest
  b ++ be 4 (crc32 b).toNat

/-- The sealed block written to CS0, and the parameter digest renewed. -/
def Dev.writeSealed (d : Dev) : Dev :=
  let d := { d with tol := { d.tol with pdig := sha256 d.tol.paramString } }
  d.depotWrite (.bytes false 0x00400 d.tol.sealedBlock)

/-! ### Records (R407 to R410) -/

/-- A session is open or suspended; a suspended one that RESUME opens again is (R390). -/
def Toll.hasSession (t : Toll) : Bool :=
  t.session = .active || t.session = .closing || t.session = .suspended || (t.session = .opening && t.resuming)

/-- The status bits of R409: the marks of the session since its last record and the conditions at the freeze.
DEDUCED: notes/assumptions/55.md. -/
def Dev.recordStatus (d : Dev) : Nat :=
  let t := d.tol
  let s := t.hasSession
  let mark (n : Nat) : Bool := s && t.marks.getLsbD n
  flag (!d.sup.timeValid || mark 0) 0 + flag (s && t.sessionTamper) 1 +
  flag ((s && t.session = .suspended) || mark 2) 2 + flag (mark 3) 3 + flag (d.sup.pfWarn || mark 4) 4 +
  flag (t.stop || mark 5) 5 + flag (t.sealOpen || mark 6) 6 + flag (mark 7) 7 + flag d.lgr.restartDue 8 +
  flag (mark 9) 9

/-- The marks of R409 that begin the interval to the session's next record: the conditions that hold at the freeze. -/
def Dev.standingMarks (d : Dev) : BitVec 10 :=
  BitVec.ofNat 10 (flag (!d.sup.timeValid) 0 + flag d.sup.pfWarn 4 + flag d.tol.stop 5 + flag d.tol.sealOpen 6)

/-- The 16 bytes of a session tag (TOL_TAG0 to TOL_TAG5, big-endian). -/
def tagBytes (t : Vector Word 6) : List Byte := (t.toList.flatMap fun w => be 3 w.toNat).take 16

/-- The body of a record: bytes 0 to 183 (R407), with the session's fields where a session is open or suspended. -/
def Dev.recordBody (d : Dev) (typ seq disp : Nat) (area : List Byte) : List Byte :=
  let t := d.tol
  let s := t.hasSession
  let n (v : Nat) : Nat := if s then v else 0
  be 4 0x46564C47 ++ be 1 1 ++ be 1 typ ++ be 2 d.recordStatus ++ be 4 seq ++ be 3 (n t.sessionId) ++ be 1 disp ++
  be 6 d.sup.rtc.toNat ++ (if s then tagBytes t.tag else zeros 16) ++ be 8 t.exp ++ be 8 t.imp ++
  be 8 (n t.sexp) ++ be 8 (n t.simp) ++ be 4 (n (t.unmeasured / 5000)) ++ be 3 t.audit ++ be 3 t.swid.toNat ++
  fit 32 t.pdig ++ fit 72 area

/-- The ledger's numbers are loaded: the first number to freeze is 1 or more (R425, R570).
DEDUCED: notes/assumptions/38.md. -/
def Ledger.loaded (l : Ledger) : Bool := decide (0 < l.next)

/-- A record frozen: its number is taken, its body fixed, and it waits for its signature (R414, R417). -/
def Dev.freeze (d : Dev) (typ disp : Nat) (area : List Byte) : Dev :=
  let before := d.lgr.free
  let level := d.staged
  let body := d.recordBody typ d.lgr.next disp area
  let r := d.dep.stgwm.rise (field d.dep.wmcfg 8 4) level (level + 1)
  let lgr := { d.lgr with
    next := d.lgr.next + 1, restartDue := false, signing := d.lgr.signing ++ [{ seq := d.lgr.next, body := body }] }
  let tol := { d.tol with marks := if d.tol.hasSession then d.standingMarks else d.tol.marks }
  let d := { d with lgr := lgr, tol := tol, dep := { d.dep with stgwm := r.1 } }
  (d.queueCrossed 6 (level + 1) r.2.1 r.2.2).lowCheck before

/-- Whether `n` audit or snapshot records more can be staged: they need one free entry, or three while a session is open or
suspended (R430). -/
def Dev.canStage (d : Dev) (n : Nat) : Bool := decide ((if d.tol.hasSession then 3 else 1) + n ≤ d.stagingFree)

/-- Whether an audit or snapshot record can be staged behind those that wait. -/
def Dev.canStageAudit (d : Dev) : Bool := d.canStage d.lgr.waitingAudit.length

/-- Records are frozen in the modes in which PER and DEP run (R433), once the numbers are loaded (R414). -/
def Dev.recordsRun (d : Dev) : Bool := d.sup.doms.per && d.sup.doms.dep && d.lgr.loaded

/-- An audit record (R410).
DEDUCED: notes/assumptions/55.md. -/
def Dev.freezeAudit (d : Dev) (kind : Nat) (rest : List Byte) : Dev := d.freeze 4 0 (be 1 kind ++ rest)

/-- The waiting audit records, frozen as entries allow (R430); `n` bounds their number. In Run a stopped depot is requested
for them (R89).
DEDUCED: notes/assumptions/31.md. -/
def Dev.drainAudits : Nat → Dev → Dev
  | 0, d => d
  | n + 1, d =>
    match d.lgr.waitingAudit with
    | [] => d
    | (kind, area) :: rest =>
      let d := if d.inRun then d.needDepot else d
      if d.recordsRun && d.canStage 0 then
        Dev.drainAudits n (({ d with lgr := { d.lgr with waitingAudit := rest } } : Dev).freezeAudit kind area)
      else d

/-- An audit record falls due: it is frozen at the next frame boundary, and where no frames run at once (R417, R433).
DEDUCED: notes/assumptions/55.md. -/
def Dev.dueAudit (d : Dev) (kind : Nat) (area : List Byte) : Dev :=
  let d := { d with lgr := { d.lgr with waitingAudit := d.lgr.waitingAudit ++ [(kind, area)] } }
  if d.framesRun then d else Dev.drainAudits d.lgr.waitingAudit.length d

/-- An audit record of the seal or the enclosure, which has nothing but its kind.
DEDUCED: notes/assumptions/55.md. -/
def Dev.sealAudit (d : Dev) (kind : Nat) : Dev := d.dueAudit kind []

/-! ### Session records -/

/-- The session state, with its event (source 50) where it changes. -/
def Dev.setSession (d : Dev) (s : Session) : Dev :=
  if d.tol.session = s then d else ({ d with tol := { d.tol with session := s } } : Dev).notice 50 0 0

/-- A status mark of the session's next record (R409). -/
def Dev.markSession (d : Dev) (n : Nat) : Dev :=
  { d with tol := { d.tol with marks := d.tol.marks ||| BitVec.ofNat 10 (2 ^ n) } }

/-- The type area of a session record: time of the start record and record number (R410). -/
def Toll.sessionArea (t : Toll) : List Byte := be 6 t.startTime.toNat ++ be 2 t.recordNo

/-- One session record frozen. Its number within the session rises by 1 and saturates at 0xFFFF. -/
def Dev.freezeSession (d : Dev) (typ : Nat) : Dev :=
  let d := { d with tol := { d.tol with recordNo := satInc 0xFFFF d.tol.recordNo } }
  d.freeze typ 0 d.tol.sessionArea

/-- A due session record frozen (R384, R386 to R390); the end record returns the state to None. -/
def Dev.freezeDue (d : Dev) : TollRecord → Dev
  | .start =>
    ({ d with tol := { d.tol with recordNo := 0, startTime := d.sup.rtc } } : Dev).freezeSession 0x01
  | .interim => d.freezeSession 0x02
  | .suspended => (d.markSession 2).freezeSession 0x02
  | .resumed => ((d.markSession 2).markSession 3).freezeSession 0x02
  | .ended =>
    let d := d.freezeSession 0x03
    ({ d with tol := { d.tol with sessionTamper := false, unmeasured := 0, marks := 0 } } : Dev).setSession .none_

/-- The session records that are due: an interim record that falls due in the frame of an end record is not sealed (R403). -/
def Toll.dueNow (t : Toll) : List TollRecord :=
  if t.due.contains .ended then t.due.filter fun r => r ≠ .interim else t.due

/-- Due session records frozen in their order while a staging entry is free; none in Bench or muster (R433).
DEDUCED: notes/assumptions/55.md. -/
def Dev.drainDue : Nat → Dev → Dev
  | 0, d => d
  | n + 1, d =>
    match d.tol.dueNow with
    | [] => d
    | r :: rest =>
      if d.inRun && d.runState ≠ .bench && 1 ≤ d.stagingFree then
        Dev.drainDue n (({ d with tol := { d.tol with due := rest } } : Dev).freezeDue r)
      else d

/-- A session record falls due; it is frozen at the next frame boundary (R417). A second interim does not queue behind one
that waits. -/
def Dev.sealDue (d : Dev) (r : TollRecord) : Dev :=
  let due := if r = .interim ∧ d.tol.due.contains .interim then d.tol.due else d.tol.due ++ [r]
  { d with tol := { d.tol with due := due } }

/-- Every record that waits for the frame boundary or for an entry, the session's first. -/
def Dev.drainRecords (d : Dev) : Dev :=
  let d := Dev.drainDue d.tol.due.length d
  Dev.drainAudits d.lgr.waitingAudit.length d

/-- The drover leaves OUTPUT other than through CLOSE or HOLD, or leaves HOLD from OUTPUT otherwise than back to it:
an active or closing session is suspended, its record waits for the verdict on K4, and an opening session is refused (R388,
R384).
DEDUCED: notes/assumptions/55.md. -/
def Dev.suspendSession (d : Dev) : Dev :=
  match d.tol.session with
  | .active | .closing => ({ d with tol := { d.tol with suspendDue := true } } : Dev).setSession .suspended
  | .opening =>
    if d.tol.resuming then ({ d with tol := { d.tol with resuming := false } } : Dev).setSession .suspended
    else d.setSession .none_
  | _ => d

/-- K4 is judged open: the session accumulators stop; a closing session seals its end record and a suspended one its
interim record (R385, R387, R388); an opening one is refused (R406). -/
def Dev.tollK4Open (d : Dev) : Dev :=
  let d := { d with tol := { d.tol with following := false } }
  match d.tol.session with
  | .closing => d.sealDue .ended
  | .suspended =>
    if d.tol.suspendDue then
      ({ d with tol := { d.tol with suspendDue := false } } : Dev).sealDue .suspended
    else d
  | .opening =>
    if d.tol.resuming then ({ d with tol := { d.tol with resuming := false } } : Dev).setSession .suspended
    else d.setSession .none_
  | _ => d

/-- The count of T_int starts, with the T_int set now (R386, R402). -/
def Dev.restartInterim (d : Dev) : Dev :=
  { d with tol := { d.tol with intFrom := d.sup.rtc, tInt := field d.tol.cfg 0 6 } }

/-- The next session ID (R384). -/
def Toll.nextId (t : Toll) : Nat := (t.lastId + 1) % 2 ^ 24

/-- K4 is confirmed closed: a new session gets the next ID, zeroed accumulators and its start record; a resumed one
its interim record with the resumed status (R384, R390). -/
def Dev.tollK4Closed (d : Dev) : Dev :=
  if d.tol.session ≠ .opening then d
  else
    let d := d.restartInterim
    if d.tol.resuming then
      (({ d with tol := { d.tol with resuming := false, following := true } } : Dev).setSession .active).sealDue .resumed
    else
      let d := { d with tol := { d.tol with
        sessionId := d.tol.nextId, lastId := d.tol.nextId, sexp := 0, simp := 0, unmeasured := 0, marks := 0,
        tag := d.tol.tagReg, following := true } }
      ((d.countDevice 15).setSession .active).sealDue .start

end Sys2Proof.Machine
end

