-- ==== Sys2Proof/Machine/Frames.lean ====
section
/-! DEFINITION. The frames that the Golner sends of its own accord (R458, R459) and the priority buffer (R441). -/
namespace Sys2Proof.Machine

/-- A CAN channel of the device. -/
def Dev.can (d : Dev) : Ch → Can
  | .can0 => d.can0
  | .can1 => d.can1

/-- A CAN channel replaced. -/
def Dev.setCan (d : Dev) : Ch → Can → Dev
  | .can0, c => { d with can0 := c }
  | .can1, c => { d with can1 := c }

/-- The channel's number. -/
def chNo : Ch → Nat
  | .can0 => 0
  | .can1 => 1

/-- The offset of the frame's identifier, its enable bit and its rolling counter. -/
def OwnFrame.no : OwnFrame → Fin 5
  | .limitsChg => 0 | .limitsDis => 1 | .status => 2 | .stepReq => 3 | .cellSum => 4

/-- CANx_PUBCFG enables the frame. -/
def Can.enabled (c : Can) (f : OwnFrame) : Bool := bit c.pubcfg (16 + f.no.val)

/-- CANx_PUBCFG.BASE. -/
def Can.base (c : Can) : Nat := field c.pubcfg 0 11

/-! ### Listed cells -/

/-- The cells that the manifest lists: 18 positions per stage, as many as the stage's cell count. -/
def Dev.listedCells (d : Dev) : List (Fin 576) :=
  match d.man with
  | none => []
  | some m => (List.finRange 576).filter fun p =>
      decide (p.val / 18 < m.stageCount) && decide (p.val % 18 < m.cellCounts.getD (p.val / 18) 0)

/-- The least of a list; `none` of an empty one. -/
def least : List Int → Option Int
  | [] => none
  | x :: xs => some (xs.foldl min x)

/-- The greatest of a list; `none` of an empty one. -/
def greatest : List Int → Option Int
  | [] => none
  | x :: xs => some (xs.foldl max x)

/-- The valid temperatures of the listed cells. -/
def Dev.cellTemps (d : Dev) : List Int := d.listedCells.filterMap fun p => (d.est.cells.get p).t

/-- The voltages of the listed cells. -/
def Dev.cellVolts (d : Dev) : List Int := d.listedCells.map fun p => ((d.est.cells.get p).v : Int)

/-! ### Signals -/

/-- A limit has been clamped (LIM_STAT.CLAMPED). -/
def Dev.clamped (d : Dev) : Bool := d.lim.clampChg.toList.any id || d.lim.clampDis.toList.any id

/-- Bytes 0 to 7 of a limits frame, but for the rolling counter. -/
def Dev.limitsData (d : Dev) (v : Vector Nat 3) : List Byte :=
  le 2 (v.get 0) ++ le 2 (v.get 1) ++ le 2 (v.get 2) ++
  le 1 (flag d.clamped 0 + flag d.limitsZero 1 + flag d.est.derated 2 + flag d.lim.classB 3) ++
  le 1 (place d.zcause 4)

/-- The output current limit in 0.1 A (R459). -/
def Dev.outLimit (d : Dev) : Nat :=
  if d.seq.drover ≠ .output ∨ d.tol.stop ∨ d.tol.session = .closing ∨ d.lim.dis.get 0 = 0 then 0 else 0xFFFF

/-- TOL_STAT.SESSION. -/
def Session.code : Session → Nat
  | .none_ => 0 | .opening => 1 | .active => 2 | .closing => 3 | .suspended => 4

/-- Bytes 0 to 7 of STATUS, but for the rolling counter. -/
def Dev.statusData (d : Dev) : List Byte :=
  le 2 d.outLimit ++ le 1 (d.tol.session.code + flag d.tol.stop 3 + flag d.tol.sealOpen 4) ++
  le 1 d.seq.drover.code ++ le 1 (d.mode.mode.code + (if d.inRun then place d.runState.code 2 else 0)) ++
  le 1 d.maxClass ++ zeros 2

/-- Bytes 0 to 7 of STEP_REQ, but for the rolling counter: amplitude in 0.1 A, hold time 2.5 s. -/
def Dev.stepReqData (d : Dev) : List Byte :=
  le 1 (flag d.est.stepReq 0 + flag d.est.stepDis 1) ++ le 2 (natOf (quantise (d.est.stepAmp * 10))) ++
  le 1 25 ++ zeros 4

/-- A signal over the cells in its unit; free where no cell is listed or valid. -/
def Dev.cellSignal (d : Dev) (v : Option Int) (perUnit : Int) (len : Nat) : Nat :=
  match v with
  | some x => ofSigned len (quantise ((x : Rat) / perUnit))
  | none => (Config.freeWord d.free).toNat % 2 ^ len

/-- Bytes 0 to 7 of CELL_SUM, but for the rolling counter. -/
def Dev.cellSumData (d : Dev) : List Byte :=
  let cells := d.listedCells
  let soc := (cells.map fun p => (d.est.cells.get p).soc).foldl (· + ·) 0
  let mean := if cells.isEmpty then (Config.freeWord d.free).toNat else natOf (quantise (soc / cells.length * 200))
  le 2 (d.cellSignal (least d.cellVolts) 1000 16) ++ le 2 (d.cellSignal (greatest d.cellVolts) 1000 16) ++
  le 1 (d.cellSignal (least d.cellTemps) 100 8) ++ le 1 (d.cellSignal (greatest d.cellTemps) 100 8) ++
  le 1 mean ++ zeros 1

/-- The data of a frame, without its rolling counter. -/
def Dev.ownData (d : Dev) : OwnFrame → List Byte
  | .limitsChg => d.limitsData d.lim.chg
  | .limitsDis => d.limitsData d.lim.dis
  | .status => d.statusData
  | .stepReq => d.stepReqData
  | .cellSum => d.cellSumData

/-- The rolling counter in byte 7 bits 3 to 0.
DEDUCED: notes/assumptions/58.md. -/
def withCounter (c : BitVec 4) (bs : List Byte) : List Byte :=
  bs.take 7 ++ [((bs.getD 7 0) &&& 0xF0) ||| c.setWidth 8]

/-- An instance of a frame: a classical data frame of 8 bytes with an 11-bit identifier. -/
def Dev.ownFrame (d : Dev) (c : Can) (f : OwnFrame) : CanFrame :=
  { ide := false, id := BitVec.ofNat 29 ((c.base + f.no.val) % 2048), fdf := false, brs := false, rtr := false,
    dlc := 8, data := withCounter (c.roll.get f.no) (d.ownData f) }

/-! ### The priority buffer -/

/-- A frame put in its place, the lowest identifier first (R441). -/
def prioPlace (x : OwnTx) : List OwnTx → List OwnTx
  | [] => [x]
  | y :: rest => if x.frame.id.toNat < y.frame.id.toNat then x :: y :: rest else y :: prioPlace x rest

/-- A newer instance of a frame replaces the older one that is not on the bus, whatever its identifier was (R441). -/
def prioInsert (x : OwnTx) (xs : List OwnTx) : List OwnTx := prioPlace x (xs.filter fun y => y.kind ≠ x.kind)

/-- One event-driven frame falls due on a channel (R441, R458). -/
def Dev.publishOn (d : Dev) (f : OwnFrame) (ch : Ch) : Dev :=
  let c := d.can ch
  if c.enabled f then
    d.setCan ch { c with prio := prioInsert { kind := f, frame := d.ownFrame c f } c.prio, roll := modify c.roll f.no (· + 1) }
  else d

/-- One event-driven frame falls due on every channel that carries it. -/
def Dev.publish (d : Dev) (f : OwnFrame) : Dev := (d.publishOn f .can0).publishOn f .can1

/-- The six limits are published (R266): in Run and while the engine is not halted. -/
def Dev.publishLimits (d : Dev) : Dev :=
  if d.inRun && !d.insp.halted then (d.publish .limitsChg).publish .limitsDis else d

/-- The deliberate step request is withdrawn, and STEP_REQ says so (R243, R255, R458). -/
def Dev.withdrawStep (d : Dev) : Dev :=
  if d.est.stepReq then ({ d with est := { d.est with stepReq := false } } : Dev).publish .stepReq else d

/-- A zero cause makes all six limits zero, and they are published without waiting for the period end (R265, R266);
the event of source 31 reports it. -/
def Dev.zeroCheck (d : Dev) : Dev :=
  if d.zcause ≠ 0 ∧ d.limitsZero = false then
    let d := { d with lim := { d.lim with chg := .replicate 3 0, dis := .replicate 3 0 } }
    (d.publishLimits).notice 31 0 0
  else d

end Sys2Proof.Machine
end

