-- ==== Sys2Proof/Machine/Coils.lean ====
section
/-! DEFINITION. The shared operations on the coil channels: duties, pull-in, release, and the accounting of an
opening (R277 to R279, R320 to R327). -/
namespace Sys2Proof.Machine

/-- A coil channel changed. -/
def Dev.setCoil (d : Dev) (k : K) (f : Coil → Coil) : Dev := { d with coil := modify d.coil k f }

/-- The four channels. -/
def coils : List K := [0, 1, 2, 3]

/-- R_pre·C_link in seconds, where a manifest is loaded. -/
def Dev.tauOf (d : Dev) : Rat := match d.man with | some m => m.rPre * m.cLink | none => 0

/-- R_pre in Ω. -/
def Dev.rPre (d : Dev) : Rat := match d.man with | some m => m.rPre | none => 0

/-- I_PULL and I_HOLD of a channel in mA; while I_HOLD < I_PULL is violated, I_PULL serves for both (R342). -/
def Dev.kcur (d : Dev) (k : K) : Nat × Nat :=
  let w := d.pwr.kcur.get k
  let pull := field w 12 12
  let hold := field w 0 12
  if hold < pull then (pull, hold) else (pull, pull)

/-- The sequence parameters are captured at the trigger that starts a close sequence or an opening (R24). -/
def Dev.capture (d : Dev) : Dev :=
  { d with seq := { d.seq with
      iBreak := field d.lim.brkcfg 0 8, tGrace := field d.lim.brkcfg 8 8, tau := d.tauOf
      iPull := Vector.ofFn fun k => (d.kcur k).1, iHold := Vector.ofFn fun k => (d.kcur k).2
      tPull := field d.pwr.coiltim 0 8 } }

/-- A requested duty in 1/6000 of the period, rounded out of the gaps to 0, 2 % to 98 %, or 100 % (R291). -/
def allowedDuty (n : Nat) : Nat :=
  if n < 60 then 0
  else if n = 60 then (if Config.freeBool 60 then 120 else 0)
  else if n < 120 then 120
  else if n ≤ 5880 then n
  else if n < 5940 then 5880
  else if n = 5940 then (if Config.freeBool 5940 then 6000 else 5880)
  else 6000

/-- The duty of `factor` × `mA` × R_app / VCOILS, at most 100 %, R_app in mΩ and VCOILS in mV. -/
def ohmicDuty (factor : Rat) (mA : Nat) (rApp : Rat) (vcoils : Nat) : Nat :=
  if vcoils = 0 then 6000
  else allowedDuty (clampNat 6000 (natOf (quantise (factor * mA * rApp / (1000 * vcoils) * 6000))))

/-- D_sig (R321). -/
def Dev.dSig (d : Dev) (k : K) : Nat := ohmicDuty (13 / 10) (d.seq.iPull.get k) (d.coil.get k).rApp d.pwr.vcoils

/-- D_ol (R338). -/
def Dev.dOl (d : Dev) (k : K) : Nat :=
  ohmicDuty (125 / 100) (d.coil.get k).setpoint (d.coil.get k).rApp d.pwr.vcoils

/-- VCOILS lies within ±10 % of the manifest's reference rail voltage (R325). -/
def Dev.railGood (d : Dev) : Bool :=
  match d.man with
  | some m => decide (9 * m.railRef ≤ 10 * d.pwr.vcoils ∧ 10 * d.pwr.vcoils ≤ 11 * m.railRef)
  | none => false

/-- A pull-in starts: the signature phase at I_pull (R320, R321, R324). While the latch is set or DRV_EN is low the
turn-on commands are ignored (R303). -/
def Dev.pullIn (d : Dev) (k : K) : Dev :=
  d.setCoil k fun c => { c with
    phase := .signature, hi := d.gatesOn, lo := d.gatesOn, setpoint := d.seq.iPull.get k, duty := d.dSig k
    samples := 0, iPk := 0, iPkAt := 0, dip := false, iLow := 0, iLowAt := 0, confirmed := false
    railOk := d.railGood, bouncing := false, i2t := 0, lowRun := 0, raising := false, checkFails := 0, quiet := 0, olDue := false }

/-- The channel's feedback is lost or frozen. -/
def Coil.noFeedback (c : Coil) : Bool := c.lost || c.frozen

/-- Whether a release of channel `k` turns both switches off at once (R327). -/
def Dev.fastRelease (d : Dev) (k : K) : Bool :=
  let c := d.coil.get k
  decide (k = 2) || c.noFeedback || decide (c.phase = .signature)

/-- The feedback checks that run stop, unjudged (R346). -/
def Dev.stopChecks (d : Dev) : Dev := { d with coil := d.coil.map fun (c : Coil) => { c with raising := false } }

/-- A release starts, in slow decay under R326 or with both switches off under R327. A channel that is released or
already releasing stays as it is. Feedback checks stop with it (R346).
DEDUCED: notes/assumptions/22.md. -/
def Dev.release (d : Dev) (k : K) : Dev :=
  let c := d.coil.get k
  if c.phase = .released ∨ c.phase = .releasing then d
  else
    let fast := d.fastRelease k
    d.stopChecks.setCoil k fun c => { c with
      phase := .releasing, hi := c.hi && !fast, lo := false, duty := 0, setpoint := 0, slow := !fast
      relSamples := 0, relMin := 0, relMinAt := 0, mark := none, wasClosed := c.confirmed, confirmed := false
      bouncing := false, raising := false, breakDue := fast && c.confirmed }

/-- The releases that fell due in HOLD start as it ends (R338, R347). -/
def Dev.dueReleases (d : Dev) : Dev :=
  coils.foldl (fun d k => if (d.coil.get k).olDue then (d.setCoil k fun c => { c with olDue := false }).release k else d) d

/-- The break current of contactor `k` from frame means, in mA (R277). -/
def Dev.breakMean (d : Dev) (k : K) : Nat :=
  let v (i : Fin 6) : Int := d.sen.vals.get i
  if k = 3 then (v 5).natAbs
  else if k = 2 then (if d.rPre = 0 then 0 else natOf (quantise (absRat ((v 2 - v 3 : Int) : Rat) / d.rPre)))
  else if d.sen.src = 0b11 then d.seq.lastI else d.sen.iPack.natAbs

/-- The break current of contactor `k` from the last sample set, in mA (R277, class D). -/
def Dev.breakLast (d : Dev) (k : K) : Nat :=
  let v (i : Fin 6) : Int := d.sen.last.get i
  if k = 3 then (v 5).natAbs
  else if k = 2 then (if d.rPre = 0 then 0 else natOf (quantise (absRat ((v 2 - v 3 : Int) : Rat) / d.rPre)))
  else if d.sen.src = 0b00 then (quantise (((v 0 + v 1 : Int) : Rat) / 2)).natAbs
  else if d.sen.src = 0b01 then (v 0).natAbs
  else if d.sen.src = 0b10 then (v 1).natAbs
  else d.seq.lastI

/-- The high side of a slow release turns off, at the mark or after 30 ms (R326). -/
def Dev.highSideOff (d : Dev) (k : K) : Dev :=
  d.setCoil k fun c => { c with hi := false, breakDue := c.wasClosed }

/-- Every coil gate turns off by the two-step turn-off: both switches at once, every channel releasing (R327, R345).
The break current is that of the last sample set; where the high side had turned off before, in this frame, it stays the
frame mean (R277). -/
def Dev.coilsOff (d : Dev) : Dev :=
  { d with coil := Vector.ofFn fun k =>
      let c := d.coil.get k
      if c.phase = .released then { c with raising := false }
      else if c.phase = .releasing then
        { c with hi := false, lo := false, slow := false, raising := false, breakDue := c.breakDue && !c.hi,
                 breakI := if c.hi then d.breakLast k else c.breakI }
      else
        { c with
          phase := .releasing, hi := false, lo := false, duty := 0, setpoint := 0, slow := false, relSamples := 0
          relMin := 0, relMinAt := 0, mark := none, wasClosed := c.confirmed, confirmed := false, bouncing := false
          raising := false, breakDue := false, breakI := d.breakLast k } }

/-! ### Gate drive codes (R290) -/

/-- MIN and MAX in force: MIN for both while MIN ≤ MAX is violated (R314). -/
def adaptRange (w : Word) : Nat × Nat :=
  let lo := field w 8 4
  let hi := field w 12 4
  if lo ≤ hi then (lo, hi) else (lo, lo)

/-! ### Wear accounting (R277 to R279) -/

/-- The bin of a value among rising upper edges; the last bin lies above them all. -/
def binOf (edges : List Nat) (v : Nat) : Nat := (edges.filter fun e => e < v).length

/-- The break-current bin of a current in mA (R278).
DEDUCED: notes/assumptions/22.md. -/
def breakBin (mA : Nat) : Nat := binOf [5000, 10000, 20000, 40000, 80000, 160000, 320000, 640000, 1280000] mA

/-- The I²t bin of a value in A²s (R278). -/
def i2tBin (v : Rat) : Nat := ([100, 1000, 10000, 100000, 1000000, 10000000, 100000000].filter fun e : Rat => e < v).length

/-- One count of bin `i` of a histogram. -/
def binInc {n : Nat} (v : Vector Nat n) (i : Nat) : Vector Nat n :=
  if h : i < n then modify v ⟨i, h⟩ (satInc 0xFFFFFF) else v

/-- Counts of break-current bin `i` of contactor `k`, record and increments together. -/
def Dev.breakCount (d : Dev) (k : K) (i : Fin 10) : Nat := (d.lif.total.k.get k).brk.get i + (d.lif.inc.k.get k).brk.get i

/-- The wear W of contactor `k` as a fraction (R279).
DEDUCED: notes/assumptions/22.md. -/
def Dev.wear (d : Dev) (k : K) : Rat :=
  match d.man with
  | none => 0
  | some m => ((List.finRange 10).map fun i =>
      let n := (m.ratedOpenings.get k).getD i.val 0
      if n = 0 then 0 else (d.breakCount k i : Rat) / n).foldl (· + ·) 0

/-- An opening of contactor `k` with a break current in mA and an I²t is accounted: histograms, opening counts,
LIM_BRKLAST and LIM_WEARn (R273, R277, R278). -/
def Dev.accountAs (d : Dev) (k : K) (load : Bool) (breakI : Nat) (i2t : Rat) : Dev :=
  let d := d.countK k fun b => { b with
    openings := satInc 0xFFFFFF b.openings, brk := binInc b.brk (breakBin breakI)
    i2t := binInc b.i2t (i2tBin i2t), underLoad := if load then satInc 0xFFFFFF b.underLoad else b.underLoad }
  let amps := clampNat 0xFFFF (natOf (quantise ((breakI : Rat) / 100)))
  let d := { d with lim := { d.lim with
    brklast := word (place k.val 22 + flag load 21 + amps)
    underLoad := if load then modify d.lim.underLoad k (satInc 0xFFF) else d.lim.underLoad
    ovf := setFlag d.lim.ovf k.val (load && decide (0xFFF ≤ d.lim.underLoad.get k + 1)) } }
  let d := d.setCoil k fun c => { c with i2t := 0 }
  if load then d.notice 33 0 (k.val + 1) else d

/-- The current that tells whether an opening of contactor `k` was under load: its break current, and while the pack
current has no source the last valid |I_pack|, for K4 too (R273, R274). -/
def Dev.loadCurrent (d : Dev) (k : K) : Nat :=
  if d.sen.src = 0b11 ∧ k ≠ 2 then d.seq.lastI else (d.coil.get k).breakI

/-- An opening of contactor `k` is accounted with what its channel measured.
DEDUCED: notes/assumptions/22.md. -/
def Dev.accountOpening (d : Dev) (k : K) : Dev :=
  let c := d.coil.get k
  d.accountAs k (decide (d.seq.iBreak * 1000 ≤ d.loadCurrent k)) c.breakI c.i2t

/-- The channel is released and its release is over.
DEDUCED: notes/assumptions/22.md. -/
def Dev.endRelease (d : Dev) (k : K) (unverified stuck : Bool) : Dev :=
  d.setCoil k fun c => { c with
    stuck := stuck && c.wasClosed, phase := .released, hi := false, lo := false, duty := 0, setpoint := 0, wasClosed := false, breakDue := false
    unverified := if c.wasClosed then unverified else c.unverified
    tRel := match c.mark with
      | some t => clampNat 0x3FF (natOf (quantise ((t : Rat) / 2)))
      | none => c.tRel }

end Sys2Proof.Machine
end

