-- ==== Sys2Proof/Machine/Reaction.lean ====
section
/-! DEFINITION. What a fault does: its record and episode, the class C opening, the open-now path with the safety
latch and the safe state, the drover's transitions, the verdict on a release, and the clearing of the latch (R16,
R267 to R284, R328, R334, R361 to R364). -/
namespace Sys2Proof.Machine

/-! ### The drover -/

/-- K1 or K2 was closed in the present drover state (R151): always in CLOSED, OUTPUT and BREAKING and in HOLD from CLOSED
or OUTPUT, and in PRECHARGE from the moment K2 is confirmed. -/
def Dev.poleClosed (d : Dev) : Bool :=
  match d.seq.drover with
  | .openS | .lockout => false
  | .closed | .output | .breaking => true
  | .hold => decide (d.seq.holdFrom ≠ Drover.openS)
  | .precharge => [(0 : K), 1].any fun k => (d.coil.get k).confirmed || (d.coil.get k).wasClosed

/-- The drover enters a state, with its event (source 1) and the cause code in SUB (R494); an entry to OPEN or LOCKOUT from a
state in which K1 or K2 was closed sets the rest-time stamp (R151). -/
def Dev.moveDrover (d : Dev) (s : Drover) (code : Nat) : Dev :=
  if d.seq.drover = s then d
  else
    let stamp := (s = .openS ∨ s = .lockout) ∧ d.poleClosed
    let d := if stamp then { d with sup := { d.sup with restStamp := some d.sup.rtc } } else d
    ({ d with seq := { d.seq with drover := s } } : Dev).notice 1 code 0

/-- The drover enters a state for which there is no cause code. -/
def Dev.setDrover (d : Dev) (s : Drover) : Dev := d.moveDrover s 0

/-- No sequence is in progress. -/
def Dev.seqIdle (d : Dev) : Dev :=
  { d with seq := { d.seq with
      phase := 0, grace := false, opening := false, toRelease := [], sessionEnding := false, weldWindow := false
      riseAt := none, judged := false } }

/-- The aborts of the last 10 min (R332). -/
def Dev.recentAborts (d : Dev) : List Time :=
  d.seq.aborts.filter fun t => decide (d.sup.rtc.toNat < t.toNat + 600 * 32768)

/-- An aborted pre-charge with K3 confirmed closed in it, releasing included, counts towards the retry limit (R332): the
last three within 10 min, and the block after the third.
DEDUCED: notes/assumptions/23.md. -/
def Dev.countAbort (d : Dev) : Dev :=
  if (d.coil.get 2).confirmed || (d.coil.get 2).wasClosed then
    let all := d.recentAborts ++ [d.sup.rtc]
    let last := all.drop (all.length - 3)
    { d with seq := { d.seq with aborts := last, retryBlocked := d.seq.retryBlocked || decide (3 ≤ last.length) } }
  else d

/-- PRECHARGE ends in OPEN: K3, K2 and K1 are de-energised at once; a code other than 0 is recorded, and the drover's event
carries it (R16, R331, R494). -/
def Dev.abortPrecharge (d : Dev) (code : Nat) : Dev :=
  let d := d.countAbort
  let d := ((d.release 2).release 1).release 0
  let d := if code = 0 then d else { d with seq := { d.seq with abort := code } }
  let d := { d.seqIdle with pwr := { d.pwr with passedSince := false } }
  d.moveDrover .openS code

/-- The string opens at low current: BREAKING, the parameters captured, T_grace running, the session suspended and
the limits zeroed (R16, R24, R272, R388). Feedback checks stop (R346), and a release that HOLD kept back starts (R347). -/
def Dev.enterBreaking (d : Dev) : Dev :=
  let d := d.capture.seqIdle.stopChecks
  let d := { d with seq := { d.seq with grace := true } }
  ((d.setDrover .breaking).dueReleases.suspendSession).zeroCheck

/-- Release of the next contactor of an opening; one that is not energised counts as judged (R334). -/
def Dev.releaseNext : Nat → Dev → Dev
  | 0, d => d
  | n + 1, d =>
    match d.seq.toRelease with
    | [] =>
      if d.seq.drover = .breaking then
        let d := { d.seqIdle with pwr := { d.pwr with passedSince := false } }
        d.setDrover .openS
      else if d.seq.sessionEnding then
        if d.seq.drover = .hold then
          let d := d.seqIdle
          { d with seq := { d.seq with holdFrom := .closed } }
        else d.seqIdle.setDrover .closed
      else d
    | k :: rest =>
      if (d.coil.get k).phase = .released then
        let d := { d with seq := { d.seq with toRelease := rest } }
        Dev.releaseNext n (if k = 3 then d.tollK4Open else d)
      else d.release k

/-- The openings of BREAKING start, in the order K4, K1, K2 (R334). -/
def Dev.startOpenings (d : Dev) : Dev :=
  Dev.releaseNext 4 { d with seq := { d.seq with grace := false, opening := true, toRelease := [3, 0, 1] } }

/-- K4 alone is released at a session's end (R16, R334). -/
def Dev.startSessionEnd (d : Dev) : Dev :=
  Dev.releaseNext 2 { d with seq := { d.seq with grace := false, opening := true, toRelease := [3] } }

/-! ### The safety latch and the safe state -/

/-- The inputs of the latch in the bit order of SAF_LATCH.SRC. -/
def latchBit : LatchSource → BitVec 5
  | .power => 1 | .guard => 2 | .watchdog => 4 | .clock => 8 | .engine => 16

/-- Permission is withdrawn, with its event (source 48). -/
def Dev.withdraw (d : Dev) : Dev :=
  if d.saf.granted then ({ d with saf := { d.saf with granted := false } } : Dev).notice 48 0 0 else d

/-- The latch sets: its source is recorded, all twelve gates turn off in two steps, permission is withdrawn, running
guard tests end without a verdict with GTSTx low, and the pump stops (R302, R357, R361, R364). -/
def Dev.setLatch (d : Dev) (src : LatchSource) : Dev :=
  let first := !d.saf.latch
  let d := { d with saf := { d.saf with
    latch := true, src := if first then latchBit src else d.saf.src ||| latchBit src
    engInput := d.saf.engInput || decide (src = LatchSource.engine)
    resetInput := d.saf.resetInput || decide (src = LatchSource.watchdog) || decide (src = LatchSource.clock)
    testing := 0, testBad := 0, gtst := 0 } }
  let d := d.coilsOff
  let d := { d with pwr := { d.pwr with duty := 0, softStep := if first then 1 else d.pwr.softStep } }
  let d := d.withdraw
  if first then d.notice 49 0 0 else d

/-- A lock cause that only a reset ends (R30).
DEDUCED: notes/assumptions/20.md. -/
def resetOnly (cause : Byte) : Bool := decide (1 ≤ cause.toNat ∧ cause.toNat ≤ 5)

/-- The drover enters LOCKOUT with a cause, in Run at once and otherwise at Run entry (R13, R31, R374). The event of
source 0 carries the cause, in the fault's episode (R495). A Watch entry in progress ends with it.
DEDUCED: notes/assumptions/20.md. -/
def Dev.enterLockout (d : Dev) (cause : Byte) (episode : Nat) : Dev :=
  if !d.inRun then
    let takes := d.mode.lockDue = 0 ∨ resetOnly cause
    { d with mode := { d.mode with
        lockDue := if takes then cause else d.mode.lockDue, lockEpisode := if takes then episode else d.mode.lockEpisode } }
  else
    let keep := decide (d.seq.drover = Drover.lockout) && (!resetOnly cause || resetOnly d.mode.lockCause)
    let entry := decide (d.seq.drover ≠ Drover.lockout)
    let d := { d.seqIdle with mode := { d.mode with
      lockCause := if keep then d.mode.lockCause else cause, entering := false } }
    let d := d.setDrover .lockout
    if entry then (d.countDevice 14).event 0 cause.toNat 5 0 episode (Config.eventData 0 cause.toNat) else d

/-- A closed string opens by a class D trigger: the trigger captures the opening's parameters (R24). In PRECHARGE and in
BREAKING the sequence in progress keeps what it has captured. -/
def Dev.captureOpening (d : Dev) : Dev :=
  match d.seq.drover with
  | .closed | .output => d.capture
  | .hold => if d.seq.holdFrom = .openS then d else d.capture
  | _ => d

/-- The open-now path: latch, safe state and the drover's transition (R16, R275, R364). `lock` is the lock cause
where the fault leads to LOCKOUT, `episode` the fault's. A trigger without it leaves LOCKOUT standing.
DEDUCED: notes/assumptions/20.md. -/
def Dev.openNow (d : Dev) (src : LatchSource) (lock : Option Byte) (episode : Nat) : Dev :=
  let d := if d.seq.drover = Drover.precharge then d.countAbort else d.captureOpening
  let d := { d.setLatch src with pwr := { (d.setLatch src).pwr with passedSince := false } }
  let d := d.suspendSession
  let d := if (d.coil.get 3).phase = CoilPhase.released ∧ (d.coil.get 3).stuck = false then d.tollK4Open else d
  let d := match lock with
    | some cause => d.enterLockout cause episode
    | none =>
      if d.inRun && decide (d.seq.drover ≠ Drover.lockout) then d.seqIdle.setDrover .openS else d
  d.zeroCheck

/-! ### Faults -/

/-- Frames within which a fault that returns keeps its episode (R284). -/
def episodeFrames : Nat := 1000

/-- Whether two faults raised in one frame share an episode (R281, R348, R373). -/
def Dev.sharesEpisode (d : Dev) (f inst : Nat) (g : Nat × Nat × Nat) : Bool :=
  let cd (a b : Nat) : Bool := decide (d.faultClass a = FaultClass.c) && decide (d.faultClass b = FaultClass.d)
  cd f g.1 || cd g.1 f || ((f = 33 || f = 34) && (g.1 = 33 || g.1 = 34)) ||
  ((f = 30 || f = 31) && (g.1 = 30 || g.1 = 31) && inst = g.2.1)

/-- The episode that a fault has at an instance, or had until less than 1 s ago (R284). -/
def Dev.keptEpisode (d : Dev) (f inst : Nat) : Option FaultEpisode :=
  d.lim.episodes.find? fun e => decide (e.fault = f) && decide (e.inst = inst)

/-- The episode that a fault joins: one shared within the frame, or the one it had within the last second (R281, R284, R348,
R373).
DEDUCED: notes/assumptions/17.md. -/
def Dev.joinedEpisode (d : Dev) (f inst : Nat) : Option Nat :=
  match d.lim.frameFaults.find? (d.sharesEpisode f inst) with
  | some g => some g.2.2
  | none => (d.keptEpisode f inst).map (·.id)

/-- The episode of a fault that is raised: the one given, the one it joins, or a new one; with whether the fault is to be
counted in it (R284).
DEDUCED: notes/assumptions/17.md. -/
def Dev.faultEpisode (d : Dev) (f inst : Nat) (given : Option Nat) : Dev × Nat × Bool :=
  let fresh := match d.keptEpisode f inst with | some e => !e.counted | none => true
  match (match given with | some e => some e | none => d.joinedEpisode f inst) with
  | some e => (d, e, fresh)
  | none => (d.newEpisode.1, d.newEpisode.2, true)

/-- The episode of a fault noted. -/
def Lim.noteEpisode (l : Lim) (e : FaultEpisode) : Lim :=
  { l with episodes := e :: l.episodes.filter fun x => !(decide (x.fault = e.fault) && decide (x.inst = e.inst)) }

/-- What a class C fault does to the drover (R16, R272, R34). -/
def Dev.classCReact (d : Dev) : Dev :=
  match d.seq.drover with
  | .precharge => (d.abortPrecharge 0).zeroCheck
  | .closed => d.enterBreaking
  | .output => d.enterBreaking
  | .hold =>
    if d.seq.holdFrom = .openS then (d.setDrover .openS).zeroCheck else d.enterBreaking
  | _ => d.zeroCheck

/-- In place of a source: the event of the fault's chapter stands in the queue already. -/
def queued : Nat := 64

/-- A fault is raised (R267): recorded and given its episode, reported by the event of its source and, for class C
and D, by source 32, and acted on by its effective class. `src`, `sub` and `inst` are the event of its chapter,
`latch` the input that sets the latch, `cause` the lock cause of faults 26 and 38. -/
def Dev.raise (d : Dev) (f : Nat) (latch : LatchSource) (cause : Byte) (src sub inst : Nat) (given : Option Nat) : Dev :=
  let cls := d.faultClass f
  let already := d.faultBits.getLsbD f
  let r := d.faultEpisode f inst given
  let ep := r.2.1
  let fresh := r.2.2
  let d := r.1
  let bit : BitVec 39 := BitVec.ofNat 39 (2 ^ f)
  let d := { d with lim := { d.lim.noteEpisode { fault := f, inst := inst, id := ep } with
    active := d.lim.active ||| bit, latched := if cls = FaultClass.d then d.lim.latched ||| bit else d.lim.latched
    last := if already then d.lim.last else f
    frameFaults := d.lim.frameFaults ++ [(f, inst, ep)] } }
  let data (s : Nat) : Word := word (place f 18 + (Config.eventData s sub).toNat % 2 ^ 18)
  let d := if src = queued then d else d.event src sub (classCode cls) inst ep (data src)
  let severe := decide (cls = FaultClass.c) || decide (cls = FaultClass.d)
  let d := if !already && severe && src ≠ 32 then d.event 32 sub (classCode cls) inst ep (data 32) else d
  let d := if !already && decide (cls = FaultClass.b) then d.event 31 sub (classCode cls) inst ep (data 31) else d
  match cls with
  | .a | .b => d
  | .c => if already then d else d.classCReact
  | .d =>
    let d := if fresh && !already then d.countDevice 13 else d
    let d := if d.lockoutFlag f && decide (d.seq.drover ≠ Drover.lockout) && decide (d.mode.lockDue = 0) then
      { d with mode := { d.mode with lockFault := f } } else d
    d.openNow latch (if d.lockoutFlag f then some (if f = 26 ∨ f = 38 then cause else 0x08) else none) ep

/-- A fault decided by the engine, of no lock cause of its own. -/
def Dev.fault (d : Dev) (f src sub inst : Nat) : Dev := d.raise f .engine 0x08 src sub inst none

/-- A lockout cause: fault 26 or 38 with its code in MODE_STAT.LOCK_CAUSE (R268).
DEDUCED: notes/assumptions/20.md. -/
def Dev.lockFault (d : Dev) (f : Nat) (cause : Byte) (src inst : Nat) : Dev :=
  d.raise f .engine cause src cause.toNat inst none

/-- An event in the episode of fault `f`, which is still to be counted in it where the event comes first. -/
def Dev.episodeEvent (d : Dev) (f src sub inst cls : Nat) (data : Word) : Dev :=
  let r := d.faultEpisode f inst none
  let d := r.1
  let d := { d with lim := d.lim.noteEpisode { fault := f, inst := inst, id := r.2.1, counted := !r.2.2 } }
  d.event src sub cls inst r.2.1 data

/-- An event of fault `f` queued at its own instant, ahead of the frame that decides the fault, in its episode.
DEDUCED: notes/assumptions/17.md. -/
def Dev.faultEvent (d : Dev) (f src sub inst : Nat) : Dev :=
  d.episodeEvent f src sub inst (classCode (d.faultClass f)) (word (place f 18 + (Config.eventData src sub).toNat % 2 ^ 18))

/-- The episode last given to a fault, 0 for none. -/
def Dev.episodeOf (d : Dev) (f : Nat) : Nat := ((d.lim.episodes.find? fun e => e.fault = f).map (·.id)).getD 0

/-- The cause of a fault is gone: a fault that is not latched ends, with the derate event for class B in its episode; a
latched one waits for its clearing rule. -/
def Dev.faultGone (d : Dev) (f : Nat) : Dev :=
  if d.lim.active.getLsbD f then
    let bit : BitVec 39 := BitVec.ofNat 39 (2 ^ f)
    let d := { d with lim := { d.lim with active := d.lim.active &&& ~~~bit } }
    if d.faultClass f = .b then d.noticeIn 31 0 0 (d.episodeOf f) else d
  else d

/-- A fault present or gone, as a condition says.
DEDUCED: notes/assumptions/24.md. -/
def Dev.faultWhen (d : Dev) (b : Bool) (f src sub inst : Nat) : Dev :=
  if b then (if d.lim.active.getLsbD f then d else d.fault f src sub inst) else d.faultGone f

/-- Latched class D faults in `which` end (R276).
DEDUCED: notes/assumptions/47.md. -/
def Dev.unlatch (d : Dev) (which : BitVec 39) : Dev :=
  { d with lim := { d.lim with latched := d.lim.latched &&& ~~~which } }

/-- Every input of the latch is inactive (R362). -/
def Dev.latchInputsOff (d : Dev) : Bool :=
  decide (d.saf.openInput = 0) && d.noDiscrepancy && decide (d.pwr.causes = 0) && !d.saf.engInput &&
  !d.saf.resetInput

/-- The engine's input to the latch follows the class D faults that class S still finds (R362). -/
def Dev.engineInput (d : Dev) : Dev :=
  let own : BitVec 39 := d.lim.active &&& d.lim.latched &&& ~~~(BitVec.ofNat 39 (2 ^ 28 + 2 ^ 29 + 2 ^ 33 + 2 ^ 34))
  { d with saf := { d.saf with engInput := d.saf.engInput && decide (own ≠ 0) } }

/-- The latch clears when none of its inputs is active and no latched fault remains (R362).
DEDUCED: notes/assumptions/47.md. -/
def Dev.tryClearLatch (d : Dev) : Dev :=
  let d := d.engineInput
  if d.saf.latch && d.latchInputsOff && decide (d.lim.latched = 0) then
    { d with saf := { d.saf with latch := false }, pwr := { d.pwr with softStep := 0 } }
  else d

/-! ### Wear events (R279, R340) -/

/-- The wear thresholds of W (bit `k`) or S (bit 4 + `k`): an event when 80 % and when 100 % is first reached, and
fault 37 at 100 %. LIM_OVF says that W has saturated. -/
def Dev.wearCheck (d : Dev) (k : K) (bit : Nat) (v : Rat) : Dev :=
  let d := if bit < 4 then
    { d with lim := { d.lim with ovf := setFlag d.lim.ovf (4 + bit) (decide (4095 / 1000 ≤ v)) } } else d
  let d := if 8 / 10 ≤ v ∧ !d.lim.wear80.getLsbD bit then
    ({ d with lim := { d.lim with wear80 := d.lim.wear80 ||| BitVec.ofNat 8 (2 ^ bit) } } : Dev).notice 33 0 (k.val + 1)
    else d
  if 1 ≤ v ∧ !d.lim.wear100.getLsbD bit then
    ({ d with lim := { d.lim with wear100 := d.lim.wear100 ||| BitVec.ofNat 8 (2 ^ bit) } } : Dev).fault 37 33 0 (k.val + 1)
  else d

/-! ### The verdict on a release (R328) -/

/-- The verdicts of R328. -/
inductive Verdict where
  | confirmedOpen | unverified | welded | notConfirmed
deriving DecidableEq, Repr

/-- Contactor `k` of a running opening is judged: the next release starts (R334). -/
def Dev.openingJudged (d : Dev) (k : K) : Dev :=
  if d.seq.opening ∧ d.seq.toRelease.head? = some k then
    Dev.releaseNext 4 { d with seq := { d.seq with toRelease := d.seq.toRelease.drop 1 } }
  else d

/-- K3's release ends the close sequence: CLOSED (R330, step 5). -/
def Dev.prechargeReleased (d : Dev) (k : K) : Dev :=
  if k = 2 ∧ d.seq.drover = .precharge ∧ d.seq.phase = 5 then d.seqIdle.setDrover .closed else d

/-- A release is judged. An opening is accounted; K4's is told to the toll; a weld or an opening that is not confirmed
raises fault 38 (R328, R277, R387, R388). -/
def Dev.judge (d : Dev) (k : K) (v : Verdict) : Dev :=
  let c := d.coil.get k
  let was := c.wasClosed
  let d := if c.breakDue then d.setCoil k fun c => { c with breakI := d.breakMean k, breakDue := false } else d
  match v with
  | .confirmedOpen | .unverified =>
    let d := if was then d.accountOpening k else d
    let d := d.endRelease k (decide (v = Verdict.unverified)) false
    let d := if was then d.wearCheck k k.val (d.wear k) else d
    let d := if k = 3 then d.tollK4Open else d
    (d.prechargeReleased k).openingJudged k
  | .welded =>
    (d.endRelease k false true).lockFault 38 0x06 32 (k.val + 1)
  | .notConfirmed =>
    (d.endRelease k false true).lockFault 38 0x07 32 (k.val + 1)

/-- Coil current below 50 mA. -/
def Coil.small (c : Coil) : Bool := decide (c.mean.natAbs < 50)

/-- The verdict of R328 that a frame boundary can give on a channel. -/
def Dev.judgeAtFrame (d : Dev) (k : K) : Dev :=
  let c := d.coil.get k
  if c.phase ≠ .releasing ∨ c.hi ∨ !c.small then d
  else if c.noFeedback then d
  else if c.mark.isSome then d.judge k .confirmedOpen
  else if c.slow then (if c.wasClosed then d else d.judge k .unverified)
  else d.judge k .unverified

/-- The verdict of R328 at 40 ms. -/
def Dev.judgeAtTimeout (d : Dev) (k : K) : Dev :=
  let c := d.coil.get k
  if c.phase ≠ .releasing then d
  else if c.noFeedback then d.judge k .unverified
  else if !c.small then d.judge k .notConfirmed
  else if c.mark.isSome then d.judge k .confirmedOpen
  else if c.slow ∧ c.wasClosed then d.judge k .welded
  else d.judge k .unverified

end Sys2Proof.Machine
end

