-- ==== Sys2Proof/Machine/Commands.lean ====
section
/-! DEFINITION. What every host command shares: the relations of R488, the close conditions of R17, and the frame
that carries a command, with its acceptance, token and result (R473, R477, R482 to R484, R502, R584). -/
namespace Sys2Proof.Machine

/-! ### Relations between fields (R488) -/

/-- A class C Split that the manifest does not permit (R126). -/
def Dev.splitBad (d : Dev) : Bool :=
  decide (field d.eng.modecfg 4 2 = 2) && !(match d.man with | some m => m.splitC | none => false)

/-- SEN_PLSCFG: TOL_AB and TOL_H (R222). -/
def Dev.tolAB (d : Dev) : Nat := field d.sen.plscfg 0 8
def Dev.tolH (d : Dev) : Nat := field d.sen.plscfg 8 8

/-- The threshold relations of R260 that are violated, or a manifest class outside its allowed set (R269). -/
def Dev.limBad (d : Dev) : Bool :=
  match d.man with
  | none => false
  | some m =>
    let t := m.th
    !(decide (t.vMax ≤ t.vHigh1) && decide (t.vHigh1 < t.vHigh2) && decide (t.vLow1 ≤ t.vMin) &&
      decide (t.vLow2 < t.vLow1) && decide (t.tHigh1 < t.tHigh2) && decide (t.tLow2 < t.tLow1) &&
      decide (t.ntcHigh1 < t.ntcHigh2)) ||
    faultNumbers.any fun f => match m.faults[f]? with
      | some s => !((faultRow f).2.1.contains s.cls)
      | none => false

/-- V_OV of PWR_VCFG in 0.5 V, and V_DUMP and V_UV as PWR_VCFG gives them. -/
def Dev.vOv (d : Dev) : Nat := 72 + 2 * field d.pwr.vcfg 9 4
def Dev.vDumpSet (d : Dev) : Nat := 56 + field d.pwr.vcfg 4 5
def Dev.vUvSet (d : Dev) : Nat := 24 + field d.pwr.vcfg 13 4

/-- V_DUMP in force in 0.5 V: V_OV − 2 V while V_DUMP + 2 V ≤ V_OV is violated (R314). -/
def Dev.vDump (d : Dev) : Nat := min d.vDumpSet (d.vOv - 4)

/-- V_UV in force in 0.5 V: V_DUMP − 4 V while V_UV + 4 V ≤ V_DUMP is violated (R314). -/
def Dev.vUv (d : Dev) : Nat := min d.vUvSet (d.vDump - 8)

/-- The pump's over-current threshold and its cycle limit as codes of 50 mV; ILIM = OCP − 1 while ILIM < OCP is violated
(R314). -/
def Dev.ocp (d : Dev) : Nat := field d.pwr.ocp 0 5
def Dev.ilim (d : Dev) : Nat := min (field d.pwr.ocp 5 5) (d.ocp - 1)

/-- The relations of R314 and R342 that are violated. -/
def Dev.pwrBad (d : Dev) : Bool :=
  d.pwr.gdrv.toList.any (fun w => decide (field w 12 4 < field w 8 4)) || decide (d.vOv < d.vDumpSet + 4) ||
  decide (field d.pwr.ocp 0 5 ≤ field d.pwr.ocp 5 5) || decide (d.vDump < d.vUvSet + 8) ||
  d.pwr.kcur.toList.any fun w => decide (field w 12 12 ≤ field w 0 12)

/-- A timetable entry is enabled and its OFFSET lies at or above T_CYC (R466).
DEDUCED: notes/assumptions/41.md. -/
def Can.entryBad (c : Can) (e : TtEntry) : Bool := bit e.ent 23 && decide (field c.ttcfg 0 8 ≤ field e.ent 0 8)

/-- DEP_CFG: 100 MHz without the data strobe (R506). -/
def Dev.depBad (d : Dev) : Bool := decide (field d.dep.cfg 0 2 = 0) && !bit d.dep.cfg 2

/-- HST_CFGINC: one bit per page with a violated relation.
DEDUCED: notes/assumptions/41.md. -/
def Dev.cfgInc (d : Dev) : BitVec 17 :=
  BitVec.ofNat 17 (flag d.splitBad 4 + flag (decide (d.tolH < d.tolAB)) 6 + flag d.limBad 8 + flag d.pwrBad 9 +
    flag (d.can0.tt.toList.any d.can0.entryBad) 13 + flag (d.can1.tt.toList.any d.can1.entryBad) 14 + flag d.depBad 16)

/-- The configuration events of the pages whose bit has risen (R488). -/
def Dev.cfgCheck (d : Dev) : Dev :=
  let now := d.cfgInc
  let rise := now &&& ~~~d.hst.cfginc
  let d := { d with hst := { d.hst with cfginc := now } }
  (List.range 17).foldl (fun d p => if rise.getLsbD p then d.notice 63 0 p else d) d

/-! ### The close conditions (R17) -/

/-- The run state allows a close: Normal, or Bench with the manifest's test permission (R14). -/
def Dev.benchTest (d : Dev) : Bool := match d.man with | some m => m.benchTest | none => false
def Dev.modeAllowsClose (d : Dev) : Bool :=
  d.inRun && (decide (d.runState = RunState.normal) || (decide (d.runState = RunState.bench) && d.benchTest))

/-- The stages that the manifest lists. -/
def Dev.listedStages (d : Dev) : List (Fin 32) :=
  match d.man with
  | none => []
  | some m => (List.finRange 32).filter fun i => decide (i.val < m.stageCount)

/-- Stage addresses 1 to 32 as the registers number them. -/
def stageNo (i : Fin 32) : Nat := i.val + 1

/-- Stages with an address (CHN_STAT.FOUND). -/
def Dev.stagesFound (d : Dev) : Nat := ((List.finRange 32).filter fun i => (d.chn.stages.get i).id.isSome).length

/-- The count of stages differs from the manifest's (R198). -/
def Dev.countDiffers (d : Dev) : Bool :=
  match d.man with | some m => decide (d.stagesFound ≠ m.stageCount) | none => true

/-- SEQ_BLOCK: a bit for each unmet condition. -/
def Dev.seqBlock (d : Dev) : Nat :=
  let st (p : Stage → Bool) : Bool := d.man.isSome && d.listedStages.all fun i => p (d.chn.stages.get i)
  flag (!d.modeAllowsClose) 0 +
  flag (!(d.saf.kindsLoaded && guards.all fun g => !d.guardUsed g || (d.guardProven g && d.guardClosed g))) 1 +
  flag (!d.saf.granted) 2 + flag (!(st fun s => s.present) || d.countDiffers) 3 +
  flag (!(st (fun s => s.auth) || (decide (d.runState = RunState.bench) && d.benchTest))) 4 +
  flag (!st fun s => !s.stale && s.newest.isSome) 5 + flag (!d.pwr.passedSince) 6 + flag d.classC 7 +
  flag d.latchedD 8 + flag d.anyLimitZero 9 + flag d.insp.halted 10 + flag (d.cfgInc.getLsbD 2 || d.cfgInc.getLsbD 8) 11

/-! ### Result codes (R27, R440) -/

/-- The result codes. -/
def rDone : Nat := 0x00
def rStarted : Nat := 0x01
def rMode : Nat := 0x10
def rState : Nat := 0x11
def rCondition : Nat := 0x12
def rCause : Nat := 0x13
def rPending : Nat := 0x14
def rFull : Nat := 0x15
def rUnknown : Nat := 0x1F

/-- What a command's execution gives: the device and what the result register holds in bits 15 to 0 (`none` where a
reset has cleared it). -/
abbrev Executed := Dev × Option Nat

/-! ### Command registers -/

/-- The state of a command register. -/
def Cmds.get (c : Cmds) : CmdReg → CmdState
  | .mode => c.mode | .seq => c.seq | .sup => c.sup | .est => c.est | .lim => c.lim | .pwr => c.pwr | .saf => c.saf
  | .tol => c.tol | .lgr => c.lgr | .can0 => c.can0 | .can1 => c.can1 | .hst => c.hst | .dep => c.dep | .lif => c.lif

/-- The state of a command register replaced. -/
def Cmds.put (c : Cmds) (r : CmdReg) (v : CmdState) : Cmds :=
  match r with
  | .mode => { c with mode := v } | .seq => { c with seq := v } | .sup => { c with sup := v }
  | .est => { c with est := v } | .lim => { c with lim := v } | .pwr => { c with pwr := v }
  | .saf => { c with saf := v } | .tol => { c with tol := v } | .lgr => { c with lgr := v }
  | .can0 => { c with can0 := v } | .can1 => { c with can1 := v } | .hst => { c with hst := v }
  | .dep => { c with dep := v } | .lif => { c with lif := v }

/-- The domain whose stop makes an access to the register's page pend; `none` for AO and the host interface (R571). -/
def cmdDomain : CmdReg → Option Domain
  | .mode | .seq | .sup | .saf | .hst => none
  | .can0 | .can1 => some .can
  | _ => some .per

/-- Whether a clock domain runs. -/
def Domains.runs (s : Domains) : Domain → Bool
  | .per => s.per | .can => s.can | .mod => s.mod | .dep => s.dep | .evo => s.evo | .eng => s.eng

/-- A clock domain started or stopped. -/
def Domains.set (s : Domains) (x : Domain) (b : Bool) : Domains :=
  match x with
  | .per => { s with per := b } | .can => { s with can := b } | .mod => { s with mod := b }
  | .dep => { s with dep := b } | .evo => { s with evo := b } | .eng => { s with eng := b }

/-- An access to the domain can be delivered. -/
def Dev.runsFor (d : Dev) (x : Option Domain) : Bool :=
  match x with
  | none => true
  | some y => d.sup.doms.runs y

/-- A command is executed and its token and result kept (R482, R484). -/
def Dev.finish (d : Dev) (r : CmdReg) (tok : Byte) (res : Option Nat) : Dev :=
  match res with
  | none => d
  | some v =>
    let c := d.cmds.get r
    { d with cmds := d.cmds.put r { c with kept := some tok, held := none, result := word (place tok.toNat 16 + v) } }

/-! ### Frames (R473 to R479) -/

/-- HST_LASTERR and HST_ERRCNT record an error (R479). -/
def Dev.frameError (d : Dev) (code : Nat) (frame : BitVec 4) (opcode addr : Nat) : Dev :=
  let h := d.hst
  let crc := decide (code = 1)
  let last := word (place code 21 + place frame.toNat 16 + place (opcode % 16) 12 + addr % 4096)
  { d with hst := { h with
      lasterr := last
      errCrc := if crc then satInc 4095 h.errCrc else h.errCrc
      errOther := if crc then h.errOther else satInc 4095 h.errOther
      ovf := setFlag (setFlag h.ovf 0 (crc && decide (4095 ≤ h.errCrc + 1))) 1 (!crc && decide (4095 ≤ h.errOther + 1)) } }

/-- A frame arrives: it takes the next number (R473). -/
def Dev.numberFrame (d : Dev) : Dev := { d with hst := { d.hst with frame := d.hst.frame + 1 } }

/-- The response to the present frame. -/
def Dev.respond (d : Dev) (err : BitVec 3) (busy : Bool) (ab : BitVec 2) (data : Word) : Dev :=
  { d with hst := { d.hst with resp := { seq := d.hst.frame, err := err, busy := busy, abort := ab, data := data } } }

/-- The response to a frame whose access has not completed 150 ns after it (R478). -/
def Dev.respondBusy (d : Dev) : Dev :=
  { d with hst := { d.hst with
      resp := { kind := .access, seq := d.hst.frame, err := 0, busy := true, abort := 0, data := 0 } } }

/-- The present frame is refused with an error (R479). -/
def Dev.refuseFrame (d : Dev) (err : Nat) (opcode addr : Nat) : Dev :=
  (d.frameError err d.hst.frame opcode addr).respond (BitVec.ofNat 3 err) d.hst.access.isSome 0 0

/-- The addresses of the command registers. -/
def cmdAddr : CmdReg → Nat
  | .mode => 0x041 | .seq => 0x051 | .sup => 0x06E | .est => 0x0F2 | .lim => 0x10C | .pwr => 0x123 | .saf => 0x165
  | .tol => 0x181 | .lgr => 0x1AB | .can0 => 0x1C5 | .can1 => 0x1E5 | .hst => 0x204 | .dep => 0x224 | .lif => 0x23A

/-- The response to an accepted COMMAND: token and code (R476). -/
def acceptedData (tok : Byte) (code : Nat) : Word := word (place tok.toNat 16 + code)

/-- The command register holds a command of another token, so that this one is refused (R483). -/
def CmdState.refuses (c : CmdState) (tok : Byte) : Bool :=
  match c.held with
  | some (t, _) => decide (t ≠ tok)
  | none => false

/-- A command reaches its register: one that the register holds, or the last one executed, has no further effect
(R482, R483); else it is executed, and its result and token are written (R484). -/
def Dev.executeNow (d : Dev) (r : CmdReg) (tok : Byte) (body : Dev → Executed) : Dev :=
  let c := d.cmds.get r
  if c.held.isSome || decide (c.kept = some tok) then d
  else
    let x := body d
    x.1.finish r tok x.2

/-- A command frame at register `r` whose command `take` receives: dropped without supply or in reset (R502); refused
with ERR 4 while another command is held (R483), with ERR 6 while an access is outstanding (R85); pending while the
register's domain is stopped (R85, R584); else accepted (R476). -/
def Dev.commandFrame (d : Dev) (r : CmdReg) (tok : Byte) (code op : Nat) (take : Dev → Dev) : Dev :=
  if !d.alive then d
  else
    let d := d.numberFrame
    if (d.cmds.get r).refuses tok then d.refuseFrame 4 op (cmdAddr r)
    else if d.hst.access.isSome then d.refuseFrame 6 op (cmdAddr r)
    else
      let d := { d with hst := { d.hst with fetch := none } }
      if !d.runsFor (cmdDomain r) then
        ({ d with hst := { d.hst with
          access := some (.command r tok (BitVec.ofNat 8 code)), delivered := false, accessFrame := d.hst.frame } } :
          Dev).respondBusy
      else take (d.respond 0 false 0 (acceptedData tok code))

/-- A command of the toll executed on arrival, which stands for the frame boundary at which it takes effect: a record that
falls due with it is frozen there (R417).
DEDUCED: notes/assumptions/7.md. -/
def Dev.drained (d : Dev) (code : Option Nat) : Executed := (d.drainRecords, code)

/-- A command frame whose command is executed on arrival.
DEDUCED: notes/assumptions/7.md. -/
def Dev.hostCommand (d : Dev) (r : CmdReg) (tok : Byte) (code : Nat) (body : Dev → Executed) : Dev :=
  d.commandFrame r tok code 7 fun d => d.executeNow r tok body

end Sys2Proof.Machine
end

