-- ==== Sys2Proof/Machine/Modes.lean ====
section
/-! DEFINITION. MODE_CMD and SEQ_CMD (R20, R25 to R37): the execution of each command and its meaning. -/
namespace Sys2Proof.Machine

/-! ### MODE_CMD -/

/-- Every record is committed and the staging buffer is empty (R20). -/
def Dev.recordsCommitted (d : Dev) : Bool := decide (d.staged = 0) && decide (d.lgr.next ≤ d.lgr.commit + 1)

/-- No session is open or suspended. -/
def Dev.noSession (d : Dev) : Bool := decide (d.tol.session = Session.none_)

/-- The conditions of R20 at that moment. -/
def Dev.watchAllowed (d : Dev) : Bool :=
  d.inRun && decide (d.runState = RunState.normal) && decide (d.seq.drover = Drover.openS) && d.noSession &&
  d.recordsCommitted

/-- Watch entry starts (R21).
DEDUCED: notes/assumptions/21.md. -/
def Dev.startWatch (d : Dev) : Dev := { d with mode := { d.mode with entering := true } }

/-- WATCH (R20, R29).
DEDUCED: notes/assumptions/21.md. -/
def bodyWatch (d : Dev) : Executed :=
  if !d.inRun then (d, some rMode)
  else if d.seq.drover ≠ .openS then (d, some rState)
  else if d.runState ≠ .normal then (d, some rMode)
  else if !(d.noSession && d.recordsCommitted) then (d, some rPending)
  else (d.startWatch, some rDone)

/-- BENCH_ENTER (R28, R29).
DEDUCED: notes/assumptions/21.md. -/
def bodyBenchEnter (d : Dev) : Executed :=
  if !d.inRun then (d, some rMode)
  else if d.seq.drover ≠ .openS then (d, some rState)
  else if d.runState ≠ .normal ∨ d.mode.entering then (d, some rMode)
  else if !(d.noSession && d.recordsCommitted) then (d, some rPending)
  else (({ d with mode := { d.mode with bench := true } } : Dev).notice 0 0 0, some rDone)

/-- BENCH_EXIT (R28, R29). With the drover not OPEN the table's 0x11 comes before the run state's 0x10.
DEDUCED: notes/assumptions/21.md. -/
def bodyBenchExit (d : Dev) : Executed :=
  if !d.inRun then (d, some rMode)
  else if d.seq.drover ≠ .openS then (d, some rState)
  else if d.runState ≠ .bench then (d, some rMode)
  else if d.insp.halted then (d, some rCondition)
  else (({ d with mode := { d.mode with bench := false } } : Dev).notice 0 0 0, some rDone)

/-- The users of an MDAT input may use it: neither lost nor frozen, and no settling (R211, R221). -/
def Dev.mdatValid (d : Dev) (n : Nat) : Bool :=
  !d.sen.lost.getLsbD n && !d.sen.frozen.getLsbD n && !d.sen.settling

/-- The weld checks of R349: MDAT3 and MDAT4 both valid and below 60 V. -/
def Dev.weldChecks (d : Dev) : Bool :=
  d.mdatValid 3 && d.mdatValid 4 && decide (d.sen.vals.get 3 < 60000) && decide (d.sen.vals.get 4 < 60000)

/-- Whether the cause of a Lockout can be acknowledged and is absent now (R30). -/
def Dev.lockCauseAbsent (d : Dev) : Bool :=
  let c := d.mode.lockCause.toNat
  if c = 6 then d.weldChecks
  else if c = 7 then (coils.all fun k => (d.coil.get k).small && !(d.coil.get k).noFeedback) && d.weldChecks
  else if c = 8 then !d.lim.active.getLsbD d.mode.lockFault
  else false

/-- LOCK_ACK accepted: the latched faults of lockout flag whose cause is absent end, fault 38 with its acknowledged
cause; the drover opens and the latch clears where nothing holds it (R16, R30, R31, R276, R362). A contactor judged welded or
not confirmed open counts from now on as released unverified, so that its next pull-in proves it or finds it welded again
(R329, R333, R349).
DEDUCED: notes/assumptions/23.md. -/
def Dev.acknowledgeLock (d : Dev) : Dev :=
  let d := if d.mode.lockCause = 6 ∨ d.mode.lockCause = 7 then d.faultGone 38 else d
  let ended : BitVec 39 := BitVec.ofNat 39 ((faultNumbers.filter fun f => d.lockoutFlag f && !d.lim.active.getLsbD f).foldl
    (fun a f => a + 2 ^ f) 0)
  let d := d.unlatch ended
  let k4 := (d.coil.get 3).stuck
  let d := { d with mode := { d.mode with lockCause := 0 }, coil := d.coil.map fun (c : Coil) => { c with stuck := false, unverified := c.unverified || c.stuck } }
  let d := if k4 then d.tollK4Open else d
  ((d.setDrover .openS).tryClearLatch).notice 0 0 0

/-- LOCK_ACK (R29, R30, R31). -/
def bodyLockAck (d : Dev) : Executed :=
  if !d.inRun then (d, some rMode)
  else if d.seq.drover ≠ .lockout then (d, some rState)
  else if !d.lockCauseAbsent then (d, some rCause)
  else (d.acknowledgeLock, some rDone)

/-- MODE_CMD WATCH. -/
def execWatch (tok : Byte) (s : State) : Host.Outcome State Fault Refusal :=
  s.effect fun d => d.hostCommand .mode tok 0x01 bodyWatch

/-- MODE_CMD BENCH_ENTER. -/
def execBenchEnter (tok : Byte) (s : State) : Host.Outcome State Fault Refusal :=
  s.effect fun d => d.hostCommand .mode tok 0x02 bodyBenchEnter

/-- MODE_CMD BENCH_EXIT. -/
def execBenchExit (tok : Byte) (s : State) : Host.Outcome State Fault Refusal :=
  s.effect fun d => d.hostCommand .mode tok 0x03 bodyBenchExit

/-- MODE_CMD LOCK_ACK. -/
def execLockAck (tok : Byte) (s : State) : Host.Outcome State Fault Refusal :=
  s.effect fun d => d.hostCommand .mode tok 0x04 bodyLockAck

/-! ### SEQ_CMD -/

/-- CLOSE (R16, R17, R29): step 1 of the close sequence.
DEDUCED: notes/assumptions/21.md. -/
def bodyClose (d : Dev) : Executed :=
  if !d.inRun ∨ d.mode.entering then (d, some rMode)
  else if d.seq.drover ≠ .openS then (d, some rState)
  else if d.seqBlock ≠ 0 then (d, some rCondition)
  else
    let d := d.seqIdle.capture
    let d := { d with seq := { d.seq with phase := 1 } }
    ((d.setDrover .precharge).pullIn 1, some rStarted)

/-- OPEN (R16, R29, R37). -/
def bodyOpen (d : Dev) : Executed :=
  if !d.inRun then (d, some rMode)
  else match d.seq.drover with
    | .openS | .breaking | .lockout => (d, some rDone)
    | .precharge => ((d.abortPrecharge 0).zeroCheck, some rDone)
    | .closed | .output => (d.enterBreaking, some rStarted)
    | .hold => (d, some rState)

/-- HOLD (R16, R29): in Bench it does not move the drover out of OPEN (R14), and in a Watch entry it is refused, so that
Watch is entered in OPEN (R23).
DEDUCED: notes/assumptions/21.md. -/
def bodyHold (d : Dev) : Executed :=
  if !d.inRun ∨ d.mode.entering ∨ (d.runState = .bench ∧ d.seq.drover = .openS) then (d, some rMode)
  else match d.seq.drover with
    | .openS | .closed | .output =>
      (({ d with seq := { d.seq with holdFrom := d.seq.drover } } : Dev).setDrover .hold, some rDone)
    | .hold => (d, some rDone)
    | _ => (d, some rState)

/-- K4's release at a session's end starts where T_grace has expired in HOLD (R16, R347). -/
def Dev.dueSessionEnd (d : Dev) : Dev :=
  if d.seq.sessionEnding && !d.seq.grace && !d.seq.opening then d.startSessionEnd else d

/-- The drover leaves HOLD for the state held from, the relations are checked again (R16, R35), and the releases that
became due in HOLD start (R347). -/
def Dev.leaveHold (d : Dev) : Dev := (d.setDrover d.seq.holdFrom).cfgCheck.dueReleases.dueSessionEnd

/-- RELEASE (R16, R29, R35). -/
def bodyRelease (d : Dev) : Executed :=
  if !d.inRun then (d, some rMode)
  else if d.seq.drover = .hold then (d.leaveHold, some rDone)
  else (d, some rState)

/-- SEQ_CMD CLOSE. -/
def execCloseCmd (tok : Byte) (s : State) : Host.Outcome State Fault Refusal :=
  s.effect fun d => d.hostCommand .seq tok 0x01 bodyClose

/-- SEQ_CMD OPEN. -/
def execOpenCmd (tok : Byte) (s : State) : Host.Outcome State Fault Refusal :=
  s.effect fun d => d.hostCommand .seq tok 0x02 bodyOpen

/-- SEQ_CMD HOLD. -/
def execHoldCmd (tok : Byte) (s : State) : Host.Outcome State Fault Refusal :=
  s.effect fun d => d.hostCommand .seq tok 0x03 bodyHold

/-- SEQ_CMD RELEASE. -/
def execReleaseCmd (tok : Byte) (s : State) : Host.Outcome State Fault Refusal :=
  s.effect fun d => d.hostCommand .seq tok 0x04 bodyRelease

/-- A RELEASE that SEQ_CMD holds in the frame of the expiry has the result DONE (R35).
DEDUCED: notes/assumptions/7.md. -/
def Dev.releaseExpired (d : Dev) : Dev :=
  match d.cmds.seq.held with
  | some (tok, code) => if code = 0x04 then d.finish .seq tok (some rDone) else d
  | none => d

/-- T_hold expires: as RELEASE, with an event (R35). -/
def Dev.holdExpires (d : Dev) : Dev :=
  if d.inRun && decide (d.seq.drover = Drover.hold) then (d.leaveHold.notice 1 0 0).releaseExpired else d

/-- T_HOLD_EXPIRY. -/
def execTHoldExpiry (s : State) : Host.Outcome State Fault Refusal := s.effect Dev.holdExpires

end Sys2Proof.Machine
end

