-- ==== Sys2Proof/Machine/Contactor.lean ====
section
/-! DEFINITION. The contactors: the samples of the coil currents with the armature signature and the release mark, the
close and opening sequences, proof and feedback checks (R320 to R349). -/
namespace Sys2Proof.Machine

/-! ### The close sequence (R330) -/

/-- K1 is pulled in: step 4. -/
def Dev.startK1 (d : Dev) : Dev := ({ d with seq := { d.seq with phase := 4 } } : Dev).pullIn 0

/-- The K3 command: refused under the retry limit (R332), else step 2 with V_0 and V_p taken, the checks judged where
V_p − V_0 is at least 5 % of V_p (R330). They are judged too while MDAT2 or MDAT3 gives no value to compare, so that code 6
follows.
DEDUCED: notes/assumptions/23.md. -/
def Dev.startK3 (d : Dev) : Dev :=
  if d.seq.retryBlocked then d.abortPrecharge 8
  else
    let vp := d.sen.vals.get 2
    let v0 := d.sen.vals.get 3
    let judged := decide (vp ≤ 20 * (vp - v0)) || !(d.mdatValid 2 && d.mdatValid 3)
    ({ d with seq := { d.seq with
      phase := 2, vp := vp, v0 := v0, k3Frames := 0, riseAt := none, judged := judged, weldWindow := judged
      riseMs := 0, t95 := 0 } } : Dev).pullIn 2

/-- A closing is confirmed: the sequence goes on, or the session starts (R324, R330, R384). -/
def Dev.closingConfirmed (d : Dev) (k : K) : Dev :=
  if d.seq.drover = .precharge then
    if k = 1 ∧ d.seq.phase = 1 then d.startK3
    else if k = 2 ∧ (d.seq.phase = 2 ∨ d.seq.phase = 3) ∧ !d.seq.judged then d.startK1
    else if k = 0 ∧ d.seq.phase = 4 then { d with seq := { d.seq with phase := 5 } }
    else d
  else if k = 3 ∧ d.tol.session = .opening then
    let d := if d.seq.drover = .hold then { d with seq := { d.seq with holdFrom := .output } } else d.setDrover .output
    d.tollK4Closed
  else d

/-! ### Samples (R324, R326, R336) -/

/-- Fifty times ΔI = max(20 mA, 2 % of I_pull). -/
def Dev.deltaI50 (d : Dev) (k : K) : Int := max 1000 (d.seq.iPull.get k : Int)

/-- Twenty times the rise of R326: max(10 mA, 5 % of I_hold). -/
def Dev.markRise20 (d : Dev) (k : K) : Int := max 200 (d.seq.iHold.get k : Int)

/-- A sample at a rail code (R336). -/
def railCode (code : BitVec 12) : Bool := decide (code.toNat ≤ 8) || decide (4087 ≤ code.toNat)

/-- Whether a sample completes the dip: ΔI above the lowest current since the dip start (R324). -/
def Dev.confirms (d : Dev) (k : K) (ma : Int) : Bool :=
  let c := d.coil.get k
  decide (c.phase = CoilPhase.signature) && c.dip && decide (50 * c.iLow + d.deltaI50 k ≤ 50 * ma)

/-- One sample of the signature phase: maximum, dip start and lowest point (R324). -/
def Coil.signatureSample (c : Coil) (delta50 ma : Int) : Coil :=
  let n := c.samples + 1
  if c.dip then
    if ma < c.iLow then { c with samples := n, iLow := ma, iLowAt := n } else { c with samples := n }
  else if 50 * ma < 50 * c.iPk - delta50 then { c with samples := n, dip := true, iLow := ma, iLowAt := n }
  else if c.iPk < ma then { c with samples := n, iPk := ma, iPkAt := n }
  else { c with samples := n }

/-- One sample of the bounce window: every local minimum at least ΔI / 2 below the preceding maximum (R324). -/
def Coil.bounceSample (c : Coil) (delta50 ma : Int) : Coil :=
  let n := c.samples + 1
  if c.bPrev < ma then
    let bounce := c.bFalling && decide (delta50 ≤ 100 * (c.bMax - c.bPrev))
    { c with samples := n, bPrev := ma, bFalling := false, bMax := ma, bLast := if bounce then c.samples else c.bLast }
  else if ma < c.bPrev then
    { c with samples := n, bPrev := ma, bFalling := true, bMax := if c.bFalling then c.bMax else c.bPrev }
  else { c with samples := n }

/-- One sample of a slow release: the minimum so far, and the mark at the rise of R326. -/
def Coil.releaseSample (c : Coil) (rise20 ma : Int) : Coil :=
  let n := c.relSamples + 1
  if c.relSamples = 0 ∨ ma < c.relMin then { c with relSamples := n, relMin := ma, relMinAt := n }
  else if 20 * c.relMin + rise20 ≤ 20 * ma then
    { c with relSamples := n, mark := some c.relMinAt, hi := false, breakDue := c.wasClosed }
  else { c with relSamples := n }

/-- Feedback of channel `k` is lost or frozen: fault 30, and open loop from the next frame (R338). A frozen channel may be
lost too (R336). -/
def Dev.feedbackFails (d : Dev) (k : K) (frozen : Bool) : Dev :=
  if (d.coil.get k).noFeedback then d.setCoil k fun c => { c with lost := c.lost || !frozen }
  else
    let d := d.setCoil k fun c => { c with
      lost := !frozen, frozen := frozen, raising := false
      phase := if c.phase = .pullIn ∨ c.phase = .hold then .openLoop else c.phase }
    d.fault 30 32 0 (k.val + 1)

/-- The closing is confirmed by a sample: K_CLOSED, the closing time, the bounce window, the count (R324, R520). -/
def Dev.confirmClosing (d : Dev) (k : K) (ma : Int) : Dev :=
  let d := d.setCoil k fun c => { c with
    phase := if c.noFeedback then .openLoop else .pullIn, confirmed := true, stuck := false, bouncing := true, lastLearned := false
    samples := c.samples + 1
    bMax := ma, bPrev := ma, bFalling := false, bLast := c.iLowAt, i2t := 0
    tClose := clampNat 0x3FF (natOf (quantise ((c.iLowAt : Rat) / 2))) }
  let d := d.countK k fun b => { b with closings := satInc 0xFFFFFF b.closings }
  d.closingConfirmed k

/-- A sample is counted into the frame mean, the rail run and the quiet time (R219, R336, R339). -/
def Coil.countSample (c : Coil) (code : BitVec 12) (ma : Int) : Coil :=
  let rail := railCode code
  { c with
    sum := c.sum + ma, count := c.count + 1, railRun := if rail then c.railRun + 1 else 0
    quiet := if rail || decide (50 < ma.natAbs) then 0 else c.quiet }

/-- What one sample does to its channel; a confirming sample leaves the signature as it stands (R324, R326). -/
def Coil.sample (c : Coil) (confirm : Bool) (delta50 rise20 : Int) (code : BitVec 12) (ma : Int) : Coil :=
  let c := c.countSample code ma
  match c.phase with
  | .signature => if confirm then c else c.signatureSample delta50 ma
  | .releasing => if c.slow && c.hi then c.releaseSample rise20 ma else c
  | _ => if c.bouncing then c.bounceSample delta50 ma else c

/-- The dip start of K3 ends the weld window (R330, step 2). -/
def Dev.weldWindowEnds (d : Dev) : Dev := { d with seq := { d.seq with weldWindow := false, phase := 3 } }

/-- One 20 kHz sample of channel `k` (R324, R326, R330, R336). -/
def Dev.coilSample (d : Dev) (k : K) (code : BitVec 12) (ma : Int) : Dev :=
  let confirm := d.confirms k ma
  let c := (d.coil.get k).sample confirm (d.deltaI50 k) (d.markRise20 k) code ma
  let dips := !(d.coil.get k).dip && c.dip
  let d := d.setCoil k fun _ => c
  let d := if k = 2 ∧ d.seq.drover = .precharge ∧ d.seq.phase = 2 ∧ dips then d.weldWindowEnds else d
  let d := if confirm then d.confirmClosing k ma else d
  if 10 ≤ c.railRun then d.feedbackFails k false else d

/-- The current in mA that a code of a sense channel means: 1.65 V at zero current, over the amplifier's gain in V/V and
the shunt in Ω (R219).
PRESUMED: notes/assumptions/70.md. -/
def senseCurrent (gain : Nat) (shunt : Rat) (code : BitVec 12) : Rat :=
  ((code.toNat : Int) - 2048 : Int) * (3300 / 4096) / (gain * shunt)

/-- The gain of a coil channel's amplifier in V/V (R219). -/
def Dev.senseGain (d : Dev) (k : K) : Nat := 5 * 2 ^ field d.sen.csacfg (2 * k.val) 2

/-- The current of a coil channel in mA at a code; without a manifest its shunt is unknown. -/
def Dev.coilCurrent (d : Dev) (k : K) (code : BitVec 12) : Int :=
  match d.man with
  | none => Config.unscaled code
  | some m => quantise (senseCurrent (d.senseGain k) (m.coilShunt.get k) code)

/-- COIL_CURRENT_SAMPLE. -/
def execCoilCurrentSample (k : K) (code : BitVec 12) (s : State) : Host.Outcome State Fault Refusal :=
  s.effect fun d => d.coilSample k code (d.coilCurrent k code)

/-! ### Timers of the sequences -/

/-- The release of a contactor that has fallen due: in HOLD it waits for the end of HOLD (R347). -/
def Dev.releaseDue (d : Dev) (k : K) : Dev :=
  if d.seq.drover = .hold then d.setCoil k fun c => { c with olDue := true } else d.release k

/-- A pull-in without confirmation after 80 ms: a weld where it showed no dip and the last release was unverified, else an
unconfirmed closing, which aborts the pre-charge or refuses the session (R16, R329, R331).
DEDUCED: notes/assumptions/23.md. -/
def Dev.closingTimeout (d : Dev) (k : K) : Dev :=
  let c := d.coil.get k
  if c.phase ≠ .signature then d
  else if c.unverified && !c.dip then d.lockFault 38 0x06 32 (k.val + 1)
  else if d.seq.drover = .precharge then d.abortPrecharge 7
  else if k = 3 then
    let d := d.releaseDue 3
    if d.tol.session = .opening then d.tollK4Open else d
  else d.releaseDue k

/-- CLOSING_TIMEOUT. -/
def execClosingTimeout (k : K) (s : State) : Host.Outcome State Fault Refusal := s.effect fun d => d.closingTimeout k

/-- T_pull after confirmation: the setpoint becomes I_hold (R320). -/
def Dev.pullInEnd (d : Dev) (k : K) : Dev :=
  if (d.coil.get k).phase = .pullIn then
    d.setCoil k fun c => { c with phase := .hold, setpoint := d.seq.iHold.get k, steady := 0 }
  else if (d.coil.get k).phase = .openLoop then d.setCoil k fun c => { c with setpoint := d.seq.iHold.get k }
  else d

/-- PULL_IN_END. -/
def execPullInEnd (k : K) (s : State) : Host.Outcome State Fault Refusal := s.effect fun d => d.pullInEnd k

/-- t_max and b_max of contactor `k` in 0.1 ms. -/
def Dev.tMax (d : Dev) (k : K) : Rat := match d.man with | some m => m.tMax.get k | none => 0
def Dev.bMax (d : Dev) (k : K) : Rat := match d.man with | some m => m.bMax.get k | none => 0

/-- The signature index S of R340 as a fraction; the closing-time term counts once the baseline of R325 exists. -/
def Dev.signatureIndex (d : Dev) (k : K) : Rat :=
  let c := d.coil.get k
  let t := if c.learned < 16 ∨ d.tMax k - c.t0 ≤ 0 then 0 else (c.tL - c.t0) / (d.tMax k - c.t0)
  let b := if d.bMax k ≤ 0 then 0 else c.bL / d.bMax k
  max 0 (max t b)

/-- A learned closing: t_L and b_L move by a sixteenth, and the first 16 set the baseline (R325).
DEDUCED: notes/assumptions/23.md. -/
def Coil.learn (c : Coil) (t b : Rat) : Coil :=
  let n := c.learned
  { c with
    tL := c.tL + (t - c.tL) / 16, bL := c.bL + (b - c.bL) / 16
    t0 := if n < 16 then (c.t0 * n + t) / (n + 1) else c.t0
    b0 := if n < 16 then (c.b0 * n + b) / (n + 1) else c.b0
    learned := satInc 0xFFFFFF n, lastLearned := true }

/-- S and, at every 256th learned closing, the forecast in 100 operations and S_prev (R340).
DEDUCED: notes/assumptions/23.md. -/
def Coil.forecast (c : Coil) (s : Rat) : Coil :=
  if c.learned % 256 = 0 then
    { c with
      s := s, sPrev := s
      remain := if s ≤ c.sPrev then 0x3FFF
        else clampNat 0x3FFE (natOf (quantise (256 * (1 - s) / (s - c.sPrev) / 100))) }
  else { c with s := s }

/-- 10 ms after confirmation: the bounce time is fixed and the closing learned where VCOILS stayed in range (R324,
R325, R340). -/
def Dev.bounceWindowEnd (d : Dev) (k : K) : Dev :=
  let c := d.coil.get k
  if !c.bouncing then d
  else
    let t : Rat := (c.iLowAt : Rat) / 2
    let b : Rat := ((c.bLast - c.iLowAt : Nat) : Rat) / 2
    if c.railOk then
      let d := d.setCoil k fun c => { c.learn t b with bouncing := false }
      let full := decide (0xFFFFFF ≤ c.learned + 1)
      let d := { d with lif := { d.lif with sat := setFlag d.lif.sat (k.val + 1) full } }
      let s := d.signatureIndex k
      let d := d.setCoil k fun c => c.forecast s
      d.wearCheck k (4 + k.val) s
    else d.setCoil k fun c => { c with bouncing := false, lastLearned := false }

/-- BOUNCE_WINDOW_END. -/
def execBounceWindowEnd (k : K) (s : State) : Host.Outcome State Fault Refusal := s.effect fun d => d.bounceWindowEnd k

/-- 50 ms after K1 is confirmed: K3 is released (R330, step 5). -/
def Dev.k3ReleaseDelay (d : Dev) : Dev :=
  if d.seq.drover = .precharge ∧ d.seq.phase = 5 then d.release 2 else d

/-- K3_RELEASE_DELAY. -/
def execK3ReleaseDelay (s : State) : Host.Outcome State Fault Refusal := s.effect Dev.k3ReleaseDelay

/-- 10 min after the first of the three aborts: K3 commands are allowed again (R332). -/
def Dev.retryWindowEnd (d : Dev) : Dev :=
  { d with seq := { d.seq with
      aborts := if d.seq.aborts.length < 3 then d.seq.aborts else d.seq.aborts.drop 1, retryBlocked := false } }

/-- PRECHARGE_RETRY_WINDOW_END. -/
def execPrechargeRetryWindowEnd (s : State) : Host.Outcome State Fault Refusal := s.effect Dev.retryWindowEnd

/-- A session's end has K4 waiting to open, in OUTPUT: in HOLD no release starts (R16, R347).
DEDUCED: notes/assumptions/23.md. -/
def Dev.k4Ending (d : Dev) : Bool := d.seq.sessionEnding && decide (d.seq.drover = Drover.output)

/-- T_grace expires: the openings start whatever the current (R16, R272, R274); in HOLD K4's release at a session's end is due
when HOLD ends (R347). -/
def Dev.graceExpires (d : Dev) : Dev :=
  if !d.seq.grace then d
  else if d.seq.drover = .breaking then d.startOpenings
  else if d.k4Ending then d.startSessionEnd
  else if d.seq.sessionEnding && decide (d.seq.drover = Drover.hold) then { d with seq := { d.seq with grace := false } }
  else d

/-- T_GRACE_EXPIRY. -/
def execTGraceExpiry (s : State) : Host.Outcome State Fault Refusal := s.effect Dev.graceExpires

/-- 30 ms after the low side turned off without a mark: the high side turns off (R326). -/
def Dev.highSideTimeout (d : Dev) (k : K) : Dev :=
  let c := d.coil.get k
  if c.phase = .releasing ∧ c.slow ∧ c.hi then d.highSideOff k else d

/-- RELEASE_HIGH_SIDE_TIMEOUT. -/
def execReleaseHighSideTimeout (k : K) (s : State) : Host.Outcome State Fault Refusal :=
  s.effect fun d => d.highSideTimeout k

/-- RELEASE_VERDICT_TIMEOUT. -/
def execReleaseVerdictTimeout (k : K) (s : State) : Host.Outcome State Fault Refusal :=
  s.effect fun d => d.judgeAtTimeout k

/-! ### Proof and feedback (R335 to R339) -/

/-- Proof pulses and feedback checks run: outside BREAKING and while no channel releases (R346). -/
def Dev.proofsRun (d : Dev) : Bool :=
  decide (d.seq.drover ≠ Drover.breaking) && d.coil.toList.all fun c => decide (c.phase ≠ CoilPhase.releasing)

/-- A channel in hold, or held open loop (R346). -/
def Coil.held (c : Coil) : Bool := decide (c.phase = CoilPhase.hold) || decide (c.phase = CoilPhase.openLoop)

/-- The bit of a switch in `Pwr.proofBad`. -/
def proofBit (k : K) (low : Bool) : BitVec 8 := BitVec.ofNat 8 (2 ^ (2 * k.val + (if low then 1 else 0)))

/-- The node of a pulse has moved within 10 µs and stayed moved to the pulse's end: for a high-side pulse SHx below 2 V, for a
low-side pulse DLx above VCOILS − 2 V (R335). -/
def Dev.nodeMoved (d : Dev) (low : Bool) (n : ProofNode) : Bool :=
  if low then decide (d.pwr.vcoils < n.lowest + 2000) else decide (n.highest < 2000)

/-- A live proof of one switch of channel `k`: a node that does not move raises fault 31 (R335).
DEDUCED: notes/assumptions/24.md. -/
def Dev.liveProof (d : Dev) (k : K) (n : ProofNode) : Dev :=
  let c := d.coil.get k
  if !(c.held && d.proofsRun) then d
  else
    let low := c.proofLow
    let moved := d.nodeMoved low n
    let d := d.setCoil k fun c => { c with proofLow := !c.proofLow }
    if moved then
      let d := { d with pwr := { d.pwr with proofBad := d.pwr.proofBad &&& ~~~proofBit k low } }
      if d.pwr.proofBad = 0 then d.faultGone 31 else d
    else
      let d := { d with pwr := { d.pwr with
        proofBad := d.pwr.proofBad ||| proofBit k low, proofFails := satInc 255 d.pwr.proofFails
        proofValid := true, proofSide := low, proofChannel := k.val } }
      d.fault 31 32 0 (k.val + 1)

/-- LIVE_SWITCH_PROOF. -/
def execLiveSwitchProof (k : K) (node : ProofNode) (s : State) : Host.Outcome State Fault Refusal :=
  s.effect fun d => d.liveProof k node

/-- A feedback check starts: the duty rises by 10 % from the next frame (R337). -/
def Dev.feedbackCheck (d : Dev) (k : K) : Dev :=
  if (d.coil.get k).held && d.proofsRun then d.setCoil k fun c => { c with raising := true, before := c.mean } else d

/-- FEEDBACK_CHECK. -/
def execFeedbackCheck (k : K) (s : State) : Host.Outcome State Fault Refusal := s.effect fun d => d.feedbackCheck k

/-- The check is judged after 20 ms: a rise of less than 2 % of I_hold fails it, and the third failure in a row makes
the feedback frozen (R337). Open loop it is not judged (R346). -/
def Dev.feedbackCheckEnd (d : Dev) (k : K) : Dev :=
  let c := d.coil.get k
  if !c.raising then d
  else if c.phase ≠ .hold ∨ c.noFeedback then d.setCoil k fun c => { c with raising := false }
  else if (d.seq.iHold.get k : Int) ≤ 50 * (c.mean - c.before) then
    d.setCoil k fun c => { c with raising := false, checkFails := 0 }
  else
    let d := d.setCoil k fun c => { c with raising := false, checkFails := c.checkFails + 1 }
    if 3 ≤ (d.coil.get k).checkFails then d.feedbackFails k true else d

/-- FEEDBACK_CHECK_END. -/
def execFeedbackCheckEnd (k : K) (s : State) : Host.Outcome State Fault Refusal :=
  s.effect fun d => d.feedbackCheckEnd k

/-- T_coil_ol expires: the channel is released with both switches off; in HOLD no release starts, and this one is due
when HOLD ends (R338, R347).
DEDUCED: notes/assumptions/23.md. -/
def Dev.openLoopExpires (d : Dev) (k : K) : Dev := if (d.coil.get k).phase ≠ .openLoop then d else d.releaseDue k

/-- OPEN_LOOP_EXPIRY. -/
def execOpenLoopExpiry (k : K) (s : State) : Host.Outcome State Fault Refusal := s.effect fun d => d.openLoopExpires k

/-- The lost or frozen state ends in OPEN after a second near zero and passed diagnostics; fault 30 ends with the last
channel's (R339). -/
def Dev.feedbackRestored (d : Dev) (k : K) : Dev :=
  let c := d.coil.get k
  if d.seq.drover = .openS ∧ c.noFeedback ∧ c.phase = .released ∧ 1000 ≤ c.quiet ∧ d.pwr.passedSince then
    let d := d.setCoil k fun c => { c with lost := false, frozen := false, railRun := 0, lowRun := 0, checkFails := 0 }
    if d.coil.toList.any Coil.noFeedback then d else d.faultGone 30
  else d

/-- FEEDBACK_RESTORED. -/
def execFeedbackRestored (k : K) (s : State) : Host.Outcome State Fault Refusal :=
  s.effect fun d => d.feedbackRestored k

/-- R_app := R_app + (D × VCOILS / I − R_app) / 8 while the channel holds with valid feedback and a loop error within
2 % for 100 ms (R323). -/
def Dev.rappUpdate (d : Dev) (k : K) : Dev :=
  let c := d.coil.get k
  if c.phase = .hold ∧ !c.noFeedback ∧ 100 ≤ c.steady ∧ 0 < c.mean then
    let r : Rat := (c.duty : Rat) / 6000 * d.pwr.vcoils / (c.mean : Rat) * 1000
    d.setCoil k fun c => { c with rApp := c.rApp + (r - c.rApp) / 8 }
  else d

/-- RAPP_UPDATE. -/
def execRappUpdate (k : K) (s : State) : Host.Outcome State Fault Refusal := s.effect fun d => d.rappUpdate k

/-! ### The coil channels at a frame boundary (R321, R336, R338) -/

/-- Frame mean of a channel's samples; without a sample it stays. -/
def Coil.frameMean (c : Coil) : Int := if c.count = 0 then c.mean else quantise ((c.sum : Rat) / c.count)

/-- A duty as a feedback check raises it: by 10 % of its value (R337). -/
def Coil.raised (c : Coil) (n : Nat) : Nat := allowedDuty (if c.raising then clampNat 6000 (n * 11 / 10) else n)

/-- The duty of a channel for the next frame (R321, R337, R338, R346). -/
def Dev.frameDuty (d : Dev) (k : K) : Nat :=
  let c := d.coil.get k
  match c.phase with
  | .signature => d.dSig k
  | .pullIn | .hold => c.raised (clampNat 6000 (Config.coilPi c.setpoint c.mean c.duty))
  | .openLoop => c.raised (d.dOl k)
  | _ => 0

/-- One channel at a frame boundary: mean (unless the item keeps its last value, R114), feedback, wear integral, duty and
steadiness. -/
def Dev.coilFrame (d : Dev) (keep : Kept) (k : K) : Dev :=
  let amps : Rat := (if k = 3 then ((d.sen.vals.get 5 : Int) : Rat) else ((d.sen.iPack : Int) : Rat)) / 1000
  let rail := d.railGood
  let strong := decide (12000 ≤ d.pwr.vcoils)
  let d := d.setCoil k fun c =>
    let mean := if keep (0x13A + (Fin.val k)) then c.mean else c.frameMean
    let low := decide (10 * mean < (c.setpoint : Int)) && decide (3000 ≤ c.duty) && strong && decide (0 < c.setpoint)
    { c with
      mean := mean, sum := 0, count := 0, lowRun := if low then c.lowRun + 1 else 0
      railOk := c.railOk && (rail || !(c.phase = .signature || c.phase = .pullIn))
      i2t := if c.confirmed then c.i2t + amps * amps / 1000 else c.i2t
      steady := if c.phase = .hold ∧ 50 * (mean - c.setpoint).natAbs ≤ c.setpoint then c.steady + 1 else 0
      quiet := if c.phase = .released then c.quiet + 1 else 0 }
  let d := if 3 ≤ (d.coil.get k).lowRun then d.feedbackFails k false else d
  let n := d.frameDuty k
  d.setCoil k fun c => { c with duty := n }

/-- The break currents of the high sides that turned off in the frame, and the verdicts of the boundary (R277,
R328). -/
def Dev.releaseFrame (d : Dev) (k : K) : Dev :=
  let d := if (d.coil.get k).breakDue then
    d.setCoil k fun c => { c with breakI := d.breakMean k, breakDue := false } else d
  d.judgeAtFrame k

/-! ### The drover at a frame boundary (R16, R331, R334) -/

/-- ΔV_r in mV: max(1 % of V_p − V_0, 2 V). -/
def Seq.deltaV (q : Seq) : Rat := max (((q.vp - q.v0 : Int) : Rat) / 100) 2000

/-- The checks of R331 that name no time, 0 for none; V_l in mV: the feedback of both voltages, and overshoot. They stand from
the K3 command to the end of PRECHARGE.
DEDUCED: notes/assumptions/23.md. -/
def Dev.linkCheck (d : Dev) (vl : Int) : Nat :=
  if !(d.mdatValid 2 && d.mdatValid 3) then 6
  else if (d.seq.vp : Rat) + max ((d.seq.vp : Rat) * 2 / 100) 5000 < (vl : Rat) then 4
  else 0

/-- The failed check of R331 at this boundary, 0 for none; V_l in mV. -/
def Dev.prechargeCheck (d : Dev) (vl : Int) : Nat :=
  let q := d.seq
  let rise := decide (((q.v0 : Int) : Rat) + q.deltaV < (vl : Rat))
  let t : Rat := (q.k3Frames : Rat) / 1000
  let span : Rat := ((q.vp - q.v0 : Int) : Rat)
  let lag : Bool := match q.riseAt with
    | none => false
    | some r =>
      let x := t - (r : Rat) / 1000
      decide (q.tau ≤ x) && decide ((vl : Rat) < (q.vp : Rat) - span * expOf (-x / q.tau) - 15 / 100 * span)
  if d.linkCheck vl = 6 then 6
  else if q.weldWindow && rise then 5
  else if d.linkCheck vl = 4 then 4
  else if q.riseAt.isNone && !rise && decide (20 ≤ q.k3Frames) then 1
  else if lag then 2
  else if 5 * q.tau ≤ t ∧ 100 * vl < 95 * q.vp then 3
  else 0

/-- Supervision of the pre-charge at a boundary, from the K3 command to 95 % (R330, R331). -/
def Dev.superviseFrame (d : Dev) : Dev :=
  let vl := d.sen.vals.get 3
  let d := { d with seq := { d.seq with k3Frames := d.seq.k3Frames + 1, vp := d.sen.vals.get 2 } }
  let rise := decide (((d.seq.v0 : Int) : Rat) + d.seq.deltaV < (vl : Rat))
  let check := d.prechargeCheck vl
  if check = 5 then
    ({ d with seq := { d.seq with abort := 5 } } : Dev).lockFault 38 0x06 32 1
  else if check ≠ 0 then d.abortPrecharge check
  else
    let d := if d.seq.riseAt.isNone && rise then
      { d with seq := { d.seq with riseAt := some d.seq.k3Frames, riseMs := clampNat 0xFFF d.seq.k3Frames } } else d
    if 95 * d.seq.vp ≤ 100 * vl then
      ({ d with seq := { d.seq with t95 := clampNat 0xFFF d.seq.k3Frames } } : Dev).startK1
    else d

/-- The checks that go on after 95 % is met, until PRECHARGE ends (R331). -/
def Dev.linkFrame (d : Dev) : Dev :=
  let d := { d with seq := { d.seq with vp := d.sen.vals.get 2 } }
  let check := d.linkCheck (d.sen.vals.get 3)
  if check = 0 then d else d.abortPrecharge check

/-- The drover at a frame boundary: a lost close condition, the supervision, and the start of openings once the
current is low (R16, R272, R274, R330, R334). -/
def Dev.droverFrame (d : Dev) : Dev :=
  match d.seq.drover with
  | .precharge =>
    if d.seqBlock ≠ 0 then d.abortPrecharge 0
    else if d.seq.judged ∧ (d.seq.phase = 2 ∨ d.seq.phase = 3) then d.superviseFrame
    else if d.seq.judged ∧ (d.seq.phase = 4 ∨ d.seq.phase = 5) then d.linkFrame
    else d
  | .breaking =>
    if d.seq.grace ∧ d.sen.src ≠ 0b11 ∧ d.sen.iPack.natAbs < 1000 * d.seq.iBreak then d.startOpenings else d
  | _ =>
    if d.k4Ending ∧ d.seq.grace ∧ d.mdatValid 5 ∧ (d.sen.vals.get 5).natAbs < 1000 * d.seq.iBreak then
      d.startSessionEnd
    else d

end Sys2Proof.Machine
end

