-- ==== Sys2Proof/Machine/Power.lean ====
section
/-! DEFINITION. The power stage (R287 to R319): protection, dump chopper, off-state diagnostics and self-test, DRV_EN,
the pump bridge with its speed loop, and the gate drive codes. -/
namespace Sys2Proof.Machine

/-! ### Protection -/

/-- The power stage is live: from muster step 11 on and in Run (R287, R540). -/
def Dev.stageLive (d : Dev) : Bool := d.inRun || (decide (d.mode.mode = Mode.muster) && decide (11 ≤ d.sys.step))

/-- The off-state sequence ends where it stands; the remaining verdicts keep "not run" (R315). -/
def Dev.endDiag (d : Dev) : Dev :=
  { d with pwr := { d.pwr with diagPhase := none, diagSeq := false, ctstDue := false } }

/-- PWR_CNT.TRIPS and its overflow, with the event of source 43. -/
def Dev.countTrip (d : Dev) : Dev :=
  let full := decide (63 ≤ d.pwr.trips + 1)
  let first := full && decide (d.pwr.trips < 63)
  let d := { d with pwr := { d.pwr with trips := satInc 63 d.pwr.trips, cntOvf := d.pwr.cntOvf || full } }
  if first then d.notice 43 0 0 else d

/-- Fault 28 latches with a cause and a place (R300, R301, R305): the first since the last clear is recorded, later
ones are counted and share its episode.
DEDUCED: notes/assumptions/62.md. -/
def Dev.powerTrip (d : Dev) (cause place : Nat) : Dev :=
  let again := d.lim.latched.getLsbD 28
  let given := if again then d.pwr.episode else none
  let d := if again then d.countTrip
    else { d with pwr := { d.pwr with fltCause := BitVec.ofNat 8 cause, fltWhere := BitVec.ofNat 4 place } }
  let d := d.raise 28 .power 0x08 34 cause place given
  { d with pwr := { d.pwr with episode := (d.keptEpisode 28 place).map (·.id) } }

/-- Under-voltage of VCP and VCOIL is not monitored while every gate is off (R300); DRV_EN and the supplies are judged
only while the stage is live (R540). -/
def Dev.monitored (d : Dev) (cause : Nat) : Bool :=
  d.stageLive && !((cause = 5 || cause = 6) && d.allGatesOff)

/-- The switch of a place is on: 0 to 7 the coil gates, high side even, and 8 to 11 the pump gates. -/
def Dev.switchOn (d : Dev) (place : Nat) : Bool :=
  if h : place < 8 then
    let k : K := ⟨place / 2, by omega⟩
    if place % 2 = 0 then d.highOn k else d.lowOn k
  else d.pumpGates.getLsbD (place - 8)

/-- The VDS threshold of a place in mV: PWR_VDS1 to PWR_VDS4 of the coil channels, PWR_VDSP of the pump (R300).
DEDUCED: notes/assumptions/62.md. -/
def Dev.vdsThreshold (d : Dev) (place : Nat) : Nat :=
  let side := if place % 2 = 0 then 0 else 4
  if h : place < 8 then (field (d.pwr.vds.get ⟨place / 2, by omega⟩) side 4 + 1) * 100
  else (field (d.pwr.vds.get 4) side 4 + 1) * 100

/-- The condition of a protection monitor at a place, with the voltage that it has seen in mV (R300). -/
def Dev.tripCondition (d : Dev) (cause place level : Nat) : Bool :=
  match cause with
  | 1 => d.switchOn place && decide (d.vdsThreshold place < level)
  | 2 => decide ((field d.pwr.oc (5 * (place % 4)) 5 + 1) * 50 < level)
  | 3 => decide ((d.ocp + 1) * 50 < level)
  | 4 => decide (level < 8500)
  | 5 => decide (level < 8000)
  | 6 => decide (level < 500 * d.vUv)
  | 7 => decide (500 * d.vOv < level)
  | 8 => !d.pwr.drvEn
  | _ => false

/-- A monitor trips: it watches now, and its condition holds (R300). -/
def Dev.mayTrip (d : Dev) (cause : Nat) (m : Monitored) : Bool :=
  d.monitored cause && d.tripCondition cause m.place.toNat m.level

/-- A monitor trips (R300). Its cause is present (R301) until its condition ends, which for causes 1 to 3 is with the gates, at
the end of the frame (R316).
DEDUCED: notes/assumptions/62.md. -/
def Dev.protectionTrip (d : Dev) (cause : Nat) (m : Monitored) : Dev :=
  if !d.mayTrip cause m then d
  else
    let d := d.endDiag
    let d := { d with pwr := { d.pwr with causes := d.pwr.causes ||| BitVec.ofNat 9 (2 ^ (cause - 1)) } }
    d.powerTrip cause m.place.toNat

/-- PROTECTION_TRIP. -/
def execProtectionTrip (cause : Fin 8) (seen : Monitored) (s : State) : Host.Outcome State Fault Refusal :=
  s.effect fun d => d.protectionTrip (cause.val + 1) seen

/-- The DRV_EN monitor's view of a low DRV_EN. -/
def drvEnLow : Monitored := { place := 0, level := 0 }

/-- Causes 1 to 3 are present no more: the gates that they watch are off (R300, R301). -/
def Dev.endTrips (d : Dev) : Dev := { d with pwr := { d.pwr with causes := d.pwr.causes &&& 0x1F8 } }

/-- Step 2 of the soft turn-off (R302). -/
def Dev.softStep2 (d : Dev) : Dev :=
  if d.pwr.softStep = 1 then { d with pwr := { d.pwr with softStep := 2 } } else d

/-- SOFT_TURN_OFF_STEP2. -/
def execSoftTurnOffStep2 (s : State) : Host.Outcome State Fault Refusal := s.effect Dev.softStep2

/-- Fault 28 is cleared: record, causes and latch, with the event of source 35 (R311). -/
def Dev.clear28 (d : Dev) : Dev :=
  let bit : BitVec 39 := BitVec.ofNat 39 (2 ^ 28)
  let d := { d with lim := { d.lim with active := d.lim.active &&& ~~~bit, latched := d.lim.latched &&& ~~~bit } }
  let ep := d.pwr.episode.getD 0
  let d := { d with pwr := { d.pwr with fltCause := 0, fltWhere := 0, episode := none } }
  (d.noticeIn 35 0 0 ep).tryClearLatch

/-- PWR_CLR (R311, R316). -/
def bodyPwrClr (d : Dev) : Executed :=
  if !d.lim.latched.getLsbD 28 then (d, some rDone)
  else if d.pwr.causes ≠ 0 then (d, some rCause)
  else (d.clear28, some rDone)

/-- PWR_CMD PWR_CLR. -/
def execPwrClr (tok : Byte) (s : State) : Host.Outcome State Fault Refusal :=
  s.effect fun d => d.hostCommand .pwr tok 0x01 bodyPwrClr

/-- The causes that the rails show at a frame boundary: 4 to 8 as their conditions stand (R300), 9 during its pause
(R305), and 1 to 3 as they stand. Voltages in mV.
DEDUCED: notes/assumptions/62.md. -/
def Dev.railCauses (d : Dev) (vdrv : Nat) : BitVec 9 :=
  let mon (c : Nat) : Bool := d.monitored c
  BitVec.ofNat 9 (
    flag (decide (vdrv < 8500) && mon 4) 3 +
    flag (decide (d.pwr.vcp < d.pwr.vcoils + 8000) && mon 5) 4 +
    flag (decide (d.pwr.vcoils < 500 * d.vUv) && mon 6) 5 +
    flag (decide (500 * d.vOv < d.pwr.vcoils) && mon 7) 6 +
    flag (!d.pwr.drvEn && mon 8) 7 + flag d.pwr.dumpPause 8) ||| (d.pwr.causes &&& 0x007)

/-- The rails at a frame boundary: VCOILS, VCP, CP_OK and the present causes.
DEDUCED: notes/assumptions/62.md. -/
def Dev.railFrame (d : Dev) (vcoils vcp vdrv : Nat) : Dev :=
  let d := { d.pwmBoundary with pwr := { d.pwmBoundary.pwr with
    vcoils := vcoils, rail := vcoils, vcp := vcp, cpOk := d.stageLive && decide (vcoils + 8000 ≤ vcp)
    conflictEvt := false, conflictAges := (d.pwr.conflictAges.map (· + 1)).filter fun a => a < 10 } }
  { d with pwr := { d.pwr with causes := d.railCauses vdrv } }

/-! ### DRV_EN (R303, R311) -/

/-- DRV_EN goes low: no gate of the twelve is on any more. -/
def Dev.drvEnFalls (d : Dev) : Dev := { d with pwr := { d.pwr with drvEn := false } }

/-- DRV_EN_FALL. -/
def execDrvEnFall (s : State) : Host.Outcome State Fault Refusal := s.effect Dev.drvEnFalls

/-- Whether a low time qualifies; between 8 µs and 10 µs the outcome is free (R311).
DEDUCED: notes/assumptions/62.md. -/
def qualifies (lowNs n : Nat) : Bool :=
  if 10000 ≤ lowNs then true else if lowNs ≤ 8000 then false else Config.freeBool n

/-- A qualifying rise clears the latched fault 28 where no cause remains (R311). -/
def Dev.clear28When (d : Dev) (q : Bool) : Dev :=
  if q ∧ d.lim.latched.getLsbD 28 ∧ d.pwr.causes = 0 then d.clear28 else d

/-- DRV_EN rises after a low time: above 1 µs the monitor has tripped, and a qualifying rise clears fault 28 where no
cause remains (R311).
DEDUCED: notes/assumptions/62.md. -/
def Dev.drvEnRises (d : Dev) (lowNs : Nat) : Dev :=
  let unseen := !d.pwr.causes.getLsbD 7 || !d.lim.latched.getLsbD 28
  let d := if 1000 < lowNs ∧ d.pwr.drvEn = false ∧ unseen then d.protectionTrip 8 drvEnLow else d
  let q := qualifies lowNs d.free
  let d := d.tick
  let d := { d with pwr := { d.pwr with drvEn := true, causes := d.pwr.causes &&& ~~~(0x080 : BitVec 9) } }
  d.clear28When q

/-- DRV_EN_RISE. -/
def execDrvEnRise (lowNs : Nat) (s : State) : Host.Outcome State Fault Refusal := s.effect fun d => d.drvEnRises lowNs

/-! ### Dump chopper (R304, R305, R309) -/

/-- VCOILS exceeds V_DUMP: GD turns on, in every mode and in reset, unless it is disabled or pausing. -/
def Dev.dumpTurnsOn (d : Dev) : Dev :=
  if d.pwr.dumpOn || d.pwr.dumpDis || d.pwr.dumpPause then d
  else
    let d := { d with pwr := { d.pwr with dumpOn := true, rail := max d.pwr.rail (500 * d.vDump + 1) } }
    if d.alive then d.notice 36 0 0 else d

/-- DUMP_ON. -/
def execDumpOn (s : State) : Host.Outcome State Fault Refusal := s.effect Dev.dumpTurnsOn

/-- VCOILS falls below V_DUMP − 2 V: GD turns off. -/
def Dev.dumpTurnsOff (d : Dev) : Dev :=
  { d with pwr := { d.pwr with dumpOn := false, rail := min d.pwr.rail (500 * d.vDump - 2001) } }

/-- DUMP_OFF. -/
def execDumpOff (s : State) : Host.Outcome State Fault Refusal := s.effect Dev.dumpTurnsOff

/-- GD has been on for 50 ms: it turns off for 950 ms, and fault 28 is raised with cause 0x09, which ends a diagnostic sequence
(R315); in reset, where the chopper works too, no fault is recorded. -/
def Dev.dumpTimesOut (d : Dev) : Dev :=
  if !d.pwr.dumpOn then d
  else
    let d := { d with pwr := { d.pwr with
      dumpOn := false, dumpPause := true, causes := d.pwr.causes ||| (0x100 : BitVec 9) } }
    if d.alive then d.endDiag.powerTrip 9 12 else d

/-- DUMP_TIMEOUT. -/
def execDumpTimeout (s : State) : Host.Outcome State Fault Refusal := s.effect Dev.dumpTimesOut

/-- The pause ends. -/
def Dev.dumpRearms (d : Dev) : Dev :=
  { d with pwr := { d.pwr with dumpPause := false, causes := d.pwr.causes &&& ~~~(0x100 : BitVec 9) } }

/-- DUMP_REARM. -/
def execDumpRearm (s : State) : Host.Outcome State Fault Refusal := s.effect Dev.dumpRearms

/-- The DD comparator finds a dump switch fault: GD off, chopper disabled, fault 29 directly into the latch (R309), and the end
of a diagnostic sequence (R315). With the chopper disabled the comparator's condition is over, so that LOCK_ACK can follow. -/
def Dev.dumpSwitchFails (d : Dev) : Dev :=
  let d := { d with pwr := { d.pwr with dumpOn := false, dumpDis := true } }
  if d.alive then (d.endDiag.raise 29 .power 0x08 37 0 12 none).faultGone 29 else d

/-- DUMP_SWITCH_FAULT. -/
def execDumpSwitchFault (s : State) : Host.Outcome State Fault Refusal := s.effect Dev.dumpSwitchFails

/-! ### Off-state diagnostics (R307, R308, R310, R315, R317) -/

/-- A verdict other than pass for nodes that no column of R307 names: free.
DEDUCED: notes/assumptions/63.md. -/
def freeVerdict (n : Nat) : Nat := 1 + (Config.freeWord n).toNat % 3

/-- A node within the band of a source phase, in mV. -/
def inBand (v : Nat) : Bool := decide (2500 ≤ v) && decide (v ≤ 4500)

/-- Phase S of a coil channel: 0 pass, 1 short to ground, 2 short to VCOIL, 3 open load. -/
def verdictCoilS (n : DiagNodes) (free : Nat) : Nat :=
  if inBand n.hi && inBand n.lo then 0
  else if n.hi < 500 then 1
  else if 6000 < n.hi ∨ 6000 < n.lo then 2
  else if 2500 < n.hi ∧ n.lo < 500 then 3
  else freeVerdict free

/-- Phase S of the pump: SHA in `hi`, SHB in `lo`. -/
def verdictPumpS (n : DiagNodes) (free : Nat) : Nat :=
  if inBand n.hi && inBand n.lo then 0
  else if n.hi < 500 then 1
  else if 6000 < n.hi ∨ 6000 < n.lo then 2
  else if n.lo < 500 then 3
  else freeVerdict free

/-- Phase K of a coil channel or the pump: DLx or SHB in `lo`. -/
def verdictSink (n : DiagNodes) (free : Nat) : Nat :=
  if n.hi < 500 ∧ n.lo < 500 then 0 else if 6000 < n.lo then 2 else freeVerdict free

/-- The dump phase: DD in `hi`. -/
def verdictDump (n : DiagNodes) (free : Nat) : Nat :=
  if n.vcoils ≤ n.hi + 2000 ∧ n.hi ≤ n.vcoils + 2000 then 0 else if n.hi < 500 then 4 else freeVerdict free

/-- The unit (0 to 3 coils, 4 pump, 5 dump) and the verdict of phase `p` of the sequence.
DEDUCED: notes/assumptions/63.md. -/
def phaseVerdict (p : Nat) (n : DiagNodes) (free : Nat) : Nat × Nat :=
  if p < 8 then (p / 2, if p % 2 = 0 then verdictCoilS n free else verdictSink n free)
  else if p = 8 then (4, verdictPumpS n free)
  else if p = 9 then (4, verdictSink n free)
  else (5, verdictDump n free)

/-- Three bits of PWR_DIAG.VERDICTS replaced. -/
def setVerdict (v : BitVec 18) (unit code : Nat) : BitVec 18 :=
  (v &&& ~~~(BitVec.ofNat 18 (7 * 2 ^ (3 * unit)))) ||| BitVec.ofNat 18 (code * 2 ^ (3 * unit))

/-- Three bits of PWR_DIAG.VERDICTS. -/
def getVerdict (v : BitVec 18) (unit : Nat) : Nat := v.toNat / 2 ^ (3 * unit) % 8

/-- A phase ends with its verdict: phase K keeps what phase S found; a passing dump phase enables the chopper again
(R307, R309).
DEDUCED: notes/assumptions/63.md. -/
def Dev.takeVerdict (d : Dev) (p : Nat) (n : DiagNodes) : Dev :=
  let r := phaseVerdict p n d.free
  let before := getVerdict d.pwr.verdicts r.1
  let code := if (p = 1 ∨ p = 3 ∨ p = 5 ∨ p = 7 ∨ p = 9) ∧ before ≠ 0 then before else r.2
  let on := p = 10 ∧ r.2 = 0 ∧ d.seq.drover ≠ .lockout ∧ d.mode.lockDue = 0
  { d.tick with pwr := { d.pwr with
      verdicts := setVerdict d.pwr.verdicts r.1 code, dumpDis := d.pwr.dumpDis && !on } }

/-- The sequence starts: every verdict "not run", which keeps SEQ_BLOCK.DIAG at 1 and so every coil gate off; the pump stops
in its phases only (R307, R310). -/
def Dev.startDiag (d : Dev) : Dev :=
  { d with pwr := { d.pwr with
      diagSeq := true, diagPhase := some 0, ctstDue := false, verdicts := 0x3FFFF, diagDone := false, diagPass := false
      passedSince := false } }

/-- The phase in progress ends, and the next one or the self-test follows. -/
def Dev.diagPhaseEnds (d : Dev) (n : DiagNodes) : Dev :=
  match d.pwr.diagPhase with
  | none => d
  | some p =>
    let d := d.takeVerdict p n
    if p < 10 then { d with pwr := { d.pwr with diagPhase := some (p + 1) } }
    else { d with pwr := { d.pwr with diagPhase := none, ctstDue := true } }

/-- DIAG_PHASE_END. -/
def execDiagPhaseEnd (n : DiagNodes) (s : State) : Host.Outcome State Fault Refusal := s.effect fun d => d.diagPhaseEnds n

/-- The comparator self-test is taken: PWR_CTSTRES, its event, and the end of a sequence in progress (R308). -/
def Dev.selfTest (d : Dev) (fails : BitVec 23) : Dev :=
  let failed := (List.range 23).filter fun i => fails.getLsbD i
  let pass := failed.isEmpty
  let d := { d with pwr := { d.pwr with
    ctstDue := false, ctstPass := pass, ctstFails := failed.length, ctstFirst := failed.headD 0 } }
  let d := d.notice 39 0 0
  if d.pwr.diagSeq then
    let all := decide (d.pwr.verdicts = 0)
    ({ d with pwr := { d.pwr with
      diagSeq := false, diagDone := true, diagPass := all, passedSince := all && pass } } : Dev).notice 38 0 0
  else { d with pwr := { d.pwr with passedSince := d.pwr.passedSince && pass } }

/-- COMPARATOR_SELF_TEST: the one that is due. -/
def execComparatorSelfTest (fails : BitVec 23) (s : State) : Host.Outcome State Fault Refusal :=
  s.effect fun d => if d.pwr.ctstDue then d.selfTest fails else d

/-- The whole sequence: eleven phases in the order of R307, then the self-test. -/
def Dev.runDiagnostics (d : Dev) (i : DiagInputs) : Dev :=
  let d := d.startDiag
  let nodes : List DiagNodes :=
    [i.coilS.get 0, i.coilK.get 0, i.coilS.get 1, i.coilK.get 1, i.coilS.get 2, i.coilK.get 2, i.coilS.get 3,
      i.coilK.get 3, i.pumpS, i.pumpK, i.dump]
  (nodes.foldl (fun d n => d.diagPhaseEnds n) d).selfTest i.compFails

/-- Diagnostics may run in OPEN: no power-stage fault latched, every coil current below 50 mA (R310). -/
def Dev.diagAllowed (d : Dev) : Bool :=
  d.inRun && decide (d.seq.drover = Drover.openS) && !d.lim.latched.getLsbD 28 &&
  d.coil.toList.all fun c => decide (c.phase = CoilPhase.released) && c.small

/-- OFF_STATE_DIAGNOSTICS. -/
def execOffStateDiagnostics (i : DiagInputs) (s : State) : Host.Outcome State Fault Refusal :=
  s.effect fun d => if d.diagAllowed then d.runDiagnostics i else d

/-- AUTO_DIAGNOSTICS: the sequence starts, unless one is in progress. -/
def execAutoDiagnostics (s : State) : Host.Outcome State Fault Refusal :=
  s.effect fun d => if d.diagAllowed && !d.pwr.diagSeq then d.startDiag else d

/-- DIAG (R310, R317). -/
def bodyDiag (d : Dev) : Executed :=
  if d.seq.drover ≠ Drover.openS then (d, some rState)
  else if d.lim.latched.getLsbD 28 then (d, some rCause)
  else if d.pwr.diagSeq then (d, some rStarted)
  else (d.startDiag, some rStarted)

/-- CTST (R308, R317); a sequence in progress ends with the self-test. -/
def bodyCtst (d : Dev) : Executed :=
  if d.seq.drover ≠ Drover.openS then (d, some rState)
  else if d.lim.latched.getLsbD 28 then (d, some rCause)
  else if d.pwr.diagSeq then (d, some rStarted)
  else ({ d with pwr := { d.pwr with ctstDue := true } }, some rStarted)

/-- PWR_CMD DIAG. -/
def execDiag (tok : Byte) (s : State) : Host.Outcome State Fault Refusal :=
  s.effect fun d => d.hostCommand .pwr tok 0x03 bodyDiag

/-- PWR_CMD CTST. -/
def execCtst (tok : Byte) (s : State) : Host.Outcome State Fault Refusal :=
  s.effect fun d => d.hostCommand .pwr tok 0x02 bodyCtst

/-! ### Pump bridge (R291 to R299) -/

/-- One onset of the both-high condition: counted, and reported at most once per frame (R294). -/
def Dev.countConflict (d : Dev) : Dev :=
  let full := decide (255 ≤ d.pwr.conflict + 1)
  let first := full && decide (d.pwr.conflict < 255)
  let report := !d.pwr.conflictEvt
  let d := { d with pwr := { d.pwr with
    conflict := satInc 255 d.pwr.conflict, cntOvf := d.pwr.cntOvf || full, conflictEvt := true
    conflictAges := d.pwr.conflictAges ++ [0] } }
  let d := d.countPump 4
  let d := if first then d.notice 43 0 0 else d
  if report then d.notice 40 0 0 else d

/-- An edge on an external PWM input: the inputs drive the gates while they are in control (R293, R294, R319). -/
def Dev.extEdge (d : Dev) (levels : BitVec 4) : Dev :=
  let before := d.pwr.extIn
  let d := { d with pwr := { d.pwr with extIn := levels } }
  if !d.pumpExt then d
  else
    let d := if bothHigh levels false && !bothHigh before false then d.countConflict else d
    if bothHigh levels true && !bothHigh before true then d.countConflict else d

/-- EXT_PWM_EDGE. -/
def execExtPwmEdge (levels : BitVec 4) (s : State) : Host.Outcome State Fault Refusal :=
  s.effect fun d => d.extEdge levels

/-- The condition of a revocation stands: both inputs of a half-bridge are high, or 64 conflicts fall within 10 ms
(R295). -/
def Dev.revokeDue (d : Dev) : Bool :=
  bothHigh d.pwr.extIn false || bothHigh d.pwr.extIn true || decide (64 ≤ d.pwr.conflictAges.length)

/-- External control is revoked; the pump runs under its own loop from 70 % (R295). -/
def Dev.extRevoke (d : Dev) : Dev :=
  if !(d.pumpExt && d.revokeDue) then d
  else
    let d := { d with pwr := { d.pwr with extRevoked := true, extOff := true, duty := if d.pumpMayRun then 700 else 0 } }
    (d.countPump 3).notice 41 0 0

/-- EXT_PWM_REVOKE. -/
def execExtPwmRevoke (s : State) : Host.Outcome State Fault Refusal := s.effect Dev.extRevoke

/-- A tach edge: period and measured speed in 2 rpm (R296). -/
def Dev.tach (d : Dev) (period : Nat) : Dev :=
  let rpm : Rat := if period = 0 then 0 else (3600000000 : Rat) / period
  { d with pwr := { d.pwr with tachPeriod := period, pumpMeas := clampNat 0xFFF (natOf (quantise (rpm / 2))) } }

/-- TACH_EDGE. -/
def execTachEdge (period : Nat) (s : State) : Host.Outcome State Fault Refusal := s.effect fun d => d.tach period

/-- Tach feedback is lost (at a duty of at least 20 %) or frozen: fault 32, and under internal control 70 % (R297,
R298). -/
def Dev.tachFails (d : Dev) (frozen : Bool) : Dev :=
  if (if frozen then d.pwr.tachFrozen else d.pwr.tachLost || (!d.pumpExt && decide (d.pwr.duty < 200))) then d
  else
    let d := { d with pwr := { d.pwr with
      tachLost := d.pwr.tachLost || !frozen, tachFrozen := d.pwr.tachFrozen || frozen
      duty := if d.pumpExt || !d.pumpMayRun then d.pwr.duty else 700 } }
    (d.countPump 2).fault 32 42 0 0

/-- TACH_LOST. -/
def execTachLost (frozen : Bool) (s : State) : Host.Outcome State Fault Refusal := s.effect fun d => d.tachFails frozen

/-- 10 s of valid tach edges: the loop resumes from the duty in force (R297). -/
def Dev.tachRecovers (d : Dev) : Dev :=
  ({ d with pwr := { d.pwr with tachLost := false, tachFrozen := false } } : Dev).faultGone 32

/-- TACH_RECOVERED. -/
def execTachRecovered (s : State) : Host.Outcome State Fault Refusal := s.effect Dev.tachRecovers

/-- The cycle limit in mV from 1.65 V (R299). -/
def Dev.ilimThreshold (d : Dev) : Nat := (d.ilim + 1) * 50

/-- The pump amplifier output stands `level` mV from 1.65 V. Beyond ILIM the active high side is off for the rest of the
period, and the event is counted (R299). -/
def Dev.cycleLimit (d : Dev) (level : Nat) : Dev :=
  if d.pumpGates = 0 ∨ level ≤ d.ilimThreshold then d
  else
    let full := decide (255 ≤ d.pwr.ilim + 1)
    let first := full && decide (d.pwr.ilim < 255)
    let d := { d with pwr := { d.pwr with cycleOff := true, ilim := satInc 255 d.pwr.ilim, cntOvf := d.pwr.cntOvf || full } }
    if first then d.notice 43 0 0 else d

/-- PUMP_CYCLE_LIMIT. -/
def execPumpCycleLimit (level : Nat) (s : State) : Host.Outcome State Fault Refusal :=
  s.effect fun d => d.cycleLimit level

/-- The hottest valid cell or NTC temperature in 0.1 °C.
DEDUCED: notes/assumptions/53.md. -/
def Dev.hottest (d : Dev) : Option Rat :=
  let cells : List Rat := d.cellTemps.map fun (t : Int) => (t : Rat) / 10
  let ntcs : List Rat := d.sen.ntc.toList.filterMap fun (t : Option Int) => t.map fun (x : Int) => (x : Rat)
  match cells ++ ntcs with
  | [] => none
  | x :: xs => some (xs.foldl max x)

/-- A pump that stood still and now runs has started once more (R520). -/
def Dev.countPumpStart (d : Dev) (stood : Bool) : Dev := if stood ∧ d.pumpGates ≠ 0 then d.countPump 1 else d

/-- The pump's speed loop, every 10 ms under internal control (R296, R297): off in LOCKOUT, with the latch set, in a
pump phase of the diagnostics, and outside Run. -/
def Dev.pumpLoop (d : Dev) : Dev :=
  match d.man with
  | none => d
  | some m =>
    if d.pumpExt then d
    else
      let off := !d.pumpMayRun || d.pumpPhase
      let floor : Rat := (field d.pwr.pumpUse 0 8 : Rat) * 50
      let table : Rat := match d.hottest with | some t => tableAt m.pumpTable t | none => 0
      let set := max table floor
      let pi := Config.pumpPi set (2 * d.pwr.agreedSpeed) d.pwr.duty
      let duty := if off then 0 else if d.pwr.tachLost || d.pwr.tachFrozen then 700
        else max m.pumpMin (clampNat m.pumpMax pi)
      let start := decide (d.pumpGates = 0)
      let d := { d with pwr := { d.pwr with
        pumpSet := clampNat 0xFFF (natOf (quantise (set / 2))), duty := clampNat 1000 duty } }
      d.countPumpStart start

/-! ### Gate drive (R289, R290, R302) -/

/-- The current of a drive code in mA (R289). -/
def driveCurrent (code : Nat) : Nat := [10, 15, 20, 30, 40, 55, 70, 90, 115, 145, 180, 220, 265, 310, 355, 400].getD code 400

/-- The index of a drive channel: 0 to 3 coils, 4 pump, 5 dump. -/
def driveIndex : DriveChannel → Fin 6
  | .coil k => ⟨k.val, by omega⟩
  | .pump => 4
  | .dump => 5

/-- One measured edge in ADAPT mode moves its code one step towards the target; an edge that does not complete within
2 µs leaves it (R290).
DEDUCED: notes/assumptions/63.md. -/
def adaptStep (w : Word) (code : Nat) (ns : Option Nat) : Nat :=
  let r := adaptRange w
  let target := (field w 16 4 + 1) * 50
  let c := match ns with
    | none => code
    | some t => if 2000 < t then code else if target + 25 < t then code + 1 else if t + 25 < target then code - 1 else code
  max r.1 (min r.2 c)

/-- Source and sink current of a channel in mA: FIXED codes or those of ADAPT. During a soft turn-off every driver of the
twelve gates sinks I_soft1 in step 1 and 400 mA in step 2 (R302). -/
def Dev.driveCurrents (d : Dev) (ch : DriveChannel) : Nat × Nat :=
  let i := driveIndex ch
  let w := d.pwr.gdrv.get i
  let sink := if bit w 23 then d.pwr.sink.get i else field w 4 4
  (driveCurrent (if bit w 23 then d.pwr.source.get i else field w 0 4),
    if ch = DriveChannel.dump then driveCurrent sink
    else match d.pwr.softStep with
      | 0 => driveCurrent sink
      | 1 => (field d.pwr.soft 4 4 + 1) * 10
      | _ => 400)

/-- A measured edge: the source code for a turn-on, the sink code for a turn-off. -/
def Dev.edgeMeasured (d : Dev) (ch : DriveChannel) (turnOn : Bool) (ns : Option Nat) : Dev :=
  let i := driveIndex ch
  let w := d.pwr.gdrv.get i
  if !bit w 23 then d
  else if turnOn then { d with pwr := { d.pwr with source := modify d.pwr.source i fun c => adaptStep w c ns } }
  else { d with pwr := { d.pwr with sink := modify d.pwr.sink i fun c => adaptStep w c ns } }

/-- SWITCH_EDGE_MEASURED. -/
def execSwitchEdgeMeasured (ch : DriveChannel) (turnOn : Bool) (ns : Option Nat) (s : State) :
    Host.Outcome State Fault Refusal :=
  s.effect fun d => d.edgeMeasured ch turnOn ns

end Sys2Proof.Machine
end

