-- ==== Sys2Proof/Machine/Guards.lean ====
section
/-! DEFINITION. The guards (R350 to R374): filtered channels, proof, openings and discrepancies, the test-switch
proof, and the permission outputs. -/
namespace Sys2Proof.Machine

/-- The guard and the side (A even, B odd) of a channel in the bit order of SAF_GSTAT.RAW. -/
def guardOf (ch : Fin 8) : Fin 4 := ⟨ch.val / 2, by omega⟩

/-- One bit of a byte replaced. -/
def putBit {n : Nat} (v : BitVec n) (i : Nat) (b : Bool) : BitVec n :=
  if b then v ||| BitVec.ofNat n (2 ^ i) else v &&& ~~~(BitVec.ofNat n (2 ^ i))

/-- A channel is at its closed level (R350). -/
def Dev.channelClosed (d : Dev) (ch : Fin 8) : Bool :=
  if ch.val % 2 = 0 then d.closedA (guardOf ch) else d.closedB (guardOf ch)

/-- Permission is withdrawn as soon as a condition of R358 fails. -/
def Dev.permissionCheck (d : Dev) : Dev := if d.permitted then d else d.withdraw

/-- Proof accrues (R147, R355): an open channel is seen open, and with both channels closed each one seen open is
proven. The guard-proven event marks a guard that becomes proven.
DEDUCED: notes/assumptions/51.md. -/
def Dev.accrueProof (d : Dev) (g : Fin 4) : Dev :=
  let before := d.guardProven g
  let seen := putBit (putBit d.saf.seenOpen (2 * g.val) (d.saf.seenOpen.getLsbD (2 * g.val) || !d.closedA g))
    (2 * g.val + 1) (d.saf.seenOpen.getLsbD (2 * g.val + 1) || !d.closedB g)
  let d := { d with saf := { d.saf with seenOpen := seen } }
  if !d.guardClosed g then d
  else
    let p := d.saf.provenCh
    let p := putBit p (2 * g.val) (p.getLsbD (2 * g.val) || seen.getLsbD (2 * g.val))
    let p := putBit p (2 * g.val + 1) (p.getLsbD (2 * g.val + 1) || seen.getLsbD (2 * g.val + 1))
    let d := { d with saf := { d.saf with provenCh := p } }
    if !before && d.guardProven g then d.notice 46 0 g.val else d

/-- One count of SAF_CNT.OPENS. -/
def Dev.countOpening (d : Dev) : Dev :=
  { d with saf := { d.saf with
      opens := satInc 4095 d.saf.opens, ovf := setFlag d.saf.ovf 0 (decide (4095 ≤ d.saf.opens + 1)) } }

/-- One count of SAF_CNT.DISCS. -/
def Dev.countDiscrepancy (d : Dev) : Dev :=
  { d with saf := { d.saf with
      discs := satInc 4095 d.saf.discs, ovf := setFlag d.saf.ovf 1 (decide (4095 ≤ d.saf.discs + 1)) } }

/-- A guard's opening in this frame has an episode, which those of other guards in the frame share (R373). -/
def Dev.guardEpisode (d : Dev) : Option Nat :=
  (d.lim.frameFaults.find? fun g => decide (g.1 = 33) || decide (g.1 = 34)).map fun g => g.2.2

/-- A guard opens (R354): with a coil gate commanded on, the latch sets directly and fault 33 is raised; otherwise
permission is withdrawn and the event queued, in the episode of another guard's opening or discrepancy of the frame (R373).
DEDUCED: notes/assumptions/51.md. -/
def Dev.guardOpens (d : Dev) (g : Fin 4) : Dev :=
  if d.coilCommanded then
    let d := (d.countOpening).countDevice 17
    let d := { d with saf := { d.saf with openInput := putBit d.saf.openInput g.val true } }
    let d := d.raise 33 .guard 0x08 44 0 g.val none
    { d with saf := { d.saf with episode := upd d.saf.episode g ((d.keptEpisode 33 g.val).map (·.id)) } }
  else
    let ep := d.guardEpisode
    let d := d.withdraw.noticeIn 44 0 g.val (ep.getD 0)
    { d with saf := { d.saf with episode := upd d.saf.episode g ep } }

/-- The guard is closed again: its inputs to the latch end, and with the last one the causes of faults 33 and 34
(R362). -/
def Dev.guardCloses (d : Dev) (g : Fin 4) : Dev :=
  let d := { d with saf := { d.saf with openInput := putBit d.saf.openInput g.val false } }
  if d.saf.openInput = 0 then d.faultGone 33 else d

/-- The two channels of a guard agree: its discrepancy ends, and the episode of its opening with it (R353, R373).
DEDUCED: notes/assumptions/51.md. -/
def Dev.guardAgrees (d : Dev) (g : Fin 4) : Dev :=
  let d := { d with saf := { d.saf with
    disc := putBit d.saf.disc g.val false, episode := upd d.saf.episode g none } }
  if d.saf.disc = 0 then d.faultGone 34 else d

/-- In a test GTSTx is released once both channels read open (R146). -/
def Dev.releaseGtst (d : Dev) (g : Fin 4) : Dev :=
  if d.saf.testing.getLsbD g.val && !d.closedA g && !d.closedB g then
    { d with saf := { d.saf with gtst := putBit d.saf.gtst g.val false } }
  else d

/-- What the change of a filtered channel does once the guard kinds are loaded. A guard under test raises nothing (R356,
R370). -/
def Dev.judgeGuard (d : Dev) (g : Fin 4) (wasClosed : Bool) : Dev :=
  if !(d.saf.kindsLoaded && d.guardUsed g) then d
  else
    let d := d.releaseGtst g
    let d := if d.closedA g = d.closedB g then d.guardAgrees g else d
    let d := d.accrueProof g
    if d.guardClosed g then d.guardCloses g
    else if wasClosed && !d.saf.testing.getLsbD g.val then d.guardOpens g
    else d.permissionCheck

/-- A guard channel has read a new level for T_filt (R351, R352). The filters run in the always-on domain, in every
mode.
DEDUCED: notes/assumptions/52.md. -/
def Dev.guardChannel (d : Dev) (ch : Fin 8) (level : Bool) : Dev :=
  let g := guardOf ch
  let wasClosed := d.guardClosed g
  let d := { d with saf := { d.saf with
    raw := putBit d.saf.raw ch.val level, filt := putBit d.saf.filt ch.val level } }
  if d.alive then d.judgeGuard g wasClosed else d

/-- GUARD_CHANNEL_CHANGE. -/
def execGuardChannelChange (ch : Fin 8) (level : Bool) (s : State) : Host.Outcome State Fault Refusal :=
  s.effect fun d => d.guardChannel ch level

/-- The channels of a guard have disagreed for more than 50 ms: fault 34, in the episode of an opening of the same guard
that began the disagreement, and the latch directly (R353, R373). During the guard's own test it only fails the test
(R357). -/
def Dev.guardDisagrees (d : Dev) (g : Fin 4) : Dev :=
  if !(d.alive && d.saf.kindsLoaded && d.guardUsed g && d.closedA g != d.closedB g) then d
  else if d.saf.testing.getLsbD g.val then
    { d with saf := { d.saf with testBad := putBit d.saf.testBad g.val true } }
  else if !d.saf.disc.getLsbD g.val then
    let d := d.countDiscrepancy
    let d := { d with saf := { d.saf with disc := putBit d.saf.disc g.val true } }
    d.raise 34 .guard 0x08 45 0 g.val (d.saf.episode.get g)
  else d

/-- GUARD_DISCREPANCY. -/
def execGuardDiscrepancy (g : Fin 4) (s : State) : Host.Outcome State Fault Refusal :=
  s.effect fun d => d.guardDisagrees g

/-! ### Test switches (R146, R148, R356, R357, R372) -/

/-- A test starts: GTSTx goes high, and permission is withdrawn.
DEDUCED: notes/assumptions/51.md. -/
def Dev.startGuardTest (d : Dev) (g : Fin 4) : Dev :=
  (({ d with saf := { d.saf with
    testing := putBit d.saf.testing g.val true, testBad := putBit d.saf.testBad g.val false
    gtst := putBit d.saf.gtst g.val true } } : Dev).releaseGtst g).permissionCheck

/-- GTEST_x (R372). -/
def bodyGtest (g : Fin 4) (d : Dev) : Executed :=
  if !d.inRun then (d, some rMode)
  else if d.seq.drover ≠ .openS then (d, some rState)
  else if !(d.guardUsed g && d.guardSwitch g) then (d, some rCondition)
  else if d.saf.latch then (d, some rCause)
  else if d.saf.testing.getLsbD g.val then (d, some rDone)
  else (d.startGuardTest g, some rStarted)

/-- SAF_CMD GTEST_x. -/
def execGtest (g : Fin 4) (tok : Byte) (s : State) : Host.Outcome State Fault Refusal :=
  s.effect fun d => d.hostCommand .saf tok (0x10 + g.val) (bodyGtest g)

/-- The end of a test of R146: both channels read open, then closed, within 50 ms each, without a discrepancy (R357). A failure
removes the proof of both channels; those open now count as seen open.
DEDUCED: notes/assumptions/51.md. -/
def Dev.guardVerdict (d : Dev) (g : Fin 4) (opened closed : Bool) : Dev :=
  if !d.saf.testing.getLsbD g.val then d
  else
    let d := { d with saf := { d.saf with
      testing := putBit d.saf.testing g.val false, gtst := putBit d.saf.gtst g.val false } }
    let set (v : Byte) (a b : Bool) : Byte := putBit (putBit v (2 * g.val) a) (2 * g.val + 1) b
    if opened && closed && !d.saf.testBad.getLsbD g.val then
      ({ d with saf := { d.saf with
        provenCh := set d.saf.provenCh true true, seenOpen := set d.saf.seenOpen true true } } : Dev).notice 46 0 g.val
    else
      ({ d with saf := { d.saf with
        provenCh := set d.saf.provenCh false false
        seenOpen := set d.saf.seenOpen (!d.closedA g) (!d.closedB g) } } : Dev).notice 47 0 g.val

/-- GUARD_TEST_VERDICT. -/
def execGuardTestVerdict (g : Fin 4) (opened closed : Bool) (s : State) : Host.Outcome State Fault Refusal :=
  s.effect fun d => d.guardVerdict g opened closed

/-- Every 10 s in OPEN an unproven guard with a test switch is tested again, unless the latch is set (R148). -/
def Dev.guardRetest (d : Dev) (g : Fin 4) : Dev :=
  if d.inRun && decide (d.seq.drover = Drover.openS) && d.guardUsed g && d.guardSwitch g && !d.guardProven g &&
      !d.saf.latch && !d.saf.testing.getLsbD g.val then d.startGuardTest g
  else d

/-- GUARD_RETEST. -/
def execGuardRetest (g : Fin 4) (s : State) : Host.Outcome State Fault Refusal := s.effect fun d => d.guardRetest g

/-! ### Permission (R358 to R360) -/

/-- Two consecutive refreshes are missing: the waveform stops at its next edge. -/
def Dev.refreshMissed (d : Dev) : Dev :=
  ({ d with saf := { d.saf with missing := max 2 d.saf.missing } } : Dev).permissionCheck

/-- PERMISSION_REFRESH_MISSED. -/
def execPermissionRefreshMissed (s : State) : Host.Outcome State Fault Refusal := s.effect Dev.refreshMissed

/-- Every used guard is closed in the agreed snapshot (R113, R358). -/
def Dev.guardsAgreed (d : Dev) : Bool :=
  guards.all fun g => !d.guardUsed g ||
    (d.saf.agreed.getLsbD (2 * g.val) && d.saf.agreed.getLsbD (2 * g.val + 1) != d.guardAnti g)

/-- A class S refresh, and the grant once every condition of R358 holds, with the event of source 48. -/
def Dev.refreshPermission (d : Dev) : Dev :=
  let d := { d with saf := { d.saf with missing := 0 } }
  if !(d.permitted && d.guardsAgreed) then d.withdraw
  else if d.saf.granted then d
  else ({ d with saf := { d.saf with granted := true } } : Dev).notice 48 0 0

end Sys2Proof.Machine
end

