-- ==== Sys2Proof/Machine/Sensing.lean ====
section
/-! DEFINITION. The modulator and analog inputs (R202 to R225): sample sets, frame means, the detectors' verdicts, the
three-way pack current check, the SAR round and the NTC temperatures. -/
namespace Sys2Proof.Machine

/-! ### Scaling -/

/-- A scaled value, rounded with ties away from zero and saturated to 24 bits signed (R207), before saturation. -/
def scaleRaw (code : BitVec 24) (gain ofs : Word) : Int :=
  roundAway (((code.toInt - ofs.toInt) * gain.toInt : Int) / (2 ^ 22 : Rat))

/-- Saturation to 24 bits signed. -/
def sat24 (i : Int) : Int := clampInt (-(2 ^ 23)) (2 ^ 23 - 1) i

/-- Gain and offset of an MDAT input (R207, R375). -/
def Dev.coefficients (d : Dev) (n : Fin 6) : Word × Word :=
  match n with
  | 0 => (d.sen.gain.get 0, d.sen.ofs.get 0)
  | 1 => (d.sen.gain.get 1, d.sen.ofs.get 1)
  | 2 => (d.sen.gain.get 2, d.sen.ofs.get 2)
  | 3 => (d.sen.gain.get 3, d.sen.ofs.get 3)
  | 4 => (d.tol.gainV, d.tol.ofsV)
  | 5 => (d.tol.gainI, d.tol.ofsI)

/-- The engineering value of a code. -/
def Dev.engineering (d : Dev) (n : Fin 6) (code : BitVec 24) : Int :=
  sat24 (scaleRaw code (d.coefficients n).1 (d.coefficients n).2)

/-- The set puts its input out of range: a saturated filter code, or a value saturated under R207 (R225). -/
def Dev.outOfRange (d : Dev) (n : Fin 6) (code : BitVec 24) : Bool :=
  let raw := scaleRaw code (d.coefficients n).1 (d.coefficients n).2
  decide (code = 0x800000) || decide (code = 0x7FFFFF) || decide (raw ≠ sat24 raw)

/-- The filter code of a ones density, saturated (R205). -/
def filterCode (density : Rat) : BitVec 24 := BitVec.ofInt 24 (sat24 (roundNearest ((2 * density - 1) * 2 ^ 23)))

/-- f_MCLK in Hz, and the oversampling ratio, as they are in force (R221). -/
def Dev.mclk (d : Dev) : Nat :=
  match field d.sen.inForce 0 2 with
  | 0 => 10000000 | 1 => 16000000 | _ => 20000000
def Dev.osr (d : Dev) : Nat := 64 * 2 ^ field d.sen.inForce 2 2

/-! ### Toll accumulation (R375 to R378, R381, R385, R394, R395) -/

/-- K of R378.
DEDUCED: notes/assumptions/52.md. -/
def Dev.residueUnit (d : Dev) : Nat := 1000 * d.mclk / d.osr

/-- The connector power of a set in µW (R376); 0 below the creep current (R377). -/
def Dev.connectorPower (d : Dev) (v i : Int) : Int :=
  if i.natAbs < 10 * field d.tol.cfg 8 8 then 0
  else v * i - roundAway ((i * i * (field d.tol.rcable 0 16 : Nat) : Int) / (1000000 : Rat))

/-- Export energy in mJ into the impulse residue, and the impulses it owes (R394, R395). -/
def Dev.oweImpulses (d : Dev) (mJ : Nat) : Dev :=
  let res := d.tol.pulseRes + mJ * field d.tol.pulse 0 17
  let owed := d.tol.owed + res / 3600000000
  let excess := decide (2047 < owed)
  let d := { d with tol := { d.tol with
    pulseRes := res % 3600000000, owed := clampNat 2047 owed, pulseOvf := d.tol.pulseOvf || excess } }
  if excess then d.markSession 9 else d

/-- One set into the accumulators. -/
def Dev.accumulate (d : Dev) (pc : Int) : Dev :=
  let k := d.residueUnit
  let re := d.tol.resExp + (if 0 < pc then pc.natAbs else 0)
  let ri := d.tol.resImp + (if pc < 0 then pc.natAbs else 0)
  let de := re / k
  let di := ri / k
  let f := d.tol.following
  let d := { d with tol := { d.tol with
    resExp := re % k, resImp := ri % k, exp := d.tol.exp + de, imp := d.tol.imp + di
    sexp := if f then d.tol.sexp + de else d.tol.sexp, simp := if f then d.tol.simp + di else d.tol.simp } }
  d.oweImpulses de

/-- The toll's part of a sample set. Without both inputs the time counts as unmeasured in the session (R381). -/
def Dev.tollSet (d : Dev) (v i : Int) : Dev :=
  if d.mdatValid 4 && d.mdatValid 5 then d.accumulate (d.connectorPower v i)
  else if d.tol.hasSession then
    { d with tol := { d.tol with unmeasured := d.tol.unmeasured + 5000000 * d.osr / d.mclk } }
  else d

/-! ### Sample sets -/

/-- One input of a set into its frame sum; an unusable input holds its last valid value (R208, R211). -/
def Dev.addValue (d : Dev) (n : Fin 6) (v : Int) : Dev :=
  if d.mdatValid n.val then
    { d with sen := { d.sen with
      sums := modify d.sen.sums n (· + v), sets := modify d.sen.sets n (· + 1), last := upd d.sen.last n v } }
  else d

/-- A sample set is dropped on an overrun, with its count and event; fault 22 is found at the frame boundary (R76,
R224). -/
def Dev.dropSet (d : Dev) : Dev :=
  let full := decide (4095 ≤ d.sen.ovr + 1)
  let first := full && decide (d.sen.ovr < 4095)
  let d := { d with sen := { d.sen with
    ovr := satInc 4095 d.sen.ovr, ovrSat := d.sen.ovrSat || full, dropped := true } }
  let d := d.faultEvent 22 25 0 0
  if first then d.notice 27 0 0 else d

/-- Settling starts with the filter settings that SEN_CFG gives (R221). -/
def Dev.startSettling (d : Dev) : Dev := { d with sen := { d.sen with settling := true, inForce := d.sen.cfg } }

/-- A set of six codes as PER takes it (R77): discarded during settling (R221), otherwise used by the toll and by the frame
means. -/
def Dev.useSet (d : Dev) (codes : Vector (BitVec 24) 6) : Dev :=
  if d.sen.settling then d.tollSet 0 0
  else
    let e (n : Fin 6) : Int := d.engineering n (codes.get n)
    let v4 := e 4
    let v5 := e 5
    let d := { d with sen := { d.sen with
      outA := d.sen.outA || d.outOfRange 0 (codes.get 0), outB := d.sen.outB || d.outOfRange 1 (codes.get 1) } }
    let d := (List.finRange 6).foldl (fun d n => d.addValue n (e n)) d
    d.tollSet v4 v5

/-- A set at its decimation boundary: it goes into the hold register, from which PER takes it (R74), or where the set
before it has not been acknowledged it is dropped (R76). A set for PER while it is stopped stays held. At the boundary a
change of SEN_CFG takes effect (R221). -/
def Dev.takeSet (d : Dev) (codes : Vector (BitVec 24) 6) (unacknowledged : Bool) : Dev :=
  if !(d.alive && d.sup.doms.mod) then d
  else
    let d :=
      if unacknowledged || d.sen.held.isSome then d.dropSet
      else if d.sup.doms.per then d.useSet codes
      else { d with sen := { d.sen with held := some codes } }
    if d.sen.inForce = d.sen.cfg then d else d.startSettling

/-- SAMPLE_SET. -/
def execSampleSet (density : Vector Rat 6) (unacknowledged : Bool) (s : State) : Host.Outcome State Fault Refusal :=
  s.effect fun d => d.takeSet (density.map filterCode) unacknowledged

/-! ### Detectors (R209, R210, R214, R223) -/

/-- The fault of a lost or frozen input: 17, 20 or 21.
DEDUCED: notes/assumptions/17.md. -/
def inputFault (n : Fin 6) : Nat := if n.val < 2 then 17 else if n.val < 4 then 20 else 21

/-- A change of a verdict restarts the plausibility counts of its input (R214). -/
def Dev.restartPlausibility (d : Dev) (n : Fin 6) : Dev :=
  if h : n.val < 3 then
    if n.val < 2 then
      { d with sen := { d.sen with bad := upd d.sen.bad ⟨n.val, h⟩ 0, good := upd d.sen.good ⟨n.val, h⟩ 0 } }
    else d
  else d

/-- One detection: SEN_CNT.DET, and the event in the episode of the input's fault (R223); while PRECHARGE makes a lost
MDAT2 or MDAT3 no fault the entry has class 0. -/
def Dev.detection (d : Dev) (n : Fin 6) (src : Nat) : Dev :=
  let full := decide (4095 ≤ d.sen.det + 1)
  let first := full && decide (d.sen.det < 4095)
  let d := { d with sen := { d.sen with det := satInc 4095 d.sen.det, detSat := d.sen.detSat || full } }
  let d :=
    if inputFault n = 20 ∧ d.seq.drover = .precharge then d.episodeEvent 20 src 0 n.val 0 (Config.eventData src 0)
    else d.faultEvent (inputFault n) src 0 n.val
  let d := d.restartPlausibility n
  if first then d.notice 27 0 0 else d

/-- The detectors run: MCLK runs and no settling is in progress (R221). -/
def Dev.detectorsRun (d : Dev) : Bool := d.alive && d.sup.doms.mod && !d.sen.settling

/-- 64 MCLK cycles without a transition (R209).
DEDUCED: notes/assumptions/52.md. -/
def Dev.inputLost (d : Dev) (n : Fin 6) : Dev :=
  if d.detectorsRun && !d.sen.lost.getLsbD n.val then
    ({ d with sen := { d.sen with lost := putBit d.sen.lost n.val true } } : Dev).detection n 22
  else d

/-- INPUT_LOST. -/
def execInputLost (n : Fin 6) (s : State) : Host.Outcome State Fault Refusal := s.effect fun d => d.inputLost n

/-- 1024 active cycles (R209). -/
def Dev.inputActive (d : Dev) (n : Fin 6) : Dev :=
  if d.detectorsRun && d.sen.lost.getLsbD n.val then
    ({ d with sen := { d.sen with lost := putBit d.sen.lost n.val false } } : Dev).restartPlausibility n
  else d

/-- INPUT_ACTIVE_AGAIN. -/
def execInputActiveAgain (n : Fin 6) (s : State) : Host.Outcome State Fault Refusal := s.effect fun d => d.inputActive n

/-- HOLD entered from a state in which the string is closed. -/
def Dev.holdClosed (d : Dev) : Bool := decide (d.seq.drover = Drover.hold) && decide (d.seq.holdFrom ≠ Drover.openS)

/-- The freeze detector of an input is armed (R210). -/
def Dev.freezeArmed (d : Dev) (n : Fin 6) : Bool :=
  let closed := decide (d.seq.drover = Drover.closed) || decide (d.seq.drover = Drover.output) ||
    decide (d.seq.drover = Drover.breaking) || d.holdClosed
  let pre := decide (d.seq.drover = Drover.precharge)
  d.inRun && match n with
    | 0 | 1 => closed || pre
    | 2 => true
    | 3 => closed || (pre && decide (2 ≤ d.seq.phase))
    | 4 | 5 => decide (d.seq.drover = Drover.output) ||
        (decide (d.seq.drover = Drover.hold) && decide (d.seq.holdFrom = Drover.output))

/-- The output has stayed within ±2 LSB for the window while the detector is armed (R210).
DEDUCED: notes/assumptions/52.md. -/
def Dev.inputFrozen (d : Dev) (n : Fin 6) : Dev :=
  if d.detectorsRun && d.freezeArmed n && !d.sen.frozen.getLsbD n.val then
    ({ d with sen := { d.sen with frozen := putBit d.sen.frozen n.val true } } : Dev).detection n 23
  else d

/-- INPUT_FROZEN. -/
def execInputFrozen (n : Fin 6) (s : State) : Host.Outcome State Fault Refusal := s.effect fun d => d.inputFrozen n

/-- A full window without a new freeze (R210). -/
def Dev.inputUnfrozen (d : Dev) (n : Fin 6) : Dev :=
  if d.detectorsRun && d.sen.frozen.getLsbD n.val then
    ({ d with sen := { d.sen with frozen := putBit d.sen.frozen n.val false } } : Dev).restartPlausibility n
  else d

/-- INPUT_UNFROZEN. -/
def execInputUnfrozen (n : Fin 6) (s : State) : Host.Outcome State Fault Refusal := s.effect fun d => d.inputUnfrozen n

/-- Settling ends: the detectors and the plausibility counts restart, the verdicts stay (R221). -/
def Dev.settlingEnd (d : Dev) : Dev :=
  if d.sen.settling then
    { d with sen := { d.sen with settling := false, bad := .replicate 3 0, good := .replicate 3 0 } }
  else d

/-- SETTLING_END. -/
def execSettlingEnd (s : State) : Host.Outcome State Fault Refusal := s.effect Dev.settlingEnd

/-! ### SAR (R216, R218) -/

/-- The channel of a slot of the round, counted from 0. -/
inductive SarChannel where
  | ain (i : Fin 8) | ntc (i : Fin 4) | vcc5
deriving DecidableEq, Repr

/-- The round of 16 slots (R216). -/
def sarRound : List SarChannel :=
  [.ain 0, .ain 1, .ain 2, .ain 3, .ain 0, .ain 4, .ain 5, .ain 6, .ain 0, .ain 7, .ntc 0, .ntc 1, .ain 0, .ntc 2,
    .ntc 3, .vcc5]

/-- One conversion into the sums of the frame. -/
def Dev.sarConversion (d : Dev) (code : BitVec 12) : Dev :=
  if !(d.alive && d.sup.doms.per && d.sup.doms.mod) then d
  else
    let s := d.sen
    let s := match sarRound.getD (s.slot % 16) .vcc5 with
      | .ain i => { s with ainSum := modify s.ainSum i (· + code.toNat), ainCnt := modify s.ainCnt i (· + 1) }
      | .ntc i => { s with ntcSum := modify s.ntcSum i (· + code.toNat), ntcCnt := modify s.ntcCnt i (· + 1) }
      | .vcc5 => { s with vcc5 := code.toNat }
    { d with sen := { s with slot := (s.slot + 1) % 16 } }

/-- The code of a pin voltage (R216). -/
def sarCode (volts : Rat) : BitVec 12 := BitVec.ofNat 12 (clampNat 4095 (natOf (quantise (volts / (33 / 10) * 4096))))

/-- SAR_CONVERSION. -/
def execSarConversion (volts : Rat) (s : State) : Host.Outcome State Fault Refusal :=
  s.effect fun d => d.sarConversion (sarCode volts)

/-- The temperature at a resistance: linear in the logarithm between neighbouring points, the nearer end point beyond
either end (R218).
DEDUCED: notes/assumptions/53.md. -/
def ntcTemperature (table : List (Rat × Rat)) (r : Rat) : Rat :=
  let pairs := table.zip (table.drop 1)
  match pairs.find? fun p => decide (min p.1.1 p.2.1 ≤ r ∧ r ≤ max p.1.1 p.2.1) with
  | some (a, b) => a.2 + (b.2 - a.2) * ((lnOf r - lnOf a.1) / (lnOf b.1 - lnOf a.1))
  | none =>
    let a := table.headD (0, 0)
    let b := table.getLastD (0, 0)
    if absRat (r - a.1) ≤ absRat (r - b.1) then a.2 else b.2

/-- The temperature of an NTC in 0.1 °C from the frame mean of its codes and the latest code of VCC5 / 2; `none` for open
or short. A pin voltage at or above VCC5 gives no resistance, and the result is free.
DEDUCED: notes/assumptions/53.md. -/
def Dev.ntcValue (d : Dev) (i : Fin 4) (code : Rat) : Option Int :=
  if 4090 ≤ code ∨ code ≤ 20 then none
  else match d.man with
    | none => some (d.sen.ntc.get i |>.getD 0)
    | some m =>
      let vcc : Rat := 2 * d.sen.vcc5
      let t : Rat := if vcc ≤ code then ((Config.freeWord d.free).toNat : Rat)
        else 10 * ntcTemperature (m.ntcTable.get i) (m.ntcBias.get i * code / (vcc - code))
      some (clampInt (-2047) 2047 (quantise t))

/-- One NTC at a frame boundary: an open or short input raises fault 11 with its event once (R218). -/
def Dev.ntcFrame (d : Dev) (keep : Kept) (i : Fin 4) : Dev :=
  let n := d.sen.ntcCnt.get i
  if n = 0 then d
  else if keep (0x0DB + i.val / 2) then
    { d with sen := { d.sen with ntcSum := upd d.sen.ntcSum i 0, ntcCnt := upd d.sen.ntcCnt i 0 } }
  else
    let v := d.ntcValue i ((d.sen.ntcSum.get i : Rat) / n)
    let was := (d.sen.ntc.get i).isNone
    let d := { d with sen := { d.sen with
      ntc := upd d.sen.ntc i v, ntcSum := upd d.sen.ntcSum i 0, ntcCnt := upd d.sen.ntcCnt i 0 } }
    if v.isNone && !was then d.fault 11 26 0 i.val
    else if d.sen.ntc.any Option.isNone then d else d.faultGone 11

/-- The AIN codes of the frame, and the mean of AIN0 of which the Hall current is formed (R208). -/
def Dev.ainFrame (d : Dev) (keep : Kept) : Dev :=
  { d with sen := { d.sen with
      ain0 := if d.sen.ainCnt.get 0 = 0 ∨ keep 0x0D7 then d.sen.ain0 else (d.sen.ainSum.get 0 : Rat) / d.sen.ainCnt.get 0
      ain := Vector.ofFn fun i =>
        let n := d.sen.ainCnt.get i
        if n = 0 ∨ keep (0x0D7 + i.val / 2) then d.sen.ain.get i else natOf (quantise ((d.sen.ainSum.get i : Rat) / n))
      ainSum := .replicate 8 0, ainCnt := .replicate 8 0 } }

/-! ### The frame boundary (R208, R212 to R215) -/

/-- The means of the frame; an unusable input, or one without a set, holds its value. -/
def Dev.meansFrame (d : Dev) (keep : Kept) : Dev :=
  { d with sen := { d.sen with
      vals := Vector.ofFn fun n =>
        if d.sen.sets.get n = 0 ∨ !d.mdatValid n.val ∨ keep (0x0C6 + n.val) then d.sen.vals.get n
        else quantise ((d.sen.sums.get n : Rat) / (d.sen.sets.get n : Nat))
      sums := .replicate 6 0, sets := .replicate 6 0 } }

/-- The Hall current in mA (R208, R212): SEN_GAINH per code × 2^8, SEN_OFSH the code at zero current. -/
def Dev.hallFrame (d : Dev) : Dev :=
  let x : Rat := (d.sen.ain0 - (d.sen.ofsH.toNat : Nat)) * d.sen.gainH.toInt
  { d with sen := { d.sen with hall := sat24 (quantise (x / 256)) } }

/-- The manifest marks the Hall sensor as fitted. -/
def Dev.hallFitted (d : Dev) : Bool := match d.man with | some m => m.hallFitted | none => false

/-- The tolerances in mA: TOL_AB for both while TOL_AB ≤ TOL_H is violated (R222). -/
def Dev.tolerances (d : Dev) : Nat × Nat :=
  let ab := d.tolAB
  let h := d.tolH
  if ab ≤ h then (100 * ab, 100 * h) else (100 * ab, 100 * ab)

/-- What the check of R213 and R215 selects: I_pack, SRC, DISC, NONE, and the inputs a discrepancy counts against. -/
structure PackChoice where
  i : Int
  src : BitVec 2
  disc : Bool
  none_ : Bool
  against : BitVec 3
deriving DecidableEq, Repr

/-- The selection of the pack current (R213, R215).
DEDUCED: notes/assumptions/52.md. -/
def Dev.choosePack (d : Dev) : PackChoice :=
  let a := d.sen.vals.get 0
  let b := d.sen.vals.get 1
  let h := d.sen.hall
  let okA := d.mdatValid 0 && !d.sen.outA
  let okB := d.mdatValid 1 && !d.sen.outB
  let okH := decide (d.sen.ain0 ≠ 0) && decide (d.sen.ain0 ≠ 4095)
  let near (x y : Int) (t : Nat) : Bool := decide ((x - y).natAbs ≤ t)
  let ab := okA && okB && near a b d.tolerances.1
  let mean := quantise (((a + b : Int) : Rat) / 2)
  let held : PackChoice := { i := d.sen.iPack, src := 0b11, disc := false, none_ := true, against := 0 }
  if !d.hallFitted then
    if ab then { i := mean, src := 0b00, disc := false, none_ := false, against := 0 } else held
  else
    let ah := okA && okH && near a h d.tolerances.2
    let bh := okB && okH && near b h d.tolerances.2
    if ab then { i := mean, src := 0b00, disc := false, none_ := false, against := if ah || bh then 0 else 0b100 }
    else if ah && bh then
      if (a - h).natAbs ≤ (b - h).natAbs then { i := a, src := 0b01, disc := true, none_ := false, against := 0 }
      else { i := b, src := 0b10, disc := true, none_ := false, against := 0 }
    else if ah then { i := a, src := 0b01, disc := false, none_ := false, against := 0b010 }
    else if bh then { i := b, src := 0b10, disc := false, none_ := false, against := 0b001 }
    else { held with against := 0b111 }

/-- The plausibility count of one input (R214): A, B, H as 0, 1, 2. -/
def Dev.plausibility (d : Dev) (x : Fin 3) (against : Bool) : Dev :=
  let bad := if against then satInc 1000 (d.sen.bad.get x) else 0
  let good := if against then 0 else satInc 1000 (d.sen.good.get x)
  let was := d.sen.impl.getLsbD x.val
  let now := if 10 ≤ bad then true else if 100 ≤ good then false else was
  let d := { d with sen := { d.sen with
    bad := upd d.sen.bad x bad, good := upd d.sen.good x good, impl := putBit d.sen.impl x.val now } }
  if now && !was then d.faultEvent (if x.val = 2 then 19 else 17) 24 0 (if x.val = 2 then 0 else x.val) else d

/-- The three-way check at a frame boundary (R212 to R215). During settling the counts rest. -/
def Dev.packFrame (d : Dev) : Dev :=
  let c := d.choosePack
  let d := { d with sen := { d.sen with
    iPack := c.i, src := c.src, disc := c.disc, none_ := c.none_, outA := false, outB := false } }
  let d := if c.src = 0b11 then d else { d with seq := { d.seq with lastI := c.i.natAbs } }
  let d := if d.sen.settling then d else
    ([0, 1, 2] : List (Fin 3)).foldl (fun d x => d.plausibility x (c.against.getLsbD x.val)) d
  if c.none_ && !d.sen.settling && !d.lim.active.getLsbD 18 then d.faultEvent 18 24 0 0 else d

/-- The sensing faults as the frame finds them (R268); their own events stand in the queue. Settling raises none.
DEDUCED: notes/assumptions/24.md. -/
def Dev.sensingFaults (d : Dev) : Dev :=
  let bad (n : Nat) : Bool := d.sen.lost.getLsbD n || d.sen.frozen.getLsbD n
  let pre := decide (d.seq.drover = Drover.precharge)
  let d := d.faultWhen (bad 0 || bad 1 || d.sen.impl.getLsbD 0 || d.sen.impl.getLsbD 1) 17 queued 0 0
  let d := if d.sen.settling then d else d.faultWhen d.sen.none_ 18 queued 0 0
  let d := d.faultWhen (d.sen.impl.getLsbD 2) 19 queued 0 0
  let d := d.faultWhen ((bad 2 || bad 3) && !pre) 20 queued 0 0
  let d := d.faultWhen (bad 4 || bad 5) 21 queued 0 0
  let d := d.faultWhen d.sen.dropped 22 queued 0 0
  { d with sen := { d.sen with dropped := false } }

/-- The values of a frame: means, analog results, Hall and pack current (R208, R211 to R215). -/
def Dev.sensingFrame (d : Dev) (keep : Kept) : Dev :=
  let d := (d.meansFrame keep).ainFrame keep
  let d := ([0, 1, 2, 3] : List (Fin 4)).foldl (fun d i => d.ntcFrame keep i) d
  (d.hallFrame).packFrame

end Sys2Proof.Machine
end

