-- ==== Sys2Proof/Machine/Tolling.lean ====
section
/-! DEFINITION. The toll (R382 to R406): TOL_CMD, sessions, the meter stop, impulses, seal and enclosure. -/
namespace Sys2Proof.Machine

/-! ### Opening a session -/

/-- TOL_STAT.REFUSE takes the reason of a refusal (R383). -/
def Dev.refuseSession (d : Dev) (reason code : Nat) : Executed :=
  ({ d with tol := { d.tol with refuse := reason } }, some code)

/-- The output pre-check and the K4 weld check of R333, as they stand at the request.
DEDUCED: notes/assumptions/54.md. -/
def Dev.outputPrecheck (d : Dev) : Bool := d.mdatValid 4 && decide (10 ≤ d.tol.outLow) && !(d.coil.get 3).stuck

/-- The conditions of R383 in their order, with the session state that the command asks for; the pull-in of K4 starts
where they hold (R16, R384, R390). A failed output pre-check is recorded with reason 3.
DEDUCED: notes/assumptions/54.md. -/
def Dev.openSession (d : Dev) (want : Session) : Executed :=
  if !d.inRun then d.refuseSession 7 rMode
  else if d.seq.drover ≠ .closed then d.refuseSession 7 rState
  else if d.runState = .bench then d.refuseSession 7 rMode
  else if d.tol.session ≠ want then d.refuseSession 6 rPending
  else if !d.sup.timeValid then d.refuseSession 1 rCondition
  else if d.tol.sealOpen || d.tol.paramBad then d.refuseSession 2 rCondition
  else if !(d.mdatValid 4 && d.mdatValid 5) then d.refuseSession 3 rCondition
  else if d.tol.stop then d.refuseSession 5 rCondition
  else if d.lgr.free = 0 then d.refuseSession 4 rPending
  else if d.stagingFree < 2 then d.refuseSession 5 rCondition
  else if !d.outputPrecheck then d.refuseSession 3 rCondition
  else
    let resuming := decide (want = Session.suspended)
    let d := { d with tol := { d.tol with resuming := resuming, sessionTamper := resuming && d.tol.sessionTamper } }
    ((d.setSession .opening).pullIn 3, some rStarted)

/-- OPEN (R383); a request withdraws a deliberate step's (R255). -/
def bodySessionOpen (d : Dev) : Executed := d.withdrawStep.openSession .none_

/-- RESUME (R390). -/
def bodyResume (d : Dev) : Executed := d.openSession .suspended

/-- TOL_CMD OPEN. -/
def execSessionOpen (tok : Byte) (s : State) : Host.Outcome State Fault Refusal :=
  s.effect fun d => d.hostCommand .tol tok 0x01 bodySessionOpen

/-- TOL_CMD RESUME. -/
def execTolResume (tok : Byte) (s : State) : Host.Outcome State Fault Refusal :=
  s.effect fun d => d.hostCommand .tol tok 0x03 bodyResume

/-! ### Closing a session -/

/-- CLOSE of an active session: zero output current is published, and K4 waits for the current or for T_grace (R16, R387);
the parameters of the opening are captured (R24). -/
def Dev.closeActive (d : Dev) : Dev :=
  let d := d.capture
  let d := { d with seq := { d.seq with grace := true, sessionEnding := true } }
  (d.setSession .closing).publish .status

/-- CLOSE of a suspended session: a suspended record that waits for K4's verdict and the end record are sealed at once
(R387, R391, R403). Where the end record must wait for a staging entry the session reads Closing until then. -/
def Dev.closeSuspended (d : Dev) : Dev :=
  let waits := d.tol.suspendDue
  let d := { d with tol := { d.tol with suspendDue := false, following := false } }
  let d := if waits then d.sealDue .suspended else d
  let d := d.sealDue .ended
  if d.tol.session = .none_ then d else d.setSession .closing

/-- CLOSE during Opening releases K4 and refuses the session (R406).
DEDUCED: notes/assumptions/54.md. -/
def Dev.closeOpening (d : Dev) : Dev := (d.release 3).tollK4Open

/-- CLOSE (R29, R387, R406), in every mode: a session that a muster has restored can be closed before Run (R155, R391).
DEDUCED: notes/assumptions/54.md. -/
def bodySessionClose (d : Dev) : Executed :=
  if d.seq.drover = .hold then (d, some rState)
  else match d.tol.session with
    | .none_ => (d, some rDone)
    | .opening => (d.closeOpening, some rDone)
    | .active => (d.closeActive, some rStarted)
    | .closing => (d, some rDone)
    | .suspended => (d.closeSuspended, some rDone)

/-- TOL_CMD CLOSE. -/
def execSessionClose (tok : Byte) (s : State) : Host.Outcome State Fault Refusal :=
  s.effect fun d => d.hostCommand .tol tok 0x02 fun d => let x := bodySessionClose d; x.1.drained x.2

/-! ### Snapshot and interim records -/

/-- The local display time: the UTC time plus TOL_CFG.DISP_OFS in units of 15 min (R405). -/
def Dev.localTime (d : Dev) : Nat :=
  ofSigned 48 ((d.sup.rtc.toNat : Int) + signedField d.tol.cfg 16 8 * (900 * 32768))

/-- SNAPSHOT (R405, R430, R433).
DEDUCED: notes/assumptions/54.md. -/
def bodySnapshot (d : Dev) : Executed :=
  if !d.inRun ∨ d.runState = .bench then (d, some rMode)
  else
  let d := d.drainRecords
  if !d.canStageAudit then (d, some rPending)
  else (d.freeze 6 (field d.tol.cfg 16 8) (be 6 d.localTime), some rDone)

/-- TOL_CMD SNAPSHOT. -/
def execSnapshot (tok : Byte) (s : State) : Host.Outcome State Fault Refusal :=
  s.effect fun d => d.hostCommand .tol tok 0x04 fun d => let x := bodySnapshot d; x.1.drained x.2

/-- The RTC time at which T_int ends. -/
def Toll.intEnd (t : Toll) : Nat := t.intFrom.toNat + t.tInt * (60 * 32768)

/-- T_int has passed on the RTC since the start record, the last interim or the resume: while the session meters an
interim record falls due, and the next T_int counts from there with the setting of now (R386, R402). -/
def Dev.interimDue (d : Dev) : Dev :=
  if d.inRun && (decide (d.tol.session = Session.active) || decide (d.tol.session = Session.closing)) &&
      decide (d.tol.intEnd ≤ d.sup.rtc.toNat) && !d.tol.due.contains .ended then
    ({ d with tol := { d.tol with
        intFrom := BitVec.ofNat 48 d.tol.intEnd, tInt := field d.tol.cfg 0 6 } } : Dev).sealDue .interim
  else d

/-- INTERIM_RECORD_DUE.
DEDUCED: notes/assumptions/54.md. -/
def execInterimRecordDue (s : State) : Host.Outcome State Fault Refusal := s.effect Dev.interimDue

/-! ### Meter stop (R392) -/

/-- The two conditions at a frame boundary: a stop starts with its event and mark, and the boundaries without either
condition are counted. The output current limit changes with it. -/
def Dev.meterFrame (d : Dev) : Dev :=
  let input := decide (d.tol.session = Session.active) && !(d.mdatValid 4 && d.mdatValid 5)
  let staging := decide (d.stagingFree < 2)
  let any := input || staging
  let low := d.mdatValid 4 && decide ((d.sen.vals.get 4) < 60000)
  let starts := any && !d.tol.stop
  let d := { d with tol := { d.tol with
    stopInput := input, stopStaging := staging, stop := d.tol.stop || any
    absent := if any then 0 else satInc 1000 d.tol.absent, outLow := if low then satInc 1000 d.tol.outLow else 0 } }
  let d := if d.tol.stop then d.markSession 5 else d
  if starts then (d.notice 51 0 0).publish .status else d

/-- Both conditions have been absent for 10 frames: the stop ends. -/
def Dev.meterStopEnds (d : Dev) : Dev :=
  if d.tol.stop && !d.tol.stopInput && !d.tol.stopStaging && decide (10 ≤ d.tol.absent) then
    ((({ d with tol := { d.tol with stop := false } } : Dev).markSession 5).notice 51 0 0).publish .status
  else d

/-- METER_STOP_END. -/
def execMeterStopEnd (s : State) : Host.Outcome State Fault Refusal := s.effect Dev.meterStopEnds

/-! ### Impulses (R394) -/

/-- An owed impulse is emitted; MPULSE is low again at its end, and low outside Run. -/
def Dev.impulse (d : Dev) : Dev :=
  if d.inRun && decide (0 < d.tol.owed) then { d with tol := { d.tol with owed := d.tol.owed - 1 } } else d

/-- IMPULSE. -/
def execImpulse (s : State) : Host.Outcome State Fault Refusal := s.effect Dev.impulse

/-! ### Seal and enclosure (R396, R397, R404) -/

/-- The seal closes, with its audit record of kind 3. -/
def Dev.closeSeal (d : Dev) : Dev :=
  if d.tol.sealOpen then
    (({ d with tol := { d.tol with sealOpen := false } } : Dev).notice 52 0 0).sealAudit 3
  else d

/-- CAL_OPEN (R397, R404). -/
def bodyCalOpen (d : Dev) : Executed :=
  if d.tol.session ≠ .none_ then (d, some rPending)
  else if !d.tol.enclOpen then (d, some rCondition)
  else if d.tol.sealOpen then (d, some rDone)
  else ((({ d with tol := { d.tol with sealOpen := true } } : Dev).notice 52 0 0).sealAudit 2, some rDone)

/-- CAL_CLOSE. -/
def bodyCalClose (d : Dev) : Executed := (d.closeSeal, some rDone)

/-- TOL_CMD CAL_OPEN. -/
def execCalOpen (tok : Byte) (s : State) : Host.Outcome State Fault Refusal :=
  s.effect fun d => d.hostCommand .tol tok 0x05 fun d => let x := bodyCalOpen d; x.1.drained x.2

/-- TOL_CMD CAL_CLOSE. -/
def execCalClose (tok : Byte) (s : State) : Host.Outcome State Fault Refusal :=
  s.effect fun d => d.hostCommand .tol tok 0x06 fun d => let x := bodyCalClose d; x.1.drained x.2

/-- Audit records fall due in Run, and where PER and DEP run with the numbers loaded (R433). -/
def Dev.auditsDue (d : Dev) : Bool := d.alive && (d.inRun || d.recordsRun)

/-- An enclosure opening: TOL_SEAL.OPENED, the audit record of kind 4, and TAMPER in a session (R396, R404). Where no audit
record falls due the always-on domain latches its RTC time for a later one (R433, R551). -/
def Dev.enclosureOpens (d : Dev) : Dev :=
  let session := decide (d.tol.session ≠ Session.none_)
  let d := { d with tol := { d.tol with
    enclOpen := true, opened := true, tamper := d.tol.tamper || session, sessionTamper := d.tol.sessionTamper || session } }
  let d := if d.alive then d.notice 52 0 0 else d
  if d.auditsDue then d.sealAudit 4
  else { d with tol := { d.tol with openings := d.tol.openings ++ [d.sup.rtc] } }

/-- An enclosure that closes also closes the seal (R397). -/
def Dev.enclosureCloses (d : Dev) : Dev :=
  let d := { d with tol := { d.tol with enclOpen := false } }
  let d := if d.alive then d.notice 52 0 0 else d
  d.closeSeal

/-- VAO is up: from VSUP, or from the backup cell. -/
def Dev.vaoUp (d : Dev) : Bool := d.sup.powered || !d.sup.vbkAbsent

/-- The SEAL inputs have shown a new combination for 10 ms: closed is SEAL0 low with SEAL1 high (R396). With VAO lost
nothing is detected (R551). -/
def Dev.enclosureChange (d : Dev) (seal0 seal1 : Bool) : Dev :=
  let was := d.tol.enclOpen
  let now := !(!seal0 && seal1)
  let d := { d with tol := { d.tol with seal0 := seal0, seal1 := seal1 } }
  if !d.vaoUp then { d with tol := { d.tol with enclOpen := now } }
  else if now && !was then d.enclosureOpens else if !now && was then d.enclosureCloses else d

/-- ENCLOSURE_CHANGE. -/
def execEnclosureChange (seal0 seal1 : Bool) (s : State) : Host.Outcome State Fault Refusal :=
  s.effect fun d => d.enclosureChange seal0 seal1

/-! ### Sealed parameters (R398) -/

/-- A changed RWS register with the seal open: the audit count rises, the record of kind 1 carries address, old and new
value, and the sealed block is written again. `set` stores the value.
DEDUCED: notes/assumptions/55.md. -/
def Dev.changeSealed (d : Dev) (addr : Nat) (old new : Word) (set : Toll → Toll) : Dev :=
  let d := { d with tol := { set d.tol with audit := d.tol.audit + 1, paramBad := false } }
  (d.writeSealed).dueAudit 1 (be 2 addr ++ be 3 old.toNat ++ be 3 new.toNat)

/-- Whether such a change can be recorded. -/
def Dev.canChangeSealed (d : Dev) : Bool := d.tol.sealOpen && d.canStageAudit && decide (d.tol.audit < 0xFFFFFF)

end Sys2Proof.Machine
end

