-- ==== Sys2Proof/Machine/Ledger.lean ====
section
/-! DEFINITION. The ledger (R407 to R433): signing and sealing, the commit protocol, acknowledgement, the check of
committed records, and the recovery at muster. -/
namespace Sys2Proof.Machine

/-! ### Sealing (R411, R417) -/

/-- Bytes 0 to 251 of a record: body, CRC-32 and signature. -/
def sealBytes (seq : Nat) (body : List Byte) : List Byte :=
  let b := fit 184 body
  b ++ be 4 (crc32 b).toNat ++ fit 64 (deviceSign seq (sha256 b))

/-- The oldest frozen record is signed and sealed into the staging buffer. -/
def Dev.recordSigned (d : Dev) : Dev :=
  match d.lgr.signing with
  | [] => d
  | r :: rest =>
    { d with lgr := { d.lgr with
        signing := rest, staging := d.lgr.staging ++ [{ seq := r.seq, bytes := sealBytes r.seq r.body }] } }

/-- RECORD_SIGNED. -/
def execRecordSigned (s : State) : Host.Outcome State Fault Refusal := s.effect Dev.recordSigned

/-! ### Commit (R418 to R420) -/

/-- A sealed record can be committed: the ledger has a free slot for it. -/
def Dev.commitReady (d : Dev) : Bool :=
  match d.lgr.staging with
  | [] => false
  | r :: _ => decide (r.seq ≤ d.lgr.ack + 1536)

/-- The first writes of a commit: the marker WRITING and bytes 0 to 251. A commit that can be made needs the depot (R89). -/
def Dev.startCommit (d : Dev) : Dev :=
  match d.lgr.staging with
  | [] => d
  | r :: _ =>
    if d.lgr.committing ∨ d.lgr.ack + 1536 < r.seq then d
    else
      let d := d.needDepot
      if d.depotFree then
        let d := (d.setCs0 (slotAddr r.seq + 252) (be 4 markerWriting)).setCs0 (slotAddr r.seq) (fit 252 r.bytes)
        { d with lgr := { d.lgr with committing := true }, dep := { d.dep with busy := some .commit } }
      else d

/-- The oldest sealed record starts its commit; after a failed one the tries of R420 take its place. -/
def Dev.ledgerCommit (d : Dev) : Dev := if d.lgr.depotErr then d else d.startCommit

/-- LEDGER_COMMIT. -/
def execLedgerCommit (s : State) : Host.Outcome State Fault Refusal := s.effect Dev.ledgerCommit

/-- Every 100 ms after a failed repeated read-back (R420). -/
def Dev.commitRetry (d : Dev) : Dev := if d.lgr.depotErr then d.startCommit else d

/-- COMMIT_RETRY. -/
def execCommitRetry (s : State) : Host.Outcome State Fault Refusal := s.effect Dev.commitRetry

/-- One CS0 read-back failure (DEP_ERR.CS0). -/
def Dev.countCs0Error (d : Dev) : Dev :=
  { d with dep := { d.dep with
      err0 := satInc 4095 d.dep.err0, ovf := setFlag d.dep.ovf 4 (decide (4095 ≤ d.dep.err0 + 1)) } }

/-- The commit is over: the depot is free. -/
def Dev.endCommit (d : Dev) : Dev :=
  { d with lgr := { d.lgr with committing := false }, dep := { d.dep with busy := none } }

/-- The read-back has matched: the marker COMMITTED, the next header copy, the entry freed and the event (R418). -/
def Dev.commitDone (d : Dev) (r : Sealed) (rest : List Sealed) : Dev :=
  let d := d.setCs0 (slotAddr r.seq + 252) (be 4 markerCommitted)
  let d := { d with lgr := { d.lgr with commit := r.seq, staging := rest, depotErr := false } }
  ((d.writeHeader (r.seq + 1)).endCommit).notice 53 0 0

/-- The end of a commit: the read-back, repeated once (R420). -/
def Dev.ledgerCommitEnd (d : Dev) (first second : Bool) : Dev :=
  if !d.lgr.committing then d
  else match d.lgr.staging with
    | [] => d.endCommit
    | r :: rest =>
      let d := if first then d else d.countCs0Error
      if first || second then d.commitDone r rest
      else
        let d := (d.countCs0Error).endCommit
        let d := { d with lgr := { d.lgr with depotErr := true } }
        d.notice 55 0 0

/-- LEDGER_COMMIT_END. -/
def execLedgerCommitEnd (first second : Bool) (s : State) : Host.Outcome State Fault Refusal :=
  s.effect fun d => d.ledgerCommitEnd first second

/-! ### Acknowledgement (R422, R432) -/

/-- The 32-bit value of LGR_ACKSET_HI and LGR_ACKSET_LO. -/
def Ledger.ackValue (l : Ledger) : Nat := place (field l.acksetHi 0 8) 24 + l.acksetLo.toNat

/-- An acknowledgement takes effect: LGR_ACK and a header copy. -/
def Dev.applyAck (d : Dev) (v : Nat) : Dev :=
  let before := d.lgr.free
  let d := { d with lgr := { d.lgr with
    ack := v, ackDue := none, judged := d.lgr.judged.filter fun n => v < n } }
  (d.queueHeader (d.lgr.commit + 1)).lowCheck before

/-- ACK. During a commit it waits for the commit's end. -/
def bodyAck (d : Dev) : Executed :=
  let v := d.lgr.ackValue
  if d.lgr.commit < v then (d, some rCondition)
  else if v ≤ d.lgr.ack then (d, some rDone)
  else if d.lgr.committing then ({ d with lgr := { d.lgr with ackDue := some v } }, some rDone)
  else (d.applyAck v, some rDone)

/-- LGR_CMD ACK. -/
def execAck (tok : Byte) (s : State) : Host.Outcome State Fault Refusal :=
  s.effect fun d => d.hostCommand .lgr tok 0x01 bodyAck

/-- An acknowledgement that waited takes effect at the boundary after the commit (R432). -/
def Dev.ackFrame (d : Dev) : Dev :=
  match d.lgr.ackDue with
  | some v => if d.lgr.committing then d else d.applyAck v
  | none => d

/-! ### Judging a record (R428) -/

/-- The slot's bytes as stored. -/
def Dev.slot (d : Dev) (n : Nat) : List Byte := d.cs0 (slotAddr n) 256

/-- The CRC-32 of a slot's body is correct. -/
def slotCrcOk (b : List Byte) : Bool := decide (ofBe (slice 184 4 b) = (crc32 (slice 0 184 b)).toNat)

/-- The signature of a slot's body verifies. -/
def slotSigned (b : List Byte) : Bool := ecdsaVerify deviceKey (sha256 (slice 0 184 b)) (slice 188 64 b)

/-- A record whose CRC fails is judged by its signature, counted once, reported, and shown in LGR_BAD where it is the newest.
DEDUCED: notes/assumptions/56.md. -/
def Dev.judgeRecord (d : Dev) (n : Nat) (verified : Bool) : Dev :=
  if d.lgr.judged.contains n then d
  else
    let newest := (d.lgr.judged ++ [n]).foldl max 0
    let d := { d with lgr := { d.lgr with judged := d.lgr.judged ++ [n], bad := word (max newest d.lgr.bad.toNat) } }
    let d := if verified then { d with lgr := { d.lgr with damaged := satInc 255 d.lgr.damaged } }
      else { d with
        lgr := { d.lgr with corruptCnt := satInc 255 d.lgr.corruptCnt, corrupt := true } }
    d.notice 55 0 0

/-- The check of a committed record. -/
def Dev.checkSlot (d : Dev) (n : Nat) : Dev :=
  let b := d.slot n
  if slotCrcOk b then d else d.judgeRecord n (slotSigned b)

/-- Every 10 ms in Run class B checks the next unacknowledged committed record, unless a power-fail warning has stopped it
or the engine is halted (R48, R120, R428); its reads are of the last class of R507. -/
def Dev.recordCheck (d : Dev) : Dev :=
  if !(d.inRun && !d.powerFailing && !d.insp.halted && decide (d.lgr.ack < d.lgr.commit)) then d
  else
  let d := d.needDepot
  if d.depotFree && d.dep.jobs.isEmpty && d.dep.waiting.all fun t => t = .lifetime then
    let n := if d.lgr.ack < d.lgr.cursor ∧ d.lgr.cursor ≤ d.lgr.commit then d.lgr.cursor else d.lgr.ack + 1
    ({ d with lgr := { d.lgr with cursor := n + 1 } } : Dev).checkSlot n
  else d

/-- RECORD_CHECK. -/
def execRecordCheck (s : State) : Host.Outcome State Fault Refusal := s.effect Dev.recordCheck

/-! ### Recovery at muster step 8 (R144, R415, R425, R426) -/

/-- The session and accumulators as a shadow restores them: a session that was active, closing or suspended comes back
suspended (R391). An enclosure opening that has been latched since tampers with it (R404, R551). -/
def Toll.restore (t : Toll) (e : EnergyShadow) : Toll :=
  let s := e.session = .active ∨ e.session = .closing ∨ e.session = .suspended
  let again := e.session = .active ∨ e.session = .closing
  let opened := s && !t.openings.isEmpty
  { t with
    exp := e.exp, imp := e.imp, resExp := e.resExp, resImp := e.resImp, session := if s then .suspended else .none_
    sessionId := e.sessionId, lastId := e.lastId, tag := e.tag, sexp := e.sexp, simp := e.simp, unmeasured := e.unmeasured
    recordNo := e.recordNo, startTime := e.startTime, audit := max t.audit e.audit
    tamper := t.tamper || opened, sessionTamper := (s && e.marks.getLsbD 1) || opened
    marks := if s then e.marks ||| 0x080 ||| (if again then 0x004 else 0) else 0 }

/-- The bytes of a recovered record for sequence number `h`: type 0x05, byte 5 of the slot as found, the cause and the
time of the energy shadow used. -/
def Dev.recoveredBytes (d : Dev) (h : Nat) (found : Byte) (cause : Nat) : List Byte :=
  let shadow := d.dep.energy.value
  let e := match shadow with
    | some x => { d with tol := d.tol.restore x }
    | none => d
  let time : Nat := match shadow with | some x => x.time.toNat | none => 0
  sealBytes h (e.recordBody 5 h 0 ([found] ++ be 1 cause ++ be 6 time))

/-- A torn record is resealed in its slot (R425). -/
def Dev.reseal (d : Dev) (h : Nat) (found : Byte) (cause : Nat) : Dev :=
  let b := d.recoveredBytes h found cause
  let d := d.setCs0 (slotAddr h) (fit 252 b ++ be 4 markerCommitted)
  let d := { d with
    lgr := { d.lgr with commit := h, recovered := satInc 255 d.lgr.recovered, restartDue := false }
    sys := { d.sys with find := d.sys.find ||| 0x000010 } }
  d.writeHeader (h + 1)

/-- SYS_MFIND.CORRUPT follows the verdicts. -/
def Dev.findCorrupt (d : Dev) : Dev :=
  if d.lgr.corrupt then { d with sys := { d.sys with find := d.sys.find ||| 0x000020 } } else d

/-- A committed record found at the head is accepted (R425). -/
def Dev.acceptSlot (d : Dev) (h : Nat) : Dev := ({ d with lgr := { d.lgr with commit := h } } : Dev).writeHeader (h + 1)

/-- The examination of up to `n` slots from sequence number `h` on (R425); the result is the next sequence number. -/
def Dev.examine : Nat → Nat → Dev → Dev × Nat
  | 0, h, d => (d, h)
  | n + 1, h, d =>
    let b := d.slot h
    let marker := ofBe (slice 252 4 b)
    let seq := ofBe (slice 8 4 b)
    let crc := slotCrcOk b
    if marker = markerCommitted then
      if seq = h then
        let d := d.acceptSlot h
        Dev.examine n (h + 1) (if crc then d else (d.judgeRecord h (slotSigned b)).findCorrupt)
      else if !crc && decide (seq + 1536 ≠ h) then
        if slotSigned b then (d, h) else Dev.examine n (h + 1) (((d.acceptSlot h).judgeRecord h false).findCorrupt)
      else (d, h)
    else if marker = 0 then (d, h)
    else (d.reseal h (b.getD 5 0) (if marker = markerWriting then 1 else 2), h + 1)

/-- The sequence numbers of the committed slots, as a scan of the ledger finds them (R144). -/
def Dev.committedSlots (d : Dev) : List Nat :=
  (List.range 1536).filterMap fun i =>
    let a := 0x20000 + 256 * i
    if ofBe (d.cs0 (a + 252) 4) = markerCommitted then some (ofBe (d.cs0 (a + 8) 4)) else none

/-- The head found or rebuilt: next and acknowledged sequence number (R144, R415). `life` is the next sequence number and
the next session ID of the lifetime record. A rebuilt head states no acknowledged number: it is free among those that
the committed slots allow. -/
def Dev.findHead (d : Dev) (life : Option (Nat × Nat)) : Dev × Nat :=
  match d.header with
  | some (gen, next, ack) => ({ d with lgr := { d.lgr with gen := gen, ack := ack, commit := next - 1 } }, next)
  | none =>
    let d := { d with sys := { d.sys with find := d.sys.find ||| 0x000008 } }
    match d.committedSlots with
    | [] =>
      match life with
      | some (seq, session) =>
        let h := seq + 1536
        ({ d with
          lgr := { d.lgr with ack := h - 1, commit := h - 1, restartDue := true, restarted := true }
          tol := { d.tol with sessionId := (session + 1536 - 1) % 2 ^ 24, lastId := (session + 1536 - 1) % 2 ^ 24 } }, h)
      | none => ({ d with lgr := { d.lgr with ack := 0, commit := 0 } }, 1)
    | n :: rest =>
      let top := rest.foldl max n
      let low := rest.foldl min n - 1
      let ack := low + (Config.freeWord d.free).toNat % (top - low + 1)
      ({ d.tick with lgr := { d.lgr with ack := ack, commit := top } }, top + 1)

/-- Muster step 8: head, examination and the number to freeze next.
DEDUCED: notes/assumptions/31.md. -/
def Dev.recoverLedger (d : Dev) (life : Option (Nat × Nat)) : Dev :=
  let r := d.findHead life
  let x := Dev.examine 9 r.2 r.1
  { x.1 with lgr := { x.1.lgr with next := x.2 } }

end Sys2Proof.Machine
end

