-- ==== Sys2Proof/Machine/Can.lean ====
section
/-! DEFINITION. The CAN channels (R435 to R469): arbitration, attempts and retries, the timetable, reception with the
mailboxes and the receive FIFO, the host message timeout, bus-off, and CANx_CMD. -/
namespace Sys2Proof.Machine

/-! ### Counters, error states and episodes -/

/-- An overflow bit of CANx_STAT.OVF: 0 RETRIES, 1 TXFAIL, 2 RXOVR, 3 MBLOST, 4 HTO.
DEDUCED: notes/assumptions/18.md. -/
def ovfBit (n : Nat) (b : Bool) : BitVec 5 := if b then BitVec.ofNat 5 (2 ^ n) else 0

/-- One retry sent (R442).
DEDUCED: notes/assumptions/58.md. -/
def Can.countRetry (c : Can) : Can :=
  { c with retries := satInc 4095 c.retries, ovf := c.ovf ||| ovfBit 0 (decide (4095 ≤ c.retries + 1)) }

/-- One frame dropped (R442). -/
def Can.countTxFail (c : Can) : Can :=
  { c with txfail := satInc 4095 c.txfail, ovf := c.ovf ||| ovfBit 1 (decide (4095 ≤ c.txfail + 1)) }

/-- One frame lost to a full receive FIFO (R450). -/
def Can.countRxOver (c : Can) : Can :=
  { c with rxovr := satInc 255 c.rxovr, ovf := c.ovf ||| ovfBit 2 (decide (255 ≤ c.rxovr + 1)) }

/-- One mailbox overwritten (R451). -/
def Can.countMbLost (c : Can) : Can :=
  { c with mblost := satInc 255 c.mblost, ovf := c.ovf ||| ovfBit 3 (decide (255 ≤ c.mblost + 1)) }

/-- One host message timeout (R461). -/
def Can.countTimeout (c : Can) : Can :=
  { c with hto := satInc 255 c.hto, ovf := c.ovf ||| ovfBit 4 (decide (255 ≤ c.hto + 1)) }

/-- The channel takes part in bus traffic: its domain runs, it is on, and it is not in bus-off. -/
def Dev.canLive (d : Dev) (ch : Ch) : Bool :=
  d.sup.doms.can && bit (d.can ch).cfg 23 && decide ((d.can ch).state ≠ 2)

/-- The episode of the channel as an event carries it. -/
def Can.episodeId (c : Can) : Nat := c.episode.getD 0

/-- An event of a channel, in its episode. -/
def Dev.canEvent (d : Dev) (ch : Ch) (src : Nat) : Dev :=
  d.event src 0 0 (chNo ch) (d.can ch).episodeId (Config.eventData src 0)

/-- The first error on the channel opens an episode (R464). -/
def Dev.openCanEpisode (d : Dev) (ch : Ch) : Dev :=
  match (d.can ch).episode with
  | some _ => d
  | none =>
    let r := d.newEpisode
    r.1.setCan ch { r.1.can ch with episode := some r.2 }

/-- The error counts and the error state that follows from them, with its event (R445, ISO 11898-1).
PRESUMED: notes/assumptions/57.md. -/
def Dev.setErrors (d : Dev) (ch : Ch) (tec rec_ : Nat) : Dev :=
  let c := d.can ch
  let st : BitVec 2 := if 127 < tec ∨ 127 < rec_ then 1 else 0
  let d := d.setCan ch { c with tec := min tec 255, rec_ := min rec_ 255, state := st }
  if st = c.state then d else d.canEvent ch 56

/-- A frame sent or received without error closes the episode (R464). -/
def Dev.closeCanEpisode (d : Dev) (ch : Ch) : Dev := d.setCan ch { d.can ch with episode := none }

/-! ### Transmission -/

/-- Host transmit requests of one channel are shed from TX_HIGH on, until the FIFO falls below TX_HIGH / 2 (R523).
DEDUCED: notes/assumptions/61.md. -/
def Can.reshed (c : Can) : Can :=
  let high := field c.wmcfg 8 5
  let on := decide (high ≤ c.fifo.length) || (c.shed && decide (high / 2 ≤ c.fifo.length))
  { c with shed := on, shedSaid := c.shedSaid && on }

/-- The frame with a tag leaves the FIFO with an outcome (R444). -/
def Can.leave (c : Can) (tag outcome : Nat) : Can :=
  ({ c with fifo := c.fifo.filter fun f => f.tag ≠ tag, lastTag := tag, lastOut := outcome } : Can).reshed

/-- A frame that the channel's protocol has (R435).
DEDUCED: notes/assumptions/59.md. -/
def Can.supports (c : Can) (f : CanFrame) : Bool := !f.fdf || (bit c.cfg 22 && !f.rtr)

/-- Entry 0 carries CELL_SUM (R447). -/
def Can.carriesCells (c : Can) (j : Fin 32) : Bool := decide (j = 0) && bit c.pubcfg 20

/-- The entries of the timetable that are due and enabled (R446, R466): a frame that the channel does not support, or
the Golner's own without its PUBCFG bit, is not sent (R435, R458).
DEDUCED: notes/assumptions/58.md. -/
def Can.dueEntries (c : Can) : List (Fin 32) :=
  (List.finRange 32).filter fun j =>
    let e := c.tt.get j
    e.due && bit c.ttcfg 23 && bit e.ent 23 && !c.entryBad e && c.supports e.frame && (!e.own || c.carriesCells j)

/-- The frame that the controller offers (R438, R439, R441); which of several due entries goes first is open and free. A
head of the FIFO that the channel no longer supports waits (R435).
DEDUCED: notes/assumptions/58.md. -/
def Can.offer (c : Can) (free : Nat) : Option OnBus :=
  match c.prio with
  | x :: _ => some { source := .priority x.kind, frame := x.frame, tries := x.tries }
  | [] =>
    match c.dueEntries[free % c.dueEntries.length]? with
    | some j => some { source := .timetable j, frame := (c.tt.get j).frame, tries := (c.tt.get j).tries }
    | none =>
      match c.fifo with
      | f :: _ => if c.supports f.frame then some { source := .fifo, frame := f.frame, tries := f.tries } else none
      | [] => none

/-- A source is the priority buffer. -/
def TxSource.isPriority : TxSource → Bool
  | .priority _ => true
  | _ => false

/-- The bus becomes free and the channel's frame wins or loses arbitration (R438); listen-only never sends. -/
def Dev.arbitrate (d : Dev) (ch : Ch) (won : Bool) : Dev :=
  let c := d.can ch
  if !d.canLive ch || bit c.cfg 18 || c.onBus.isSome || !won then d
  else
    match c.offer (Config.freeWord d.free).toNat with
    | none => d
    | some o =>
      let prio := if o.source.isPriority then c.prio.drop 1 else c.prio
      d.tick.setCan ch { c with onBus := some o, prio := prio }

/-- ARBITRATION. -/
def execArbitration (ch : Ch) (won : Bool) (s : State) : Host.Outcome State Fault Refusal :=
  s.effect fun d => d.arbitrate ch won

/-- An entry whose frame leaves the bus: what waited for the attempt's end takes effect (R446, R447). -/
def TtEntry.settle (e : TtEntry) : TtEntry :=
  match e.load with
  | some x => { e with frame := x.1, own := x.2, load := none }
  | none => e

/-- The frame on the bus has been sent, or has left: it is gone from its source. -/
def Can.taken (c : Can) (o : OnBus) (outcome : Nat) : Can :=
  let c := { c with onBus := none }
  match o.source with
  | .priority _ => c
  | .timetable j =>
    let e := c.tt.get j
    { c with tt := upd c.tt j { e.settle with due := e.again, again := false, tries := 0 } }
  | .fifo =>
    match c.fifo with
    | f :: _ => c.leave f.tag outcome
    | [] => c

/-- A newer instance has replaced the frame on the bus, or the channel carries the frame no more, so that no retry of it
is due (R441, R446, R458).
DEDUCED: notes/assumptions/58.md. -/
def Can.superseded (c : Can) (o : OnBus) : Bool :=
  match o.source with
  | .priority k => !c.enabled k || c.prio.any fun x => x.kind = k
  | .timetable j => (c.tt.get j).again
  | .fifo => false

/-- The frame on the bus stays in its source with `tries` failed attempts; a newer instance of it in the meantime takes
its place (R441, R446). -/
def Can.putBack (c : Can) (o : OnBus) (tries : Nat) : Can :=
  let c := { c with onBus := none }
  match o.source with
  | .priority k =>
    if c.superseded o then c
    else { c with prio := prioPlace { kind := k, frame := o.frame, tries := tries } c.prio }
  | .timetable j =>
    let e := c.tt.get j
    { c with tt := upd c.tt j { e.settle with again := false, tries := if e.again then 0 else tries } }
  | .fifo =>
    match c.fifo with
    | f :: rest => { c with fifo := { f with tries := tries } :: rest }
    | [] => c

/-- The transmitter delay measured in a sent frame with bit rate switching is free (R437).
DEDUCED: notes/assumptions/59.md. -/
def Can.measureDelay (c : Can) (o : OnBus) (free : Nat) : Can :=
  if bit c.tdc 23 && o.frame.fdf && o.frame.brs then
    { c with tdc := (c.tdc &&& 0x80007F) ||| ((Config.freeWord free &&& 0x00007F) <<< 8) }
  else c

/-- A failed attempt had reached its data phase, where the delay is measured, or not: the bus decides, and the model
leaves it free (R437).
DEDUCED: notes/assumptions/59.md. -/
def Dev.mayMeasure (d : Dev) (ch : Ch) (o : OnBus) : Dev :=
  let c := if Config.freeBool d.free then (d.can ch).measureDelay o (d.free + 1) else d.can ch
  d.tick.tick.setCan ch c

/-- The channel enters bus-off: what is on the bus goes back uncounted, and recovery starts where BO_AUTO says (R445).
PRESUMED: notes/assumptions/57.md. -/
def Dev.enterBusOff (d : Dev) (ch : Ch) : Dev :=
  if !d.canLive ch then d
  else
    let d := d.openCanEpisode ch
    let c := d.can ch
    let c := match c.onBus with
      | none => c
      | some o => match o.cancel with
        | some out => c.taken o out
        | none => c.putBack o o.tries
    (d.setCan ch { c with state := 2, tec := 255, recovering := bit c.cfg 20 }).canEvent ch 56

/-- A frame has been sent (R442, R444, R464, R527).
PRESUMED: notes/assumptions/57.md. -/
def Dev.attemptSent (d : Dev) (ch : Ch) (o : OnBus) : Dev :=
  let d := d.closeCanEpisode ch
  let c := d.can ch
  let c := if 0 < o.tries then { c.countRetry with succeeded := true } else c
  let c := (c.measureDelay o d.free).taken o 0
  (d.tick.setCan ch { c with lastSent := some o.frame }).setErrors ch (c.tec - 1) c.rec_

/-- An attempt has failed: the frame is cancelled, dropped with its budget used, replaced or retried (R441 to R443, R463).
Whether an error-passive transmitter counts a missing acknowledgement is open to the environment and free.
PRESUMED: notes/assumptions/57.md. -/
def Dev.attemptFailed (d : Dev) (ch : Ch) (o : OnBus) : Dev :=
  let c := d.can ch
  let rise := if c.state = 1 ∧ Config.freeBool d.free then 0 else 8
  let d := d.tick.mayMeasure ch o
  if 255 < c.tec + rise then d.enterBusOff ch
  else
    let d := (d.openCanEpisode ch).setErrors ch (c.tec + rise) c.rec_
    let c := d.can ch
    let c := if 0 < o.tries then c.countRetry else c
    match o.cancel with
    | some out => d.setCan ch (c.taken o out)
    | none =>
      if field c.cfg 0 4 < o.tries + 1 then (d.setCan ch (c.countTxFail.taken o 1)).canEvent ch 59
      else if c.superseded o then d.setCan ch (c.putBack o 0)
      else d.setCan ch (c.putBack o (o.tries + 1))

/-- TX_ATTEMPT_END. -/
def execTxAttemptEnd (ch : Ch) (sent : Bool) (s : State) : Host.Outcome State Fault Refusal :=
  s.effect fun d =>
    match (d.can ch).onBus with
    | none => d
    | some o => if !d.canLive ch then d else if sent then d.attemptSent ch o else d.attemptFailed ch o

/-- BUS_OFF. -/
def execBusOff (ch : Ch) (s : State) : Host.Outcome State Fault Refusal := s.effect fun d => d.enterBusOff ch

/-- BUS_OFF_RECOVERED: the recovery sequence has completed (R445). -/
def execBusOffRecovered (ch : Ch) (s : State) : Host.Outcome State Fault Refusal :=
  s.effect fun d =>
    let c := d.can ch
    if d.sup.doms.can && decide (c.state = 2) && c.recovering then
      (d.setCan ch { c with state := 0, tec := 0, rec_ := 0, recovering := false }).canEvent ch 56
    else d

/-! ### The timetable -/

/-- An entry falls due (R446): the instance before it, if unsent, is replaced and counted as missed. An entry that breaks
R466 is treated as disabled.
DEDUCED: notes/assumptions/58.md. -/
def Dev.entryDue (d : Dev) (ch : Ch) (j : Fin 32) : Dev :=
  let c := d.can ch
  let e := c.tt.get j
  if !(d.sup.doms.can && bit c.ttcfg 23 && bit e.ent 23 && decide (field e.ent 8 8 ≠ 0) && !c.entryBad e &&
      (!e.own || c.carriesCells j)) then d
  else
    let cells := c.carriesCells j
    let frame := if cells then d.ownFrame c .cellSum else e.frame
    let bus : Bool := match c.onBus with | some o => decide (o.source = .timetable j) | none => false
    let e' : TtEntry := if bus then { e with load := if cells then some (frame, true) else e.load, again := true }
      else { e with frame := frame, own := e.own || cells, due := true, tries := 0 }
    let c := { c with tt := upd c.tt j e', roll := if cells then modify c.roll 4 (· + 1) else c.roll }
    let d := if cells then d.tick else d
    if e.due then (d.setCan ch { c with missed := satInc 255 c.missed }).canEvent ch 60 else d.setCan ch c

/-- TIMETABLE_ENTRY_DUE. -/
def execTimetableEntryDue (ch : Ch) (j : Fin 32) (s : State) : Host.Outcome State Fault Refusal :=
  s.effect fun d => d.entryDue ch j

/-- STATUS_FRAME_DUE: every 100 ms and on a change of its bytes (R458).
DEDUCED: notes/assumptions/60.md. -/
def execStatusFrameDue (s : State) : Host.Outcome State Fault Refusal :=
  s.effect fun d => if d.sup.doms.can then d.publish .status else d

/-- STEP_REQ_FRAME_DUE: every 100 ms while a request is active (R458).
DEDUCED: notes/assumptions/60.md. -/
def execStepReqFrameDue (s : State) : Host.Outcome State Fault Refusal :=
  s.effect fun d => if d.sup.doms.can && d.est.stepReq then d.publish .stepReq else d

/-! ### Reception -/

/-- The identifier as the filters compare it (R448). -/
def filterId (f : CanFrame) : Nat := if f.ide then f.id.toNat / 64 else f.id.toNat % 2048

/-- A filter, its EN and mask given as MBID and MBMASK, matches a frame (R448). -/
def filterMatches (mbid mask : Word) (f : CanFrame) : Bool :=
  let m := if f.ide then field mask 0 23 else field mask 0 11
  bit mask 23 && (f.ide == bit mbid 23) && decide ((filterId f ^^^ field mbid 0 23) &&& m = 0)

/-- The lowest-numbered mailbox whose filter matches. -/
def Can.mailboxFor (c : Can) (f : CanFrame) : Option (Fin 16) :=
  (List.finRange 16).find? fun n => filterMatches (c.mbid.get n) (c.mbmask.get n) f

/-- A mailbox is written whole and marked; a mark still set counts a lost frame (R451). -/
def Dev.storeMailbox (d : Dev) (ch : Ch) (n : Fin 16) (f : CanFrame) : Dev :=
  let c := d.can ch
  let lost := c.mbnew.getLsbD n.val
  let c := { c with mbox := upd c.mbox n (some f), mbnew := c.mbnew ||| BitVec.ofNat 16 (2 ^ n.val) }
  if lost then (d.setCan ch c.countMbLost).canEvent ch 58 else d.setCan ch c

/-- The numbers of a channel's transmit and receive queues (R522). -/
def txQueueNo (ch : Ch) : Nat := 1 + 2 * chNo ch
def rxQueueNo (ch : Ch) : Nat := 2 + 2 * chNo ch

/-- A frame enters the receive FIFO, or is dropped where it is full (R450). -/
def Dev.storeFifo (d : Dev) (ch : Ch) (f : CanFrame) : Dev :=
  let c := d.can ch
  let n := c.rxfifo.length
  if 64 ≤ n then (d.setCan ch c.countRxOver).canEvent ch 57
  else
    let r := c.rxwm.rise (field c.wmcfg 0 7) n (n + 1)
    (d.setCan ch { c with rxfifo := c.rxfifo ++ [f], rxwm := r.1 }).queueCrossed (rxQueueNo ch) (n + 1) r.2.1 r.2.2

/-- A channel is waiting for counted frames since its timeout (R461). -/
def Dev.anyTimedOut (d : Dev) : Bool := d.can0.timedOut || d.can1.timedOut

/-- HOST_ALIVE (R461): a byte 0 that differs from the previous one is counted, and the third after a timeout, each in
time, ends fault 36.
DEDUCED: notes/assumptions/60.md. -/
def Dev.hostAlive (d : Dev) (ch : Ch) (b : Byte) : Dev :=
  let c := d.can ch
  let counted := d.inRun && bit c.hcfg 23 && decide (c.aliveLast ≠ some b)
  let c := { c with aliveLast := some b, succeeded := c.succeeded || counted }
  if !(counted && c.timedOut) then d.setCan ch c
  else if c.aliveCount + 1 < 3 then d.setCan ch { c with aliveCount := c.aliveCount + 1 }
  else
    let d := d.setCan ch { c with aliveCount := 0, timedOut := false }
    if d.anyTimedOut then d else d.faultGone 36

/-- SLEEP: as WATCH where R20 allows it, else an event (R20, R460).
DEDUCED: notes/assumptions/60.md. -/
def Dev.sleepFrame (d : Dev) : Dev := if d.watchAllowed then d.startWatch else d.notice 0 0 0

/-- What the Golner itself reads of a frame in mailbox 0 or 1 while HOSTRX is 1 (R449, R458). -/
def Dev.ownMailbox (d : Dev) (ch : Ch) (n : Fin 16) (f : CanFrame) : Dev :=
  if !bit (d.can ch).pubcfg 21 || f.rtr || decide (f.dlc = 0) then d
  else if n = 0 then d.hostAlive ch (f.data.getD 0 0)
  else if n = 1 ∧ f.data.getD 0 0 = 1 then d.sleepFrame
  else d

/-- An error on the bus while a frame is received (R464).
PRESUMED: notes/assumptions/57.md. -/
def Dev.receiveError (d : Dev) (ch : Ch) : Dev :=
  if d.canLive ch then
    let d := d.openCanEpisode ch
    d.setErrors ch (d.can ch).tec ((d.can ch).rec_ + 1)
  else if d.mode.mode = .watch ∧ ch = .can0 ∧ bit d.mode.wakecfg 1 then
    { d with wakeDet := { d.wakeDet with errors := satInc 32 d.wakeDet.errors } }
  else d

/-- The receive error count after a frame received without error (ISO 11898-1).
PRESUMED: notes/assumptions/57.md. -/
def recAfter (rec_ free : Nat) : Nat := if 127 < rec_ then 119 + free % 9 else rec_ - 1

/-- The wake detector decodes the frames of a channel (R456). -/
def Dev.detecting (d : Dev) (ch : Ch) : Bool :=
  decide (d.mode.mode = .watch) && decide (ch = .can0) && bit d.mode.wakecfg 1

/-- A valid frame arrives (R448 to R451, R460, R461, R464). In Watch a classical one lowers the detector's error count,
and an FD frame is ignored (R456).
DEDUCED: notes/assumptions/59.md. -/
def Dev.receive (d : Dev) (ch : Ch) (f : CanFrame) : Dev :=
  if d.detecting ch then
    if f.fdf then d else { d with wakeDet := { d.wakeDet with errors := d.wakeDet.errors - 1 } }
  else if !(d.can ch).supports f then d.receiveError ch
  else if d.canLive ch then
    let d := d.closeCanEpisode ch
    let d := d.tick.setErrors ch (d.can ch).tec (recAfter (d.can ch).rec_ (Config.freeWord d.free).toNat)
    match (d.can ch).mailboxFor f with
    | some n => (d.storeMailbox ch n f).ownMailbox ch n f
    | none => if bit (d.can ch).cfg 19 then d.storeFifo ch f else d
  else d

/-- CAN_FRAME_RECEIVED. -/
def execCanFrameReceived (ch : Ch) (f : CanFrame) (s : State) : Host.Outcome State Fault Refusal :=
  s.effect fun d => d.receive ch f

/-- CAN_ERROR_FRAME. -/
def execCanErrorFrame (ch : Ch) (s : State) : Host.Outcome State Fault Refusal :=
  s.effect fun d => d.receiveError ch

/-! ### The host message timeout -/

/-- The remaining retries of every frame of the channel are cancelled (R463); one on the bus at its attempt's end. -/
def Can.cancelRetries (c : Can) : Can :=
  let c := { c with
    prio := c.prio.filter fun x => x.tries = 0
    tt := Vector.ofFn fun j =>
      let e := c.tt.get j
      if 0 < e.tries then { e with due := false, tries := 0 } else e }
  match c.onBus with
  | some o =>
    let c := match o.source with
      | .timetable j => { c with tt := upd c.tt j { c.tt.get j with due := true } }
      | _ => c
    if 0 < o.tries ∧ o.cancel = none then { c with onBus := some { o with cancel := some 3 } } else c
  | none =>
    match c.fifo with
    | f :: _ => if 0 < f.tries then c.leave f.tag 3 else c
    | [] => c

/-- The FIFO head's retries where another source's frame is on the bus. -/
def Can.cancelHead (c : Can) : Can :=
  match c.onBus, c.fifo with
  | some o, f :: _ => if o.source ≠ .fifo ∧ 0 < f.tries then c.leave f.tag 3 else c
  | _, _ => c

/-- HOST_MESSAGE_TIMEOUT (R461, R463); a success of the same engine frame comes first (R527).
DEDUCED: notes/assumptions/60.md. -/
def execHostMessageTimeout (ch : Ch) (s : State) : Host.Outcome State Fault Refusal :=
  s.effect fun d =>
    let c := d.can ch
    if d.inRun && bit c.hcfg 23 && !c.succeeded then
      let d := d.setCan ch { c.cancelRetries.cancelHead.countTimeout with timedOut := true, aliveCount := 0 }
      d.raise 36 .engine 0x08 61 0 (chNo ch) c.episode
    else d

/-! ### CANx_CMD -/

/-- The payload length of a DLC: above 8 the CAN FD lengths, for a classical frame at most 8 (R435). -/
def dlcLength (fdf : Bool) (dlc : BitVec 4) : Nat :=
  let n := dlc.toNat
  if n ≤ 8 then n
  else if fdf then [12, 16, 20, 24, 32, 48, 64].getD (n - 9) 64 else 8

/-- The staging frame of CANx_TXID, CANx_TXINFO and CANx_TXDAT.
DEDUCED: notes/assumptions/60.md. -/
def Can.stagingFrame (c : Can) : CanFrame :=
  let i := c.txinfo
  let fdf := bit i 22
  let rtr := bit i 20
  let dlc := BitVec.ofNat 4 (field i 11 4)
  let len := if rtr then 0 else dlcLength fdf dlc
  let id := c.txid.toNat + place (field i 15 5) 24
  { ide := bit i 23, id := BitVec.ofNat 29 (if bit i 23 then id else id % 2048), fdf := fdf
    brs := fdf && bit i 21 && bit c.cfg 21, rtr := rtr, dlc := dlc
    data := (c.txdat.toList.flatMap fun w => be 3 w.toNat).take len }

/-- CANx_CMDARG. -/
def Can.arg (c : Can) : Nat := field c.cmdarg 0 5

/-- The next tag that no frame in the FIFO carries (R440); `n` bounds the search. -/
def Can.freeTag (c : Can) : Nat → Nat → Nat
  | 0, t => t
  | n + 1, t => if c.fifo.any fun f => f.tag = t then Can.freeTag c n ((t + 1) % 32) else t

/-- A transmit request is shed: counted and noticed (R523, R525).
DEDUCED: notes/assumptions/59.md. -/
def Dev.refuseTx (d : Dev) (ch : Ch) : Dev :=
  let c := d.can ch
  let d := d.countShed 2
  if d.evt.shed = 3 then d.shedNotice true
  else if c.shedSaid then d
  else (d.setCan ch { c with shedSaid := true }).fire { d.queueEntry62 0 0 with data := Config.eventData 62 0 }

/-- TX_QUEUE (R440, R467).
DEDUCED: notes/assumptions/59.md. -/
def bodyTxQueue (ch : Ch) (d : Dev) : Executed :=
  let c := d.can ch
  let f := c.stagingFrame
  if !bit c.cfg 23 then (d, some rState)
  else if d.evt.shed = 3 ∨ c.shed then (d.refuseTx ch, some rFull)
  else if 16 ≤ c.fifo.length then (d, some rFull)
  else if f.fdf && (!bit c.cfg 22 || f.rtr) then (d, some rCondition)
  else
    let n := c.fifo.length
    let tag := c.freeTag 31 c.nextTag
    let r := c.txwm.rise (field c.wmcfg 8 5) n (n + 1)
    let c : Can := { c with fifo := c.fifo ++ [{ tag := tag, frame := f }], nextTag := (tag + 1) % 32, txwm := r.1 }
    ((d.setCan ch c.reshed).queueCrossed (txQueueNo ch) (n + 1) r.2.1 r.2.2, some (place tag 8 + rDone))

/-- The FIFO frame with a tag is on the bus. -/
def Can.tagOnBus (c : Can) (tag : Nat) : Bool :=
  match c.onBus, c.fifo with
  | some o, f :: _ => decide (o.source = .fifo) && decide (f.tag = tag)
  | _, _ => false

/-- TX_CANCEL (R443). -/
def bodyTxCancel (ch : Ch) (d : Dev) : Executed :=
  let c := d.can ch
  if c.tagOnBus c.arg then
    (d.setCan ch { c with onBus := c.onBus.map fun o => { o with cancel := some (o.cancel.getD 2) } }, some rDone)
  else if c.fifo.any fun f => f.tag = c.arg then (d.setCan ch (c.leave c.arg 2), some rDone)
  else (d, some rCondition)

/-- RX_POP (R453). -/
def bodyRxPop (ch : Ch) (d : Dev) : Executed :=
  let c := d.can ch
  (d.setCan ch { c with rxfifo := c.rxfifo.drop 1 }, some rDone)

/-- TT_LOAD (R447): a frame that the channel does not support is loaded and not sent (R435).
DEDUCED: notes/assumptions/58.md. -/
def bodyTtLoad (ch : Ch) (d : Dev) : Executed :=
  let c := d.can ch
  let j : Fin 32 := Fin.ofNat 32 c.arg
  if c.carriesCells j then (d, some rCondition)
  else
    let e := c.tt.get j
    let bus : Bool := match c.onBus with | some o => decide (o.source = .timetable j) | none => false
    let e := if bus then { e with load := some (c.stagingFrame, false) }
      else { e with frame := c.stagingFrame, own := false }
    (d.setCan ch { c with tt := upd c.tt j e }, some rDone)

/-- BO_RECOVER (R445).
DEDUCED: notes/assumptions/60.md. -/
def bodyBoRecover (ch : Ch) (d : Dev) : Executed :=
  let c := d.can ch
  (d.setCan ch { c with recovering := c.recovering || decide (c.state = 2) }, some rDone)

/-- CNT_CLR of CANx_CMD (R574). -/
def bodyCanCntClr (ch : Ch) (d : Dev) : Executed :=
  (d.setCan ch { d.can ch with
    retries := 0, txfail := 0, rxovr := 0, mblost := 0, hto := 0, missed := 0, ovf := 0 }, some rDone)

/-- The command register of a channel. -/
def canReg : Ch → CmdReg
  | .can0 => .can0
  | .can1 => .can1

/-- CANx_CMD TX_QUEUE. -/
def execTxQueue (ch : Ch) (tok : Byte) (s : State) : Host.Outcome State Fault Refusal :=
  s.effect fun d => d.hostCommand (canReg ch) tok 0x01 (bodyTxQueue ch)

/-- CANx_CMD TX_CANCEL. -/
def execTxCancel (ch : Ch) (tok : Byte) (s : State) : Host.Outcome State Fault Refusal :=
  s.effect fun d => d.hostCommand (canReg ch) tok 0x02 (bodyTxCancel ch)

/-- CANx_CMD RX_POP. -/
def execRxPop (ch : Ch) (tok : Byte) (s : State) : Host.Outcome State Fault Refusal :=
  s.effect fun d => d.hostCommand (canReg ch) tok 0x03 (bodyRxPop ch)

/-- CANx_CMD TT_LOAD. -/
def execTtLoad (ch : Ch) (tok : Byte) (s : State) : Host.Outcome State Fault Refusal :=
  s.effect fun d => d.hostCommand (canReg ch) tok 0x04 (bodyTtLoad ch)

/-- CANx_CMD BO_RECOVER. -/
def execBoRecover (ch : Ch) (tok : Byte) (s : State) : Host.Outcome State Fault Refusal :=
  s.effect fun d => d.hostCommand (canReg ch) tok 0x05 (bodyBoRecover ch)

/-- CANx_CMD CNT_CLR. -/
def execCanCntClr (ch : Ch) (tok : Byte) (s : State) : Host.Outcome State Fault Refusal :=
  s.effect fun d => d.hostCommand (canReg ch) tok 0x06 (bodyCanCntClr ch)

/-! ### Register writes with rules of their own -/

/-- Mailboxes 0 and 1 programmed for HOST_ALIVE and SLEEP while HOSTRX is 1; their EN cleared when it becomes 0 (R449).
DEDUCED: notes/assumptions/41.md. -/
def Can.programMailboxes (c : Can) (was : Bool) : Can :=
  if bit c.pubcfg 21 then
    let id (n : Nat) : Word := word ((c.base + 0x10 + n) % 2048)
    { c with mbid := upd (upd c.mbid 0 (id 0)) 1 (id 1), mbmask := upd (upd c.mbmask 0 0x8007FF) 1 0x8007FF }
  else if was then
    { c with mbmask := upd (upd c.mbmask 0 (c.mbmask.get 0 &&& 0x7FFFFF)) 1 (c.mbmask.get 1 &&& 0x7FFFFF) }
  else c

/-- The Golner's own frames whose enable bit is 0 are not sent, and one that waits is dropped (R458).
DEDUCED: notes/assumptions/58.md. -/
def Can.dropDisabled (c : Can) : Can := { c with prio := c.prio.filter fun x => c.enabled x.kind }

/-- The nominal and data bit times in 12.5 ns (R436). -/
def Can.nominalBit (c : Can) : Nat := (field c.nbt 19 5 + 1) * (1 + (field c.nbt 11 8 + 1) + (field c.nbt 4 7 + 1))
def Can.dataBit (c : Can) : Nat := (field c.dbt 19 5 + 1) * (1 + (field c.dbt 14 5 + 1) + (field c.dbt 10 4 + 1))

/-- T_frame in 12.5 ns (R462). -/
def Can.frameTime (c : Can) : Nat :=
  if bit c.cfg 22 then
    (if bit c.cfg 21 then 59 * c.nominalBit + 678 * c.dataBit else 737 * c.nominalBit)
  else 160 * c.nominalBit

/-- RETRY × T_frame stays within T_HOSTTO / 2 where HCFG.EN is 1 (R462): T_HOSTTO in 10 ms, half of it 400 000 units.
DEDUCED: notes/assumptions/41.md. -/
def Can.retryOk (c : Can) : Bool :=
  !bit c.hcfg 23 || decide (field c.cfg 0 4 * c.frameTime ≤ field c.hcfg 0 10 * 400000)

end Sys2Proof.Machine
end

