-- ==== Sys2Proof/Machine/Cells.lean ====
section
/-! DEFINITION. The cell table: a snap as it is fully read, the thresholds of R259 to R261 on cells and NTCs, and the
OCV and impedance functions of the manifest (R228, R237). -/
namespace Sys2Proof

/-! ### Manifest tables -/

/-- Linear interpolation within the points' span; `none` outside it.
DESIGN CHOICE: notes/assumptions/42.md. -/
def lerp (pts : List (Rat × Rat)) (x : Rat) : Option Rat :=
  ((pts.zip (pts.drop 1)).find? fun p => decide (min p.1.1 p.2.1 ≤ x ∧ x ≤ max p.1.1 p.2.1)).map fun p =>
    p.1.2 + (p.2.2 - p.1.2) * ((x - p.1.1) / (p.2.1 - p.1.1))

/-- The slope of the segment that holds `x`, at a table point that of the lower one; `none` outside the span.
DESIGN CHOICE: notes/assumptions/42.md. -/
def slopeAt (pts : List (Rat × Rat)) (x : Rat) : Option Rat :=
  ((pts.zip (pts.drop 1)).find? fun p => decide (p.1.1 ≤ x ∧ x ≤ p.2.1)).map fun p =>
    (p.2.2 - p.1.2) / (p.2.1 - p.1.1)

/-- A table read at a value: linear within its span, free outside it.
DESIGN CHOICE: notes/assumptions/42.md. -/
def readTable (pts : List (Rat × Rat)) (x : Rat) : Rat := (lerp pts x).getD (Config.lookup pts x)

/-- The OCV column at a temperature: linear between the table's temperatures, the nearest column outside them (R228). -/
def Manifest.ocvColumn (m : Manifest) (t : Rat) : List (Rat × Rat) :=
  let row (i : Nat) : Rat := (lerp (m.ocvTemp.zip (m.ocv.map fun c => c.getD i 0)) t).getD
    (if t < m.ocvTemp.headD 0 then (m.ocv.headD []).getD i 0 else (m.ocv.getLastD []).getD i 0)
  m.ocvSoc.zip ((List.range m.ocvSoc.length).map row)

/-- OCV, its slope and its inverse at a temperature in °C (R227 to R229); free outside the table's span of SoC.
DESIGN CHOICE: notes/assumptions/42.md. -/
def Manifest.ocvAt (m : Manifest) (soc t : Rat) : Rat := readTable (m.ocvColumn t) soc
def Manifest.ocvSlope (m : Manifest) (soc t : Rat) : Rat :=
  (slopeAt (m.ocvColumn t) soc).getD (Config.lookup (m.ocvColumn t) soc)
def Manifest.ocvInverse (m : Manifest) (v t : Rat) : Rat := readTable ((m.ocvColumn t).map fun p => (p.2, p.1)) v

/-- The coldest temperature of the OCV table. -/
def Manifest.coldest (m : Manifest) : Rat := (m.ocvTemp).headD 0

/-- The impedance temperature factor (R237, R262). -/
def Manifest.factorAt (m : Manifest) (t : Rat) : Rat := readTable (m.ocvTemp.zip m.impFactor) t

/-! ### Thresholds -/

/-- The thresholds in use: the safer of a pair whose relation is violated (R260). -/
def safer (t : Thresholds) : Thresholds :=
  { t with
    vMax := min t.vMax t.vHigh1, vHigh2 := if t.vHigh1 < t.vHigh2 then t.vHigh2 else t.vHigh1
    vMin := max t.vMin t.vLow1, vLow2 := if t.vLow2 < t.vLow1 then t.vLow2 else t.vLow1
    tHigh2 := if t.tHigh1 < t.tHigh2 then t.tHigh2 else t.tHigh1
    tLow2 := if t.tLow2 < t.tLow1 then t.tLow2 else t.tLow1
    ntcHigh2 := if t.ntcHigh1 < t.ntcHigh2 then t.ntcHigh2 else t.ntcHigh1 }

/-- The eight cell thresholds in the order of faults 0 to 7: level, whether it is a high one, and whether of the
voltage. -/
def Thresholds.cell (t : Thresholds) (i : Fin 8) : Int × Bool × Bool :=
  match i with
  | 0 => (t.vHigh1, true, true) | 1 => (t.vHigh2, true, true) | 2 => (t.vLow1, false, true)
  | 3 => (t.vLow2, false, true) | 4 => (t.tHigh1, true, false) | 5 => (t.tHigh2, true, false)
  | 6 => (t.tLow1, false, false) | 7 => (t.tLow2, false, false)

/-- The position of a cell threshold among the eight; `none` for the NTC levels. -/
def Threshold.index : Threshold → Option (Fin 8)
  | .vHigh1 => some 0 | .vHigh2 => some 1 | .vLow1 => some 2 | .vLow2 => some 3
  | .tHigh1 => some 4 | .tHigh2 => some 5 | .tLow1 => some 6 | .tLow2 => some 7
  | .ntcHigh1 | .ntcHigh2 => none

end Sys2Proof

namespace Sys2Proof.Machine

/-- The stage of a cell position. -/
def stageOf (p : Fin 576) : Fin 32 := ⟨p.val / 18, by omega⟩

/-- A stage has answered nothing for 2 s: it has turned balancing off (R187).
DESIGN CHOICE: notes/assumptions/69.md. -/
def Dev.silent (d : Dev) (a : Fin 32) : Bool := decide ((d.chn.stages.get a).heard.toNat + 65536 < d.sup.rtc.toNat)

/-- The balancing resistor of a cell is on: its bit of the mask that its stage applies (R187). -/
def Dev.balancing (d : Dev) (p : Fin 576) : Bool :=
  (d.chn.stages.get (stageOf p)).mask.getLsbD (p.val % 18) && !d.silent (stageOf p)

/-- A cell's temperature in °C; an invalid one uses the coldest column (R263). -/
def Cell.celsius (c : Cell) (m : Manifest) : Rat :=
  match c.t with
  | some t => (t : Rat) / 100
  | none => m.coldest

/-- A value lies beyond a threshold. -/
def beyondLevel (level : Int) (high : Bool) (v : Int) : Bool := if high then decide (level < v) else decide (v < level)

/-- A value lies inside a threshold by a margin. -/
def insideBy (level : Int) (high : Bool) (margin v : Int) : Bool :=
  if high then decide (v + margin ≤ level) else decide (level + margin ≤ v)

/-- Consecutive snaps beyond a threshold at which it is crossed: 3 for level 1, 2 for level 2 (R261).
DEDUCED: notes/assumptions/43.md. -/
def crossAfter (i : Nat) : Nat := if i % 2 = 0 then 3 else 2

/-- The quantity that a threshold judges; `none` where it is invalid.
DEDUCED: notes/assumptions/43.md. -/
def Cell.judged (c : Cell) (voltage : Bool) : Option Int := if voltage then some (c.v : Int) else c.t

/-- One snap counted against the eight thresholds (R261). An invalid value counts neither way. -/
def Cell.countSnap (c : Cell) (t : Thresholds) : Cell :=
  let n (i : Fin 8) : Nat :=
    let x := t.cell i
    match c.judged x.2.2 with
    | none => c.beyond.get i
    | some v => if beyondLevel x.1 x.2.1 v then satInc 3 (c.beyond.get i) else 0
  let counts := Vector.ofFn n
  { c with
    beyond := counts
    crossed := (List.finRange 8).foldl
      (fun b i => if crossAfter i.val ≤ counts.get i then b ||| BitVec.ofNat 8 (2 ^ i.val) else b) c.crossed }

/-- The source of a fault that has none of its own: class A takes that of derates.
DEDUCED: notes/assumptions/17.md. -/
def Dev.plainSource (d : Dev) (f : Nat) : Nat := if d.faultClass f = .a then 31 else queued

/-- A fault that has no source of its own. -/
def Dev.plainFault (d : Dev) (f inst : Nat) : Dev :=
  if d.lim.active.getLsbD f then d else d.fault f (d.plainSource f) 0 inst

/-- The cell positions of a stage. -/
def stageCells (a : Fin 32) : List (Fin 576) :=
  (List.finRange 18).map fun i => ⟨18 * a.val + i.val, by omega⟩

/-- Positions of a stage that the manifest lists. -/
def Dev.stageListed (d : Dev) (a : Fin 32) : List (Fin 576) :=
  match d.man with
  | none => []
  | some m => if m.stageCount ≤ a.val then []
    else (stageCells a).filter fun p => decide (p.val % 18 < m.cellCounts.getD a.val 0)

/-- Some listed cell has crossed threshold `i`. -/
def Dev.anyCrossed (d : Dev) (i : Nat) : Bool := d.listedCells.any fun p => (d.est.cells.get p).crossed.getLsbD i

/-- The faults of cells whose thresholds are crossed, and of invalid temperatures (faults 0 to 8). -/
def Dev.cellFaults (d : Dev) (a : Fin 32) : Dev :=
  let crossed (i : Nat) : Bool := (d.stageListed a).any fun p => (d.est.cells.get p).crossed.getLsbD i
  let d := (List.range 8).foldl (fun d i => if crossed i then d.plainFault i (stageNo a) else d) d
  if d.listedCells.any fun p => (d.est.cells.get p).t.isNone then d.plainFault 8 (stageNo a) else d.faultGone 8

/-! ### A snap fully read -/

/-- The balancing current of a cell in A (R234). -/
def Dev.balCurrent (d : Dev) (p : Fin 576) : Rat :=
  match d.man with
  | some m => if d.balancing p then m.balCurrent / 1000 else 0
  | none => 0

/-- A cell's current in A at a snap (R233, R234): the frame mean of the snap, less the balancing current. -/
def Dev.snapCurrent (d : Dev) (p : Fin 576) (ts : Word) : Option Rat :=
  match d.est.snaps.find? fun s => s.ts = ts with
  | some s => s.mean.map fun i => (i : Rat) / 1000 - d.balCurrent p
  | none => none

/-- A remembered snap with a timestamp. -/
def Dev.snapTime (d : Dev) (ts : Word) : Option SnapTime := d.est.snaps.find? fun s => s.ts = ts

/-- A snap of the latest burst whose fits are still open. -/
def Dev.inBurst (d : Dev) (ts : Word) : Bool :=
  (d.est.burst || d.est.fitting) && (match d.snapTime ts with | some s => s.burst | none => false)

/-- What a burst keeps of a snap that a cell's stage has read: the pre-step snap, the first of the burst and the points
of the fit (R233 to R236). -/
def Dev.burstPoint (d : Dev) (p : Fin 576) (ts : Word) (v : Nat) (fault : Bool) (c : Cell) : Cell :=
  let volts : Rat := (v : Rat) / 1000000
  if d.est.preTs = some ts then
    { c with pre := (d.snapCurrent p ts).map fun i => (volts, i), fitFault := c.fitFault || fault }
  else if d.inBurst ts then
    { c with
      first := if d.est.firstTs = some ts then some (volts, d.balCurrent p) else c.first
      points := c.points ++ [(ts, volts)], fitFault := c.fitFault || fault }
  else c

/-- The values of a snap entered for one cell: a snap with MEAS_FAULT is invalid and leaves the values before (R184).
DEDUCED: notes/assumptions/43.md. -/
def Cell.enter (c : Cell) (v : Nat) (t : Option Int) (fault : Bool) : Cell :=
  let c := { c with vPrior := c.v, faultPrior := c.measFault }
  if fault then { c with measFault := true } else { c with v := v, t := t, measFault := false }

/-- The start value of an inserted module's cell: OCV at its insertion voltage, σ 15 % (R250). -/
def Cell.insert (c : Cell) (m : Manifest) : Cell :=
  if c.inserted ∧ c.measFault = false then
    { c with soc := m.ocvInverse ((c.v : Rat) / 1000000) (c.celsius m), var := 225 / 10000, inserted := false }
  else c

/-- A snap fully read makes its stage's data fresh: it is no older than T_STALE, and newer than the newest (R195). A
snap without a timestamp is the first of a start; one that is remembered no more is older than any T_STALE. -/
def Dev.freshens (d : Dev) (a : Fin 32) : Option Word → Bool
  | none => true
  | some ts =>
    let place (x : Word) : Option Nat := d.est.snaps.findIdx? fun s => s.ts = x
    (match d.snapTime ts with
      | some s => decide ((d.eng.frame - s.frame).toNat ≤ field d.chn.stalecfg 0 12)
      | none => false) &&
    (match (d.chn.stages.get a).newest.bind place with
      | some old => (match place ts with | some new => decide (new < old) | none => false)
      | none => true)

/-- A cell of a stage whose snap is fully read: the values, the burst's points, the start of an inserted module and the
thresholds. A snap that makes nothing fresh leaves the newest values.
DEDUCED: notes/assumptions/43.md. -/
def Dev.snapCell (d : Dev) (m : Manifest) (listed fresh : Bool) (ts : Option Word) (p : Fin 576) (v : Nat)
    (t : Option Int) (fault : Bool) (c : Cell) : Cell :=
  let c := match ts with | some w => d.burstPoint p w v fault c | none => c
  let n := c.enter v t fault
  let c := if fresh then n else c
  if listed then
    let c := if fresh then c.insert m else c
    if fault then c
    else
      let x := n.countSnap (safer m.th)
      { c with beyond := x.beyond, crossed := x.crossed }
  else c

/-- What a stage keeps of a snap fully read (R195, R236, R527). -/
def Dev.snapStage (d : Dev) (fresh : Bool) (ts : Option Word) (st : Stage) : Stage :=
  let st := match ts with | some w => if d.inBurst w then { st with burstRead := st.burstRead + 1 } else st | none => st
  if fresh then
    { st with newest := some (ts.getD 0), prior := st.newest, stale := false, readFrame := some d.eng.frame }
  else st

/-- A snap of a stage is fully read (R195): its values are entered, the thresholds counted, and the faults that follow
are raised (R261).
DEDUCED: notes/assumptions/43.md. -/
def Dev.deliverSnap (d : Dev) (a : Fin 32) (ts : Option Word) (volts : List Nat) (temps : List (Option Int))
    (fault : Bool) : Dev :=
  match d.man with
  | none => d
  | some m =>
    let listed := d.stageListed a
    let fresh := d.freshens a ts
    let one (p : Fin 576) (c : Cell) : Cell :=
      let i := p.val % 18
      d.snapCell m (listed.contains p) fresh ts p (volts.getD i 0) (temps.getD (Config.tempInput i % 8) none) fault c
    let cells := (stageCells a).foldl (fun v p => modify v p (one p)) d.est.cells
    let st := d.snapStage fresh ts (d.chn.stages.get a)
    let d := { d with est := { d.est with cells := cells }, chn := { d.chn with stages := upd d.chn.stages a st } }
    (if d.chn.stages.toList.any fun (x : Stage) => x.stale then d else d.faultGone 12).cellFaults a

/-- A snap fully read: while the engine runs frames, its cell table entries wait for the next frame's snapshot (R113). -/
def Dev.snapRead (d : Dev) (x : HeldSnap) : Dev :=
  if d.framesRun then { d with chn := { d.chn with heldSnaps := d.chn.heldSnaps ++ [x] } }
  else d.deliverSnap x.stage x.ts x.volts x.temps x.fault

/-- The cell table entries that the frame's snapshot takes in: while the two samplers disagree on them, those of before stand
(R113, R114). -/
def Dev.enterSnaps (d : Dev) (keep : Bool) : Dev :=
  if keep then d
  else d.chn.heldSnaps.foldl (fun d x => d.deliverSnap x.stage x.ts x.volts x.temps x.fault)
    { d with chn := { d.chn with heldSnaps := [] } }

/-! ### Clearing of crossings -/

/-- A cell's crossing clears: the margin is 20 mV or 2 °C (R261). -/
def Dev.clearCell (d : Dev) (p : Fin 576) (i : Fin 8) : Dev :=
  match d.man with
  | none => d
  | some m =>
    let c := d.est.cells.get p
    let x := (safer m.th).cell i
    let inside := match c.judged x.2.2 with
      | some v => insideBy x.1 x.2.1 (if x.2.2 then 20000 else 200) v
      | none => false
    if c.crossed.getLsbD i.val && inside then
      let c := { c with crossed := c.crossed &&& ~~~(BitVec.ofNat 8 (2 ^ i.val)), beyond := upd c.beyond i 0 }
      let d := { d with est := { d.est with cells := upd d.est.cells p c } }
      if d.anyCrossed i.val then d else d.faultGone i.val
    else d

/-- The NTC levels in 0.1 °C: bit `n` level 1, bit 4 + n level 2 of NTC n.
DEDUCED: notes/assumptions/43.md. -/
def Dev.ntcLevel (d : Dev) (two : Bool) : Option Int :=
  d.man.map fun m => if two then (safer m.th).ntcHigh2 else (safer m.th).ntcHigh1

/-- An NTC's crossing clears: the margin is 2 °C. -/
def Dev.clearNtc (d : Dev) (n : Fin 4) (two : Bool) : Dev :=
  let b := n.val + (if two then 4 else 0)
  match d.ntcLevel two, d.sen.ntc.get n with
  | some level, some v =>
    if d.lim.ntcCross.getLsbD b && insideBy level true 20 v then
      let cross := d.lim.ntcCross &&& ~~~(BitVec.ofNat 8 (2 ^ b))
      let l := if two then { d.lim with ntcCross := cross, ntc2 := upd d.lim.ntc2 n 0 }
        else { d.lim with ntcCross := cross, ntc1 := upd d.lim.ntc1 n 0 }
      let d := { d with lim := l }
      let left := (List.range 4).any fun i => cross.getLsbD (i + (if two then 4 else 0))
      if left then d else d.faultGone (if two then 10 else 9)
    else d
  | _, _ => d

/-- CROSSING_CLEAR: after 10 s inside the threshold (R261), which is the engine's work (R120); an NTC is named by
its number.
DESIGN CHOICE: notes/assumptions/69.md. -/
def execCrossingClear (pos : Fin 576) (th : Threshold) (s : State) : Host.Outcome State Fault Refusal :=
  s.effect fun d =>
    if d.insp.halted then d
    else match th.index with
    | some i => d.clearCell pos i
    | none => d.clearNtc (Fin.ofNat 4 pos.val) (decide (th = Threshold.ntcHigh2))

/-- One NTC against its two levels at a frame boundary, counted as R261 counts snaps. -/
def Dev.ntcCheck (d : Dev) (n : Fin 4) : Dev :=
  match d.ntcLevel false, d.ntcLevel true, d.sen.ntc.get n with
  | some l1, some l2, some v =>
    let n1 := if beyondLevel l1 true v then satInc 3 (d.lim.ntc1.get n) else 0
    let n2 := if beyondLevel l2 true v then satInc 3 (d.lim.ntc2.get n) else 0
    let set1 : BitVec 8 := if 3 ≤ n1 then BitVec.ofNat 8 (2 ^ n.val) else 0
    let set2 : BitVec 8 := if 2 ≤ n2 then BitVec.ofNat 8 (2 ^ (n.val + 4)) else 0
    let d := { d with lim := { d.lim with
      ntc1 := upd d.lim.ntc1 n n1, ntc2 := upd d.lim.ntc2 n n2, ntcCross := d.lim.ntcCross ||| set1 ||| set2 } }
    let d := if set1 ≠ 0 then d.plainFault 9 n.val else d
    if set2 ≠ 0 then d.plainFault 10 n.val else d
  | _, _, _ => d

/-- The four NTCs at a frame boundary (R259). -/
def Dev.ntcThresholds (d : Dev) : Dev := (List.finRange 4).foldl Dev.ntcCheck d

end Sys2Proof.Machine
end

