-- ==== Sys2Proof/Machine/Estimate.lean ====
section
/-! DEFINITION. State estimation (R226 to R258): the coulomb counter, the class E filter, bursts and impedance fits,
deliberate steps, capacity, and the authentication of the stages. -/
namespace Sys2Proof.Machine

/-! ### Cells -/

/-- Every listed cell changed by a function; the others stay. -/
def Dev.mapListed (d : Dev) (f : Fin 576 → Cell → Cell) : Dev :=
  { d with est := { d.est with cells := d.listedCells.foldl (fun v p => modify v p (f p)) d.est.cells } }

/-- I_quiet in mA. -/
def Dev.iQuiet (d : Dev) : Nat := 100 * field d.est.cfgUse 0 8

/-- |I_pack| is below I_quiet. -/
def Dev.isQuiet (d : Dev) : Bool := decide (d.sen.iPack.natAbs < d.iQuiet)

/-! ### The frame (R226, R231) -/

/-- The coulomb counter takes the frame mean times 1 ms, its remainder below 1 mAs kept (R226). -/
def Dev.coulombFrame (d : Dev) : Dev :=
  let t := d.est.coulRem + d.sen.iPack
  { d with est := { d.est with coulomb := d.est.coulomb + t / 1000, coulRem := t % 1000 } }

/-- The ages of the snaps at a frame boundary, and the mean of the frame that a new one lies in (R234). -/
def Dev.ageSnaps (d : Dev) : Dev :=
  let one (s : SnapTime) : SnapTime :=
    match s.mean with
    | none => { s with mean := some d.sen.iPack }
    | some _ => { s with age := s.age + 1 }
  let snaps := d.est.snaps.map one
  let i1 := match d.est.i1, d.est.firstTs with
    | none, some ts => (snaps.find? fun s => s.ts = ts).bind (·.mean)
    | i, _ => i
  { d with est := { d.est with snaps := snaps, i1 := i1 } }

/-- The ±5 % condition of R235 at a frame boundary of a burst. -/
def Dev.flatFrame (d : Dev) : Dev :=
  match d.est.i1 with
  | some i =>
    if d.est.burst then
      { d with est := { d.est with flat := d.est.flat && decide (20 * (d.sen.iPack - i).natAbs ≤ i.natAbs) } }
    else d
  | none => d

/-- The pre-step snap at a step start two boundaries ago (R233): the newest snap of at least that age, at most 110 ms
before it (its frame's end lies at most 109 boundaries before), with every frame mean since within ±0.02 C of its own. -/
def Dev.preStep (d : Dev) (cA : Rat) : Option Word :=
  match d.est.snaps.find? fun s => decide (2 ≤ s.age) && s.mean.isSome with
  | some s =>
    match s.mean with
    | some i =>
      let within := (((d.est.means.drop 2).take (s.age - 1)).all fun x =>
        decide (absRat ((x - i : Int) : Rat) ≤ 20 * cA))
      if s.age ≤ 111 ∧ within then some s.ts else none
    | none => none
  | none => none

/-- The conditions of R231 and R255 at a frame boundary: while the burst of a deliberate step runs, a session's own change
of current does not qualify. -/
def Dev.stepQualifies (d : Dev) (cA : Rat) : Bool :=
  let jump := match d.est.means with
    | a :: _ :: b :: _ => decide (100 * cA ≤ absRat ((a - b : Int) : Rat))
    | _ => false
  let state := match d.seq.drover with
    | .closed | .output => true
    | .hold => decide (d.seq.holdFrom ≠ Drover.openS)
    | _ => false
  jump && state && bit d.est.cfgUse 8 && !(d.est.burst && decide (d.est.burstSnaps < 20)) &&
  !(d.est.burst && d.est.delib && decide (d.tol.session ≠ Session.none_))

/-- A cell as a burst starts: the point of the pre-step snap where its stage has read it (R233). -/
def Dev.burstCell (d : Dev) (pre : Option Word) (p : Fin 576) (c : Cell) : Cell :=
  let st := d.chn.stages.get (stageOf p)
  let c := { c with pre := none, first := none, points := [], fitFault := false }
  match pre with
  | none => c
  | some ts =>
    let i := d.snapCurrent p ts
    if st.newest = some ts then
      { c with pre := i.map fun x => ((c.v : Rat) / 1000000, x), fitFault := c.measFault }
    else if st.prior = some ts then
      { c with pre := i.map fun x => ((c.vPrior : Rat) / 1000000, x), fitFault := c.faultPrior }
    else c

/-- A burst starts; a running one is abandoned (R232, R253), and fits of an ended one that are still open are dropped uncounted.
Cells whose stage has read the pre-step snap keep its point.
DEDUCED: notes/assumptions/44.md. -/
def Dev.startBurst (d : Dev) (pre : Option Word) : Dev :=
  let d := { d with
    est := { d.est with
      burst := true, delib := d.est.stepReq, fitting := false, burstSnaps := 0, preTs := pre, firstTs := none
      flat := true, i1 := none, snaps := d.est.snaps.map fun (s : SnapTime) => { s with burst := false } }
    chn := { d.chn with stages := d.chn.stages.map fun (st : Stage) => { st with burstRead := 0 } } }
  d.mapListed (d.burstCell pre)

/-- Estimation at a frame boundary in Run. -/
def Dev.estimateFrame (d : Dev) : Dev :=
  let d := d.coulombFrame
  let e := d.est
  let quiet := if d.isQuiet then e.quiet + 1 else 0
  let d := { d with est := { e with
    means := (d.sen.iPack :: e.means).take 114, quiet := quiet, fused := e.fused && decide (0 < quiet) } }
  let d := d.ageSnaps.flatFrame
  match d.man with
  | none => d
  | some m => if d.stepQualifies m.capacity then d.startBurst (d.preStep m.capacity) else d

/-! ### The class E period (R227, R230) -/

/-- One cell's filter over a period (R227, R257): `dq` in mAs, `i` in A. `sinceCorr` counts the periods of 0.1 s before this
one. What comes from an unchecked input or an unchecked fit is unchecked (R111). An inserted module's cell waits for its first
snap (R250).
DEDUCED: notes/assumptions/45.md. -/
def Cell.update (c : Cell) (m : Manifest) (dq bal : Rat) (i : Rat) (unchecked : Bool) : Cell :=
  let cap := c.cap * 3600000
  let t := c.celsius m
  let f := m.factorAt t
  let a := expOf (-(1 / 10) / c.taup)
  let soc := c.soc - (dq + bal) / cap
  let var := c.var + (5 / 1000 * dq / cap) * (5 / 1000 * dq / cap)
  let vp := c.vp * a + i * (c.rp * f) * (1 - a)
  let e := (c.v : Rat) / 1000000 - (m.ocvAt soc t - i * (c.rs * f) - vp)
  let slope := m.ocvSlope soc t
  let c := { c with vp := vp, balCharge := c.balCharge + bal, unchecked := unchecked || c.fitUnchecked }
  if 64 ≤ c.conf ∧ m.sMin ≤ slope ∧ 100 ≤ c.sinceCorr + 1 ∧ c.t.isSome ∧ !c.inserted then
    let s := 5 / 1000 / slope
    let k := var / (var + s * s)
    { c with soc := soc + k * e / slope, var := max ((1 - k) * var) (1 / 10000), sinceCorr := 0 }
  else { c with soc := soc, var := var, sinceCorr := c.sinceCorr + 1 }

/-- σ is below 5 % for every listed cell; an inserted module's cell has its σ of 15 % with its first snap (R250). -/
def Dev.confident (d : Dev) : Bool :=
  d.listedCells.all fun p => decide ((d.est.cells.get p).var < 25 / 10000) && !(d.est.cells.get p).inserted

/-- The derate of R152 lifts, with its event (R230). -/
def Dev.liftDerate (d : Dev) : Dev :=
  if d.est.derated && d.confident then ({ d with est := { d.est with derated := false } } : Dev).notice 30 0 0 else d

/-- EST_CFG and EST_STEPCFG take effect; a change of I_QUIET restarts the rest timing (R252). The one fusion of the rest
stays the one: a fused rest is not fused again.
DESIGN CHOICE: notes/assumptions/40.md, DESIGN CHOICE: notes/assumptions/69.md. -/
def Dev.takeEstSettings (d : Dev) : Dev :=
  let e := d.est
  { d with est := { e with
      cfgUse := e.cfg, stepUse := e.stepcfg
      quiet := if field e.cfg 0 8 = field e.cfgUse 0 8 then e.quiet else 0 } }

/-- Every listed cell is updated (R227), in Run; the balancing charge is that of the mask applied at the period's end.
DEDUCED: notes/assumptions/45.md. -/
def Dev.estimatePeriod (d : Dev) : Dev :=
  match d.man with
  | none => d
  | some m =>
    let dq : Rat := (d.est.coulomb - d.est.coulLast : Int)
    let d := { d with est := { d.est with coulLast := d.est.coulomb } }
    let i : Rat := (d.sen.iPack : Rat) / 1000
    let d := d.mapListed fun p c =>
      c.update m dq (if d.balancing p then m.balCurrent / 10 else 0) i d.eng.uncheckedE
    d.liftDerate

/-! ### Rested OCV and capacity (R229, R244) -/

/-- 7 days in 1/32768 s, 24 h and 12 h.
DEDUCED: notes/assumptions/45.md. -/
def ticksPerDay : Nat := 86400 * 32768

/-- The capacity that two anchors give, blended (R244); of an unchecked anchor it is unchecked (R256). -/
def Cell.capacity (c : Cell) (old new : Anchor) : Cell :=
  let dSoc := absRat (new.soc - old.soc)
  let dQ : Rat := ((new.charge - old.charge : Int) : Rat) - (new.bal - old.bal)
  if new.time - old.time ≤ 7 * ticksPerDay ∧ old.sigma ≤ 35 / 1000 ∧ new.sigma ≤ 35 / 1000 ∧ 2 / 10 ≤ dSoc then
    { c with
      cap := c.cap + (absRat dQ / dSoc / 3600000 - c.cap) / 8
      fitUnchecked := c.fitUnchecked || old.unchecked || new.unchecked }
  else c

/-- One cell's rested OCV reading fused with its estimate (R229); skipped where the temperature is invalid (R257), and for an
inserted module's cell before its first snap (R250). The anchor is unchecked where the estimate or the impedance behind it
is (R111).
DEDUCED: notes/assumptions/45.md. -/
def Cell.fuse (c : Cell) (m : Manifest) (charge : Int) (time : Nat) (unchecked : Bool) : Cell :=
  if c.t.isNone || c.inserted then c
  else
    let unchecked := unchecked || c.unchecked || c.fitUnchecked
    let k := c.var / (c.var + 9 / 10000)
    let soc := c.soc + k * (m.ocvInverse ((c.v : Rat) / 1000000) (c.celsius m) - c.soc)
    let a : Anchor :=
      { soc := soc, sigma := sqrtOf c.var, charge := charge, bal := c.balCharge, time := time, unchecked := unchecked }
    let c := match c.anchor with
      | some old => c.capacity old a
      | none => c
    { c with soc := soc, var := (1 - k) * c.var, anchor := some a, unchecked := unchecked }

/-- The fusion of every listed cell (R229). -/
def Dev.fuseAll (d : Dev) : Dev :=
  match d.man with
  | none => d
  | some m => (d.mapListed fun _ c => c.fuse m d.est.coulomb d.sup.rtc.toNat d.eng.uncheckedE).liftDerate

/-- |I_pack| has stayed below I_quiet for T_rest (R229). -/
def Dev.restOver (d : Dev) : Bool :=
  match d.man with
  | some m => d.isQuiet && decide (1000 * m.tRest ≤ d.est.quiet)
  | none => false

/-- Work of class E acts: the engine is not halted, no power-fail warning has stopped the class, and it does not withhold its
outputs (R48, R108, R120). -/
def Dev.classERuns (d : Dev) : Bool := !d.insp.halted && !d.powerFailing && !d.eng.nowE

/-- REST_FUSION: once per rest (R229).
DESIGN CHOICE: notes/assumptions/69.md. -/
def execRestFusion (s : State) : Host.Outcome State Fault Refusal :=
  s.effect fun d =>
    if d.inRun && d.restOver && !d.est.fused && d.classERuns then
      let d := d.fuseAll
      { d with est := { d.est with fused := true } }
    else d

/-! ### Impedance (R232 to R240) -/

/-- BURST_END: the fits begin (R232), which is the engine's work (R120). The request of a deliberate step has been served with
its burst. -/
def execBurstEnd (s : State) : Host.Outcome State Fault Refusal :=
  s.effect fun d =>
    if d.est.burst && !d.insp.halted then
      let served := d.est.delib
      let d := { d with est := { d.est with burst := false, delib := false, fitting := true } }
      if served then d.withdrawStep else d
    else d

/-- A quantity blended with weight `w` (R238). -/
def blend (w x fit : Rat) : Rat := x + w * (fit - x)

/-- A least-squares line V = a − Rp·x through points (x, V): a, Rp and the sum of the squared residuals. -/
def leastSquares (ps : List (Rat × Rat)) : Rat × Rat × Rat :=
  let n : Rat := (ps.length : Nat)
  let mx := (ps.map (·.1)).sum / n
  let my := (ps.map (·.2)).sum / n
  let sxx := (ps.map fun p => (p.1 - mx) * (p.1 - mx)).sum
  let sxy := (ps.map fun p => (p.1 - mx) * (p.2 - my)).sum
  let rp := if sxx = 0 then 0 else -(sxy / sxx)
  let a := my + rp * mx
  (a, rp, (ps.map fun p => (p.2 - a + rp * p.1) * (p.2 - a + rp * p.1)).sum)

/-- The 16 values of τp of R235 in s, and the step of their logarithm. -/
def tauStep : Rat := lnOf 100 / 15
def tauAt (j : Nat) : Rat := if j = 0 then 2 / 100 else if 15 ≤ j then 2 else 2 / 100 * expOf (j * tauStep)

/-- What R235 fits: Rp (Ω), τp (s) and the mean square of the residuals (V²). -/
structure CellFit where
  rp : Rat
  taup : Rat
  square : Rat
deriving DecidableEq, Repr

/-- The fit of R235 at one τp over the burst snaps: `t1` the first one's timestamp, `di` the step I_1 − I_pre in A. -/
def fitAt (ps : List (Word × Rat)) (t1 : Word) (di tau : Rat) : Rat × Rat × Rat :=
  leastSquares (ps.map fun p => (di * (1 - expOf (-(((p.1 - t1).toNat : Rat) / 1000000 / tau))), p.2))

/-- Rp and τp of a burst (R235): the τp with the smallest residual sum, refined by the parabola through that sum and its
two neighbours over log τp; Rp and the residuals at the refined value.
DEDUCED: notes/assumptions/45.md. -/
def burstFit (ps : List (Word × Rat)) (t1 : Word) (di : Rat) : CellFit :=
  let sum (j : Nat) : Rat := (fitAt ps t1 di (tauAt j)).2.2
  let best := (List.range 16).foldl (fun b j => if sum j < sum b then j else b) 0
  let tau : Rat :=
    if best = 0 ∨ best = 15 then tauAt best
    else
      let bend := sum (best - 1) - 2 * sum best + sum (best + 1)
      if bend = 0 then tauAt best
      else tauAt best * expOf (tauStep / 2 * ((sum (best - 1) - sum (best + 1)) / bend))
  let r := fitAt ps t1 di tau
  { rp := r.2.1, taup := tau, square := r.2.2 / (ps.length : Nat) }

/-- The current step I_1 − I_pre of a cell's fit in A (R234): `i1` the I_pack mean of the first burst snap in mA. -/
def Cell.stepCurrent (c : Cell) (i1 : Int) : Rat :=
  match c.pre, c.first with
  | some p, some q => (i1 : Rat) / 1000 - q.2 - p.2
  | _, _ => 0

/-- Rs = (V_pre − V_1) / (I_1 − I_pre) (R234). -/
def Cell.stepRs (c : Cell) (i1 : Int) : Rat :=
  match c.pre, c.first with
  | some p, some q => (p.1 - q.1) / c.stepCurrent i1
  | _, _ => 0

/-- The tests of R236 on a cell whose share of burst snaps read is `enough`. -/
def Cell.fitRejected (c : Cell) (enough flat : Bool) (i1 : Int) (f : CellFit) : Bool :=
  !enough || c.first.isNone || c.t.isNone || c.fitFault || (flat && decide (1 / 1000000 < f.square)) ||
  decide (c.stepRs i1 ≤ 0) || (flat && decide (f.rp ≤ 0))

/-- The fit of one cell judged and blended (R234 to R239). `flat` is the condition of R235. The flag says whether it is
accepted. The unchecked mark of an earlier fit stays: the blend is computed from it (R111, R256).
DEDUCED: notes/assumptions/45.md. -/
def Cell.applyFit (c : Cell) (m : Manifest) (f : CellFit) (i1 : Int) (enough flat unchecked : Bool) : Bool × Cell :=
  if c.fitRejected enough flat i1 f then (false, c)
  else
    let factor := m.factorAt (c.celsius m)
    let edge := decide (f.taup ≤ 2 / 100 ∨ 2 ≤ f.taup)
    let rs25 := c.stepRs i1 / factor
    let away := decide (128 ≤ c.conf) && decide (c.rs / 2 < absRat (rs25 - c.rs))
    if away ∧ c.outliers < 2 then (false, { c with outliers := c.outliers + 1 })
    else
      let w := if away then 1 / 2 else max (1 / 8) (1 - (c.conf : Rat) / 256)
      let big := decide (m.capacity / 4 ≤ absRat (c.stepCurrent i1))
      let conf := if away then 64 else c.conf + (255 - c.conf) / (if big then 4 else 8)
      let n := { c with
        rs := blend w c.rs rs25, conf := conf, outliers := 0, sinceFit := 0
        fits := satInc 0xFFFF c.fits, fitUnchecked := c.fitUnchecked || unchecked }
      let n := if flat && !edge then { n with rp := blend w c.rp (f.rp / factor), taup := blend w c.taup f.taup } else n
      (true, n)

/-- At least 80 % of the burst snaps of a stage were read (R236). -/
def Dev.burstRead (d : Dev) (a : Fin 32) : Bool :=
  decide (80 * d.est.burstSnaps ≤ 100 * (d.chn.stages.get a).burstRead)

/-- One cell's fit of the latest burst taken in and counted (R235, R236, R238, R239). A cell without a pre-step snap has
none (R233).
DEDUCED: notes/assumptions/45.md. -/
def Dev.takeFit (d : Dev) (p : Fin 576) : Dev :=
  match d.man with
  | none => d
  | some m =>
    let c := d.est.cells.get p
    if c.pre.isNone then d
    else
      let i1 := d.est.i1.getD 0
      let f := burstFit c.points (d.est.firstTs.getD 0) (c.stepCurrent i1)
      let r := c.applyFit m f i1 (d.burstRead (stageOf p) && d.est.i1.isSome) d.est.flat d.eng.uncheckedE
      let e := { d.est with cells := upd d.est.cells p r.2 }
      if r.1 then
        { d with est := { e with
            accepted := satInc 4095 e.accepted, ovf := setFlag e.ovf 0 (decide (4095 ≤ e.accepted + 1)) } }
      else
        { d with est := { e with
            rejected := satInc 4095 e.rejected, ovf := setFlag e.ovf 1 (decide (4095 ≤ e.rejected + 1)) } }

/-- STEP_FITTED: the fits of a finished burst for every listed cell (R238); without a pre-step snap none is made (R233), and the
event tells of the burst all the same.
DEDUCED: notes/assumptions/44.md. -/
def execStepFitted (s : State) : Host.Outcome State Fault Refusal :=
  s.effect fun d =>
    if d.est.fitting && d.classERuns then
      let d := { d with est := { d.est with fitting := false } }
      let d := if d.est.preTs.isSome then d.listedCells.foldl Dev.takeFit d else d
      d.notice 28 0 0
    else d

/-- A cell's confidence after 12 h without an accepted fit (R240). -/
def Cell.decay (c : Cell) : Cell := { c with conf := c.conf - 1, sinceFit := c.sinceFit + 1 }

/-- CONFIDENCE_DECAY: 12 h have passed for a cell since its last accepted fit or its last fall (R240), which is class E work of
the engine (R48, R120).
DEDUCED: notes/assumptions/45.md. -/
def execConfidenceDecay (cell : Fin 576) (s : State) : Host.Outcome State Fault Refusal :=
  s.effect fun d =>
    if d.insp.halted || d.powerFailing || !d.listedCells.contains cell then d
    else { d with est := { d.est with cells := modify d.est.cells cell Cell.decay } }

/-! ### Deliberate steps (R241 to R243) -/

/-- A listed cell wants a step (R241). -/
def Dev.stepWanted (d : Dev) : Bool :=
  d.listedCells.any fun p =>
    let c := d.est.cells.get p
    decide (c.conf < field d.est.stepUse 8 8) || decide (2 ≤ c.sinceFit)

/-- The conditions of R241 other than its timing.
DEDUCED: notes/assumptions/44.md. -/
def Dev.stepReady (d : Dev) : Bool :=
  d.inRun && bit d.est.stepUse 23 && decide (d.seq.drover = Drover.closed) && d.noSession && d.isQuiet && d.stepWanted &&
  !d.est.stepReq

/-- The amplitude in A of R242. -/
def Dev.stepAmplitude (d : Dev) : Rat :=
  let half : Rat := ((if bit d.est.stepUse 22 then d.lim.dis.get 1 else d.lim.chg.get 1 : Nat) : Rat) / 20
  min (field d.est.stepUse 0 8 : Nat) half

/-- The amplitude is large enough for a request (R242). -/
def Dev.stepLargeEnough (d : Dev) : Bool :=
  match d.man with
  | some m => decide (12 / 100 * m.capacity ≤ d.stepAmplitude)
  | none => false

/-- A deliberate step is requested (R242, R458).
DEDUCED: notes/assumptions/44.md. -/
def Dev.requestStep (d : Dev) : Dev :=
  let e := d.est
  let d := { d with est := { e with
    stepReq := true, stepAmp := d.stepAmplitude, stepDis := bit e.stepUse 22, sinceReq := some d.sup.rtc
    requested := satInc 4095 e.requested, ovf := setFlag e.ovf 2 (decide (4095 ≤ e.requested + 1)) } }
  (d.countDevice 16).publish .stepReq

/-- The request of R241 in a class E period. -/
def Dev.stepPeriod (d : Dev) : Dev :=
  let due := match d.est.sinceReq with | some t => decide (t.toNat + 600 * 32768 ≤ d.sup.rtc.toNat) | none => true
  if d.stepReady && decide (60000 ≤ d.est.quiet) && due && d.stepLargeEnough then d.requestStep else d

/-- STEP_REQUEST_MISSED: no qualified step within 500 ms, whatever earlier burst runs (R243), which is the engine's work
(R120).
DEDUCED: notes/assumptions/44.md. -/
def execStepRequestMissed (s : State) : Host.Outcome State Fault Refusal :=
  s.effect fun d =>
    if d.est.stepReq && !(d.est.burst && d.est.delib) && !d.insp.halted then
      let e := d.est
      ({ d with est := { e with missed := satInc 4095 e.missed, ovf := setFlag e.ovf 3 (decide (4095 ≤ e.missed + 1)) } } :
        Dev).withdrawStep
    else d

/-- STEP_NOW.
DEDUCED: notes/assumptions/44.md. -/
def bodyStepNow (d : Dev) : Executed :=
  if d.stepReady && d.stepLargeEnough then (d.requestStep, some rDone) else (d, some rCondition)

/-- EST_CMD STEP_NOW. -/
def execStepNow (tok : Byte) (s : State) : Host.Outcome State Fault Refusal :=
  s.effect fun d => d.hostCommand .est tok 0x02 bodyStepNow

/-! ### The stages -/

/-- The device with one stage changed. -/
def Dev.setStage (d : Dev) (a : Fin 32) (f : Stage → Stage) : Dev :=
  { d with chn := { d.chn with stages := modify d.chn.stages a f } }

/-- The chain has work to serve: it has been enumerated, the engine is not halted (R120), and no power-fail warning has
stopped it (R48). -/
def Dev.chainWork (d : Dev) : Bool := d.chn.running && !d.insp.halted && !d.powerFailing

/-- The chain serves transactions: it has work to serve and its domain runs. -/
def Dev.chainLive (d : Dev) : Bool := d.sup.doms.evo && d.chainWork

/-- Work of the Golner's own on the chain requests a stopped EVO and waits for it (R89). -/
def Dev.callChain (d : Dev) : Dev := if d.chainWork then d.needEvo else d

/-! ### Inserted modules and stored impedance (R153, R250, R251, R256) -/

/-- The record of an identity in the impedance history. -/
def Dev.historyOf (d : Dev) (x : StageId) : Option HistoryRec := d.dep.history.find? fun r => r.id = x.id

/-- A cell's impedance, confidence and capacity from the history, halved in confidence where the values come from
unchecked results, else from the manifest's defaults with confidence 0 (R153, R256). -/
def Cell.loadImpedance (c : Cell) (m : Manifest) (r : Option HistoryRec) (i : Nat) : Cell :=
  match r.bind fun r => (r.cell[i]?).map fun x => (r.unchecked, x) with
  | some (unchecked, rs, rp, taup, conf, cap, fits) =>
    { c with rs := rs, rp := rp, taup := taup, conf := if unchecked then conf / 2 else conf, cap := cap, fits := fits,
             fitUnchecked := unchecked }
  | none => { c with rs := m.rs25, rp := m.rp25, taup := m.taup, conf := 0, cap := m.capacity, fits := 0,
                     fitUnchecked := false }

/-- A stage is treated as an inserted module: its identity is not authenticated, it does not balance (R200), its cells
start from their insertion voltage with σ 15 %, and the derate applies (R250). -/
def Dev.insertModule (d : Dev) (a : Fin 32) (x : StageId) : Dev :=
  match d.man with
  | none => d
  | some m =>
    let r := d.historyOf x
    let d := d.setStage a fun st => { st with auth := false, cert := [], mask := 0 }
    let one (p : Fin 576) (c : Cell) : Cell :=
      { c.loadImpedance m r (p.val % 18) with
        inserted := true, var := 225 / 10000, anchor := none, sinceCorr := 0, vp := 0, outliers := 0 }
    let d := { d with chn := { d.chn with heldSnaps := d.chn.heldSnaps.filter fun x => x.stage ≠ a } }
    { d with est := { d.est with
        derated := true, cells := (stageCells a).foldl (fun v p => modify v p (one p)) d.est.cells } }

end Sys2Proof.Machine
end

