-- ==== Sys2Proof/Machine/Limits.lean ====
section
/-! DEFINITION. The limits (R262 to R266), LIM_CMD FAULT_CLR, and the class D trigger of R275. -/
namespace Sys2Proof.Machine

/-! ### The computation of the limits -/

/-- The horizons in s. -/
def horizon : Fin 3 → Rat
  | 0 => 2 | 1 => 10 | 2 => 60

/-- The current in A that brings a cell to its operating limit at the end of a horizon (R262); `dis` is the direction.
Where R_eff is 0 the rule gives no current, and the result is free.
DEDUCED: notes/assumptions/46.md. -/
def Cell.limit (c : Cell) (m : Manifest) (dis : Bool) (h : Rat) : Rat :=
  let t := c.celsius m
  let f := m.factorAt t
  let sigma := sqrtOf c.var
  let soc := if dis then c.soc - 2 * sigma else c.soc + 2 * sigma
  let e := expOf (-h / c.taup)
  let kc := 1 + m.kConf * (255 - (c.conf : Rat)) / 255
  let r := (c.rs * f + c.rp * f * (1 - e)) * kc + m.ocvSlope soc t * h / (3600 * c.cap)
  let th := safer m.th
  let ocv := m.ocvAt soc t
  let v := if dis then ocv - c.vp * e - (th.vMin : Rat) / 1000000 else (th.vMax : Rat) / 1000000 - ocv + c.vp * e
  max 0 (if r = 0 then Config.lookup [] v else v / r)

/-- The factor of the coldest column of a temperature table. -/
def coldestFactor : List (Rat × Rat) → Rat
  | [] => Config.lookup [] 0
  | x :: xs => (xs.foldl (fun a b => if b.1 < a.1 then b else a) x).2

/-- The temperature and SoC factors of a cell (R263, step 1); an invalid temperature takes the coldest column's own factor. -/
def Cell.limitFactor (c : Cell) (m : Manifest) (dis : Bool) : Rat :=
  let tbl := if dis then m.disTemp else m.chgTemp
  let sigma := sqrtOf c.var
  (match c.t with | some t => tableAt tbl ((t : Rat) / 100) | none => coldestFactor tbl) *
    (if dis then tableAt m.disSoc (c.soc - 2 * sigma) else tableAt m.chgSoc (c.soc + 2 * sigma))

/-- The smallest class B factor of a direction among the active class B faults (R263, step 5), as a fraction. -/
def Dev.classBFactor (d : Dev) (dis : Bool) : Rat :=
  let fs := faultNumbers.filter fun f => d.lim.active.getLsbD f && decide (d.faultClass f = FaultClass.b)
  let pct := fs.foldl (fun a f => min a (if dis then (d.faultFactor f).2 else (d.faultFactor f).1)) 100
  (pct : Rat) / 100

/-- Steps 1 to 5 of R263 for one horizon, in A. -/
def Dev.rawLimit (d : Dev) (m : Manifest) (dis : Bool) (h : Fin 3) : Rat :=
  let max' := if dis then m.disMax.get h else m.chgMax.get h
  let r := d.listedCells.foldl (fun a p =>
    let c := d.est.cells.get p
    min a (c.limit m dis (horizon h) * c.limitFactor m dis)) max'
  r * (if d.est.derated then 1 / 2 else 1) * d.classBFactor dis

/-- Step 6: the 10 s limit is at most the 2 s limit, and the 60 s limit at most the 10 s limit.
DEDUCED: notes/assumptions/46.md. -/
def orderLimits (v : Vector Rat 3) : Vector Rat 3 :=
  let b := min (v.get 1) (v.get 0)
  #v[v.get 0, b, min (v.get 2) b]

/-- Step 7, in 0.1 A: a rise by at most one tenth of the pack maximum.
DEDUCED: notes/assumptions/46.md. -/
def limitRise (old new : Nat) (packMax : Rat) : Nat := min new (old + natOf (roundAway packMax))

/-- Steps 1 to 7 of a direction, in 0.1 A.
DEDUCED: notes/assumptions/46.md. -/
def Dev.directionLimits (d : Dev) (m : Manifest) (dis : Bool) : Vector Nat 3 :=
  let raw := orderLimits (Vector.ofFn fun h => d.rawLimit m dis h)
  Vector.ofFn fun h =>
    limitRise ((if dis then d.lim.dis else d.lim.chg).get h) (natOf (roundAway (raw.get h * 10)))
      (if dis then m.disMax.get h else m.chgMax.get h)

/-- A limit is computed from an input with the unchecked mark (R264).
DEDUCED: notes/assumptions/46.md. -/
def Dev.uncheckedInputs (d : Dev) : Bool :=
  d.eng.uncheckedE ||
    d.listedCells.any fun p => (d.est.cells.get p).unchecked || (d.est.cells.get p).fitUnchecked

/-- Step 8 (R264, R265): the clamp to the last checked limit, then the zero rule.
DEDUCED: notes/assumptions/46.md. -/
def Dev.setLimits (d : Dev) (chg dis : Vector Nat 3) : Dev :=
  let u := d.uncheckedInputs
  let clamp (new old : Vector Nat 3) : Vector Nat 3 := if u then Vector.ofFn fun h => min (new.get h) (old.get h) else new
  let c := clamp chg d.lim.checkedChg
  let x := clamp dis d.lim.checkedDis
  let zero := decide (d.zcause ≠ 0)
  { d with lim := { d.lim with
      chg := if zero then .replicate 3 0 else c, dis := if zero then .replicate 3 0 else x
      clampChg := .replicate 3 u, clampDis := .replicate 3 u
      checkedChg := if u then d.lim.checkedChg else c, checkedDis := if u then d.lim.checkedDis else x
      classB := d.anyActive .b } }

/-- The limits of a class E period, computed in Run (R263). The event of source 31 says that they have become zero. -/
def Dev.limitPeriod (d : Dev) : Dev :=
  match d.man with
  | none => d
  | some m =>
    let was := d.limitsZero
    let d := d.setLimits (d.directionLimits m false) (d.directionLimits m true)
    if d.limitsZero && !was then d.notice 31 0 0 else d

/-- The limits published at the end of a class E period (R266), by class C: while that withholds its outputs they wait for a
period of its own that does not (R92, R108). -/
def Dev.publishPeriod (d : Dev) : Dev :=
  if d.eng.nowC then { d with eng := { d.eng with publishDue := true } }
  else ({ d with eng := { d.eng with publishDue := false } } : Dev).publishLimits

/-! ### FAULT_CLR and the class D trigger -/

/-- The latched faults that FAULT_CLR may clear: no lockout flag, and not fault 28, which clears by R311 (R276).
DEDUCED: notes/assumptions/47.md. -/
def Dev.clearable (d : Dev) : List Nat :=
  faultNumbers.filter fun f => d.lim.latched.getLsbD f && !d.lockoutFlag f && decide (f ≠ 28)

/-- FAULT_CLR: the latched faults whose cause is absent end (R276); while a cause persists the command is refused.
DEDUCED: notes/assumptions/47.md. -/
def bodyFaultClr (d : Dev) : Executed :=
  let gone := d.clearable.filter fun f => !d.lim.active.getLsbD f
  let d' := (d.unlatch (gone.foldl (fun b f => b ||| BitVec.ofNat 39 (2 ^ f)) 0)).tryClearLatch
  (d', some (if d.clearable.any fun f => d.lim.active.getLsbD f then rCause else rDone))

/-- LIM_CMD FAULT_CLR. -/
def execFaultClr (tok : Byte) (s : State) : Host.Outcome State Fault Refusal :=
  s.effect fun d => d.hostCommand .lim tok 0x01 bodyFaultClr

/-- SAFETY_LATCH_SET: a class D trigger (R275). Faults 26 and 38 have several lock causes, of which the row names none:
which one it is, is free. Whether the cause lasts is what the state says of it otherwise.
DEDUCED: notes/assumptions/47.md. -/
def execSafetyLatchSet (src : LatchSource) (fault : Fin 39) (s : State) : Host.Outcome State Fault Refusal :=
  s.effect fun d =>
    if d.alive && decide (d.faultClass fault.val = FaultClass.d) then
      let n := (Config.freeWord d.free).toNat
      let cause : Byte := if fault = 26 then BitVec.ofNat 8 (1 + n % 5) else BitVec.ofNat 8 (6 + n % 2)
      let was := d.lim.active &&& BitVec.ofNat 39 (2 ^ fault.val)
      let d := d.tick.raise fault.val src cause queued 0 0 none
      { d with lim := { d.lim with active := (d.lim.active &&& ~~~(BitVec.ofNat 39 (2 ^ fault.val))) ||| was } }
    else d

end Sys2Proof.Machine
end

