-- ==== Sys2Proof/Machine/Chain.lean ====
section
/-! DEFINITION. The Evore chain (R161 to R199): frames with their sequence numbers, tags and retries, responses, the
ring's breaks and probes, snaps and staleness; the authentication of the stages over it (R247 to R258). -/
namespace Sys2Proof.Machine

/-! ### Frames -/

/-- The header word of R164. -/
def chainHeader (addr cmd seq len : Nat) : Word :=
  word (place (addr % 64) 18 + place (cmd % 64) 12 + place (seq % 256) 4 + len % 16)

/-- The bytes that a frame's CRC-16 covers, MSB first (R165). -/
def chainBytes (header : Word) (words : List Word) : List Byte := (header :: words).flatMap fun w => be 3 w.toNat

/-- A frame with its CRC. -/
def chainFrame (addr cmd : Nat) (seq : Byte) (words : List Word) : ChainFrame :=
  let h := chainHeader addr cmd seq.toNat words.length
  { header := h, words := words, crc := crc16 (chainBytes h words) }

/-- The CRC of a frame that arrives is correct, and its length is the LEN of its header (R175). -/
def frameOk (f : ChainFrame) : Bool :=
  decide (f.crc = crc16 (chainBytes f.header f.words)) && decide (field f.header 0 4 = f.words.length)

/-- The bit of a port in `Chn.sleeping`. -/
def portBit : Port → Nat
  | .eva => 0
  | .evb => 1

/-- A frame sent from a port: it takes the next SEQ (R174). The first frame after a SLEEP follows a wake burst of 55 µs per
stage (R188): on an intact ring it wakes every stage, on a broken one those of its side. -/
def Dev.sendChain (d : Dev) (p : Port) (addr cmd : Nat) (words : List Word) : Dev :=
  { d with chn := { d.chn with
      sent := some (p, chainFrame addr cmd d.chn.seq words), seq := d.chn.seq + 1
      sleeping := if d.chn.intact then 0 else d.chn.sleeping &&& ~~~(BitVec.ofNat 2 (2 ^ portBit p))
      wakeBurst := if d.chn.sleeping.getLsbD (portBit p) then 55 * d.listedStages.length else 0 } }

/-- A broadcast: from EVA while the ring is intact, and from both ports while it is broken (R173, R178). -/
def Dev.broadcast (d : Dev) (cmd : Nat) (words : List Word) : Dev :=
  let d := d.sendChain .eva 0 cmd words
  if d.chn.intact then d else d.sendChain .evb 0 cmd words

/-- SLEEP: the stages go into low power with balancing off (R187, R188). -/
def Dev.sleepChain (d : Dev) : Dev :=
  let d := d.broadcast 0x0D []
  { d with chn := { d.chn with sleeping := 0b11, stages := d.chn.stages.map fun (st : Stage) => { st with mask := 0 } } }

/-- The other port. -/
def otherPort : Port → Port
  | .eva => .evb
  | .evb => .eva

/-- The port that a broken ring reaches a stage address from; `none` for one that neither port reaches (R178, R199). -/
def Chn.sideOf (c : Chn) (addr : Nat) : Option Port :=
  if addr ≤ c.lastA then some .eva
  else if c.firstB ≠ 0 ∧ c.firstB ≤ addr then some .evb
  else none

/-- The port of a first attempt: EVA while the ring is intact (R171, R178). -/
def Chn.portFor (c : Chn) (addr : Nat) : Option Port := if c.intact then some .eva else c.sideOf addr

/-- The port of a retry: the other direction while the ring is intact, the same side while it is broken (R193).
DEDUCED: notes/assumptions/48.md. -/
def Chn.retryPort (c : Chn) (addr : Nat) (last : Port) : Option Port :=
  if c.intact then some (otherPort last) else c.sideOf addr

/-! ### Snaps (R181, R232) -/

/-- The Golner's count of µs on the 1 ms grid of the frames (R181): its lead over the frames' count is free.
DEDUCED: notes/assumptions/48.md. -/
def Dev.snapTimestamp (d : Dev) : Word := word (1000 * d.eng.frame.toNat) + Config.freeWord d.chn.phase

/-- The count of µs goes on while frames stand still: its lead over them is another one. -/
def Dev.newPhase (d : Dev) : Dev := { d.tick with chn := { d.chn with phase := d.free } }

/-- The snaps that are remembered: the last 32 (R183), and those within the longest T_STALE (R195). -/
def rememberSnaps (now : Word) (l : List SnapTime) : List SnapTime :=
  l.take 32 ++ (l.drop 32).takeWhile fun s => decide ((now - s.frame).toNat ≤ 4095)

/-- SNAP: broadcast with its timestamp. The first snap of a burst is noted as such. -/
def Dev.snap (d : Dev) : Dev :=
  let ts := d.snapTimestamp
  let first := d.est.burst && decide (d.est.burstSnaps = 0)
  let d := d.broadcast 0x06 [ts]
  { d with
    chn := { d.chn with snapTs := ts }
    est := { d.est with
      snaps := rememberSnaps d.eng.frame ({ ts := ts, frame := d.eng.frame, burst := d.est.burst } :: d.est.snaps)
      burstSnaps := if d.est.burst then d.est.burstSnaps + 1 else d.est.burstSnaps
      firstTs := if first then some ts else d.est.firstTs } }

/-- A SNAP has been broadcast on this grid point (R181). -/
def Dev.snapped (d : Dev) : Bool := match d.est.snaps with | s :: _ => decide (s.frame = d.eng.frame) | [] => false

/-- SNAP, in Run. -/
def execSnap (s : State) : Host.Outcome State Fault Refusal :=
  s.effect fun d =>
    if d.inRun && !d.snapped then
      let d := d.callChain
      if d.chainLive then d.snap else d
    else d

/-! ### Transactions (R172, R174) -/

/-- The lowest free tag. -/
def Chn.freeTag (c : Chn) : Option Nat := (List.range 32).find? fun t => !c.tags.any fun x => x.tag = t

/-- A response with a SEQ is awaited (R175). -/
def Chn.awaits (c : Chn) (s : Byte) : Bool := c.tags.any fun t => !t.unsent && !t.notReady && decide (t.seq = s)

/-- The next SEQ that no tag awaits: no two awaited ones are equal (R175).
DEDUCED: notes/assumptions/48.md. -/
def Chn.nextSeq (c : Chn) : Byte :=
  (((List.range 33).map fun i => c.seq + BitVec.ofNat 8 i).find? fun s => !c.awaits s).getD c.seq

/-- A port can take a unicast request: on a broken ring at most one and its response are on each side (R172). -/
def Chn.portFree (c : Chn) (p : Port) : Bool :=
  c.intact || !(c.tags.any fun t => !t.unsent && !t.notReady && decide (t.port = p))

/-- A unicast transaction can start from a port at once: a tag is free and the port can take it (R172, R174). -/
def Chn.unicastFree (c : Chn) (p : Port) : Bool := c.portFree p && c.freeTag.isSome

/-- The device with a slot of the response buffer changed. -/
def Dev.setSlot (d : Dev) (t : Nat) (ws : List Word) : Dev :=
  { d with chn := { d.chn with buffer := upd d.chn.buffer (Fin.ofNat 32 t) ws } }

/-- One tag more is in flight: TAG_PEAK and the watermark of queue 5 (R174, R497). -/
def Dev.takeTag (d : Dev) : Dev :=
  let n := d.chn.tags.length
  let r := d.dep.tagwm.rise (field d.dep.wmcfg 16 6) n (n + 1)
  let d := { d with dep := { d.dep with tagwm := r.1 }, chn := { d.chn with tagPeak := max d.chn.tagPeak (n + 1) } }
  d.queueCrossed 5 (n + 1) r.2.1 r.2.2

/-- A unicast transaction of enumeration, a probe or a delay measurement from its request to its end: it has the lowest free
tag meanwhile, whose slot takes the response `resp` (R174).
DEDUCED: notes/assumptions/48.md. -/
def Dev.transact (d : Dev) (p : Port) (addr cmd : Nat) (words resp : List Word) : Dev :=
  ((d.setSlot (d.chn.freeTag.getD 0) resp).takeTag).sendChain p addr cmd words

/-- The three words of an identity (R168). -/
def identityWords (x : StageId) : List Word :=
  [(x.id >>> 40).setWidth 24, (x.id >>> 16).setWidth 24, (x.id.setWidth 16 ++ x.cells)]

/-- The request as it goes out: during a burst a balancing mask stays as it is (R232). Requests are frozen from the
burst's start; a BALANCE sent before it and answered in it still takes effect.
DEDUCED: notes/assumptions/44.md. -/
def Dev.frozenMask (d : Dev) (r : ChainRequest) : ChainRequest :=
  if d.est.burst && decide (r.cmd = 0x09) then
    { r with words := [word (d.chn.stages.get (Fin.ofNat 32 (r.addr.toNat - 1))).mask.toNat] }
  else r

/-- A frame of a tag goes out with the next SEQ, which the tag then awaits; or it waits for its side of a broken ring. -/
def Dev.sendTag (d : Dev) (t : Tag) (p : Port) : Dev :=
  let c := { d.chn with tags := d.chn.tags.filter fun x => x.tag ≠ t.tag }
  if c.portFree p then
    let seq := c.nextSeq
    let r := d.frozenMask t.req
    let d := ({ d with chn := { c with seq := seq } } : Dev).sendChain p r.addr.toNat r.cmd.toNat r.words
    { d with chn := { d.chn with tags := c.tags ++ [{ t with req := r, seq := seq, port := p, unsent := false }] } }
  else { d with chn := { c with tags := c.tags ++ [{ t with port := p, unsent := true }] } }

/-- The oldest tag that waits for a port goes out from it, if it can. -/
def Dev.serveSide (d : Dev) (p : Port) : Dev :=
  if d.chainLive && d.chn.portFree p then
    match d.chn.tags.find? fun t => t.unsent && decide (d.chn.portFor t.req.addr.toNat = some p) with
    | some t => d.sendTag t p
    | none => d
  else d

/-- Both sides of a broken ring go on at once (R178). -/
def Dev.serveSides (d : Dev) : Dev := (d.serveSide .eva).serveSide .evb

/-- A tag's slot of the response buffer. -/
def Chn.slot (c : Chn) (t : Nat) : List Word := c.buffer.get (Fin.ofNat 32 t)

/-- A request gets a tag and is sent; it waits where all 32 are in use (R174) or chain traffic is held (R120). -/
def Dev.startRequest (d : Dev) (req : ChainRequest) : Dev :=
  match d.chn.portFor req.addr.toNat with
  | none => d
  | some p =>
    let d := d.callChain
    match (if d.chainLive then d.chn.freeTag else none) with
    | none => { d with chn := { d.chn with waiting := d.chn.waiting ++ [req] } }
    | some t => ((d.setSlot t []).takeTag).sendTag { tag := t, req := req, seq := 0, port := p } p

/-- A tag is done with: the oldest request that waits takes its turn, and so does one that waits for its side. -/
def Dev.freeTag (d : Dev) (t : Nat) : Dev :=
  let d := { d with chn := { d.chn with tags := d.chn.tags.filter fun x => x.tag ≠ t } }
  (match d.chn.waiting with
  | [] => d
  | r :: rest => ({ d with chn := { d.chn with waiting := rest } } : Dev).startRequest r).serveSides

/-- The requests that wait are taken up again, with as many tags as are free. -/
def Dev.takeWaiting (d : Dev) : Dev :=
  d.chn.waiting.foldl Dev.startRequest { d with chn := { d.chn with waiting := [] } }

/-- A request that R167 has, other than those that belong to enumeration, probes, snaps and sleep: its address and its
number of words.
DEDUCED: notes/assumptions/48.md. -/
def requestOk (r : ChainRequest) : Bool :=
  let unicast := decide (1 ≤ r.addr.toNat ∧ r.addr.toNat ≤ 32)
  let words (n : Nat) : Bool := decide (r.words.length = n)
  match r.cmd.toNat with
  | 0x01 | 0x03 => unicast && words 0
  | 0x04 => (unicast || decide (r.addr = 0)) && words 1
  | 0x05 | 0x07 | 0x08 | 0x09 | 0x0B | 0x0C => unicast && words 1
  | 0x0A => unicast && words 11
  | _ => false

/-- CHAIN_TRANSACTION_START: a broadcast has no response and takes no tag (R166). -/
def execChainTransactionStart (req : ChainRequest) (s : State) : Host.Outcome State Fault Refusal :=
  s.effect fun d =>
    if !requestOk req then d
    else
      let d := d.callChain
      if !d.chainLive then d
      else if req.addr = 0 then d.broadcast req.cmd.toNat req.words
      else d.startRequest req

/-! ### Counters, episodes and abandoned transactions (R191 to R197) -/

/-- The stage of an address field. -/
def stageAt (addr : Nat) : Fin 32 := Fin.ofNat 32 (addr - 1)

/-- An event about a stage, inside its fault episode where one is open (R196). -/
def Dev.stageNotice (d : Dev) (src : Nat) (a : Fin 32) : Dev :=
  d.event src 0 0 (stageNo a) ((d.chn.stages.get a).episode.getD 0) (Config.eventData src 0)

/-- A counter of CHN with its overflow bit: 0 CRC_A, 1 CRC_B, 2 RETRIES, 3 FAILED, 4 STALE_EV, 5 SNAP_LOST. The event
of source 21 is queued when it saturates, inside the episode of the stage whose count it is (R196). -/
def Dev.countChain (d : Dev) (i : Fin 6) (a : Option (Fin 32)) : Dev :=
  let c := d.chn
  let old := match i with
    | 0 => c.crcA | 1 => c.crcB | 2 => c.retries | 3 => c.failed | 4 => c.staleEv | 5 => c.snapLost
  let new := satInc 4095 old
  let c := { c with ovf := setFlag c.ovf i.val (decide (4095 ≤ new)) }
  let c := match i with
    | 0 => { c with crcA := new } | 1 => { c with crcB := new } | 2 => { c with retries := new }
    | 3 => { c with failed := new } | 4 => { c with staleEv := new } | 5 => { c with snapLost := new }
  let ep := (a.bind fun a => (c.stages.get a).episode).getD 0
  let d := { d with chn := c }
  if 4095 ≤ new ∧ old < 4095 then d.event 21 0 0 i.val ep (Config.eventData 21 0) else d

/-- The first failed attempt towards a stage opens its episode (R196). -/
def Dev.openStageEpisode (d : Dev) (a : Fin 32) : Dev :=
  match (d.chn.stages.get a).episode with
  | some _ => d
  | none =>
    let r := d.newEpisode
    r.1.setStage a fun st => { st with episode := some r.2 }

/-- A fault of the chain in the stage's episode, unless it joins one of its own (R196, R281, R284).
DEDUCED: notes/assumptions/17.md. -/
def Dev.stageFault (d : Dev) (f src : Nat) (a : Fin 32) : Dev :=
  d.raise f .engine 0x08 src 0 (stageNo a)
    (if (d.joinedEpisode f (stageNo a)).isSome then none else (d.chn.stages.get a).episode)

/-- A transaction is abandoned: counted, with its event and fault 13 (R193, R268). -/
def Dev.abandon (d : Dev) (t : Tag) : Dev :=
  let a := stageAt t.req.addr.toNat
  ((d.countChain 3 (some a)).stageFault 13 17 a).freeTag t.tag

/-- The tag with a number. -/
def Chn.tagNo (c : Chn) (n : Nat) : Option Tag := c.tags.find? fun t => t.tag = n

/-- A failed attempt (R193): the episode opens, and the request is sent again, or abandoned where the budget is spent or
no port reaches the stage.
DEDUCED: notes/assumptions/48.md. -/
def Dev.attemptFails (d : Dev) (t : Tag) : Dev :=
  let a := stageAt t.req.addr.toNat
  let d := d.openStageEpisode a
  if field d.chn.retrycfg 0 3 ≤ t.fails then d.abandon t
  else
    match d.chn.retryPort t.req.addr.toNat t.port with
    | none => d.abandon t
    | some p => (d.countChain 2 (some a)).sendTag { t with fails := t.fails + 1, notReady := false } p

/-- CHAIN_ATTEMPT_FAILED: a request that waits for its side of the ring has made no attempt. -/
def execChainAttemptFailed (tag : Fin 32) (s : State) : Host.Outcome State Fault Refusal :=
  s.effect fun d =>
    match d.chn.tagNo tag.val with
    | some t =>
      if d.chainLive && (!t.unsent || (d.chn.portFor t.req.addr.toNat).isNone) then d.attemptFails t else d
    | none => d

/-- NOT_READY_REPEAT: the same request again, without using the budget (R194). -/
def execNotReadyRepeat (tag : Fin 32) (s : State) : Host.Outcome State Fault Refusal :=
  s.effect fun d =>
    match d.chn.tagNo tag.val with
    | some t => if d.chainLive && t.notReady then d.sendTag { t with notReady := false } t.port else d
    | none => d

/-! ### Challenges (R185, R247) -/

/-- The nonce of a challenge (R247), and the eleven words of AUTH_CHALLENGE (R185). -/
def nonceBytes (n : Nat) : List Byte := fit 32 (Config.freeBytes n)
def nonceWords (n : Nat) : List Word := (List.range 11).map (wordOf (nonceBytes n))

/-- A stage is challenged: AUTH_CHALLENGE goes out with a fresh nonce, and the result is awaited (R247). -/
def Dev.challenge (d : Dev) (a : Fin 32) : Dev :=
  let n := d.free
  let d := (d.setStage a fun st => { st with challenge := some n, sigRead := none, certRead := [] }).tick
  d.startRequest { addr := BitVec.ofNat 6 (stageNo a), cmd := 0x0A, words := nonceWords n }

/-- The bytes of words, most significant first. -/
def wordBytes (ws : List Word) : List Byte := ws.flatMap fun w => be 3 w.toNat

/-- The first 8 bytes of a certificate's digest, as the history keeps it (R251). -/
def certDigest (cert : List Byte) : List Byte := (sha256 cert).take 8

/-- The cached key of a stage serves: the history holds the digest of the certificate that it comes from (R247).
DEDUCED: notes/assumptions/48.md. -/
def Dev.keyCached (d : Dev) (a : Fin 32) : Bool :=
  let st := d.chn.stages.get a
  decide (st.cert ≠ []) &&
  (match st.id.bind d.historyOf with | some r => decide (r.certDigest = certDigest st.cert) | none => false)

/-! ### Responses (R175, R184, R197) -/

/-- The identity in the words of ASSIGN and ID_READ (R168). -/
def identityOf (ws : List Word) : StageId :=
  let w (i : Nat) : Nat := (ws.getD i 0).toNat
  { id := BitVec.ofNat 64 (w 0 * 2 ^ 40 + w 1 * 2 ^ 16 + w 2 / 256), cells := BitVec.ofNat 8 (w 2) }

/-- The drover is in a closed state (R19, R249): PRECHARGE, CLOSED, OUTPUT, or HOLD from one. -/
def Dev.inClosedState (d : Dev) : Bool :=
  match d.seq.drover with
  | .precharge | .closed | .output => true
  | .hold => decide (d.seq.holdFrom ≠ Drover.openS)
  | _ => false

/-- An event of a stage, with its fault where the drover is in a closed state. -/
def Dev.stageFinding (d : Dev) (f src : Nat) (a : Fin 32) : Dev :=
  if d.inClosedState then d.stageFault f src a else d.stageNotice src a

/-- A stage's identity as read: one that differs from the record is an inserted module, and is challenged (R180, R248,
R250). After an ASSIGN or a rejoin (`always`) the comparison stands on its own; another reading tells only what is new. -/
def Dev.readIdentity (d : Dev) (always : Bool) (a : Fin 32) (x : StageId) : Dev :=
  let st := d.chn.stages.get a
  let d := d.setStage a fun st => { st with id := some x, present := true }
  if st.recorded.isSome && decide (st.recorded ≠ some x) && (always || decide (st.id ≠ some x)) then
    ((d.stageFinding 15 18 a).insertModule a x).challenge a
  else d

/-- A snap's parts as read; once both of one timestamp are there, the snap is fully read (R195). -/
def Dev.snapPart (d : Dev) (a : Fin 32) : Dev :=
  match (d.chn.stages.get a).partA, (d.chn.stages.get a).partB with
  | some (ta, wa), some (tb, wb) =>
    if ta = tb then
      let volts := (wa.take 14 ++ wb.take 4).map BitVec.toNat
      let temp (w : Word) : Option Int := if Config.tempValid w then some w.toInt else none
      let d := d.setStage a fun st => { st with partA := none, partB := none }
      d.snapRead { stage := a, ts := some ta, volts := volts, temps := ((wb.drop 4).take 8).map temp
                   fault := bit (wb.getD 12 0) 3 }
    else d
  | _, _ => d

/-- The next part of a multi-part read under the same tag: AUTH_RESULT has two parts, CERT_READ four (R174, R185).
DEDUCED: notes/assumptions/48.md. -/
def nextPart (r : ChainRequest) : Option ChainRequest :=
  let p := (r.words.headD 0).toNat
  if (r.cmd = 0x0B ∧ p < 1) ∨ (r.cmd = 0x0C ∧ p < 3) then some { r with words := [word (p + 1)] } else none

/-- The next read of an authentication of a stage (R247). -/
def Dev.readAuth (d : Dev) (a : Fin 32) (cmd : BitVec 6) : Dev :=
  d.startRequest { addr := BitVec.ofNat 6 (stageNo a), cmd := cmd, words := [0] }

/-- What the Golner keeps of a response that is complete: `ws` what its slot holds assembled. Within an authentication
it goes on to the next read: the result, and the certificate unless its key is cached (R247). -/
def Dev.keepAnswer (d : Dev) (r : ChainRequest) (ws : List Word) : Dev :=
  let a := stageAt r.addr.toNat
  let challenged := (d.chn.stages.get a).challenge.isSome
  match r.cmd.toNat with
  | 0x03 => d.readIdentity false a (identityOf ws)
  | 0x07 => (d.setStage a fun st => { st with partA := some (ws.headD 0, ws.drop 1) }).snapPart a
  | 0x08 => (d.setStage a fun st => { st with partB := some (ws.headD 0, ws.drop 1) }).snapPart a
  | 0x09 => d.setStage a fun st => { st with mask := BitVec.ofNat 18 (ws.headD 0).toNat }
  | 0x05 =>
    let w := r.words.headD 0
    d.setStage a fun st => { st with dlyP := BitVec.ofNat 12 (field w 12 12), dlyQ := BitVec.ofNat 12 (field w 0 12) }
  | 0x0A => if challenged then d.readAuth a 0x0B else d
  | 0x0B =>
    if challenged then
      let d := d.setStage a fun st => { st with sigRead := some ((wordBytes ws).take 64) }
      if d.keyCached a then d else d.readAuth a 0x0C
    else d
  | 0x0C => if challenged then d.setStage a fun st => { st with certRead := wordBytes ws } else d
  | _ => d

/-- The answer to a request: its words go into the tag's slot; the next part follows under the same tag, with a budget of
its own, or the tag ends.
DEDUCED: notes/assumptions/48.md. -/
def Dev.answer (d : Dev) (t : Tag) (ws : List Word) : Dev :=
  let d := d.setSlot t.tag (d.chn.slot t.tag ++ ws)
  match nextPart t.req with
  | some r => d.sendTag { t with req := r, fails := 0 } t.port
  | none => (d.freeTag t.tag).keepAnswer t.req (d.chn.slot t.tag)

/-- A NAK (R168): NOT_READY of a snap entry or an authentication result waits for its repeat, NO_ENTRY of a snap read is
a lost snap, and every other reason ends the transaction. -/
def Dev.refusal (d : Dev) (t : Tag) (reason : Nat) : Dev :=
  let cmd := t.req.cmd.toNat
  let a := stageAt t.req.addr.toNat
  if reason = 1 ∧ (cmd = 7 ∨ cmd = 8 ∨ cmd = 0x0B) then
    ({ d with chn := { d.chn with
        tags := d.chn.tags.map fun x => if x.tag = t.tag then { x with notReady := true } else x } } : Dev).serveSides
  else if reason = 2 ∧ (cmd = 7 ∨ cmd = 8) then ((d.countChain 5 (some a)).stageFault 13 19 a).freeTag t.tag
  else d.freeTag t.tag

/-- The tag that a frame answers: its SEQ is awaited, its ADDR is the stage's, and its CMD is the response or a NAK. -/
def Chn.answered (c : Chn) (f : ChainFrame) : Option Tag :=
  c.tags.find? fun t =>
    !t.notReady && !t.unsent && decide (field f.header 4 8 = t.seq.toNat) &&
    decide (field f.header 18 6 = t.req.addr.toNat) &&
    (decide (field f.header 12 6 = t.req.cmd.toNat + 0x20) || decide (field f.header 12 6 = 0x3F))

/-- A response accepted from a stage closes its episode, and fault 13 ends (R196). The stage has heard its request; where it
had heard nothing for 2 s, balancing is off until the next BALANCE (R187). -/
def Dev.closeStageEpisode (d : Dev) (a : Fin 32) : Dev :=
  let off := d.silent a
  let d := d.setStage a fun st => { st with episode := none, heard := d.sup.rtc, mask := if off then 0 else st.mask }
  if d.chn.stages.toList.all fun (st : Stage) => st.episode.isNone then d.faultGone 13 else d

/-- A frame arrives at a port (R175, R191): accepted, or discarded and counted for the port. One with a wrong CRC whose
header shows the request that it answers is a failed attempt.
DEDUCED: notes/assumptions/48.md. -/
def Dev.chainResponse (d : Dev) (p : Port) (f : ChainFrame) : Dev :=
  match d.chn.answered f with
  | none => d.countChain (match p with | .eva => 0 | .evb => 1) none
  | some t =>
    let a := stageAt t.req.addr.toNat
    if frameOk f then
      let d := d.closeStageEpisode a
      if field f.header 12 6 = 0x3F then d.refusal t ((f.words.headD 0).toNat % 256) else d.answer t f.words
    else (d.countChain (match p with | .eva => 0 | .evb => 1) (some a)).attemptFails t

/-- CHAIN_RESPONSE: the completion crosses into PER as a carried count (R80), and waits with its words while PER is
stopped (R82). No frame is taken while chain traffic is stopped (R48, R53, R120). -/
def execChainResponse (port : Port) (f : ChainFrame) (s : State) : Host.Outcome State Fault Refusal :=
  s.effect fun d =>
    let held := if d.chn.doneCount.fits then d.chn.heldFrames ++ [(port, f)] else d.chn.heldFrames
    if !d.chainLive then d
    else if d.sup.doms.per then
      ({ d with chn := { d.chn with doneCount := d.chn.doneCount.send.consumed } } : Dev).chainResponse port f
    else { d with chn := { d.chn with doneCount := d.chn.doneCount.send, heldFrames := held } }

/-! ### Authentication (R247 to R258) -/

/-- EST_AUTHSTAT.REASON. -/
def authCode : AuthFail → Nat
  | .timeout => 1 | .certificate => 2 | .signature => 3 | .cellCount => 4 | .duplicate => 5

/-- The other addresses that show the identity of a stage (R258). -/
def Dev.duplicates (d : Dev) (a : Fin 32) : List (Fin 32) :=
  match (d.chn.stages.get a).id with
  | none => []
  | some x => (List.finRange 32).filter fun b =>
      decide (b ≠ a) && (d.chn.stages.get b).present && decide ((d.chn.stages.get b).id.map (·.id) = some x.id)

/-- The checks of R247, steps 4 and 5, with a certificate: what fails, `none` where every check passes. -/
def Dev.certFinding (d : Dev) (a : Fin 32) (nonce : Nat) (sig cert : List Byte) : Option AuthFail :=
  match (d.chn.stages.get a).id, d.man with
  | some x, some m =>
    let maker := (m.makerKeys.find? fun k => k.1.toNat = ofBe (slice 9 3 cert)).map (·.2)
    if ofBe (slice 0 8 cert) ≠ x.id.toNat then some .certificate
    else if cert.getD 8 0 ≠ x.cells ∨ x.cells.toNat ≠ m.cellCounts.getD a.val 0 then some .cellCount
    else match maker with
      | none => some .certificate
      | some key =>
        if !ecdsaVerify key (sha256 (cert.take 76)) (slice 76 64 cert) then some .certificate
        else if ecdsaVerify (slice 12 64 cert) (sha256 (nonceBytes nonce ++ be 8 x.id.toNat ++ [x.cells])) sig then
          none
        else some .signature
  | _, _ => some .timeout

/-- What the checks of R247 find of a stage's reply: the cached key serves first, and where the signature does not hold
with it the certificate that is read. -/
def Dev.authFinding (d : Dev) (a : Fin 32) (nonce : Nat) (r : AuthReply) : Option AuthFail × List Byte :=
  match r.sig with
  | none => (some .timeout, [])
  | some sig =>
    let cached := (d.chn.stages.get a).cert
    let first := d.certFinding a nonce sig cached
    if d.keyCached a && decide (first ≠ some AuthFail.signature) then (first, cached)
    else (d.certFinding a nonce sig r.cert, r.cert)

/-- The reads of an authentication end with it. -/
def Dev.endAuth (d : Dev) (a : Fin 32) : Dev :=
  let own (r : ChainRequest) : Bool :=
    decide (stageAt r.addr.toNat = a) && decide (0x0A ≤ r.cmd.toNat ∧ r.cmd.toNat ≤ 0x0C)
  let d := { d with chn := { d.chn with waiting := d.chn.waiting.filter fun r => !own r } }
  let d := (d.chn.tags.filter fun t => own t.req).foldl (fun d t => d.freeTag t.tag) d
  d.setStage a fun st => { st with challenge := none, sigRead := none, certRead := [] }

/-- A stage has failed authentication (R247, R249). -/
def Dev.authFails (d : Dev) (a : Fin 32) (why : AuthFail) : Dev :=
  let e := d.est
  let d := { d with est := { e with
    authStage := stageNo a, authReason := authCode why, authFails := satInc 255 e.authFails
    ovf := setFlag e.ovf 4 (decide (255 ≤ e.authFails + 1)) } }
  let d := ((d.endAuth a).setStage a fun st => { st with auth := false }).countDevice 19
  d.stageFinding 16 29 a

/-- A stage is authenticated; the faults of identity and authentication end where no stage is left unproven. -/
def Dev.authPasses (d : Dev) (a : Fin 32) (cert : List Byte) : Dev :=
  let d := (d.endAuth a).setStage a fun st => { st with auth := true, lastAuth := d.sup.rtc, cert := cert }
  if d.chn.stages.toList.all fun (st : Stage) => !st.present || st.auth then (d.faultGone 15).faultGone 16 else d

/-- What a stage has returned: the words read over the chain where they were, else the reply given. -/
def Stage.reply (st : Stage) (r : AuthReply) : AuthReply :=
  { sig := if st.sigRead.isSome then st.sigRead else r.sig, cert := if st.certRead = [] then r.cert else st.certRead }

/-- The reads of a whole authentication in one command: how many frames they take is open, and so is the SEQ after them.
DEDUCED: notes/assumptions/33.md. -/
def Dev.freeSeq (d : Dev) : Dev := { d.tick with chn := { d.chn with seq := (Config.freeWord d.free).setWidth 8 } }

/-- An authentication ends (R247, R258). A stage that is not challenged yet is challenged first. -/
def Dev.authenticate (d : Dev) (a : Fin 32) (r : AuthReply) : Dev :=
  match d.duplicates a with
  | [] =>
    let d := if (d.chn.stages.get a).challenge.isSome then d else d.challenge a
    let st := d.chn.stages.get a
    let d := if st.sigRead.isSome then d else d.freeSeq
    match d.authFinding a (st.challenge.getD 0) (st.reply r) with
    | (none, cert) => d.authPasses a cert
    | (some why, _) => d.authFails a why
  | others => (a :: others).foldl (fun d b => d.authFails b .duplicate) d

/-- AUTHENTICATION. -/
def execAuthentication (stage : Fin 32) (r : AuthReply) (s : State) : Host.Outcome State Fault Refusal :=
  s.effect fun d => if d.chainLive && (d.chn.stages.get stage).present then d.authenticate stage r else d

/-- AUTH_TIMEOUT: no result 600 ms after the challenge (R186). -/
def execAuthTimeout (stage : Fin 32) (s : State) : Host.Outcome State Fault Refusal :=
  s.effect fun d =>
    let st := d.chn.stages.get stage
    if st.challenge.isSome && st.sigRead.isNone then d.authFails stage .timeout else d

/-- AUTH_PERIODIC: 24 h after the last success (R248). -/
def execAuthPeriodic (stage : Fin 32) (s : State) : Host.Outcome State Fault Refusal :=
  s.effect fun d =>
    let st := d.chn.stages.get stage
    if d.chainWork && st.present then d.callChain.challenge stage else d

/-- AUTH_NOW: every stage present is challenged at once (R248). -/
def bodyAuthNow (d : Dev) : Executed :=
  ((List.finRange 32).foldl (fun d a => if (d.chn.stages.get a).present then d.challenge a else d) d, some rStarted)

/-- EST_CMD AUTH_NOW. -/
def execAuthNow (tok : Byte) (s : State) : Host.Outcome State Fault Refusal :=
  s.effect fun d => d.hostCommand .est tok 0x01 bodyAuthNow

/-! ### Staleness (R195) -/

/-- STAGE_STALE: retries towards the stage are cancelled, its bit is set, and fault 12 is raised. A snap fully read in the
same frame has come first (R527). -/
def execStageStale (stage : Fin 32) (s : State) : Host.Outcome State Fault Refusal :=
  s.effect fun d =>
    let st := d.chn.stages.get stage
    if d.inRun && d.listedStages.contains stage && !st.stale && decide (st.readFrame ≠ some d.eng.frame) &&
        !(d.chn.heldSnaps.any fun x => x.stage = stage) then
      let cancel := d.chn.tags.filter fun t => decide (stageAt t.req.addr.toNat = stage) && decide (0 < t.fails)
      let d := cancel.foldl (fun d t => d.freeTag t.tag) d
      let d := (d.setStage stage fun st => { st with stale := true }).openStageEpisode stage
      (d.countChain 4 (some stage)).stageFault 12 16 stage
    else d

/-! ### Delays (R177) -/

/-- DLY_x of a measured t_m in µs, to the nearest integer.
DEDUCED: notes/assumptions/48.md. -/
def delayCode (tm : Rat) : BitVec 12 :=
  let delay := (tm - 2 - 125 / 100) / 2
  BitVec.ofNat 12 (clampNat 4095 (natOf (roundNearest ((20 - delay) * 64))))

/-- The delays of one stage are measured with ECHO from each port that reaches it, and written with DELAY_SET. A port
that gave no measurement leaves its delay.
DEDUCED: notes/assumptions/48.md. -/
def Dev.measureStage (echoes : List (Fin 32 × Rat × Rat)) (d : Dev) (a : Fin 32) : Dev :=
  let c := d.chn
  let st := c.stages.get a
  let n := stageNo a
  match c.portFor n with
  | none => d
  | some p =>
    let fromA := c.intact || decide (c.sideOf n = some Port.eva)
    let fromB := c.intact || decide (c.sideOf n = some Port.evb)
    let d := if fromA then d.transact .eva n 0x01 [] [] else d
    let d := if fromB then d.transact .evb n 0x01 [] [] else d
    let m := (echoes.find? fun x => x.1 = a).map (·.2)
    let take (b : Bool) (tm : Option Rat) (old : BitVec 12) : BitVec 12 :=
      if b then (tm.map delayCode).getD old else old
    let pq := if st.viaB then (take fromB (m.map (·.2)) st.dlyP, take fromA (m.map (·.1)) st.dlyQ)
      else (take fromA (m.map (·.1)) st.dlyP, take fromB (m.map (·.2)) st.dlyQ)
    (d.transact p n 0x05 [word (place pq.1.toNat 12 + pq.2.toNat)] []).setStage a fun st =>
      { st with dlyP := pq.1, dlyQ := pq.2 }

/-- The delays of every stage present. -/
def Dev.measureDelays (d : Dev) (echoes : List (Fin 32 × Rat × Rat)) : Dev :=
  ((List.finRange 32).filter fun a => (d.chn.stages.get a).present).foldl (Dev.measureStage echoes) d

/-! ### Ring breaks (R178, R179, R199) -/

/-- The manifest's stage count, at most 32. -/
def Dev.stageCount (d : Dev) : Nat := match d.man with | some m => min 32 m.stageCount | none => 0

/-- Stages that a broken ring reaches. -/
def Dev.reach (d : Dev) : Dev :=
  let c := d.chn
  { d with chn := { c with
      stages := Vector.ofFn fun a =>
        let st := c.stages.get a
        { st with present := st.id.isSome && (c.sideOf (stageNo a)).isSome } } }

/-- CHN_RING.GAP: stages between the two sides reach neither port (R199). -/
def Dev.ringGap (d : Dev) : Bool :=
  !d.chn.intact && (List.range d.stageCount).any fun i => (d.chn.sideOf (i + 1)).isNone

/-- Fault 14: the ring is broken and every stage is reachable. -/
def Dev.ringFault (d : Dev) : Dev :=
  let all := d.listedStages.all fun a => (d.chn.stages.get a).present
  if !d.chn.intact && all then (if d.lim.active.getLsbD 14 then d else d.fault 14 14 0 0)
  else if d.chn.intact then d.faultGone 14 else d

/-- A transaction with each of several addresses. -/
def Dev.transactEach (d : Dev) (p : Port) (cmd : Nat) (addrs : List Nat) : Dev :=
  addrs.foldl (fun d a => d.transact p a cmd [] []) d

/-- The ECHOs of R178, step 3: ascending from EVA and descending from EVB, until each side fails to answer. -/
def Dev.echoSides (d : Dev) : Dev :=
  let n := d.stageCount
  let c := d.chn
  let up := ((List.range n).map (· + 1)).filter fun a => decide (a ≤ c.lastA + 1)
  let down := ((List.range n).map fun i => n - i).filter fun a =>
    if c.firstB = 0 then decide (a = n) else decide (c.firstB ≤ a + 1)
  (d.transactEach .eva 0x01 up).transactEach .evb 0x01 down

/-- The pending transactions go on from the side that reaches their stage (R178); one that neither reaches waits. -/
def Dev.resumeTags (d : Dev) : Dev :=
  ({ d with chn := { d.chn with
      tags := d.chn.tags.map fun (t : Tag) => { t with unsent := true, notReady := false } } } : Dev).serveSides

/-- The ring is found broken (R178): LINK back from both ports, the sides found with ECHO and recorded, and each pending
transaction goes on from the side that reaches its stage. -/
def Dev.ringBreaks (d : Dev) (lastA firstB : BitVec 6) : Dev :=
  let d := { d with chn := { d.chn with
    intact := false, lastA := min lastA.toNat 32, firstB := min firstB.toNat 32 } }
  let d := ((d.broadcast 0x04 [1]).echoSides.countDevice 18).reach
  let d := if d.listedStages.all fun a => (d.chn.stages.get a).present then d.fault 14 14 0 0 else d.notice 14 0 0
  d.resumeTags

/-- RING_BREAK: the ring event crosses into PER as a carried count (R72, R80), and waits while PER is stopped (R82). -/
def execRingBreak (lastA firstB : BitVec 6) (s : State) : Host.Outcome State Fault Refusal :=
  s.effect fun d =>
    let held := if d.chn.ringCount.fits then d.chn.heldBreaks ++ [(lastA, firstB)] else d.chn.heldBreaks
    if !(d.chainLive && d.chn.intact) then d
    else if d.sup.doms.per then
      ({ d with chn := { d.chn with ringCount := d.chn.ringCount.send.consumed } } : Dev).ringBreaks lastA firstB
    else { d with chn := { d.chn with ringCount := d.chn.ringCount.send, heldBreaks := held } }

/-- The stages that a probe has newly reached. -/
def Dev.rejoined (d : Dev) (before : Vector Stage 32) : List (Fin 32) :=
  (List.finRange 32).filter fun a => (d.chn.stages.get a).present && !(before.get a).present

/-- The stage beyond an end of the broken ring is sent ASSIGN, and where it answers its identity is compared (R179,
R180); it has come back without an address, so with balancing off (R200). A side that awaits a response, or has no tag free,
is left to the next probe (R172, R174).
DEDUCED: notes/assumptions/48.md. -/
def Dev.assignNext (d : Dev) (p : Port) (addr : Nat) (x : Option StageId) : Dev :=
  if 1 ≤ addr ∧ addr ≤ 32 ∧ d.chn.unicastFree p then
    let d := d.transact p 63 0x02 [word addr] ((x.map identityWords).getD [])
    match x with
    | some x =>
      let d := { d with chn := match p with
        | .eva => { d.chn with lastA := addr }
        | .evb => { d.chn with firstB := addr } }
      let a := stageAt addr
      (d.setStage a fun st => { st with viaB := decide (p = Port.evb), mask := 0 }).readIdentity true a x
    | none => d
  else d

/-- RING_PROBE (R179): the ring has rejoined, or the next stage on a side has answered ASSIGN. Rejoined stages have their
delays measured and are challenged again, and identities are compared (R177, R180, R248); on a rejoin LINK onward is
broadcast. A rejoin found while a side awaits a response is left to the next probe.
DEDUCED: notes/assumptions/48.md. -/
def Dev.ringProbe (d : Dev) (r : ProbeResult) : Dev :=
  let before := d.chn.stages
  let d := d.sendChain .eva 0 0x04 [1]
  let free := d.chn.unicastFree .eva && d.chn.unicastFree .evb
  let d :=
    if r.rejoined && !free then d
    else if r.rejoined then
      let d := { d with chn := { d.chn with intact := true, lastA := 0, firstB := 0 } }
      let d := r.identities.foldl (fun d x => d.readIdentity true x.1 x.2) d
      let d := ((d.measureDelays r.echoes).sendChain .eva 0 0x04 [0]).notice 15 0 0
      (List.range 32).foldl (fun d _ => d.serveSide .eva) d.ringFault
    else
      let b := d.chn.firstB - 1
      let d := (d.assignNext .eva (d.chn.lastA + 1) r.nextA).assignNext .evb b r.nextB
      let d := r.identities.foldl (fun d x => d.readIdentity true x.1 x.2) d
      let d := d.reach
      (((d.rejoined before).foldl (Dev.measureStage r.echoes) d).ringFault).serveSides
  (d.rejoined before).foldl Dev.challenge d

/-- RING_PROBE. -/
def execRingProbe (r : ProbeResult) (s : State) : Host.Outcome State Fault Refusal :=
  s.effect fun d =>
    let d := d.callChain
    if d.chainLive && !d.chn.intact then d.ringProbe r else d

/-! ### Balancing (R187, R232) -/

/-- BALANCE_REFRESH: each stage present gets its mask.
DESIGN CHOICE: notes/assumptions/69.md. -/
def execBalanceRefresh (masks : Vector (BitVec 18) 32) (s : State) : Host.Outcome State Fault Refusal :=
  s.effect fun d =>
    if d.inRun && d.chainWork then
      (List.finRange 32).foldl (fun d a =>
        if (d.chn.stages.get a).present then
          d.startRequest { addr := BitVec.ofNat 6 (stageNo a), cmd := 0x09, words := [word (masks.get a).toNat] }
        else d) d.callChain
    else d

/-! ### The relation of R189 -/

/-- RETRY × (0.15 ms + GAP × 0.1 ms) stays within T_STALE / 2, in 0.05 ms. -/
def Chn.retryOk (c : Chn) : Bool :=
  decide (field c.retrycfg 0 3 * (3 + 2 * field c.retrycfg 8 8) ≤ 10 * field c.stalecfg 0 12)

end Sys2Proof.Machine
end

