-- ==== Sys2Proof/Machine/Depot.lean ====
section
/-! DEFINITION. The depot (R504 to R536): images and their checks, the event log, the lifetime record and its flush,
transactions, DEP_CMD and LIF_CMD. -/
namespace Sys2Proof.Machine

/-! ### Patch and manifest images (R141 to R143, R512 to R514) -/

/-- The version of the patch in a slot and whether it is valid; `none` where the slot holds no image. -/
def Dev.patchImage (d : Dev) (slot : Nat) : Option (Nat × Bool) :=
  let base := 0x20000 + slot * 0x20000
  let h := d.cs1 base 16
  if h.all (· == 0xFF) then none
  else
    let p := ofBe (slice 8 4 h)
    let shape := decide (ofBe (slice 0 4 h) = 0x46565046) && decide (ofBe (slice 4 2 h) = 0) &&
      decide (p ≤ 65536) && decide (ofBe (slice 12 4 h) = 0)
    let body := d.cs1 base (16 + p)
    some (ofBe (slice 6 2 h), shape && ecdsaVerify Config.patchKey (sha256 body) (d.cs1 (base + 16 + p) 64))

/-- The patch slot used with its version, and whether a slot was found bad (R141): the higher version first.
DEDUCED: notes/assumptions/50.md. -/
def Dev.choosePatch (d : Dev) : Option (Nat × Nat) × Bool :=
  let try' (first second : Nat) : Option (Nat × Nat) × Bool :=
    match d.patchImage first with
    | some (v, true) => (some (first, v), false)
    | r =>
      match d.patchImage second with
      | some (v, true) => (some (second, v), r.isSome)
      | q => (none, r.isSome || q.isSome)
  match d.patchImage 0, d.patchImage 1 with
  | some a, some b => if a.1 < b.1 then try' 1 0 else try' 0 1
  | none, some _ => try' 1 0
  | _, _ => try' 0 1

/-- The parameter sections of a manifest: tags with their values; `n` bounds their number. -/
def sections : Nat → List Byte → Option (List (BitVec 16 × List Byte))
  | _, [] => some []
  | 0, _ => none
  | n + 1, bs =>
    let len := ofBe (slice 2 2 bs)
    if bs.length < 4 + len then none
    else (sections n (bs.drop (4 + len))).map ((BitVec.ofNat 16 (ofBe (slice 0 2 bs)), slice 4 len bs) :: ·)

/-- The tags of R513, all required; no tag may stand twice (R512). -/
def requiredTags : List (BitVec 16) :=
  [0x0001, 0x0002, 0x0003, 0x0004, 0x0010, 0x0011, 0x0012, 0x0020, 0x0021, 0x0022, 0x0030, 0x0031, 0x0032, 0x0040,
   0x0041, 0x0050]

/-- The value of the section with a tag. -/
def sectionOf (ss : List (BitVec 16 × List Byte)) (tag : BitVec 16) : List Byte :=
  match ss.find? fun x => x.1 = tag with
  | some x => x.2
  | none => []

/-- The module-maker root keys: up to 8 times a maker ID of 3 bytes and a public key of 64 (R513). -/
def makerKeysOf (bs : List Byte) : List (Word × List Byte) :=
  (List.range (min 8 (bs.length / 67))).map fun i => (word (ofBe (slice (67 * i) 3 bs)), slice (67 * i + 3) 64 bs)

/-- The parameters of a manifest's sections: those whose coding R513 gives are read so, the rest as the part reads them.
DESIGN CHOICE: notes/assumptions/67.md. -/
def parametersOf (ss : List (BitVec 16 × List Byte)) : Manifest :=
  let permit := ofBe (sectionOf ss 0x0004)
  { Config.manifestParams ss with
    makerKeys := makerKeysOf (sectionOf ss 0x0002)
    guardKind := BitVec.ofNat 12 (ofBe (sectionOf ss 0x0003))
    benchTest := permit.testBit 0
    splitC := permit.testBit 1
    hallFitted := permit.testBit 2 }

/-- The bytes of a manifest that R512 gives as zero are: 18 to 31, and those of the certificate. -/
def zerosHold (img : List Byte) : Bool :=
  (slice 18 14 img ++ slice 40 4 img ++ slice 172 4 img).all (· == 0)

/-- The manifest in a slot where it verifies under R142: its minimum firmware version field and its parameters. -/
def Dev.manifestImage (d : Dev) (slot : Nat) : Option (Nat × Manifest) :=
  let base := slot * 0x10000
  let h := d.cs1 base 176
  let len := ofBe (slice 6 4 h)
  if ofBe (slice 0 4 h) ≠ 0x46564D46 ∨ ofBe (slice 4 2 h) ≠ 1 ∨ 65536 < len ∨ len < 240 then none
  else
    let img := d.cs1 base len
    let cert := slice 32 144 img
    let ok := ecdsaVerify Config.manifestRootKey (sha256 (cert.take 76)) (slice 76 64 cert) &&
      ecdsaVerify (slice 12 64 cert) (sha256 (img.take (len - 64))) (slice (len - 64) 64 img)
    match sections len (slice 176 (len - 240) img) with
    | none => none
    | some ss =>
      let tags := ss.map (·.1)
      if ok && zerosHold img && decide tags.Nodup && requiredTags.all tags.contains then
        some (ofBe (slice 14 4 h), parametersOf ss)
      else none

/-- The running firmware is new enough for a manifest (R143): byte 0 of the minimum is 0 and the rest is not above it. -/
def Dev.firmwareOk (d : Dev) (minimum : Nat) : Bool := decide (minimum ≤ d.sys.fwver.toNat)

/-- A copy of the manifest pointer: generation and slot (R510). -/
def Dev.pointerCopy (d : Dev) (i : Nat) : Option (Nat × Nat) :=
  let b := d.cs0 (0x40 + 8 * i) 8
  let slot := ofBe (slice 0 1 b)
  if slot ≤ 1 ∧ ofBe (slice 4 4 b) = (crc32 (b.take 4)).toNat then some (ofBe (slice 1 3 b), slot) else none

/-- The valid pointer copy with the higher generation: generation, slot, and which copy.
DEDUCED: notes/assumptions/50.md. -/
def Dev.pointer (d : Dev) : Option (Nat × Nat × Nat) :=
  match d.pointerCopy 0, d.pointerCopy 1 with
  | none, none => none
  | some a, none => some (a.1, a.2, 0)
  | none, some b => some (b.1, b.2, 1)
  | some a, some b => if b.1 ≤ a.1 then some (a.1, a.2, 0) else some (b.1, b.2, 1)

/-- The slot that is tried first: the pointer's, or 0 where no copy is valid. -/
def Dev.pointedSlot (d : Dev) : Nat := match d.pointer with | some p => p.2.1 | none => 0

/-- The manifest pointer written to a slot: generation one higher, in the copy with the older one (R507, R510). -/
def Dev.writePointer (d : Dev) (slot : Nat) : Dev :=
  let r := match d.pointer with | some p => (p.1 + 1, 1 - p.2.2) | none => (1, 0)
  let b := be 1 slot ++ be 3 r.1
  d.depotWrite (.bytes false (0x40 + 8 * r.2) (b ++ be 4 (crc32 b).toNat))

/-! ### DEP_CMD on the manifest (R530, R531) -/

/-- DEP_CFG.MSLOT. -/
def Dev.mslot (d : Dev) : Nat := field d.dep.cfg 8 1

/-- The manifest slot in use; none before one has been loaded (R530). -/
def Dev.slotInUse (d : Dev) : Option Nat := if d.man.isSome then some (if d.sys.manSlot then 1 else 0) else none

/-- In Bench with the drover OPEN. -/
def Dev.benchOpen (d : Dev) : Bool :=
  d.inRun && decide (d.runState = RunState.bench) && decide (d.seq.drover = Drover.openS)

/-- Muster is stopped, or the run state is Bench with the drover OPEN (R530, R531). -/
def Dev.manifestWritable (d : Dev) : Bool := d.stopped || d.benchOpen

/-- A write through window 0 is accepted (R530). -/
def Dev.slotWritable (d : Dev) : Bool := d.manifestWritable && decide (d.slotInUse ≠ some d.mslot)

/-- MAN_ERASE. -/
def bodyManErase (d : Dev) : Executed :=
  if !d.manifestWritable then (d, some rState)
  else if d.slotInUse = some d.mslot then (d, some rCondition)
  else (d.depotWrite (.erase d.mslot), some rDone)

/-- MAN_SWITCH. -/
def bodyManSwitch (d : Dev) : Executed :=
  if !d.manifestWritable then (d, some rState)
  else if (d.pointer.map fun p => p.2.1) = some d.mslot then (d, some rDone)
  else
    let d := d.needDepot
    match d.manifestImage d.mslot with
    | some (minimum, _) => if d.firmwareOk minimum then (d.writePointer d.mslot, some rDone) else (d, some rCondition)
    | none => (d, some rCondition)

/-- DEP_CMD MAN_ERASE. -/
def execManErase (tok : Byte) (s : State) : Host.Outcome State Fault Refusal :=
  s.effect fun d => d.hostCommand .dep tok 0x01 bodyManErase

/-- DEP_CMD MAN_SWITCH. -/
def execManSwitch (tok : Byte) (s : State) : Host.Outcome State Fault Refusal :=
  s.effect fun d => d.hostCommand .dep tok 0x02 bodyManSwitch

/-! ### The event log (R515 to R518, R534) -/

/-- The four words of a dispatch queue entry (R494). -/
def Entry.words (e : Entry) : List Word :=
  [word (place (e.src % 64) 18 + place (e.sub % 64) 12 + place (e.cls % 8) 9 + e.inst % 512),
   BitVec.ofNat 24 e.time.toNat, word (place (e.episode % 4096) 12 + e.rep % 4096), e.data]

/-- The 32 bytes of a log entry (R515); `orig` is the number of the entry that a copy was made of. -/
def logBytes (n : Nat) (e : Entry) (logOnly : Bool) (orig : Nat) : List Byte :=
  let b := be 4 n ++ (e.words.flatMap fun w => be 3 w.toNat) ++ be 6 e.time.toNat ++
    be 1 (flag e.pinEligible 0 + flag (decide (orig ≠ 0)) 1 + flag logOnly 2) ++ zeros 1 ++ be 4 orig ++ zeros 2
  b ++ be 2 (crc16 b).toNat

/-- The address of the slot of log entry `n`, and its sector (128 entries). -/
def logAddr (n : Nat) : Nat := 0x400000 + 32 * (n % 131072)
def logSector (n : Nat) : Nat := n % 131072 / 128

/-- The bytes of a stored entry copied forward under number `n` (R516): the original's number stays the first one. -/
def copiedBytes (n : Nat) (old : List Byte) : List Byte :=
  let orig := if (old.getD 22 0).getLsbD 1 then slice 24 4 old else slice 0 4 old
  let b := be 4 n ++ slice 4 18 old ++ [(old.getD 22 0) ||| 2] ++ zeros 1 ++ orig ++ zeros 2
  b ++ be 2 (crc16 b).toNat

/-- A pin-eligible entry is pinned; at 16 384 it unpins the oldest, with PIN_OVF and the event of source 63 (R517).
DESIGN CHOICE: notes/assumptions/49.md. -/
def Dev.pin (d : Dev) (n : Nat) : Dev :=
  if d.dep.pinned.length < 16384 then { d with dep := { d.dep with pinned := d.dep.pinned ++ [n] } }
  else
    let d := { d with dep := { d.dep with pinned := d.dep.pinned.drop 1 ++ [n], pinOvf := true } }
    d.notice 63 0 0

/-- The first number above `n` whose sector is in use; `k` bounds the sectors skipped (R534).
DESIGN CHOICE: notes/assumptions/49.md. -/
def skipBad (bad : List Nat) : Nat → Nat → Nat
  | 0, n => n
  | k + 1, n => if bad.contains (logSector n) then skipBad bad k (n - n % 128 + 128) else n

/-- One pinned entry copied to the head before its sector is erased.
DESIGN CHOICE: notes/assumptions/49.md. -/
def Dev.copyForward (d : Dev) (old : Nat × List Byte) : Dev :=
  let n := d.dep.logSeq + 1
  let d := d.setCs1 (logAddr n) (copiedBytes n old.2)
  { d with dep := { d.dep with
      logSeq := n, pinned := (d.dep.pinned.filter fun x => x ≠ old.1) ++ [n] } }

/-- The head goes to entry `n`'s slot: where that begins a sector, its pinned entries are taken, the sector erased, and
they are copied to the head (R516).
DESIGN CHOICE: notes/assumptions/49.md. -/
def Dev.enterSector (d : Dev) (n : Nat) : Dev :=
  if n % 128 = 0 then
    let olds := (d.dep.pinned.filter fun x => logSector x = logSector n).map fun x => (x, d.cs1 (logAddr x) 32)
    let d := d.eraseCs1 (logAddr n) 4096
    let d := { d with dep := { d.dep with logSeq := n - 1 } }
    olds.foldl Dev.copyForward d
  else { d with dep := { d.dep with logSeq := n - 1 } }

/-- The head goes to the slot of the next entry: where copies have filled the sector, to the next sector (R516); `k` bounds
the sectors entered.
DESIGN CHOICE: notes/assumptions/49.md. -/
def Dev.nextSlot : Nat → Dev → Dev
  | 0, d => d
  | k + 1, d =>
    let n := skipBad d.dep.badSectors 1024 (d.dep.logSeq + 1)
    let d := d.enterSector n
    if d.dep.logSeq ≠ n - 1 ∧ (d.dep.logSeq + 1) % 128 = 0 then Dev.nextSlot k d else d

/-- One entry of the log buffer written under the next number (R515).
DESIGN CHOICE: notes/assumptions/49.md. -/
def Dev.writeLog (d : Dev) (x : LogEntry) : Dev :=
  let d := Dev.nextSlot 1024 d
  let n := d.dep.logSeq + 1
  let d := d.setCs1 (logAddr n) (logBytes n x.entry x.logOnly 0)
  let d := { d with dep := { d.dep with logSeq := n } }
  if x.entry.pinEligible && decide (d.dep.unpin < n) then d.pin n else d

/-- The event log state renewed: head sequence number and unpin mark (R508).
DESIGN CHOICE: notes/assumptions/49.md. -/
def Dev.saveLogState (d : Dev) : Dev := d.depotWrite (.logState d.dep.logSeq d.dep.unpin)

/-- The entries of the log buffer written in their order, at most 64 in a second of the RTC (R515, R518).
DESIGN CHOICE: notes/assumptions/49.md. -/
def Dev.writeBuffer (d : Dev) : Dev :=
  let sec := d.sup.rtc.toNat / 32768
  let done := if d.evt.logSec = sec then d.evt.logDone else 0
  let n := min (64 - done) d.evt.logBuf.length
  let now := d.evt.logBuf.take n
  let d := { d with evt := { d.evt with logBuf := d.evt.logBuf.drop n, logSec := sec, logDone := done + n } }
  (now.foldl Dev.writeLog d).saveLogState

/-- EVENT_LOG_WRITE: at once where the depot is free and no write waits, else when its transaction starts (R507). -/
def execEventLogWrite (s : State) : Host.Outcome State Fault Refusal :=
  s.effect fun d =>
    let d := if d.evt.logBuf.isEmpty then d else d.needDepot
    if d.sup.doms.dep && !d.evt.logBuf.isEmpty then
      let d := d.queueTx .log
      if d.depotFree && d.dep.jobs.isEmpty then d.writeBuffer else d
    else d

/-- The pins up to a sequence number end, where it is above those ended before (R517).
DESIGN CHOICE: notes/assumptions/49.md. -/
def Dev.unpinTo (d : Dev) (v : Nat) : Dev :=
  if v ≤ d.dep.unpin then d
  else ({ d with dep := { d.dep with unpin := v, pinned := d.dep.pinned.filter fun n => v < n } } : Dev).saveLogState

/-- LOG_UNPIN (R516, R536). -/
def bodyLogUnpin (d : Dev) : Executed :=
  (d.unpinTo (min (place (field d.dep.argHi 0 8) 24 + d.dep.argLo.toNat) d.dep.logSeq), some rDone)

/-- DEP_CMD LOG_UNPIN. -/
def execLogUnpin (tok : Byte) (s : State) : Host.Outcome State Fault Refusal :=
  s.effect fun d => d.hostCommand .dep tok 0x03 bodyLogUnpin

/-! ### The lifetime record (R519 to R521) -/

/-- A value in units of `1 / scale` as `k` bytes. -/
def beScaled (k : Nat) (scale x : Rat) : List Byte := be k (natOf (quantise (x * scale)))

/-- The 96 bytes of a contactor block (R520). -/
def contactorBytes (b : KBlock) (c : Coil) : List Byte :=
  fit 96 (be 3 b.closings ++ be 3 b.openings ++ be 3 b.underLoad ++ (b.brk.toList.flatMap (be 3)) ++
    (b.i2t.toList.flatMap (be 3)) ++ beScaled 2 1 c.tL ++ beScaled 2 1 c.bL ++ beScaled 2 1 c.t0 ++ beScaled 2 1 c.b0 ++
    beScaled 2 1000 c.sPrev ++ beScaled 2 1 c.rApp ++ be 3 c.learned)

/-- The 1024 bytes of the lifetime record (R520). -/
def Dev.lifetimeBytes (d : Dev) (gen : Nat) (total : LifeBlocks) : List Byte :=
  let device := fit 96 ((d.lif.device.toList.flatMap (be 3)) ++ be 4 d.lgr.next ++ be 3 d.tol.nextId)
  let b := be 4 0x46564C46 ++ be 4 gen ++ be 6 d.sup.rtc.toNat ++ zeros 2 ++ device ++
    ((List.finRange 4).flatMap fun k => contactorBytes (total.k.get k) (d.coil.get k)) ++
    fit 32 (total.pump.toList.flatMap (be 3)) ++ (total.pack.toList.flatMap (be 3)) ++ (total.temp.toList.flatMap (be 3))
  let b := fit 1020 b
  b ++ be 4 (crc32 b).toNat

/-- Bin-wise addition, saturating (R521). -/
def addBins {n : Nat} (a b : Vector Nat n) : Vector Nat n := Vector.ofFn fun i => satAdd 0xFFFFFF (a.get i) (b.get i)

/-- A bin has saturated. -/
def anyFull {n : Nat} (v : Vector Nat n) : Bool := v.any fun x => decide (0xFFFFFF ≤ x)

/-- Increments folded into a contactor block. -/
def KBlock.add (a b : KBlock) : KBlock :=
  { closings := satAdd 0xFFFFFF a.closings b.closings, openings := satAdd 0xFFFFFF a.openings b.openings
    underLoad := satAdd 0xFFFFFF a.underLoad b.underLoad, brk := addBins a.brk b.brk, i2t := addBins a.i2t b.i2t }

/-- A field of a contactor block has saturated. -/
def KBlock.full (a : KBlock) : Bool :=
  decide (0xFFFFFF ≤ a.closings) || decide (0xFFFFFF ≤ a.openings) || decide (0xFFFFFF ≤ a.underLoad) ||
  anyFull a.brk || anyFull a.i2t

/-- Increments folded into the blocks of the record. -/
def LifeBlocks.add (a b : LifeBlocks) : LifeBlocks :=
  { k := Vector.ofFn fun i => (a.k.get i).add (b.k.get i), pump := addBins a.pump b.pump
    pack := addBins a.pack b.pack, temp := addBins a.temp b.temp }

/-- LIF_SAT bits 1 to 7 of the blocks. -/
def LifeBlocks.sat (a : LifeBlocks) : Nat :=
  flag (a.k.get 0).full 1 + flag (a.k.get 1).full 2 + flag (a.k.get 2).full 3 + flag (a.k.get 3).full 4 +
  flag (anyFull a.pump) 5 + flag (anyFull a.pack) 6 + flag (anyFull a.temp) 7

/-- The address of a copy of the lifetime record. -/
def lifeAddr (copy1 : Bool) : Nat := if copy1 then 0x070000 else 0x060000

/-! ### The impedance history (R251) -/

/-- A value as a field of `k` bytes in units of `1 / scale` keeps it. -/
def stored (k : Nat) (scale x : Rat) : Rat := (clampNat (256 ^ k - 1) (natOf (quantise (x * scale))) : Rat) / scale

/-- The record of a stage as it stands, in the units of its fields (R251). -/
def Dev.historyRec (d : Dev) (a : Fin 32) (x : StageId) : HistoryRec :=
  let st := d.chn.stages.get a
  let cs := (stageCells a).map fun p => d.est.cells.get p
  { id := x.id, cells := x.cells, unchecked := cs.any (·.fitUnchecked), authenticated := st.auth, seen := d.sup.rtc
    authTime := st.lastAuth
    certDigest := if st.cert = [] then (match d.historyOf x with | some r => r.certDigest | none => zeros 8)
      else certDigest st.cert
    cell := cs.map fun c =>
      (stored 3 10000000 c.rs, stored 3 10000000 c.rp, stored 2 1000 c.taup, clampNat 255 c.conf, stored 3 100 c.cap,
        c.fits) }

/-- A record entered: in place of the ID's own, or, where 64 are held, of the ID seen longest ago.
DEDUCED: notes/assumptions/50.md. -/
def putHistory (h : List HistoryRec) (r : HistoryRec) : List HistoryRec :=
  if h.any fun x => x.id = r.id then h.map fun x => if x.id = r.id then r else x
  else if h.length < 64 then h ++ [r]
  else
    let oldest := h.foldl (fun m x => min m x.seen.toNat) (2 ^ 48)
    match h.findIdx? fun x => x.seen.toNat = oldest with
    | some i => h.set i r
    | none => h

/-- The 320 bytes of a history record. -/
def historyBytes (r : HistoryRec) : List Byte :=
  let h := be 8 r.id.toNat ++ [r.cells] ++ be 1 (flag r.unchecked 0 + flag r.authenticated 1) ++ be 6 r.seen.toNat ++
    be 6 r.authTime.toNat ++ fit 8 r.certDigest
  let cell (x : Rat × Rat × Rat × Nat × Rat × Nat) : List Byte :=
    beScaled 3 10000000 x.1 ++ beScaled 3 10000000 x.2.1 ++ beScaled 2 1000 x.2.2.1 ++ be 1 x.2.2.2.1 ++
    beScaled 3 100 x.2.2.2.2.1 ++ be 2 x.2.2.2.2.2 ++ zeros 2
  fit 320 (h ++ be 2 (crc16 h).toNat ++ ((r.cell.zipIdx.flatMap fun x => if x.2 < r.cells.toNat then cell x.1 else zeros 16)))

/-- The address of a copy of the impedance history in CS1 (R509). -/
def historyAddr (copy1 : Bool) : Nat := if copy1 then 0x088000 else 0x080000

/-- The impedance history as a copy holds it (R510): generation, the records, erased bytes, and the CRC-32 of all of them.
DEDUCED: notes/assumptions/50.md. -/
def historyArea (gen : Nat) (h : List HistoryRec) : List Byte :=
  let b := be 4 gen ++ h.flatMap historyBytes
  let b := (b ++ List.replicate (0x7FFC - b.length) cs1Default).take 0x7FFC
  b ++ be 4 (crc32 b).toNat

/-- The copies that a flush leaves standing: those of before it began, while it is in progress (R510, R533). -/
def Dev.lifeKept (d : Dev) : Bool := match d.lif.undo with | some u => u.copy | none => d.lif.copy
def Dev.histKept (d : Dev) : Bool := match d.lif.undo with | some u => u.histCopy | none => d.dep.histCopy

/-- A record of the history from its 320 bytes, where its CRC-16 holds (R251). -/
def historyRecord (b : List Byte) : Option HistoryRec :=
  if ofBe (slice 30 2 b) ≠ (crc16 (b.take 30)).toNat then none
  else
    let at' (lo n : Nat) : Nat := ofBe (slice lo n b)
    some {
      id := BitVec.ofNat 64 (at' 0 8), cells := b.getD 8 0, unchecked := (b.getD 9 0).getLsbD 0
      authenticated := (b.getD 9 0).getLsbD 1, seen := BitVec.ofNat 48 (at' 10 6), authTime := BitVec.ofNat 48 (at' 16 6)
      certDigest := slice 22 8 b
      cell := (List.range 18).map fun i =>
        let c := 32 + 16 * i
        ((at' c 3 : Rat) / 10000000, (at' (c + 3) 3 : Rat) / 10000000, (at' (c + 6) 2 : Rat) / 1000, at' (c + 8) 1,
          (at' (c + 9) 3 : Rat) / 100, at' (c + 12) 2) }

/-- A copy of the impedance history where it is valid (R510): its generation and its records. An erased generation count is
that of no copy. -/
def Dev.historyFrom (d : Dev) (copy1 : Bool) : Option (Nat × List HistoryRec) :=
  let a := historyAddr copy1
  if (d.cs1 a 4).all (· == cs1Default) then none
  else
    let b := d.cs1 a 0x8000
    if ofBe (slice 0x7FFC 4 b) = (crc32 (b.take 0x7FFC)).toNat then
      some (ofBe (slice 0 4 b), (List.range 64).filterMap fun i => historyRecord (slice (4 + 320 * i) 320 b))
    else none

/-- The copy of the impedance history that is valid and has the higher generation, and which copy that is (R510). -/
def Dev.historyValid (d : Dev) : Option (Bool × Nat × List HistoryRec) :=
  match d.historyFrom false, d.historyFrom true with
  | none, none => none
  | some a, none => some (false, a)
  | none, some b => some (true, b)
  | some a, some b => some (if b.1 ≤ a.1 then (false, a) else (true, b))

/-- The impedance history loaded from its valid copy (R153, R251, R510). -/
def Dev.loadHistory (d : Dev) : Dev :=
  match d.historyValid with
  | some x => { d with dep := { d.dep with history := x.2.2, histGen := x.2.1, histCopy := x.1 } }
  | none => d

/-- The changed records of the stages that are present go to the copy with the older generation (R251, R509, R510). -/
def Dev.writeHistory (d : Dev) : Dev :=
  let h := d.listedStages.foldl (fun h a =>
    let st := d.chn.stages.get a
    match st.id with
    | some x => if st.present then putHistory h (d.historyRec a x) else h
    | none => h) d.dep.history
  if h = d.dep.history then d
  else
    let copy := !d.histKept
    let gen := d.dep.histGen + 1
    let d := (d.eraseCs1 (historyAddr copy) 0x8000).setCs1 (historyAddr copy) (historyArea gen h)
    { d with dep := { d.dep with history := h, histGen := gen, histCopy := copy } }

/-! ### The flush (R519) -/

/-- What a flush that begins now would undo: with one in progress, that one's with the increments since. -/
def Dev.flushUndo (d : Dev) : FlushUndo :=
  match d.lif.undo with
  | some u => { u with inc := u.inc.add d.lif.inc, lines := u.lines ||| d.lif.lines }
  | none =>
    { total := d.lif.total, inc := d.lif.inc, lines := d.lif.lines, gen := d.lif.gen, copy := d.lif.copy
      history := d.dep.history, histGen := d.dep.histGen, histCopy := d.dep.histCopy }

/-- Increments fold into the record, the record is written to the older copy, and the counter shadow, the history and
LIF_STAT are renewed.
DEDUCED: notes/assumptions/50.md. -/
def Dev.flush (d : Dev) : Dev :=
  let d := d.needDepot
  let undo := d.flushUndo
  let total := d.lif.total.add d.lif.inc
  let gen := d.lif.gen + 1
  let copy := !d.lifeKept
  let d := d.setCs1 (lifeAddr copy) (d.lifetimeBytes gen total)
  let d := { d with
    lif := { d.lif with
      total := total, inc := {}, lines := 0, due := false, age := 0, gen := gen, copy := copy
      sat := d.lif.sat ||| BitVec.ofNat 24 total.sat }
    dep := { d.dep with counters := d.dep.counters.put (d.lif.device, {}) } }
  let d := d.writeHistory.queueTx .lifetime
  { d with lif := { d.lif with undo := some undo } }

/-- A power-fail warning during a flush: the CS1 writes are abandoned, the other copies stay valid, and the increments
stay for the final commit's counter shadow (R533).
DEDUCED: notes/assumptions/50.md. -/
def Dev.abandonFlush (d : Dev) : Dev :=
  match d.lif.undo with
  | none => d
  | some u =>
    let d := d.eraseCs1 (lifeAddr (!u.copy)) 1024
    let d := if d.dep.histGen = u.histGen then d else d.eraseCs1 (historyAddr (!u.histCopy)) 0x8000
    { d with
      lif := { d.lif with
        total := u.total, inc := u.inc.add d.lif.inc, lines := u.lines ||| d.lif.lines, gen := u.gen, copy := u.copy
        due := true, undo := none }
      dep := { d.dep with
        history := u.history, histGen := u.histGen, histCopy := u.histCopy, flushing := false
        busy := if d.dep.busy = some DepotTx.lifetime then none else d.dep.busy
        waiting := d.dep.waiting.filter fun t => t ≠ DepotTx.lifetime } }

/-- A flush that is due, in its turn: at once where the depot is free and no write waits, else when its transaction starts
(R507). It is class B work, which a power-fail warning has stopped (R48, R53); in Watch it waits for the resume path (R536).
DEDUCED: notes/assumptions/50.md. -/
def Dev.flushTurn (d : Dev) : Dev :=
  let d := { d with lif := { d.lif with due := true } }
  if d.powerFailing || !(d.sup.doms.dep || d.mayStart) then d
  else
    let d := d.needDepot
    if d.depotFree && d.dep.jobs.isEmpty then d.flush else d.queueTx .lifetime

/-- LIFETIME_FLUSH_DUE. -/
def execLifetimeFlushDue (s : State) : Host.Outcome State Fault Refusal := s.effect Dev.flushTurn

/-- LIF_FLUSH. -/
def bodyLifFlush (d : Dev) : Executed := (d.flushTurn, some rDone)

/-- DEP_CMD LIF_FLUSH. -/
def execLifFlush (tok : Byte) (s : State) : Host.Outcome State Fault Refusal :=
  s.effect fun d => d.hostCommand .dep tok 0x04 bodyLifFlush

/-- The contactor's learned values at their reset. -/
def Coil.unlearn (c : Coil) : Coil :=
  { c with tL := 0, bL := 0, t0 := 0, b0 := 0, sPrev := 0, s := 0, learned := 0, remain := 0x3FFF }

/-- The block of a contactor, and of the pump, cleared. -/
def LifeBlocks.dropK (k : K) (b : LifeBlocks) : LifeBlocks := { b with k := upd b.k k {} }
def LifeBlocks.dropPump (b : LifeBlocks) : LifeBlocks := { b with pump := .replicate 5 0 }

/-- A clearing of blocks, in what a flush in progress would bring back too. -/
def Lif.clearBlocks (l : Lif) (f : LifeBlocks → LifeBlocks) : Lif :=
  { l with
    inc := f l.inc, total := f l.total
    undo := l.undo.map fun u => { u with inc := f u.inc, total := f u.total } }

/-- The block of a contactor cleared with its wear (R532). -/
def Dev.clearK (d : Dev) (k : K) : Dev :=
  let keep : BitVec 8 := ~~~(BitVec.ofNat 8 (2 ^ k.val + 2 ^ (k.val + 4)))
  let d := { d with
    lif := d.lif.clearBlocks (LifeBlocks.dropK k)
    lim := { d.lim with wear80 := d.lim.wear80 &&& keep, wear100 := d.lim.wear100 &&& keep } }
  let d := d.setCoil k Coil.unlearn
  if d.lim.wear100 = 0 then d.faultGone 37 else d

/-- CLR_K (R532). -/
def bodyClrK (d : Dev) : Executed :=
  if !d.benchOpen then (d, some rState)
  else (coils.foldl (fun d k => if bit d.lif.cmdarg k.val then d.clearK k else d) d, some rDone)

/-- CLR_PUMP (R532). -/
def bodyClrPump (d : Dev) : Executed :=
  if !d.benchOpen then (d, some rState)
  else ({ d with lif := d.lif.clearBlocks LifeBlocks.dropPump }, some rDone)

/-- LIF_CMD CLR_K. -/
def execClrK (tok : Byte) (s : State) : Host.Outcome State Fault Refusal :=
  s.effect fun d => d.hostCommand .lif tok 0x01 bodyClrK

/-- LIF_CMD CLR_PUMP. -/
def execClrPump (tok : Byte) (s : State) : Host.Outcome State Fault Refusal :=
  s.effect fun d => d.hostCommand .lif tok 0x02 bodyClrPump

/-! ### Minutes and hours of Run (R520) -/

/-- The bins of the minute histograms: |I_pack| in mA and the hottest valid cell in 0.01 °C. -/
def packBin (mA : Nat) : Nat := ([2000, 10000, 30000, 60000, 120000, 200000, 300000].filter fun e : Nat => e ≤ mA).length
def tempBin (t : Int) : Nat := ([-1000, 0, 1000, 2500, 3500, 4500, 5500].filter fun e : Int => e ≤ t).length

/-- A minute of Run: the two histograms and LIF_STAT.AGE.
DESIGN CHOICE: notes/assumptions/65.md. -/
def Dev.minute (d : Dev) : Dev :=
  let pack := packBin d.sen.iPack.natAbs
  let hot := greatest d.cellTemps
  ({ d with lif := { d.lif with age := satInc 255 d.lif.age } } : Dev).collect fun b =>
    { b with
      pack := binInc b.pack pack
      temp := match hot with | some t => binInc b.temp (tempBin t) | none => b.temp }

/-- The pump runs: its bridge may be driven, by the external inputs or with a duty (R520).
DESIGN CHOICE: notes/assumptions/65.md. -/
def Dev.pumpRuns (d : Dev) : Bool := d.pumpMayRun && (d.pumpExt || decide (0 < d.pwr.duty))

/-- The pump's run hours add up over the frames in which it runs (R520).
DESIGN CHOICE: notes/assumptions/65.md. -/
def Dev.pumpTime (d : Dev) : Dev :=
  if !d.pumpRuns then d
  else if d.lif.pumpFrames + 1 < 3600000 then { d with lif := { d.lif with pumpFrames := d.lif.pumpFrames + 1 } }
  else ({ d with lif := { d.lif with pumpFrames := 0 } } : Dev).countPump 0

/-- An hour of Run: the device's run hours.
DESIGN CHOICE: notes/assumptions/65.md. -/
def Dev.hour (d : Dev) : Dev := d.countDevice 0

/-- A flush that has fallen due in Run with the lines that hold increments is done early (R519, R522). -/
def Dev.earlyFlush (d : Dev) : Dev := if d.lif.due then d.flushTurn else d

/-- The time counts at a frame boundary in Run.
DESIGN CHOICE: notes/assumptions/65.md. -/
def Dev.lifeFrame (d : Dev) : Dev :=
  let d := d.pumpTime.earlyFlush
  if d.lif.frames + 1 < 60000 then { d with lif := { d.lif with frames := d.lif.frames + 1 } }
  else
    let d := ({ d with lif := { d.lif with frames := 0 } } : Dev).minute
    if d.lif.minutes + 1 < 60 then { d with lif := { d.lif with minutes := d.lif.minutes + 1 } }
    else ({ d with lif := { d.lif with minutes := 0 } } : Dev).hour

/-! ### Transactions (R507, R529, R534, R535) -/

/-- The order of R507. -/
def DepotTx.rank : DepotTx → Nat
  | .commit => 0 | .header => 0 | .shadow => 1 | .window => 2 | .log => 3 | .lifetime => 4

/-- The waiting transaction that starts next. -/
def nextTx (ts : List DepotTx) : Option DepotTx :=
  ts.foldl (fun (a : Option DepotTx) t => match a with
    | none => some t
    | some x => if t.rank < x.rank then some t else some x) none

/-- The settings of DEP_CFG as the depot runs with them: at 50 MHz while 100 MHz are selected without the data strobe (R506). -/
def Dev.depotClock (d : Dev) : Word := if d.depBad then d.dep.cfg ||| 0x000001 else d.dep.cfg

/-- The transaction of a class starts, with the writes of that class that wait for it (R507). -/
def Dev.startTx (d : Dev) (t : DepotTx) : Dev :=
  let js := d.dep.jobs.filter fun j => j.tx = t
  let d := { d with dep := { d.dep with jobs := d.dep.jobs.filter fun j => j.tx ≠ t } }
  let d := js.foldl Dev.doJob d
  let d := if t = DepotTx.log && !d.evt.logBuf.isEmpty then d.writeBuffer else d
  let d := if t = DepotTx.lifetime && d.lif.due && !d.powerFailing then d.flush else d
  { d with dep := { d.dep with
      busy := some t, waiting := d.dep.waiting.filter fun x => x ≠ t, flushing := decide (t = DepotTx.lifetime) } }

/-- DEPOT_TRANSACTION_START: a sealed record that can be committed goes first; the settings of DEP_CFG take effect
between transactions (R529). -/
def execDepotTransactionStart (s : State) : Host.Outcome State Fault Refusal :=
  s.effect fun d =>
    if !d.depotFree then d
    else
      let d := { d with dep := { d.dep with inForce := d.depotClock } }
      let c := if d.lgr.depotErr then d else d.startCommit
      if c.lgr.committing then c
      else match nextTx d.dep.waiting with
        | none => d
        | some t => d.startTx t

/-- One failure of CS1, with its event (R534). -/
def Dev.countCs1Error (d : Dev) : Dev :=
  ({ d with dep := { d.dep with
      err1 := satInc 4095 d.dep.err1, ovf := setFlag d.dep.ovf 5 (decide (4095 ≤ d.dep.err1 + 1)) } } : Dev).notice 63 0 0

/-- A failed program or erase (R534): a log sector goes out of use; a lifetime record is written again at the next
flush, its torn copy left invalid.
DEDUCED: notes/assumptions/50.md. -/
def Dev.programFailed (d : Dev) (t : DepotTx) : Dev :=
  match t with
  | .log =>
    let d := d.countCs1Error
    { d with dep := { d.dep with logBad := true, badSectors := d.dep.badSectors ++ [logSector d.dep.logSeq] } }
  | .lifetime =>
    let d := d.countCs1Error.eraseCs1 (lifeAddr d.lif.copy) 1024
    { d with
      lif := { d.lif with copy := !d.lif.copy, due := true } }
  | _ => d

/-- A flush that has ended, with none after it, is not undone any more. -/
def Dev.flushOver (d : Dev) (t : DepotTx) : Dev :=
  if t = DepotTx.lifetime ∧ DepotTx.lifetime ∉ d.dep.waiting then { d with lif := { d.lif with undo := none } } else d

/-- A transaction other than a commit or a host window access has ended, as PER learns. -/
def Dev.txEnds (d : Dev) (ok : Bool) : Dev :=
  match d.dep.busy with
  | none | some .commit | some .window => d
  | some t =>
    let d := ({ d with dep := { d.dep with busy := none, flushing := false } } : Dev).flushOver t
    if ok then d else d.programFailed t

/-- DEPOT_TRANSACTION_END: the completion crosses into PER as a carried count (R80), and waits while PER is stopped
(R82). -/
def execDepotTransactionEnd (ok : Bool) (s : State) : Host.Outcome State Fault Refusal :=
  s.effect fun d =>
    let held := if d.dep.doneCount.fits then d.dep.heldEnds ++ [ok] else d.dep.heldEnds
    if d.sup.doms.per then
      ({ d with dep := { d.dep with doneCount := d.dep.doneCount.send.consumed } } : Dev).txEnds ok
    else { d with dep := { d.dep with doneCount := d.dep.doneCount.send, heldEnds := held } }

end Sys2Proof.Machine
end

