-- ==== Sys2Proof/Machine/Crossings.lean ====
section
/-! DEFINITION. The clock-domain crossings into PER (R72 to R84): what a stopped PER leaves waiting is taken when it
starts, with the events of overruns, and when the crossings of a domain are idle. -/
namespace Sys2Proof.Machine

/-- The crossing overrun event that names a source (R81): 0 tag completions, 1 ring events, 2 depot completions.
DESIGN CHOICE: notes/assumptions/16.md. -/
def Dev.overrunNotice (d : Dev) (c : Carried) (source : Nat) : Dev := if c.overrun then d.notice 63 1 source else d

/-- The tag completions and ring events that EVO's counts have carried (R80, R82). -/
def Dev.takeChain (d : Dev) : Dev :=
  let c := d.chn
  let d := { d with chn := { c with
    doneCount := c.doneCount.consumed, ringCount := c.ringCount.consumed, heldFrames := [], heldBreaks := [] } }
  let d := (d.overrunNotice c.doneCount 0).overrunNotice c.ringCount 1
  let d := c.heldFrames.foldl (fun d x => if d.chainLive then d.chainResponse x.1 x.2 else d) d
  c.heldBreaks.foldl (fun d x => if d.chainLive && d.chn.intact then d.ringBreaks x.1 x.2 else d) d

/-- The completions that DEP's count has carried (R80, R82). -/
def Dev.takeDepot (d : Dev) : Dev :=
  let p := d.dep
  let d := ({ d with dep := { p with doneCount := p.doneCount.consumed, heldEnds := [] } } : Dev).overrunNotice p.doneCount 2
  p.heldEnds.foldl Dev.txEnds d

/-- The sample set that the hold register of MOD has kept (R74, R76). -/
def Dev.takeHeldSet (d : Dev) : Dev :=
  match d.sen.held with
  | some codes => ({ d with sen := { d.sen with held := none } } : Dev).useSet codes
  | none => d

/-- PER starts and takes every occurrence that has waited for it (R82). -/
def Dev.perTakes (d : Dev) : Dev := d.takeChain.takeDepot.takeHeldSet

/-- No work of the depot is in progress or waiting, a commit at a power failure included, and its crossings are idle (R63,
R84). -/
def Dev.depQuiet (d : Dev) : Bool :=
  d.sup.commit.isNone && d.dep.busy.isNone && d.dep.waiting.isEmpty && d.dep.jobs.isEmpty && !d.lgr.committing && d.dep.doneCount.idle

/-- No transaction of the chain is in progress or waiting, and its crossings are idle (R84). -/
def Dev.evoQuiet (d : Dev) : Bool :=
  d.chn.tags.isEmpty && d.chn.waiting.isEmpty && d.chn.doneCount.idle && d.chn.ringCount.idle

/-- Every crossing into and out of the domains that Watch stops is idle (R84).
DESIGN CHOICE: notes/assumptions/11.md. -/
def Dev.crossingsIdle (d : Dev) : Bool := d.depQuiet && d.evoQuiet && d.sen.held.isNone && !d.hst.delivered

end Sys2Proof.Machine
end

