-- ==== Sys2Proof/Machine/Supply.lean ====
section
/-! DEFINITION. Supplies, backup cell, RTC and alarm (R38 to R71): what the always-on domain reports, the power-fail
warning with its commits and hold, the shadows in CS0, and SUP_CMD but for RESET. -/
namespace Sys2Proof.Machine

/-! ### Levels that SUP_STAT reports -/

/-- AO_SOURCE_HANDOVER: SUP_STAT.AO_SRC (R41). -/
def execAoSourceHandover (toBackup : Bool) (s : State) : Host.Outcome State Fault Refusal :=
  s.effect fun d => { d with sup := { d.sup with aoBackup := toBackup } }

/-- VBK_LOW rises, with its event (R68). -/
def Dev.raiseVbkLow (d : Dev) : Dev :=
  if d.sup.vbkLow then d
  else
    let d := { d with sup := { d.sup with vbkLow := true } }
    if d.alive then d.notice 3 0 0 else d

/-- VBK_ABSENT rises, with its event (R68): SUB 1 tells it from VBK_LOW's 0.
DESIGN CHOICE: notes/assumptions/16.md. -/
def Dev.raiseVbkAbsent (d : Dev) : Dev :=
  if d.sup.vbkAbsent then d
  else
    let d := { d with sup := { d.sup with vbkAbsent := true } }
    if d.alive then d.notice 3 1 0 else d

/-- BACKUP_CELL_LOW: VBKUP below 2.6 V, or below 1.5 V, which is below both. -/
def execBackupCellLow (absent : Bool) (s : State) : Host.Outcome State Fault Refusal :=
  s.effect fun d => if absent then d.raiseVbkLow.raiseVbkAbsent else d.raiseVbkLow

/-- BACKUP_CELL_REPLACED: VBKUP above 1.5 V, or above 2.6 V too. -/
def execBackupCellReplaced (full : Bool) (s : State) : Host.Outcome State Fault Refusal :=
  s.effect fun d => { d with sup := { d.sup with vbkAbsent := false, vbkLow := d.sup.vbkLow && !full } }

/-! ### The 32.768 kHz crystal and the RTC (R59 to R61) -/

/-- SUP_STAT.TIME_VALID replaced, with the event of source 4 where it changes. -/
def Dev.setTimeValid (d : Dev) (b : Bool) : Dev :=
  if d.sup.timeValid = b then d
  else
    let d := { d with sup := { d.sup with timeValid := b } }
    let d := if d.tol.hasSession then d.markSession 0 else d
    if d.alive then d.notice 4 0 0 else d

/-- CRYSTAL_FAILOVER: LFRC, and the time is no longer valid. -/
def execCrystalFailover (s : State) : Host.Outcome State Fault Refusal :=
  s.effect fun d => ({ d with sup := { d.sup with lfrc := true } } : Dev).setTimeValid false

/-- CRYSTAL_RETURN: the validity of the time does not return with it (R60). -/
def execCrystalReturn (s : State) : Host.Outcome State Fault Refusal :=
  s.effect fun d => { d with sup := { d.sup with lfrc := false } }

/-- The ticks that the crystal has lost in 10 s at a temperature: coefficient in ppm per °C².
DESIGN CHOICE: notes/assumptions/26.md. -/
def lostTicks (turnover coef temp : Rat) : Rat := -(coef * (temp - turnover) * (temp - turnover)) * 327680 / 1000000

/-- RTC_CORRECTION: whole ticks into the RTC, the rest carried to the next correction (R61).
DESIGN CHOICE: notes/assumptions/26.md. -/
def execRtcCorrection (temp : Rat) (s : State) : Host.Outcome State Fault Refusal :=
  s.effect fun d =>
    match d.sup.xtal with
    | none => d
    | some (turnover, coef) =>
      if d.sup.lfrc then d
      else
        let r := d.sup.rtcResidue + lostTicks turnover coef temp
        { d with sup := { d.sup with
            rtc := d.sup.rtc + BitVec.ofInt 48 r.floor, rtcResidue := r - (r.floor : Rat) } }

/-- One tick of the RTC; a tick in the period of a SET_TIME is not added (R69).
DESIGN CHOICE: notes/assumptions/6.md. -/
def Dev.rtcTick (d : Dev) : Dev :=
  { d with sup := { d.sup with rtc := if d.sup.tickTaken then d.sup.rtc else d.sup.rtc + 1, tickTaken := false } }

/-- ALARM: an armed alarm that the RTC has reached fires once and disarms itself (R66). -/
def execAlarm (s : State) : Host.Outcome State Fault Refusal :=
  s.effect fun d =>
    match d.sup.alarm with
    | some a => if a ≤ d.sup.rtc then { d with sup := { d.sup with alarm := none } } else d
    | none => d

/-! ### SUP_CMD (R65) -/

/-- The 48-bit value of two staging registers. -/
def staged (hi lo : Word) : Time := hi ++ lo

/-- A span of RTC time that the device counts: its start moves with the RTC when SET_TIME writes it, so that the span stays.
DESIGN CHOICE: notes/assumptions/26.md. -/
def Dev.moveTimes (d : Dev) (move : Time) : Dev :=
  { d with
    chn := { d.chn with stages := d.chn.stages.map fun (st : Stage) => { st with heard := st.heard + move } }
    est := { d.est with sinceReq := d.est.sinceReq.map (· + move) }
    seq := { d.seq with aborts := d.seq.aborts.map (· + move) } }

/-- SET_TIME (R65, R69). -/
def bodySetTime (d : Dev) : Executed :=
  if d.tol.hasSession && d.sup.timeValid then (d, some rPending)
  else
    let t := staged d.sup.tsetHi d.sup.tsetLo
    let d := d.moveTimes (t - d.sup.rtc)
    let d := { d with sup := { d.sup with rtc := t, tickTaken := true, rtcResidue := 0 } }
    (d.setTimeValid true, some rDone)

/-- ARM_ALARM (R65). -/
def bodyArmAlarm (d : Dev) : Executed :=
  let v := staged d.sup.alarmHi d.sup.alarmLo
  if v ≤ d.sup.rtc then (d, some rCondition) else ({ d with sup := { d.sup with alarm := some v } }, some rDone)

/-- DISARM (R65). -/
def bodyDisarm (d : Dev) : Executed := ({ d with sup := { d.sup with alarm := none } }, some rDone)

/-- SUP_CMD SET_TIME. -/
def execSetTime (tok : Byte) (s : State) : Host.Outcome State Fault Refusal :=
  s.effect fun d => d.hostCommand .sup tok 0x01 bodySetTime

/-- SUP_CMD ARM_ALARM. -/
def execArmAlarm (tok : Byte) (s : State) : Host.Outcome State Fault Refusal :=
  s.effect fun d => d.hostCommand .sup tok 0x03 bodyArmAlarm

/-- SUP_CMD DISARM. -/
def execDisarm (tok : Byte) (s : State) : Host.Outcome State Fault Refusal :=
  s.effect fun d => d.hostCommand .sup tok 0x04 bodyDisarm

/-! ### Shadows (R55, R380, R391, R427) -/

/-- The energy and session shadow as it stands.
DEDUCED: notes/assumptions/28.md. -/
def Dev.energyShadow (d : Dev) : EnergyShadow :=
  let t := d.tol
  { exp := t.exp, imp := t.imp, resExp := t.resExp, resImp := t.resImp, session := t.session, sessionId := t.sessionId
    lastId := t.lastId, tag := t.tag, sexp := t.sexp, simp := t.simp, unmeasured := t.unmeasured, recordNo := t.recordNo
    startTime := t.startTime, marks := (t.marks &&& ~~~(0x002 : BitVec 10)) ||| (if t.sessionTamper then 0x002 else 0)
    audit := t.audit, time := d.sup.rtc }

/-- K1, K2 or K4 is confirmed closed. -/
def Dev.stringClosed (d : Dev) : Bool := [(0 : K), 1, 3].any fun k => (d.coil.get k).confirmed

/-- The energy shadow written, and the pack current shadow while a contactor is closed (R55, R380).
DEDUCED: notes/assumptions/28.md. -/
def Dev.writeEnergy (d : Dev) : Dev :=
  d.depotWrite (.energy d.energyShadow (if d.stringClosed then some (d.sen.iPack.natAbs, d.sup.rtc) else none))

/-- The coulomb shadow, with the rest-time stamp in its area, and the SoC shadow as they stand (R508).
DEDUCED: notes/assumptions/28.md. -/
def Dev.estimates (d : Dev) : DepotJob :=
  .estimates d.est.coulomb d.sup.restStamp (d.est.cells.toList.map fun c => (c.soc, c.var))

/-- The counter shadow written: the device counters and the increments of the accumulation RAM (R519). -/
def Dev.writeCounters (d : Dev) : Dev :=
  { d with dep := { d.dep with counters := d.dep.counters.put (d.lif.device, d.lif.inc) } }

/-- The shadows hold valid content: all of them outside the full muster, and there from step 9 on (R67). -/
def Dev.shadowsValid (d : Dev) : Bool :=
  d.alive && (d.inRun || (decide (d.mode.mode = Mode.muster) && (decide (d.sys.path = 0b10) || decide (10 ≤ d.sys.step))))

/-- ENERGY_SHADOW_WRITE: every 100 ms; the spec times the coulomb and SoC shadows nowhere, and they go with it in Run. -/
def execEnergyShadowWrite (s : State) : Host.Outcome State Fault Refusal :=
  s.effect fun d =>
    if d.shadowsValid && d.sup.doms.mod then
      let d := d.writeEnergy
      if d.inRun then d.depotWrite d.estimates else d
    else d

/-- FINAL_SHADOW_WRITE: every 1 ms once the final commit has written its shadows (R427). -/
def execFinalShadowWrite (s : State) : Host.Outcome State Fault Refusal :=
  s.effect fun d => if d.sup.pfHold && d.shadowsValid then d.writeEnergy else d

/-! ### Power-fail warning (R48 to R56, R67) -/

/-- The power-fail warning event, once per reset cycle and once PER runs.
DEDUCED: notes/assumptions/36.md. -/
def Dev.pfNotice (d : Dev) : Dev :=
  if d.sup.pfEvent then d
  else if d.sup.doms.per then ({ d with sup := { d.sup with pfEvent := true, pfEventDue := false } } : Dev).notice 2 0 0
  else { d with sup := { d.sup with pfEventDue := true } }

/-- The session's interim record with the power-fail status is sealed without waiting for K4's verdict (R48). -/
def Dev.pfSuspend (d : Dev) : Dev :=
  let d := d.suspendSession
  if d.tol.suspendDue then
    let d := (({ d with tol := { d.tol with suspendDue := false } } : Dev).markSession 4).sealDue .suspended
    Dev.drainDue d.tol.due.length d
  else d

/-- The first warning in Run of a reset cycle: event, zero limits, fault 35, the suspension, a flush abandoned, and the final
commit starts (R48, R533). -/
def Dev.pfRun (d : Dev) : Dev :=
  let d := { d with sup := { d.sup with pfSeen := true } }
  let d := (d.needDepot.countDevice 12).pfNotice.zeroCheck
  let d := (d.fault 35 32 0 0).pfSuspend.abandonFlush
  { d with sup := { d.sup with commit := some .final } }

/-- A fall below V_PFW during muster starts the shadow-only commit (R67).
DEDUCED: notes/assumptions/36.md. -/
def Dev.pfMuster (d : Dev) : Dev :=
  let d := d.needDepot
  ({ d with sup := { d.sup with commit := some .shadowOnly } } : Dev).pfNotice.abandonFlush

/-- POWER_FAIL_WARNING. In Watch only PF_WARN follows (R56). -/
def Dev.pfWarning (d : Dev) : Dev :=
  if !d.alive || d.sup.pfWarn then d
  else
    let d := { d with sup := { d.sup with pfWarn := true } }
    match d.mode.mode with
    | .watch => d
    | .run => if d.sup.pfSeen || d.powerFailing then d.zeroCheck else d.pfRun
    | .muster => if d.powerFailing then d else d.pfMuster

/-- POWER_FAIL_WARNING. -/
def execPowerFailWarning (s : State) : Host.Outcome State Fault Refusal := s.effect Dev.pfWarning

/-- Every frozen record signed and committed in the order of sequence numbers; `n` bounds their number. A full ledger
holds back the rest (R419). -/
def Dev.commitAll : Nat → Dev → Dev
  | 0, d => d
  | n + 1, d =>
    let d := d.recordSigned
    match d.lgr.staging with
    | [] => d
    | r :: rest =>
      if r.seq ≤ d.lgr.ack + 1536 then
        Dev.commitAll n ((d.setCs0 (slotAddr r.seq) (fit 252 r.bytes)).commitDone r rest)
      else d

/-- The final commit is over: every sealed record and the four shadows (R48). The last measured pack current is stored
whatever the contactors do.
DEDUCED: notes/assumptions/28.md. -/
def Dev.finalCommit (d : Dev) : Dev :=
  let d := Dev.commitAll 8 d.needDepot
  let d := { d with dep := { d.dep with
    energy := d.dep.energy.put d.energyShadow, pack := d.dep.pack.put (d.sen.iPack.natAbs, d.sup.rtc) } }
  (d.doJob d.estimates).writeCounters

/-- The shadow-only commit is over: the shadows whose content is valid (R67).
DEDUCED: notes/assumptions/28.md. -/
def Dev.shadowCommit (d : Dev) : Dev :=
  if d.shadowsValid then
    let d := { d with dep := { d.dep with
      energy := d.dep.energy.put d.energyShadow, coul := d.dep.coul.put d.est.coulomb, rest := d.dep.rest.put d.sup.restStamp
      pack := if d.dep.pack.value.isSome then d.dep.pack.put (d.dep.pack.value.getD (0, 0)) else d.dep.pack } }
    d.writeCounters
  else d

/-- Power-fail hold begins, and the event is queued once more where PER runs (R53).
DEDUCED: notes/assumptions/36.md. -/
def Dev.enterHoldPf (d : Dev) : Dev :=
  let d := { d with sup := { d.sup with commit := none, pfHold := true } }
  if d.sup.doms.per then d.notice 2 0 0 else d

/-- FINAL_COMMIT_COMPLETE: the hold begins whatever VSUP has done since (R52, R53).
DEDUCED: notes/assumptions/36.md. -/
def execFinalCommitComplete (s : State) : Host.Outcome State Fault Refusal :=
  s.effect fun d =>
    if !d.alive then d
    else match d.sup.commit with
      | none => d
      | some .final => d.finalCommit.enterHoldPf
      | some .shadowOnly => d.shadowCommit.enterHoldPf

/-- PF_WARN_CLEAR: PF_WARN follows VSUP. The cause of fault 35 ends with the hold, by a reset (R53). -/
def execPfWarnClear (s : State) : Host.Outcome State Fault Refusal :=
  s.effect fun d =>
    let d := if d.sup.pfWarn && d.tol.hasSession then d.markSession 4 else d
    { d with sup := { d.sup with pfWarn := false } }

end Sys2Proof.Machine
end

