-- ==== Sys2Proof/Machine/Muster.lean ====
section
/-! DEFINITION. Resets and starts (R39 to R47, R135 to R160): what every reset keeps, the sixteen muster steps, the
resume path, and the commands that reset the device; Watch entry, the sweep, wakes and the call (R20 to R23, R33, R455
to R457). -/
namespace Sys2Proof.Machine

/-! ### Resets -/

/-- The contactors confirmed closed, bit `k` for K(k + 1).
DEDUCED: notes/assumptions/29.md. -/
def Dev.closedBits (d : Dev) : BitVec 4 :=
  BitVec.ofNat 4 ((coils.map fun k => flag (d.coil.get k).confirmed k.val).foldl (· + ·) 0)

/-- Some contactor coil is energised (R151). -/
def Dev.coilEnergised (d : Dev) : Bool := d.coil.toList.any fun c => decide (c.phase ≠ CoilPhase.released)

/-- The reset cause bits of SUP_START. -/
def causeBor : Word := 0x000002
def causePfrec : Word := 0x000004
def causePin : Word := 0x000008
def causeWdog : Word := 0x000010
def causeClock : Word := 0x000020
def causeCmd : Word := 0x000040

/-- SYS_MSTAT.ATTEMPTS and whether the count would become 3 (R139). -/
def Dev.attemptsAfter (d : Dev) (bits : Word) : BitVec 2 × Bool :=
  if bits = causePin ∨ bits = causeCmd then (0, false)
  else if (bits = causeWdog ∨ bits = causeClock) ∧ d.mode.mode = .muster ∧ 4 < d.sys.step then
    if d.sys.attempts = 2 then (2, true) else (d.sys.attempts + 1, false)
  else (d.sys.attempts, false)

/-- What the always-on domain keeps through a reset: the retained content, the supply levels, the rest-time stamp
(R151) and what muster needs to know of the reset (R47, R54).
DEDUCED: notes/assumptions/27.md. -/
def Dev.keptSup (d : Dev) (bits : Word) : Sup :=
  { powered := d.sup.powered, rtc := d.sup.rtc, rtcResidue := d.sup.rtcResidue, timeValid := d.sup.timeValid
    lfrc := d.sup.lfrc, vbkLow := d.sup.vbkLow, vbkAbsent := d.sup.vbkAbsent, aoBackup := d.sup.aoBackup
    alarm := d.sup.alarm, canary := d.sup.canary, vaoDipped := d.sup.vaoDipped, xtal := d.sup.xtal
    restStamp := if d.coilEnergised then some d.sup.rtc else d.sup.restStamp
    latched := bits, closedAtReset := d.sup.closedAtReset ||| d.closedBits }

/-- A reset with cause bits (R135, R570): everything takes its reset value but what the always-on domain keeps, what
the depot holds, the levels on the pins, the identities of the last full enumeration (R180), and the audit records that
wait; an open seal closes (R397).
DEDUCED: notes/assumptions/27.md. -/
def Dev.resetWith (d : Dev) (bits : Word) : Dev :=
  let a := d.attemptsAfter bits
  let d0 : Dev :=
    { sup := d.keptSup bits
      sys := { attempts := a.1, repeated := a.2 }
      chn := { stages := Vector.ofFn fun a => { recorded := (d.chn.stages.get a).recorded }, phase := d.free, sleeping := d.chn.sleeping }
      pwr := {
        dumpOn := d.pwr.dumpOn, dumpPause := d.pwr.dumpPause, extIn := d.pwr.extIn, drvEn := d.pwr.drvEn
        rail := d.pwr.rail }
      saf := { raw := d.saf.raw, filt := d.saf.filt }
      tol := { openings := d.tol.openings, seal0 := d.tol.seal0, seal1 := d.tol.seal1, enclOpen := d.tol.enclOpen }
      lgr := { waitingAudit := d.lgr.waitingAudit ++ (if d.tol.sealOpen then [(3, [])] else []) }
      dep := {
        cs0 := d.dep.cs0, cs1 := d.dep.cs1, energy := d.dep.energy, coul := d.dep.coul, pack := d.dep.pack
        soc := d.dep.soc, counters := d.dep.counters, pinned := d.dep.pinned
        logState := d.dep.logState, rest := d.dep.rest, badSectors := d.dep.badSectors, deepDown := d.dep.deepDown }
      lif := { device := d.lif.device }
      free := d.free }
  d0.tick

/-! ### Findings and stops -/

/-- A finding in SYS_MFIND.
DEDUCED: notes/assumptions/30.md. -/
def Dev.found (d : Dev) (n : Nat) (b : Bool) : Dev := { d with sys := { d.sys with find := setFlag d.sys.find n b } }

/-- Muster stops (R138): failure code and detail, and the event of source 5 where PER runs. -/
def Dev.musterStop (d : Dev) (code : Byte) (detail : Nat) : Dev :=
  let d := { d with sys := { d.sys with mstate := 0b01, failCode := code, failDetail := BitVec.ofNat 16 detail } }
  if d.sup.doms.per then d.notice 5 1 0 else d

/-- The start is the resume path. -/
def Dev.resuming (d : Dev) : Bool := decide (d.sys.path = 0b10)

/-- The start is cold. -/
def Dev.coldStart (d : Dev) : Bool := decide (d.sup.start = 0b10)

/-! ### Steps 1 to 4 -/

/-- A start with a reset cause bit counts in its counter. -/
def Dev.countCause (reg : Word) (d : Dev) (c : Nat × Fin 22) : Dev := if bit reg c.1 then d.countDevice c.2 else d

/-- The device counters of the reset causes and of cold starts (R520).
DEDUCED: notes/assumptions/30.md. -/
def Dev.countStart (d : Dev) (reg : Word) (cold : Bool) : Dev :=
  let d := [(0, 4), (1, 5), (3, 6), (2, 7), (4, 8), (5, 9), (6, 10)].foldl (Dev.countCause reg) d
  if cold then d.countDevice 11 else d

/-- What a cold start clears (R45, R139).
DEDUCED: notes/assumptions/27.md. -/
def Dev.coldClear (d : Dev) : Dev :=
  { d with
    sup := { d.sup with rtc := 0, rtcResidue := 0, timeValid := false, restStamp := none, alarm := none, xtal := none }
    sys := { d.sys with attempts := 0, repeated := false, find := setFlag d.sys.find 0 true }
    lif := { d.lif with device := .replicate 22 0 }
    tol := { d.tol with openings := [] }
    lgr := { d.lgr with waitingAudit := d.lgr.waitingAudit.filter fun x => x.1 = 3 } }

/-- The seal inputs at a start: a warm one sees a change that came with the reset, a cold one takes the levels (R551). -/
def Dev.sealLevels (d : Dev) (seal0 seal1 cold : Bool) : Dev :=
  if cold then { d with tol := { d.tol with seal0 := seal0, seal1 := seal1, enclOpen := !(!seal0 && seal1) } }
  else d.enclosureChange seal0 seal1

/-- Step 1: the start type (R43 to R47). -/
def Dev.startStep (d : Dev) (m : MusterInputs) : Dev :=
  let cold := !(d.sup.canary && m.retainedCrcOk)
  let cause : Word := if !d.sup.canary then 0x000100 else if m.retainedCrcOk then 0 else 0x000200
  let reg : Word := (if d.sup.vaoDipped || m.shortDip then 0x000001 else 0) ||| d.sup.latched ||| cause
  let d := if cold then d.coldClear else d
  let d := { d with
    sup := { d.sup with
      start := if cold then 0b10 else 0b01, startReg := reg, canary := true, vaoDipped := false, latched := 0 }
    saf := { d.saf with raw := m.guardLevels, filt := m.guardLevels } }
  (d.countStart reg cold).sealLevels m.seal0 m.seal1 cold

/-- Step 2: the clocks (R58, R455), on the resume path the release of the depot devices from deep power-down (R542), and
what waited for the peripheral domain (R67, R82).
DEDUCED: notes/assumptions/30.md. -/
def Dev.clockStep (d : Dev) (m : MusterInputs) : Dev :=
  let lock := m.mainOsc && m.pllLock
  let d := { d with inh := true, sup := { d.sup with mainOsc := m.mainOsc, pllA := lock, pllB := lock } }
  if !m.mainOsc then d.musterStop 0x02 0
  else if !m.pllLock then d.musterStop 0x03 0
  else
    let d := { d with
      sup := { d.sup with doms := { d.sup.doms with per := true, can := true, eng := true, dep := d.resuming } }
      dep := { d.dep with deepDown := if d.resuming then 0 else d.dep.deepDown } }
    let d := d.perTakes
    let d := if d.resuming then d.notice 0 0 0 else d
    if d.sup.pfEventDue then d.pfNotice else d

/-- Step 3: OTP (R136). -/
def Dev.otpStep (d : Dev) (m : MusterInputs) : Dev :=
  if m.otpOk then { d with sys := { d.sys with sn := Config.serial } } else d.musterStop 0x04 0

/-- Step 4: the engine's proof, and the frame watchdog armed at its end (R136, R139). -/
def Dev.engineStep (d : Dev) (m : MusterInputs) : Dev :=
  if d.sys.repeated then d.musterStop 0x0C 0
  else if !m.selfTestOk then d.musterStop 0x05 0
  else match m.injectionMiss with
    | some (bank, w, b) => d.musterStop 0x06 (place bank.val 14 + place w.val 8 + b.val)
    | none => { d with sup := { d.sup with wdArmed := true } }

/-! ### Steps 5 to 9 -/

/-- A depot device is identified (R505). -/
def depotIdentified (x : DepotDevice) (mbit : Nat) (cs0 : Bool) : Bool :=
  decide (x.mfr ≠ 0x00) && decide (x.mfr ≠ 0xFF) && x.sfdpOk && decide (mbit ≤ x.mbit) &&
  (!cs0 || (x.octal && !x.listsErase))

/-- SYS_MFAIL.DETAIL of codes 0x07 and 0x08: manufacturer byte and first device byte. -/
def depotDetail (x : DepotDevice) : Nat := place x.mfr.toNat 8 + x.dev.toNat / 256

/-- The ID register of a depot device. -/
def depotReg (x : DepotDevice) : Word := word (place x.mfr.toNat 16 + x.dev.toNat)

/-- The event log state from CS0 (R508); without a valid copy the log begins.
DESIGN CHOICE: notes/assumptions/49.md. -/
def Dev.loadLogState (d : Dev) : Dev :=
  match d.dep.logState.value with
  | some (n, u) => { d with dep := { d.dep with logSeq := n, unpin := u } }
  | none => d

/-- Step 5: the depot (R505); a device that answers is awake.
DEDUCED: notes/assumptions/71.md. -/
def Dev.depotStep (d : Dev) (m : MusterInputs) : Dev :=
  let ok0 := depotIdentified m.cs0 4 true
  let ok1 := depotIdentified m.cs1 64 false
  let d := { d with
    sup := { d.sup with pllB := true, doms := { d.sup.doms with dep := true } }
    dep := { d.dep with
      cs0Ok := ok0, cs1Ok := ok1, quad := ok1 && !m.cs1.octal, id0 := depotReg m.cs0, id1 := depotReg m.cs1
      deepOk := BitVec.ofNat 2 (flag m.cs0.deepPower 0 + flag m.cs1.deepPower 1), deepDown := 0 } }
  let d := d.loadLogState
  if !ok0 then d.musterStop 0x07 (depotDetail m.cs0) else if !ok1 then d.musterStop 0x08 (depotDetail m.cs1) else d

/-- Step 6: the patch (R141), the firmware version (R143) and the toll partition's identity (R400). -/
def Dev.patchStep (d : Dev) : Dev :=
  let r : Option (Nat × Nat) × Bool := d.choosePatch
  let slot1 : Bool := match r.1 with | some x => decide (x.1 = 1) | none => false
  let v : Option (BitVec 16) := r.1.map fun x => BitVec.ofNat 16 x.2
  let d := { d with
    sys := { d.sys with
      romOnly := r.1.isNone, patchSlot := slot1
      fwver := Config.romVersion ++ v.getD 0 }
    tol := { d.tol with swid := Config.tollVersion v, digest := Config.tollDigest v } }
  d.found 1 r.2

/-- The manifest in use (R142, R143, R147): its guard kinds are loaded, and channels open at that moment count as seen
open. -/
def Dev.useManifest (d : Dev) (slot minimum : Nat) (man : Manifest) (fallback : Bool) : Dev :=
  let d := d.found 2 fallback
  if !d.firmwareOk minimum then d.musterStop 0x0A 0
  else
    let d := { d with
      man := some man, sys := { d.sys with manSlot := decide (slot = 1) }
      sup := { d.sup with xtal := some (man.xtalTurnover, man.xtalCoef) }
      saf := { d.saf with gkind := man.guardKind, kindsLoaded := true }
      coil := Vector.ofFn fun k => { d.coil.get k with rApp := man.coilR.get k } }
    guards.foldl (fun d g => if d.guardUsed g then d.accrueProof g else d) d.cfgCheck

/-- Step 7: the manifest (R142). -/
def Dev.manifestStep (d : Dev) : Dev :=
  let p := d.pointedSlot
  match d.manifestImage p with
  | some x => d.useManifest p x.1 x.2 false
  | none =>
    match d.manifestImage (1 - p) with
    | some x => d.useManifest (1 - p) x.1 x.2 true
    | none => d.musterStop 0x09 0

/-- The lifetime record in a copy where it is valid (R510, R520). -/
def Dev.lifeCopy (d : Dev) (copy1 : Bool) : Option (List Byte) :=
  let b := d.cs1 (lifeAddr copy1) 1024
  if ofBe (slice 0 4 b) = 0x46564C46 ∧ ofBe (slice 1020 4 b) = (crc32 (b.take 1020)).toNat then some b else none

/-- The valid lifetime record with the higher generation, and its copy. -/
def Dev.lifeRecord (d : Dev) : Option (Bool × List Byte) :=
  match d.lifeCopy false, d.lifeCopy true with
  | some a, some b => if ofBe (slice 4 4 b) ≤ ofBe (slice 4 4 a) then some (false, a) else some (true, b)
  | some a, none => some (false, a)
  | none, some b => some (true, b)
  | none, none => none

/-- Next ledger sequence number and next session ID of the lifetime record (R415). -/
def lifeNumbers (b : List Byte) : Nat × Nat := (ofBe (slice 82 4 b), ofBe (slice 86 3 b))

/-- The sealed block is blank (R399). -/
def sealBlank (area : List Byte) : Bool := (area.all (· == 0x00)) || area.all (· == 0xFF)

/-- The seven sealed registers from a parameter string, reserved bits 0 (R5); RW bits keep their values.
DEDUCED: notes/assumptions/31.md. -/
def Toll.withParams (t : Toll) (p : Fin 7 → Word) : Toll :=
  { t with
    gainV := p 0, ofsV := p 1, gainI := p 2, ofsI := p 3, rcable := p 4 &&& 0x00FFFF, pulse := p 5 &&& 0x01FFFF
    cfg := (p 6 &&& 0xFFFF00) ||| (t.cfg &&& 0x0000FF) }

/-- Step 8, first part: the sealed block (R399); a blank one is written from the manifest, and its audit record waits.
DEDUCED: notes/assumptions/31.md. -/
def Dev.sealStep (d : Dev) : Dev :=
  let b := d.cs0 0x00400 0xC00
  if sealBlank b then
    match d.man with
    | none => d
    | some m =>
      let t := d.tol.withParams fun i => m.toll.get i
      (({ d with
        tol := { t with storedDigest := t.digest }
        lgr := { d.lgr with waitingAudit := d.lgr.waitingAudit ++ [(6, [])] } } : Dev)).writeSealed
  else if ofBe (slice 53 4 b) = (crc32 (b.take 53)).toNat then
    let t := d.tol.withParams fun i => wordOf b i.val
    { d with tol := { t with storedDigest := slice 21 32 b, pdig := sha256 (b.take 21) } }
  else { d with tol := { d.tol with paramBad := true, pdig := sha256 d.tol.paramString } }

/-- Step 8: the sealed block and the ledger (R144).
DEDUCED: notes/assumptions/31.md. -/
def Dev.ledgerStep (d : Dev) : Dev := d.sealStep.recoverLedger (d.lifeRecord.map fun x => lifeNumbers x.2)

/-- `n` counters of 3 bytes from an offset. -/
def counters (n lo : Nat) (b : List Byte) : Vector Nat n := Vector.ofFn fun i => ofBe (slice (lo + 3 * i.val) 3 b)

/-- The block of a contactor in the lifetime record, and what its channel has learned (R520). -/
def recordedK (b : List Byte) : KBlock :=
  { closings := ofBe (slice 0 3 b), openings := ofBe (slice 3 3 b), underLoad := ofBe (slice 6 3 b)
    brk := counters 10 9 b, i2t := counters 8 39 b }
def Coil.recall (c : Coil) (b : List Byte) : Coil :=
  { c with
    tL := ofBe (slice 63 2 b), bL := ofBe (slice 65 2 b), t0 := ofBe (slice 67 2 b), b0 := ofBe (slice 69 2 b)
    sPrev := (ofBe (slice 71 2 b) : Rat) / 1000, learned := ofBe (slice 75 3 b) }

/-- The bytes of contactor `k` in a record. -/
def kBytes (k : K) (b : List Byte) : List Byte := slice (112 + 96 * k.val) 96 b

/-- The index S and, once a forecast has been made, REMAIN: the record holds neither the forecast nor what it was made
from, and its value is free. -/
def Dev.recallForecast (d : Dev) (k : K) : Dev :=
  let s := d.signatureIndex k
  let n := (Config.freeWord d.free).toNat % 0x4000
  d.tick.setCoil k fun c => { c with s := s, remain := if c.learned < 256 then 0x3FFF else n }

/-- Which wear thresholds the counts of the record have reached: events and faults of theirs have been given (R279,
R340). -/
def Dev.wearReached (d : Dev) (level : Rat) : BitVec 8 :=
  coils.foldl (fun b k =>
    putBit (putBit b k.val (decide (level ≤ d.wear k))) (4 + k.val) (decide (level ≤ (d.coil.get k).s))) 0

/-- The lifetime record loaded. -/
def Dev.loadLife (d : Dev) : Dev :=
  match d.lifeRecord with
  | none => d
  | some (copy, b) =>
    let total : LifeBlocks :=
      { k := Vector.ofFn fun k => recordedK (kBytes k b), pump := counters 5 496 b, pack := counters 8 528 b
        temp := counters 8 552 b }
    let d := { d with
      lif := { d.lif with
        gen := ofBe (slice 4 4 b), copy := copy, total := total, sat := d.lif.sat ||| BitVec.ofNat 24 total.sat }
      coil := Vector.ofFn fun k => (d.coil.get k).recall (kBytes k b) }
    let d := coils.foldl Dev.recallForecast d
    { d with lim := { d.lim with wear80 := d.wearReached (8 / 10), wear100 := d.wearReached 1 } }

/-- The increments of the counter shadow folded into the record (R519), and on a cold start the device counters restored
from it (R45); without a valid shadow nothing is restored, and LIFE_RESTORED stays 0.
DEDUCED: notes/assumptions/27.md. -/
def Dev.loadCounters (d : Dev) : Dev :=
  match d.dep.counters.value with
  | none => d
  | some (device, inc) =>
    let d := if d.coldStart then
      { d with
        lif := { d.lif with
          device := addBins d.lif.device device, sat := setFlag d.lif.sat 0 (anyFull (addBins d.lif.device device)) }
        sup := { d.sup with startReg := setFlag d.sup.startReg 15 true } } else d
    let d := if d.coldStart then d.countDevice 21 else d
    if inc = {} then d else ({ d with lif := { d.lif with inc := inc } } : Dev).flush

/-- The accumulators, the session and the coulomb counter from their shadows (R380, R391, R426). A restarted ledger goes on
with the session IDs that it took from the lifetime record, and a restored session keeps its own (R415). -/
def Dev.loadShadows (d : Dev) : Dev :=
  let last := d.tol.lastId
  let d := match d.dep.energy.value with
    | some e => { d with tol := d.tol.restore e }
    | none => d
  let d := if d.lgr.restarted then
    { d with tol := { d.tol with lastId := last, sessionId := if d.tol.hasSession then d.tol.sessionId else last } } else d
  match d.dep.coul.value with
  | some c => { d with est := { d.est with coulomb := c, coulLast := c } }
  | none => d

/-- 200 ms in 1/32768 s, rounded up. -/
def shadowTicks : Nat := 6554

/-- The usable pack current shadow of R55 in mA: not more than 200 ms older than the rest-time stamp, whose age check a
cold start skips.
DEDUCED: notes/assumptions/29.md. -/
def Dev.packShadow (d : Dev) : Option Nat :=
  match d.dep.pack.value, d.sup.restStamp with
  | some (i, t), some stamp => if d.coldStart ∨ stamp.toNat < t.toNat + shadowTicks then some i else none
  | some (i, _), none => some i
  | none, _ => none

/-- The opening that a reset made of contactor `k` is counted (R54). Where the shadow does not give a break current, and
for the I²t that the reset lost, the bin is free.
DEDUCED: notes/assumptions/29.md. -/
def Dev.countResetOpening (d : Dev) (k : K) : Dev :=
  if !d.sup.closedAtReset.getLsbD k.val then d
  else
    let shadow := d.packShadow
    let load := match shadow with | some i => decide (1000 * field d.lim.brkcfg 0 8 < i) | none => true
    let freeI := (Config.freeWord d.free).toNat
    let i := match shadow with | some i => if k.val < 2 then i else freeI | none => freeI
    let i2t : Rat := (Config.freeWord (d.free + 1)).toNat
    (d.tick.tick.accountAs k load i i2t).found 14 load

/-- A difference between the toll's digest and the one stored in the sealed block (R400). -/
def Dev.checkDigest (d : Dev) : Dev :=
  if d.tol.paramBad || decide (d.tol.storedDigest = d.tol.digest) then d
  else
    let old := d.tol.storedDigest
    let d := { d with tol := { d.tol with audit := satInc 0xFFFFFF d.tol.audit, storedDigest := d.tol.digest } }
    (d.writeSealed).freezeAudit 7 (fit 32 old ++ fit 32 d.tol.digest)

/-- Each enclosure opening that could not be recorded at its time gets its audit record (R433, R551).
DEDUCED: notes/assumptions/31.md. -/
def Dev.openingAudit (d : Dev) : Dev :=
  let n := d.tol.openings.length
  Nat.repeat (fun d => Dev.sealAudit d 4) n { d with tol := { d.tol with openings := [] } }

/-- Step 9: shadows, lifetime records and the audit records that have waited (R45, R54, R145, R433). -/
def Dev.counterStep (d : Dev) : Dev :=
  let d := d.loadShadows.loadLife.loadHistory.loadCounters
  let d := coils.foldl Dev.countResetOpening d
  let d := { d with sup := { d.sup with closedAtReset := 0 } }
  (d.checkDigest.openingAudit).drainRecords

/-! ### Steps 10 to 12 -/

/-- Step 10: sensing starts (R136, R221); after a reset the mailboxes of R449 are programmed.
DEDUCED: notes/assumptions/32.md. -/
def Dev.sensingStep (d : Dev) : Dev :=
  let d := ({ d with sup := { d.sup with doms := { d.sup.doms with mod := true } } } : Dev).startSettling
  if d.resuming then d
  else { d with can0 := d.can0.programMailboxes false, can1 := d.can1.programMailboxes false }

/-- Step 11: the charge pump starts (R540), and the off-state diagnostics run (R149, R307, R310). -/
def Dev.diagStep (d : Dev) (m : MusterInputs) : Dev :=
  let d := { d with pwr := { d.pwr with drvEn := m.drvEn, cpOk := true } }
  let d := if m.drvEn then d else d.protectionTrip 8 drvEnLow
  let d := d.runDiagnostics m.diag
  d.found 6 (!d.pwr.passedSince)

/-- The proof of one guard by its test switch (R146); with the latch set GTSTx stays low, and no channel opens (R364).
DEDUCED: notes/assumptions/32.md. -/
def Dev.proveGuard (m : MusterInputs) (d : Dev) (g : Fin 4) : Dev :=
  if d.guardUsed g && d.guardSwitch g then
    let opened := m.guardOpened.getLsbD g.val && !d.saf.latch
    let closed := m.guardClosed.getLsbD g.val
    let d := { d with saf := { d.saf with testing := putBit d.saf.testing g.val true } }
    (d.guardVerdict g opened closed).found 7 (!(opened && closed))
  else d

/-- Step 12: the guards.
DEDUCED: notes/assumptions/32.md. -/
def Dev.guardStep (d : Dev) (m : MusterInputs) : Dev := guards.foldl (Dev.proveGuard m) d

/-! ### Steps 13 and 14 -/

/-- The identity that each address shows: those that took an address from EVA in ascending order, and on a break those
that took one from EVB in descending order from `n` (R176). -/
def ringMap (n : Nat) (fromA fromB : List StageId) (intact : Bool) (a : Fin 32) : Option StageId :=
  match fromA[a.val]? with
  | some x => some x
  | none => if intact ∨ n ≤ a.val then none else fromB[n - 1 - a.val]?

/-- ASSIGN from a port to an address, with the identity words that its stage answers with, if there is one (R176). -/
def Dev.assignAt (ids : Fin 32 → Option StageId) (p : Port) (d : Dev) (x : Nat) : Dev :=
  d.transact p 63 0x02 [word x] (((ids (stageAt x)).map identityWords).getD [])

/-- The frames of a full enumeration up to its last ASSIGN: UNASSIGN, ASSIGN from EVA until one arrives at EVB or stays
unanswered, at most 32, and on a break ASSIGN from EVB in descending order until one stays unanswered or the next address is
taken. `a` and `b` stages answer (R176, R198).
DEDUCED: notes/assumptions/33.md. -/
def Dev.sendAssigns (d : Dev) (ids : Fin 32 → Option StageId) (a b n : Nat) (intact : Bool) : Dev :=
  let up := (List.range (min 32 (a + 1))).map (· + 1)
  let down := if intact then [] else (List.range (min (b + 1) (n - a))).map fun i => n - i
  let d := d.sendChain .eva 0 0x0E []
  down.foldl (Dev.assignAt ids .evb) (up.foldl (Dev.assignAt ids .eva) d)

/-- One address of a full enumeration (R176, R180): the identity that ID_READ gives is compared with the recorded one and
recorded. A stage without an address does not balance (R187). -/
def Dev.enumerateStage (ids : Fin 32 → Option StageId) (countA : Nat) (d : Dev) (a : Fin 32) : Dev :=
  match ids a, d.chn.portFor (stageNo a) with
  | some x, some p =>
    let d := ((d.transact p (stageNo a) 0x03 [] (identityWords x)).setStage a fun st =>
      { st with viaB := decide (countA ≤ a.val), mask := 0 }).readIdentity true a x
    d.setStage a fun st => { st with recorded := some x }
  | _, _ => d.setStage a fun st => { st with present := false, id := none }

/-- The resume path confirms one address with ID_READ (R154). -/
def Dev.confirmStage (ids : Fin 32 → Option StageId) (d : Dev) (a : Fin 32) : Dev :=
  match ids a, d.chn.portFor (stageNo a) with
  | some x, some p =>
    if (d.chn.stages.get a).id.isSome then (d.transact p (stageNo a) 0x03 [] (identityWords x)).readIdentity false a x
    else d
  | _, _ => d.setStage a fun st => { st with present := false }

/-- What the ring check finds (R150, R176, R198). -/
def Dev.ringSet (d : Dev) (a b n : Nat) (intact : Bool) : Dev :=
  { d with chn := { d.chn with
      running := true, intact := intact, lastA := if intact then 0 else a
      firstB := if intact || decide (b = 0) then 0 else n - b + 1 } }

/-- The findings of the ring check, with their events and fault 14.
DEDUCED: notes/assumptions/33.md. -/
def Dev.ringReport (d : Dev) : Dev :=
  let missing := d.listedStages.any fun a => !(d.chn.stages.get a).present
  let d := (d.found 9 (!d.chn.intact)).found 10 missing
  if d.chn.intact then d.faultGone 14
  else
    let d := d.countDevice 18
    if missing then d.notice 14 0 0 else d.ringFault

/-- Step 13: the chain is enumerated, or on the resume path confirmed.
DEDUCED: notes/assumptions/33.md. -/
def Dev.chainStep (d : Dev) (m : MusterInputs) : Dev :=
  let n := d.stageCount
  let a := min 32 m.fromA.length
  let b := if m.ringIntact then 0 else min m.fromB.length (n - a)
  let ids := ringMap n (m.fromA.take a) (m.fromB.take b) m.ringIntact
  let d := { d with sup := { d.sup with doms := { d.sup.doms with evo := true } } }
  if d.resuming then
    ((List.finRange 32).foldl (Dev.confirmStage ids) (d.ringSet a b n m.ringIntact)).ringReport
  else
    let d := (d.sendAssigns ids a b n m.ringIntact).ringSet a b n m.ringIntact
    let d := ((List.finRange 32).foldl (Dev.enumerateStage ids a) d).measureDelays m.echoes
    (({ d with chn := { d.chn with enumDone := true } } : Dev).notice 20 0 0).ringReport

/-- The reply of a stage to its challenge; none within 600 ms where the inputs hold none (R186). -/
def replyOf (m : MusterInputs) (a : Fin 32) : AuthReply :=
  match m.auth.find? fun x => x.1 = a with
  | some x => x.2
  | none => { cert := [], sig := none }

/-- The stages that the ring reaches. -/
def Dev.stagesPresent (d : Dev) : List (Fin 32) := (List.finRange 32).filter fun a => (d.chn.stages.get a).present

/-- Step 14: every stage is challenged at once, and authenticated (R150, R248). -/
def Dev.authStep (d : Dev) (m : MusterInputs) : Dev :=
  let d := d.stagesPresent.foldl Dev.challenge d
  let d := d.stagesPresent.foldl (fun d a => d.authenticate a (replyOf m a)) d
  d.found 11 (d.chn.stages.toList.any fun (s : Stage) => s.present && !s.auth)

/-! ### Steps 15 and 16 -/

/-- The rest time is known and at least T_rest (R151, R152); an unknown one counts as shorter.
DEDUCED: notes/assumptions/34.md. -/
def Dev.rested (d : Dev) : Bool :=
  match d.man, d.sup.restStamp with
  | some m, some stamp => decide (m.tRest * 32768 ≤ (d.sup.rtc - stamp).toNat)
  | _, _ => false

/-- The first snap of one stage. -/
def Dev.firstSnap (d : Dev) (r : SnapReading) : Dev :=
  if (d.chn.stages.get r.stage).present then d.deliverSnap r.stage none r.cells r.temps r.measFault else d

/-- The start value of a listed cell after a reset (R152, R153). `fresh` is a stage whose identity the history does not
hold or that is treated as inserted, `seen` one with a first snap. A cell that no valid snap or shadow serves starts from its
first valid snap; without a temperature OCV is not taken for a rest (R257), and a shadow serves. Without a valid shadow a warm
start takes OCV as a cold one does.
DEDUCED: notes/assumptions/34.md. -/
def Cell.start (c : Cell) (m : Manifest) (rec_ : Option HistoryRec) (i : Nat) (shadow : Option Rat)
    (rested fresh seen : Bool) (anchor : Rat → Anchor) : Cell :=
  let c := c.loadImpedance m rec_ i
  let valid := seen && !c.measFault
  let ocv := m.ocvInverse ((c.v : Rat) / 1000000) (c.celsius m)
  let wide : Rat := 225 / 10000
  let first : Cell := if valid then { c with soc := ocv, var := wide, inserted := false }
    else { c with var := wide, inserted := true }
  if fresh then first
  else if rested && valid && c.t.isSome then { c with soc := ocv, var := 9 / 10000, anchor := some (anchor ocv) }
  else match shadow with
    | some s => { c with soc := s, var := wide }
    | none => first

/-- The identity of a stage that is present is not in the impedance history (R153). -/
def Dev.newModule (d : Dev) (a : Fin 32) : Bool :=
  let st := d.chn.stages.get a
  st.present && (st.id.bind d.historyOf).isNone

/-- The start values of one stage after a reset, with the findings of R152 and R153. A rested start has no estimate before
it: the deviation before its fusion is 3 %.
DEDUCED: notes/assumptions/34.md. -/
def Dev.startStage (m : Manifest) (warmRest : Bool) (d : Dev) (a : Fin 32) : Dev :=
  let st := d.chn.stages.get a
  let rec_ := st.id.bind d.historyOf
  let fresh := d.newModule a || ((stageCells a).any fun p => (d.est.cells.get p).inserted)
  let seen := st.present && st.newest.isSome
  let soc := d.dep.soc.value
  let anchor (x : Rat) : Anchor :=
    { soc := x, sigma := 3 / 100, charge := d.est.coulomb, bal := 0, time := d.sup.rtc.toNat
      unchecked := d.eng.uncheckedE }
  let one (p : Fin 576) (c : Cell) : Cell :=
    c.start m rec_ (p.val % 18) (soc.bind fun l => (l[p.val]?).map (·.1)) warmRest fresh seen anchor
  let d := { d with est := { d.est with
    cells := (d.stageListed a).foldl (fun v p => modify v p (one p)) d.est.cells
    derated := d.est.derated || !warmRest || fresh } }
  d.found 12 (d.newModule a)

/-- The first estimates after a reset (R151 to R153).
DEDUCED: notes/assumptions/34.md. -/
def Dev.startEstimates (d : Dev) : Dev :=
  match d.man with
  | none => d
  | some m =>
    let rest := !d.coldStart && d.rested
    let d := d.listedStages.foldl (Dev.startStage m rest) d
    d.found 13 d.est.derated

/-- The first estimates of the resume path: the estimates have lasted through Watch, and a rest of at least T_rest is
fused (R152, R229). This fusion is none of the rest that Run times: one more may follow there.
DEDUCED: notes/assumptions/34.md, DESIGN CHOICE: notes/assumptions/69.md. -/
def Dev.resumeEstimates (d : Dev) : Dev :=
  let d := (if d.rested then d.fuseAll else d).found 13 d.est.derated
  d.found 12 (d.listedStages.any d.newModule)

/-- What Watch has left due (R433, R536). -/
def Dev.watchDue (d : Dev) : Dev :=
  let d := if d.lif.due then d.flush else d
  d.openingAudit.drainRecords

/-- Step 15: first snaps and first estimates. -/
def Dev.estimateStep (d : Dev) (m : MusterInputs) : Dev :=
  let d := m.snaps.foldl Dev.firstSnap d
  (if d.resuming then d.resumeEstimates else d.startEstimates).watchDue

/-- A guard in use without a test switch is unproven (R147). -/
def Dev.guardUnproven (d : Dev) : Bool := guards.any fun g => d.guardUsed g && !d.guardSwitch g && !d.guardProven g

/-- A Lockout that a fault of the muster has left due is entered (R156).
DEDUCED: notes/assumptions/20.md. -/
def Dev.lockWhenDue (d : Dev) : Dev :=
  if d.mode.lockDue = 0 then d
  else ({ d with mode := { d.mode with lockDue := 0 } } : Dev).enterLockout d.mode.lockDue d.mode.lockEpisode

/-- Step 16: Run (R135, R139, R140), and a Lockout that a fault of the muster has left due (R156).
DEDUCED: notes/assumptions/30.md. -/
def Dev.runStep (d : Dev) (m : MusterInputs) : Dev :=
  let d := { d with
    mode := { d.mode with mode := .run, bench := false, entering := false }
    sys := { d.sys with mstate := 0b10, attempts := 0, mtime := clampNat 0xFFFF m.duration } }
  let d := (d.found 8 d.guardUnproven).countDevice (if d.resuming then 3 else 2)
  ((d.notice 5 0 0).notice 0 0 0).lockWhenDue

/-! ### The sequence -/

/-- The step in progress carried out.
DEDUCED: notes/assumptions/30.md. -/
def Dev.musterStep (d : Dev) (m : MusterInputs) : Dev :=
  match d.sys.step with
  | 1 => d.startStep m
  | 2 => d.clockStep m
  | 3 => d.otpStep m
  | 4 => d.engineStep m
  | 5 => d.depotStep m
  | 6 => d.patchStep
  | 7 => d.manifestStep
  | 8 => d.ledgerStep
  | 9 => d.counterStep
  | 10 => d.sensingStep
  | 11 => d.diagStep m
  | 12 => d.guardStep m
  | 13 => d.chainStep m
  | 14 => d.authStep m
  | 15 => d.estimateStep m
  | _ => d.runStep m

/-- The step that follows: in the full muster the next one, on the resume path as R154 gives. -/
def stepAfter (resume digestOk : Bool) (n : Nat) : Nat :=
  if !resume then n + 1
  else match n with
    | 2 => 4
    | 4 => if digestOk then 10 else 6
    | 6 => 7
    | 7 => 10
    | 11 => 13
    | n => n + 1

/-- Steps until Run, a stop, or something else that happens first: a step that the inputs name, or a power-fail warning,
which halts muster at the end of its step (R67, R158). -/
def Dev.musterFrom : Nat → MusterInputs → Dev → Dev
  | 0, _, d => d
  | fuel + 1, m, d =>
    let n := d.sys.step
    let d := d.musterStep m
    if d.sys.mstate ≠ 0 then d
    else
      let d := { d with sys := { d.sys with step := stepAfter d.resuming m.digestOk n } }
      let d := if d.resuming && decide (n = 4) && !m.digestOk then d.found 15 true else d
      if d.powerFailing || decide (m.cutAfter = n) then
        { d with sys := { d.sys with todo := some { m with cutAfter := 0 } } }
      else Dev.musterFrom fuel m d

/-- A muster that was cut short goes on.
DESIGN CHOICE: notes/assumptions/6.md. -/
def Dev.musterOn (d : Dev) (m : MusterInputs) : Dev :=
  Dev.musterFrom 16 m { d with sys := { d.sys with todo := none } }

/-- RSTN is released: the full muster runs, unless TEST holds the reset (R135, R544). -/
def Dev.startUp (d : Dev) (m : MusterInputs) : Dev :=
  if m.test then { d with sup := { d.sup with inReset := true } }
  else Dev.musterFrom 16 m { d with sup := { d.sup with inReset := false } }

/-! ### The commands that reset and start -/

/-- A start waits for the supplies: no supply, RSTN low, or step 1 not begun.
DESIGN CHOICE: notes/assumptions/2.md. -/
def Dev.awaitsPower (d : Dev) : Bool :=
  !d.alive || (decide (d.mode.mode = Mode.muster) && decide (d.sys.mstate = 0) && decide (d.sys.step = 1) &&
    d.sys.todo.isNone)

/-- POWER_GOOD (R39, R40). -/
def execPowerGood (m : MusterInputs) (s : State) : Host.Outcome State Fault Refusal :=
  s.effect fun d =>
    if d.awaitsPower then ({ d with sup := { d.sup with powered := true } } : Dev).startUp m else d

/-- VSUP falls below the brown-out level: reset with cause BOR, and a new power cycle for R534. -/
def Dev.brownOut (d : Dev) : Dev :=
  if d.sup.powered then
    let d := d.resetWith causeBor
    { d with sup := { d.sup with powered := false, inReset := true }, dep := { d.dep with badSectors := [] } }
  else d

/-- BROWN_OUT. -/
def execBrownOut (s : State) : Host.Outcome State Fault Refusal := s.effect Dev.brownOut

/-- PIN_RESET: RSTN is driven low and released again. -/
def execPinReset (m : MusterInputs) (s : State) : Host.Outcome State Fault Refusal :=
  s.effect fun d => if d.sup.powered then (d.resetWith causePin).startUp m else d

/-- VAO stays below the retention threshold: the canary is cleared, the always-on domain falls back to the LF RC, and a
powered device resets at once (R43, R59).
DEDUCED: notes/assumptions/27.md. -/
def Dev.retentionLost (d : Dev) (m : MusterInputs) : Dev :=
  let d := { d with sup := { d.sup with canary := false, vaoDipped := true, lfrc := true } }
  if d.sup.powered then (d.resetWith 0).startUp m else d

/-- RETENTION_LOSS. -/
def execRetentionLoss (m : MusterInputs) (s : State) : Host.Outcome State Fault Refusal :=
  s.effect fun d => d.retentionLost m

/-- POWER_FAIL_RECOVERY: out of power-fail hold (R52, R53). -/
def execPowerFailRecovery (m : MusterInputs) (s : State) : Host.Outcome State Fault Refusal :=
  s.effect fun d => if d.alive && d.sup.pfHold then (d.resetWith causePfrec).startUp m else d

/-- A main clock failure: a class D trip, then the reset (R62). -/
def Dev.clockFails (d : Dev) (m : MusterInputs) : Dev :=
  if d.alive && d.sup.mainOsc then ((d.countDevice 13).resetWith causeClock).startUp m else d

/-- MAIN_CLOCK_FAILURE. -/
def execMainClockFailure (m : MusterInputs) (s : State) : Host.Outcome State Fault Refusal :=
  s.effect fun d => d.clockFails m

/-- The frame watchdog trips: a class D trip, then the reset (R91). -/
def Dev.watchdogTrips (d : Dev) (m : MusterInputs) : Dev :=
  if d.alive && d.sup.wdArmed then ((d.countDevice 13).resetWith causeWdog).startUp m else d

/-- FRAME_WATCHDOG_TRIP. -/
def execFrameWatchdogTrip (m : MusterInputs) (s : State) : Host.Outcome State Fault Refusal :=
  s.effect fun d => d.watchdogTrips m

/-- RESET (R65): without inputs the start waits for its POWER_GOOD. -/
def bodyReset (m : Option MusterInputs) (d : Dev) : Executed :=
  if d.seq.drover ≠ .openS ∧ d.seq.drover ≠ .lockout then (d, some rState)
  else
    let d := d.resetWith causeCmd
    match m with
    | some m => (d.startUp m, none)
    | none => (d, none)

/-- SUP_CMD RESET. -/
def execResetCmd (tok : Byte) (m : MusterInputs) (s : State) : Host.Outcome State Fault Refusal :=
  s.effect fun d => d.hostCommand .sup tok 0x02 (bodyReset (some m))

/-! ### Watch -/

/-- Watch entry completes (R11, R19, R21, R48, R357, R457, R539, R542): also in power-fail hold, which lasts on.
DEDUCED: notes/assumptions/34.md. -/
def Dev.enterWatch (d : Dev) : Dev :=
  let d := d.notice 0 0 0
  let d := d.endDiag.withdraw
  let d := if d.chn.running then d.sleepChain else d
  { d with
    mode := { d.mode with mode := .watch, bench := false, entering := false }
    evt := { d.evt with irqWatch := d.irq }
    sup := { d.sup with doms := {}, pllA := false, pllB := false, mainOsc := false, wdArmed := false }
    pwr := { d.pwr with duty := 0, cpOk := false }
    saf := { d.saf with testing := 0, gtst := 0, missing := 2 }
    est := { d.est with burst := false, delib := false, fitting := false, stepReq := false }
    dep := { d.dep with deepDown := d.dep.deepOk }
    chn := { d.chn with heldSnaps := [] }
    wakeDet := { call := d.can0.call, nbt := d.can0.nbt, errors := 0 }
    inh := false }

/-- The device is in Watch. -/
def Dev.inWatch (d : Dev) : Bool := d.alive && decide (d.mode.mode = Mode.watch)

/-- A cell with the values that a sweep has read for it.
DEDUCED: notes/assumptions/37.md. -/
def Cell.swept (r : SnapReading) (p : Fin 576) (c : Cell) : Cell :=
  c.enter (r.cells.getD (p.val % 18) 0) (r.temps.getD (Config.tempInput (p.val % 18) % 8) none) r.measFault

/-- One stage's values of a sweep entered; nothing is counted against the thresholds (R19).
DEDUCED: notes/assumptions/37.md. -/
def Dev.sweepStage (d : Dev) (r : SnapReading) : Dev :=
  { d with est := { d.est with
      cells := (stageCells r.stage).foldl (fun v p => modify v p (Cell.swept r p)) d.est.cells } }

/-- Watch hours and the minutes of LIF_STAT.AGE (R520): T_WATCH seconds with every sweep.
DEDUCED: notes/assumptions/37.md. -/
def Dev.watchTime (d : Dev) : Dev :=
  let n := d.lif.watchSec + field d.mode.watchcfg 0 10
  let minutes := n / 60 - d.lif.watchSec / 60
  let d := { d with lif := { d.lif with watchSec := n % 3600, age := clampNat 255 (d.lif.age + minutes) } }
  if 3600 ≤ n then d.countDevice 1 else d

/-- A sweep: the stages are woken and snapped, the cell values entered, and the stages sleep again (R11, R188). How many
frames read the snaps is open.
DEDUCED: notes/assumptions/37.md. -/
def Dev.sweep (d : Dev) (snaps : List SnapReading) : Dev :=
  let d := d.newPhase
  let d := (d.broadcast 0x06 [d.snapTimestamp]).freeSeq
  (snaps.foldl Dev.sweepStage d).watchTime.sleepChain

/-- WATCH_SWEEP. -/
def execWatchSweep (snaps : List SnapReading) (s : State) : Host.Outcome State Fault Refusal :=
  s.effect fun d => if d.inWatch then d.sweep snaps else d

/-- A sweep finding: a listed cell's voltage or temperature outside the first level (R22). -/
def Dev.sweepFinding (d : Dev) : Bool :=
  match d.man with
  | none => false
  | some m =>
    let t := safer m.th
    d.listedCells.any fun p =>
      let c := d.est.cells.get p
      decide (t.vHigh1 < (c.v : Int)) || decide ((c.v : Int) < t.vLow1) ||
      (match c.t with | some x => decide (t.tHigh1 < x) || decide (x < t.tLow1) | none => false)

/-- The bit of a wake source in MODE_WAKECFG and MODE_WAKECAUSE. -/
def wakeBit : WakeSource → Nat
  | .can0 => 0 | .call => 1 | .can1 => 2 | .wakePin => 3 | .csn => 4 | .rtc => 5 | .guard => 6 | .seal => 7 | .sweep => 8

/-- A wake source is enabled, with the CAN0 rules of CALL_ONLY (R22, R455, R456).
DEDUCED: notes/assumptions/35.md. -/
def Dev.wakeEnabled (d : Dev) (src : WakeSource) : Bool :=
  let on (n : Nat) : Bool := bit d.mode.wakecfg n
  match src with
  | .can0 => on 0 && (!on 1 || decide (32 ≤ d.wakeDet.errors))
  | .call => on 0 && on 1
  | .guard | .seal => true
  | .sweep => on 8 && d.sweepFinding
  | s => on (wakeBit s)

/-- A cause in MODE_WAKECAUSE. -/
def Dev.wakeCause (d : Dev) (n : Nat) : Dev :=
  { d with mode := { d.mode with wakecause := setFlag d.mode.wakecause n true } }

/-- The resume path begins (R23, R154); below V_PFW the shadow-only commit starts with it (R56).
DEDUCED: notes/assumptions/34.md. -/
def Dev.resume (d : Dev) (m : MusterInputs) : Dev :=
  let d := { d with
    inh := true, wakeDet := { d.wakeDet with errors := 0 }, mode := { d.mode with mode := .muster }, chn := { d.chn with phase := d.free }, free := d.free + 1
    sys := { d.sys with path := 0b10, mstate := 0b00, step := 2, failCode := 0, failDetail := 0, todo := none } }
  let d := if d.sup.pfWarn then d.pfMuster else d
  Dev.musterFrom 16 m d

/-- A wake source asserts: an entry is aborted, the resume path starts, or only the cause bit is set where it already
runs (R23, R33, R157). -/
def Dev.wake (d : Dev) (src : WakeSource) (m : MusterInputs) : Dev :=
  if !(d.alive && d.wakeEnabled src) then d
  else if d.inRun && d.mode.entering then
    let d := (d.wakeCause (wakeBit src)).wakeCause 9
    ({ d with mode := { d.mode with entering := false } } : Dev).notice 0 0 0
  else match d.mode.mode with
    | .watch => (d.wakeCause (wakeBit src)).resume m
    | .muster => if d.resuming && !d.stopped then d.wakeCause (wakeBit src) else d
    | .run => d

/-- WAKE. -/
def execWake (src : WakeSource) (m : MusterInputs) (s : State) : Host.Outcome State Fault Refusal :=
  s.effect fun d => d.wake src m

/-- The 8 bytes of the call data mask. -/
def callMask (call : Vector Word 6) : List Byte :=
  (be 3 (call.get 3).toNat ++ be 3 (call.get 4).toNat ++ be 3 (call.get 5).toNat).take 8

/-- A frame is the call (R456).
DEDUCED: notes/assumptions/35.md. -/
def isCall (call : Vector Word 6) (f : CanFrame) : Bool :=
  !f.fdf && !f.rtr && filterMatches (call.get 0) (call.get 1 ||| 0x800000) f &&
  decide (f.dlc.toNat = field (call.get 2) 0 4) &&
  ((f.data.zip (callMask call)).any fun x => decide (x.1 &&& x.2 ≠ 0))

/-- The call settings that the detector holds: the copies of the Watch entry, and before it completes the registers'
(R457).
DEDUCED: notes/assumptions/35.md. -/
def Dev.callSettings (d : Dev) : Vector Word 6 := if d.mode.mode = .watch then d.wakeDet.call else d.can0.call

/-- CALL: every valid classical frame lowers the error count (R456). -/
def execCall (f : CanFrame) (m : MusterInputs) (s : State) : Host.Outcome State Fault Refusal :=
  s.effect fun d =>
    let d := if d.inWatch && !f.fdf then { d with wakeDet := { d.wakeDet with errors := d.wakeDet.errors - 1 } } else d
    if isCall d.callSettings f then d.wake .call m else d

end Sys2Proof.Machine
end

