-- ==== Sys2Proof/Machine/Registers.lean ====
section
/-! DEFINITION. The register map (R3 to R8, R569 to R581): which addresses hold a register, in which clock domain, what
each register reads, and the multi-word values that a read captures. -/
namespace Sys2Proof.Machine

/-! ### Addresses -/

/-- The addresses that the register map lists (R569, R573). -/
def registerListed (a : Nat) : Bool :=
  let within (lo hi : Nat) : Bool := decide (lo ≤ a) && decide (a ≤ hi)
  within 0x000 0x004 || within 0x008 0x00B || within 0x020 0x025 || within 0x040 0x045 || within 0x050 0x054 ||
  within 0x060 0x066 || within 0x068 0x06F || within 0x080 0x08D || within 0x0A0 0x0AC || within 0x0C0 0x0F3 ||
  within 0x100 0x10D || within 0x110 0x114 || within 0x116 0x117 || within 0x120 0x148 || within 0x14A 0x15C ||
  within 0x160 0x169 || within 0x180 0x1B0 || within 0x1C0 0x1FD || within 0x200 0x20A || within 0x210 0x213 ||
  within 0x220 0x235 || within 0x238 0x23C

/-- The clock domain of an address's page; `none` for the always-on domain and the host interface (R571). -/
def accessDomain (a : Nat) : Option Domain :=
  if a < 0x020 then none
  else if a < 0x040 then some .per
  else if a < 0x080 then none
  else if a < 0x160 then some .per
  else if a < 0x180 then none
  else if a < 0x1C0 then some .per
  else if a < 0x200 then some .can
  else if a < 0x220 then none
  else if a < 0x240 then some .per
  else none

/-- The register lies in the always-on domain, so that a write to it takes a hold-and-flag crossing (R72). -/
def inAlwaysOn (a : Nat) : Bool :=
  decide (a < 0x020) || (decide (0x040 ≤ a) && decide (a < 0x080)) || (decide (0x160 ≤ a) && decide (a < 0x180))

/-! ### Field helpers -/

/-- Flags `f 0` to `f (n - 1)` from bit `lo` on. -/
def flagsFrom (lo n : Nat) (f : Nat → Bool) : Nat := ((List.range n).map fun i => flag (f i) (lo + i)).foldl (· + ·) 0

/-- The high and the low word of a 48-bit value. -/
def hiWord (n : Nat) : Word := word (n / 2 ^ 24 % 2 ^ 24)
def loWord (n : Nat) : Word := word (n % 2 ^ 24)

/-- A quantity as an unsigned field of `len` bits that saturates. -/
def fieldOf (len : Nat) (r : Rat) : Nat := clampNat (2 ^ len - 1) (natOf (quantise r))

/-- ENG_STAT.DROPPED and ENG_LASTCAUSE.ODD. -/
def passCode : Option Pass → Nat
  | none => 0 | some .lead => 1 | some .escort => 2 | some .rearguard => 3

/-- The OTP content is loaded: muster step 3 is behind (R570, R576). -/
def Dev.otpLoaded (d : Dev) : Bool :=
  !(decide (d.mode.mode = Mode.muster) && decide (d.sys.path = 0b01) && decide (d.sys.step ≤ 3))

/-! ### SYS, EVT, MODE and SEQ, SUP -/

/-- The SYS page.
DEDUCED: notes/assumptions/66.md. -/
def Dev.readSys (d : Dev) : Nat → Word
  | 0x00 => 0x864001
  | 0x01 => d.sys.fwver
  | 0x02 => word (d.sys.sn.toNat / 2 ^ 48)
  | 0x03 => hiWord d.sys.sn.toNat
  | 0x04 => loWord d.sys.sn.toNat
  | 0x08 => word (place d.sys.path.toNat 20 + place d.sys.mstate.toNat 18 + flag d.sys.romOnly 17 +
      flag d.sys.patchSlot 16 + flag d.sys.manSlot 15 + place d.sys.attempts.toNat 13 + d.sys.step % 32)
  | 0x09 => word (place d.sys.failCode.toNat 16 + d.sys.failDetail.toNat)
  | 0x0A => d.sys.find
  | 0x0B => word (clampNat 0xFFFF d.sys.mtime)
  | _ => 0

/-- The EVT page (R491). -/
def Dev.readEvt (d : Dev) : Nat → Word
  | 0 => d.evt.stat.setWidth 24
  | 1 => (d.evt.stat >>> 24).setWidth 24
  | 2 => (d.evt.stat >>> 48).setWidth 24
  | 3 => d.evt.mask.setWidth 24
  | 4 => (d.evt.mask >>> 24).setWidth 24
  | 5 => (d.evt.mask >>> 48).setWidth 24
  | _ => 0

/-- The MODE and SEQ page. -/
def Dev.readMode (d : Dev) : Nat → Word
  | 0x00 =>
    let locked := decide (d.seq.drover = Drover.lockout)
    word (place d.mode.lockCause.toNat 16 + flag d.insp.halted 9 + flag (locked && d.mode.bench) 4 +
      (if d.inRun then place d.runState.code 2 else 0) + d.mode.mode.code)
  | 0x02 => d.cmds.mode.result
  | 0x03 => d.mode.wakecfg
  | 0x04 => d.mode.wakecause
  | 0x05 => d.mode.watchcfg
  | 0x10 => word (place d.closedBits.toNat 8 + place d.seq.holdFrom.code 4 + d.seq.drover.code)
  | 0x12 => d.cmds.seq.result
  | 0x13 => word d.seqBlock
  | 0x14 => d.seq.holdcfg
  | _ => 0

/-- The SUP page. -/
def Dev.readSup (d : Dev) : Nat → Word
  | 0x0 => word (flag d.sup.pfHold 8 + flag d.sup.timeValid 7 + flag d.sup.lfrc 6 + flag d.sup.vbkLow 5 +
      flag d.sup.vbkAbsent 4 + flag d.sup.pfWarn 3 + flag d.sup.aoBackup 2 + d.sup.start.toNat)
  | 0x1 => d.sup.startReg
  | 0x2 => d.sup.pfcfg
  | 0x3 => d.sup.domreq
  | 0x4 =>
    let r := d.sup.doms
    word (flag d.sup.pllB 10 + flag d.sup.pllA 9 + flag d.sup.mainOsc 8 + flag true 7 + flag r.eng 5 + flag r.evo 4 +
      flag r.dep 3 + flag r.mod 2 + flag r.can 1 + flag r.per 0)
  | 0x5 => d.sup.clkcfg
  | 0x6 => d.sup.vmon
  | 0x8 => hiWord d.sup.rtc.toNat
  | 0x9 => loWord d.sup.rtc.toNat
  | 0xA => d.sup.tsetHi
  | 0xB => d.sup.tsetLo
  | 0xC => d.sup.alarmHi
  | 0xD => d.sup.alarmLo
  | 0xF => d.cmds.sup.result
  | _ => 0

/-! ### ENG, CHN -/

/-- ENG_STAT.UNCHECKED: a published result carries the unchecked mark (R111).
DEDUCED: notes/assumptions/38.md. -/
def Dev.unchecked (d : Dev) : Bool := d.eng.uncheckedC || d.eng.uncheckedB || d.uncheckedInputs

/-- The ENG page. ENG_STAT.RESOLVING reads 0 between commands: every resolution ends within its frame. -/
def Dev.readEng (d : Dev) : Nat → Word
  | 0x0 =>
    let permit := match d.man with | some m => m.splitC | none => false
    word (flag d.eng.degraded 14 + place (passCode d.eng.dropped) 12 + flag permit 11 + flag d.unchecked 10 +
      place d.eng.sAct.toNat 6 + place d.eng.cAct.toNat 4 + place d.eng.eAct.toNat 2 + d.eng.bAct.toNat)
  | 0x1 => d.eng.modecfg
  | 0x2 => d.eng.frame
  | 0x3 => word (place (d.eng.reserveMin % 1024) 10 + d.eng.busyPeak % 1024)
  | 0x4 => word (place d.eng.resolved 16 + place d.eng.storage 8 + d.eng.withheld)
  | 0x5 => word (place d.eng.oddLead 16 + place d.eng.oddEscort 8 + d.eng.oddRear)
  | 0x6 => word (place d.eng.eccDouble 16 + d.eng.eccSingle)
  | 0x7 => d.eng.cmptest
  | 0x8 => word (flag (d.eng.items.any fun x => x.fault) 23 + place d.eng.disagree 12 + d.eng.item.toNat)
  | 0x9 => d.eng.lastcause
  | 0xA => d.eng.ovf
  | 0xC => d.eng.ipcfg
  | 0xD => word (place d.insp.peak 8 + d.insp.replay.length)
  | _ => 0

/-- Sixteen stages from `lo` on, one bit each. -/
def Dev.stageBits (d : Dev) (lo : Nat) (p : Stage → Bool) : Word :=
  word (flagsFrom 0 16 fun i => p (d.chn.stages.get (Fin.ofNat 32 (lo + i))))

/-- The CHN page.
DEDUCED: notes/assumptions/66.md. -/
def Dev.readChn (d : Dev) : Nat → Word
  | 0x0 =>
    let mode := if !d.chn.running then 0 else if d.chn.intact then 1 else 2
    word (place mode 22 + flag d.chn.enumDone 21 + place d.chn.tagPeak 14 + place d.stagesFound 8 + d.chn.tags.length)
  | 0x1 =>
    if d.chn.intact then word (flag true 23)
    else word (flag (d.chn.running && d.ringGap) 22 + place d.chn.lastA 8 + d.chn.firstB)
  | 0x2 => d.chn.retrycfg
  | 0x3 => d.chn.stalecfg
  | 0x4 => d.stageBits 0 (·.present)
  | 0x5 => d.stageBits 16 (·.present)
  | 0x6 => d.stageBits 0 (·.stale)
  | 0x7 => d.stageBits 16 (·.stale)
  | 0x8 => word (place d.chn.crcA 12 + d.chn.crcB)
  | 0x9 => word (place d.chn.retries 12 + d.chn.failed)
  | 0xA => word (place d.chn.staleEv 12 + d.chn.snapLost)
  | 0xB => d.chn.ovf
  | _ => 0

/-! ### SEN, EST, LIM -/

/-- A signed value as a word. -/
def signedWord (i : Int) : Word := word (ofSigned 24 i)

/-- The temperature code of an NTC: 0x800 where it is invalid.
DEDUCED: notes/assumptions/53.md. -/
def ntcCode : Option Int → Nat
  | some t => ofSigned 12 t
  | none => 0x800

/-- Two AIN codes and two NTC temperatures of one register. -/
def Dev.ainPair (d : Dev) (i : Fin 4) : Word :=
  word (place (d.sen.ain.get ⟨2 * i.val + 1, by omega⟩) 12 + d.sen.ain.get ⟨2 * i.val, by omega⟩)
def Dev.ntcPair (d : Dev) (i : Fin 2) : Word :=
  word (place (ntcCode (d.sen.ntc.get ⟨2 * i.val + 1, by omega⟩)) 12 + ntcCode (d.sen.ntc.get ⟨2 * i.val, by omega⟩))

/-- The SEN page. -/
def Dev.readSen (d : Dev) : Nat → Word
  | 0x00 => d.sen.cfg
  | 0x01 => word (flag d.hallFitted 23 + place d.sen.frozen.toNat 12 + place d.sen.lost.toNat 6 +
      flag d.sen.settling 2 + flag d.sen.ovrSat 1 + flag d.sen.detSat 0)
  | 0x02 => d.sen.frzcfg
  | 0x03 => d.sen.plscfg
  | 0x04 => word (place d.sen.impl.toNat 8 + flag d.sen.none_ 4 + flag d.sen.disc 3 + d.sen.src.toNat)
  | 0x05 => signedWord d.sen.iPack
  | 0x06 => signedWord (d.sen.vals.get 0)
  | 0x07 => signedWord (d.sen.vals.get 1)
  | 0x08 => signedWord (d.sen.vals.get 2)
  | 0x09 => signedWord (d.sen.vals.get 3)
  | 0x0A => signedWord (d.sen.vals.get 4)
  | 0x0B => signedWord (d.sen.vals.get 5)
  | 0x0C => signedWord d.sen.hall
  | 0x0D => d.sen.gain.get 0
  | 0x0E => d.sen.gain.get 1
  | 0x0F => d.sen.gain.get 2
  | 0x10 => d.sen.gain.get 3
  | 0x11 => d.sen.ofs.get 0
  | 0x12 => d.sen.ofs.get 1
  | 0x13 => d.sen.ofs.get 2
  | 0x14 => d.sen.ofs.get 3
  | 0x15 => d.sen.gainH
  | 0x16 => d.sen.ofsH
  | 0x17 => d.ainPair 0
  | 0x18 => d.ainPair 1
  | 0x19 => d.ainPair 2
  | 0x1A => d.ainPair 3
  | 0x1B => d.ntcPair 0
  | 0x1C => d.ntcPair 1
  | 0x1D => d.sen.csacfg
  | 0x1E => word (place d.sen.det 12 + d.sen.ovr)
  | _ => 0

/-- The listed cells with a quantity of each. -/
def Dev.cellQuantity (d : Dev) (f : Cell → Rat) : List (Nat × Rat) :=
  d.listedCells.map fun p => (p.val, f (d.est.cells.get p))

/-- The extreme of a quantity over the listed cells with the index of a cell that has it; which of several equal ones is
named is open.
DESIGN CHOICE: notes/assumptions/25.md. -/
def extreme (high : Bool) (xs : List (Nat × Rat)) : Nat × Rat :=
  match xs with
  | [] => (0, 0)
  | x :: rest =>
    let m := rest.foldl (fun a y => if high then max a y.2 else min a y.2) x.2
    let at' := xs.filter fun y => decide (y.2 = m)
    ((at'.getD (Config.tie at'.length % at'.length) x).1, m)

/-- A cell index in bits 23 to 14 with a value below it. -/
def cellReg (x : Nat × Rat) (scale : Rat) (len : Nat) : Word := word (place x.1 14 + fieldOf len (x.2 * scale))

/-- The capacity and the default Rs_25 of the manifest. -/
def Dev.packCapacity (d : Dev) : Rat := match d.man with | some m => m.capacity | none => 1
def Dev.defaultRs (d : Dev) : Rat := match d.man with | some m => m.rs25 | none => 1

/-- The mean SoC of the listed cells. -/
def Dev.meanSoc (d : Dev) : Rat :=
  let xs := d.cellQuantity (·.soc)
  (xs.map (·.2)).foldl (· + ·) 0 / xs.length

/-- The EST page (R245). -/
def Dev.readEst (d : Dev) : Nat → Word
  | 0x00 => d.est.cfg
  | 0x01 => d.est.stepcfg
  | 0x02 => word (flag d.est.derated 3 + flag d.est.stepReq 2 + flag d.est.fitting 1 + flag d.est.burst 0)
  | 0x03 =>
    let xs := d.cellQuantity (·.soc)
    word (place (fieldOf 12 ((extreme false xs).2 * 1000)) 12 + fieldOf 12 ((extreme true xs).2 * 1000))
  | 0x04 => word (fieldOf 24 (d.meanSoc * 100000))
  | 0x05 => cellReg (extreme true (d.cellQuantity fun c => sqrtOf c.var)) 1000 10
  | 0x06 => hiWord (ofSigned 48 d.est.coulomb)
  | 0x07 => loWord (ofSigned 48 d.est.coulomb)
  | 0x08 => word (fieldOf 24 ((extreme false (d.cellQuantity (·.cap))).2 * 100))
  | 0x09 => cellReg (extreme false (d.cellQuantity fun c => c.cap / d.packCapacity)) 1000 10
  | 0x0A => cellReg (extreme true (d.cellQuantity fun c => c.rs / d.defaultRs)) 100 12
  | 0x0B => d.stageBits 0 (·.auth)
  | 0x0C => d.stageBits 16 (·.auth)
  | 0x0D => word (place d.est.authStage 18 + place d.est.authReason 15 + d.est.authFails)
  | 0x0E => word (place d.est.accepted 12 + d.est.rejected)
  | 0x0F => word (place d.est.requested 12 + d.est.missed)
  | 0x10 => d.est.ovf
  | 0x13 => d.cmds.est.result
  | _ => 0

/-- A limit register: the clamp flag and the limit in 0.1 A.
DESIGN CHOICE: notes/assumptions/25.md. -/
def limitReg (clamped : Bool) (v : Nat) : Word := word (flag clamped 23 + clampNat 0xFFFF v)

/-- LIM_CLASS of the fault that LIM_CLSEL names, once the manifest is loaded. -/
def Dev.classReg (d : Dev) : Word :=
  if d.man.isNone then 0
  else
    let f := field d.lim.clsel 0 6
    let x := d.faultFactor f
    let allowed := (faultRow f).2.1
    word (place (x.1 % 128) 17 + place (x.2 % 128) 10 + flag (allowed.contains .a) 6 + flag (allowed.contains .b) 7 +
      flag (allowed.contains .c) 8 + flag (allowed.contains .d) 9 +
      flag (d.lockoutFlag f && decide (d.faultClass f = FaultClass.d)) 5 + (classCode (d.faultClass f) - 1))

/-- LIM_WEARn. -/
def Dev.wearReg (d : Dev) (k : K) : Word := word (place (d.lim.underLoad.get k) 12 + fieldOf 12 (d.wear k * 1000))

/-- The LIM page. -/
def Dev.readLim (d : Dev) : Nat → Word
  | 0x00 => limitReg (d.lim.clampChg.get 0) (d.lim.chg.get 0)
  | 0x01 => limitReg (d.lim.clampChg.get 1) (d.lim.chg.get 1)
  | 0x02 => limitReg (d.lim.clampChg.get 2) (d.lim.chg.get 2)
  | 0x03 => limitReg (d.lim.clampDis.get 0) (d.lim.dis.get 0)
  | 0x04 => limitReg (d.lim.clampDis.get 1) (d.lim.dis.get 1)
  | 0x05 => limitReg (d.lim.clampDis.get 2) (d.lim.dis.get 2)
  | 0x06 => word (place d.lim.last 18 + place d.maxClass 16 + flag d.seq.grace 8 + flag d.clamped 7 +
      flag d.lim.classB 6 + flag d.est.derated 5 + place d.zcause 1 + flag d.limitsZero 0)
  | 0x07 => d.lim.brkcfg
  | 0x08 => d.faultBits.setWidth 24
  | 0x09 => (d.faultBits >>> 24).setWidth 24
  | 0x0A => d.lim.clsel
  | 0x0B => d.classReg
  | 0x0D => d.cmds.lim.result
  | 0x10 => d.wearReg 0
  | 0x11 => d.wearReg 1
  | 0x12 => d.wearReg 2
  | 0x13 => d.wearReg 3
  | 0x14 => d.lim.brklast
  | 0x16 => d.lim.ovf
  | _ => 0

/-! ### PWR -/

/-- PWR_LOOPSTAT.PHASEn. -/
def CoilPhase.code : CoilPhase → Nat
  | .released => 0 | .signature => 1 | .pullIn => 2 | .hold => 3 | .releasing => 4 | .openLoop => 5

/-- A number for each of the four channels, in fields of `len` bits from bit `lo` on. -/
def Dev.perCoil (d : Dev) (lo len : Nat) (f : Coil → Nat) : Nat :=
  (coils.map fun k => place (f (d.coil.get k)) (lo + len * k.val)).foldl (· + ·) 0

/-- The four kinds of registers of a contactor (0x14C to 0x15B). -/
def Coil.rcoil (c : Coil) : Word := word (fieldOf 16 c.rApp)
def Coil.ksig (c : Coil) : Word := word (place (fieldOf 12 c.tL) 12 + fieldOf 12 c.bL)
def Coil.klast (c : Coil) : Word :=
  word (place (clampNat 0x3FF c.tClose) 14 + place (clampNat 0x3FF c.tRel) 4 + flag c.unverified 3 + flag c.lastLearned 2)
def Coil.kfcast (c : Coil) : Word := word (place (fieldOf 10 (c.s * 1000)) 14 + clampNat 0x3FFF c.remain)

/-- The PWR page from 0x142 on: coil regulation. -/
def Dev.readCoilReg (d : Dev) : Nat → Word
  | 0x22 => d.pwr.kcur.get 0
  | 0x23 => d.pwr.kcur.get 1
  | 0x24 => d.pwr.kcur.get 2
  | 0x25 => d.pwr.kcur.get 3
  | 0x26 => d.pwr.coiltim
  | 0x27 => word (place d.seq.abort 20 + place d.seq.phase 16 + place (clampNat 3 d.recentAborts.length) 12)
  | 0x28 => word (place (clampNat 0xFFF d.seq.riseMs) 12 + clampNat 0xFFF d.seq.t95)
  | 0x2A => word (d.perCoil 20 1 (fun c => flag c.frozen 0) + d.perCoil 16 1 (fun c => flag c.lost 0) +
      d.perCoil 0 3 fun c => c.phase.code)
  | 0x2B => word (place d.pwr.proofFails 16 + flag d.pwr.proofValid 11 + flag d.pwr.proofSide 10 +
      place d.pwr.proofChannel 8)
  | 0x2C => (d.coil.get 0).rcoil
  | 0x2D => (d.coil.get 1).rcoil
  | 0x2E => (d.coil.get 2).rcoil
  | 0x2F => (d.coil.get 3).rcoil
  | 0x30 => (d.coil.get 0).ksig
  | 0x31 => (d.coil.get 1).ksig
  | 0x32 => (d.coil.get 2).ksig
  | 0x33 => (d.coil.get 3).ksig
  | 0x34 => (d.coil.get 0).klast
  | 0x35 => (d.coil.get 1).klast
  | 0x36 => (d.coil.get 2).klast
  | 0x37 => (d.coil.get 3).klast
  | 0x38 => (d.coil.get 0).kfcast
  | 0x39 => (d.coil.get 1).kfcast
  | 0x3A => (d.coil.get 2).kfcast
  | 0x3B => (d.coil.get 3).kfcast
  | _ => 0

/-- The frame mean of a coil current as PWR_ICOILn. -/
def Dev.coilReg (d : Dev) (k : K) : Word := word (ofSigned 16 (d.coil.get k).mean)

/-- The PWR page. -/
def Dev.readPwr (d : Dev) : Nat → Word
  | 0x00 => word (flag (d.lim.latched.getLsbD 28) 23 + flag d.pwr.drvEn 22 + flag d.pwr.cpOk 21 + flag d.pwr.dumpOn 20 +
      flag d.pwr.dumpDis 19 + flag d.pwr.extRevoked 18 + flag d.pwr.tachLost 17 + flag d.pwr.tachFrozen 16 +
      flag d.pumpExt 15 + flag d.pwr.diagSeq 14)
  | 0x01 => word (place d.pwr.fltCause.toNat 16 + place d.pwr.fltWhere.toNat 12)
  | 0x02 => word d.pwr.causes.toNat
  | 0x04 => d.cmds.pwr.result
  | 0x05 => word (flag d.pwr.diagDone 23 + flag d.pwr.diagPass 22 + d.pwr.verdicts.toNat)
  | 0x06 => word (flag d.pwr.ctstPass 23 + place d.pwr.ctstFails 8 + d.pwr.ctstFirst)
  | 0x07 => d.pwr.vcfg
  | 0x08 => d.pwr.soft
  | 0x09 => d.pwr.oc
  | 0x0A => d.pwr.ocp
  | 0x0B => d.pwr.gdrv.get 0
  | 0x0C => d.pwr.gdrv.get 1
  | 0x0D => d.pwr.gdrv.get 2
  | 0x0E => d.pwr.gdrv.get 3
  | 0x0F => d.pwr.gdrv.get 4
  | 0x10 => d.pwr.gdrv.get 5
  | 0x11 => d.pwr.vds.get 0
  | 0x12 => d.pwr.vds.get 1
  | 0x13 => d.pwr.vds.get 2
  | 0x14 => d.pwr.vds.get 3
  | 0x15 => d.pwr.vds.get 4
  | 0x16 => d.pwr.vds.get 5
  | 0x17 => d.pwr.pumpcfg
  | 0x18 => word (place d.pwr.pumpSet 12 + d.pwr.pumpMeas)
  | 0x19 => word d.pwr.duty
  | 0x1A => d.coilReg 0
  | 0x1B => d.coilReg 1
  | 0x1C => d.coilReg 2
  | 0x1D => d.coilReg 3
  | 0x1E => word (ofSigned 16 (quantise ((d.pwr.iPump : Rat) / 10)))
  | 0x1F => word (place (fieldOf 12 ((d.pwr.vcp : Rat) / 20)) 12 + fieldOf 12 ((d.pwr.vcoils : Rat) / 20))
  | 0x20 => word (place d.pwr.conflict 16 + place d.pwr.ilim 8 + place d.pwr.trips 2 + flag d.pwr.cntOvf 0)
  | o => d.readCoilReg o

/-! ### SAF, TOL, LGR -/

/-- One bit per used guard once the guard kinds are loaded (R355). -/
def Dev.guardBits (d : Dev) (lo : Nat) (p : Fin 4 → Bool) : Nat :=
  if d.saf.kindsLoaded then flagsFrom lo 4 fun i => d.guardUsed (Fin.ofNat 4 i) && p (Fin.ofNat 4 i) else 0

/-- The SAF page. -/
def Dev.readSaf (d : Dev) : Nat → Word
  | 0x0 => d.saf.gkind.setWidth 24
  | 0x1 => d.saf.gfilt
  | 0x2 => word (place d.saf.raw.toNat 16 + d.guardBits 12 d.guardProven + d.guardBits 8 (fun g => d.saf.disc.getLsbD g.val) +
      d.guardBits 4 (fun g => !d.guardClosed g) + d.guardBits 0 d.guardClosed)
  | 0x3 => word (flag d.saf.granted 23 + place d.saf.testing.toNat 8 +
      (if d.saf.kindsLoaded then d.why else 0x1F))
  | 0x4 => word (flag d.saf.latch 23 + d.saf.src.toNat)
  | 0x6 => d.cmds.saf.result
  | 0x7 => word (place d.saf.opens 12 + d.saf.discs)
  | 0x8 => d.saf.ovf
  | _ => 0

/-- An accumulator in mJ as its register reads it: floor(accumulator / 360 000) (R379).
DEDUCED: notes/assumptions/66.md. -/
def tenthWh (mJ : Nat) : Nat := mJ / 360000

/-- The TOL page.
DEDUCED: notes/assumptions/66.md. -/
def Dev.readTol (d : Dev) : Nat → Word
  | 0x00 => word (place d.tol.session.code 21 + flag d.tol.stop 20 + flag d.tol.stopInput 19 + flag d.tol.stopStaging 18 +
      flag d.tol.tamper 17 + flag d.tol.paramBad 16 + place d.tol.refuse 12 + flag d.tol.pulseOvf 11 + d.tol.owed)
  | 0x02 => d.cmds.tol.result
  | 0x03 => hiWord (tenthWh d.tol.exp)
  | 0x04 => loWord (tenthWh d.tol.exp)
  | 0x05 => hiWord (tenthWh d.tol.imp)
  | 0x06 => loWord (tenthWh d.tol.imp)
  | 0x07 => hiWord (tenthWh d.tol.sexp)
  | 0x08 => loWord (tenthWh d.tol.sexp)
  | 0x09 => hiWord (tenthWh d.tol.simp)
  | 0x0A => loWord (tenthWh d.tol.simp)
  | 0x0B => word d.tol.sessionId
  | 0x0C => d.tol.tagReg.get 0
  | 0x0D => d.tol.tagReg.get 1
  | 0x0E => d.tol.tagReg.get 2
  | 0x0F => d.tol.tagReg.get 3
  | 0x10 => d.tol.tagReg.get 4
  | 0x11 => d.tol.tagReg.get 5
  | 0x12 => d.tol.gainV
  | 0x13 => d.tol.ofsV
  | 0x14 => d.tol.gainI
  | 0x15 => d.tol.ofsI
  | 0x16 => d.tol.rcable
  | 0x17 => d.tol.pulse
  | 0x18 => d.tol.cfg
  | 0x19 => d.tol.swid
  | 0x1A => wordOf d.tol.digest 0
  | 0x1B => d.tol.shasel
  | 0x1C => wordOf (d.tol.digest.take 32) (field d.tol.shasel 0 4)
  | 0x1D => word d.tol.audit
  | 0x1E => word (flag d.tol.sealOpen 23 + flag d.tol.enclOpen 22 + flag d.tol.opened 21 + flag d.tol.seal1 1 +
      flag d.tol.seal0 0)
  | 0x1F => wordOf d.tol.pdig 0
  | _ => 0

/-- The LGR page.
DEDUCED: notes/assumptions/56.md. -/
def Dev.readLgr (d : Dev) : Nat → Word
  | 0x00 =>
    let on := d.lgr.loaded
    word (flag (on && decide (d.lgr.free = 0)) 23 + flag (on && decide (d.lgr.free < field d.lgr.cfg 0 11)) 22 +
      flag d.lgr.depotErr 21 + flag d.lgr.corrupt 20 + flag d.lgr.committing 19 + d.staged)
  | 0x01 => hiWord d.lgr.next
  | 0x02 => loWord d.lgr.next
  | 0x03 => hiWord d.lgr.commit
  | 0x04 => loWord d.lgr.commit
  | 0x05 => hiWord d.lgr.ack
  | 0x06 => loWord d.lgr.ack
  | 0x07 => d.lgr.acksetHi
  | 0x08 => d.lgr.acksetLo
  | 0x09 => if d.lgr.loaded then word d.lgr.free else 0
  | 0x0A => d.lgr.cfg
  | 0x0C => d.cmds.lgr.result
  | 0x0D => word (place d.lgr.recovered 16 + place d.lgr.damaged 8 + d.lgr.corruptCnt)
  | 0x0E => d.lgr.bad
  | 0x0F => d.lgr.certsel
  | 0x10 => if d.otpLoaded then wordOf certBytes (field d.lgr.certsel 0 6) else 0
  | _ => 0

/-! ### CAN -/

/-- The frame that CANx_RXSEL.SEL selects (R452).
DEDUCED: notes/assumptions/39.md. -/
def Can.selected (c : Can) : Option CanFrame :=
  let s := field c.rxsel 8 5
  if h : s < 16 then c.mbox.get ⟨s, h⟩ else c.rxfifo.head?

/-- CANx_RXINFO of a frame. -/
def infoWord (f : CanFrame) : Word :=
  word (flag true 23 + flag f.ide 22 + flag f.fdf 21 + flag f.brs 20 + flag f.rtr 19 + place (f.id.toNat / 2 ^ 24) 14 +
    place f.dlc.toNat 10)

/-- The mailbox and the timetable entry that MBSEL and TTSEL show. -/
def Can.mbIndex (c : Can) : Fin 16 := Fin.ofNat 16 (field c.mbsel 0 4)
def Can.ttIndex (c : Can) : Fin 32 := Fin.ofNat 32 (field c.ttsel 0 5)

/-- The watermark registers of the two FIFOs. -/
def Can.txwmReg (c : Can) : Word :=
  word (place c.txwm.count 16 + flag (decide (field c.wmcfg 8 5 ≤ c.fifo.length)) 15 + flag c.txwm.latched 14 +
    place (clampNat 31 c.txwm.peak) 8)
def Can.rxwmReg (c : Can) : Word :=
  word (place c.rxwm.count 16 + flag (decide (field c.wmcfg 0 7 ≤ c.rxfifo.length)) 15 + flag c.rxwm.latched 14 +
    place (clampNat 127 c.rxwm.peak) 7 + c.rxfifo.length)

/-- The group of CAN0_CALLVAL that CAN0_CALLSEL shows.
DEDUCED: notes/assumptions/39.md. -/
def Can.callGroup (c : Can) : Option (Fin 6) := let g := field c.callsel 0 3; if h : g < 6 then some ⟨g, h⟩ else none

/-- The page of a CAN channel; `res` is its command result. -/
def Can.read (c : Can) (first : Bool) (res : Word) : Nat → Word
  | 0x00 => c.cfg
  | 0x01 => c.nbt
  | 0x02 => c.dbt
  | 0x03 => c.tdc
  | 0x04 => word (place c.state.toNat 22 + place c.ovf.toNat 16 + place (clampNat 255 c.tec) 8 + clampNat 255 c.rec_)
  | 0x06 => res
  | 0x07 => c.cmdarg
  | 0x08 => c.txid
  | 0x09 => c.txinfo
  | 0x0B => word (place c.lastTag 19 + place c.lastOut 16 + c.fifo.length)
  | 0x0C => c.txwmReg
  | 0x0D => c.rxwmReg
  | 0x0E => c.wmcfg
  | 0x0F => c.rxsel
  | 0x10 => match c.selected with | some f => word f.id.toNat | none => 0
  | 0x11 => match c.selected with | some f => infoWord f | none => 0
  | 0x12 => match c.selected with | some f => wordOf f.data (field c.rxsel 0 5) | none => 0
  | 0x13 => c.mbnew.setWidth 24
  | 0x14 => c.mbsel
  | 0x15 => c.mbid.get c.mbIndex
  | 0x16 => c.mbmask.get c.mbIndex
  | 0x17 => word ((c.ttcfg &&& 0x8000FF).toNat + place (clampNat 255 c.missed) 8)
  | 0x18 => c.ttsel
  | 0x19 => (c.tt.get c.ttIndex).ent
  | 0x1A => c.hcfg
  | 0x1B => c.pubcfg
  | 0x1C => word (place c.retries 12 + c.txfail)
  | 0x1D => word (place c.rxovr 16 + place c.mblost 8 + c.hto)
  | 0x1E => if first then c.callsel else 0
  | 0x1F => if first then (match c.callGroup with | some g => c.call.get g | none => 0) else 0
  | _ => 0

/-! ### HST and windows, DEP and LIF -/

/-- The words of each window (R485, R515, R520, R530). -/
def windowWords : Nat → Nat
  | 0 => 21846 | 1 => 4608 | 2 => 132096 | 3 => 342 | 4 => 11 * 131072 | 5 => 6848 | 6 => 1024 | _ => 0

/-- The selected window. -/
def Dev.window (d : Dev) : Nat := field d.hst.winSel 0 3

/-- WIN_SIZE: the words of the selected window; 0 for a window of the depot until step 5 of a full muster has brought the
depot up, as the reset column has it (R485, R570, notes/assumptions/38.md).
DEDUCED: notes/assumptions/38.md. -/
def Dev.windowSize (d : Dev) : Nat :=
  if d.window ≠ 1 ∧ d.window ≠ 6 ∧ d.mode.mode = .muster ∧ d.sys.path = 0b01 ∧ d.sys.step ≤ 5 then 0
  else windowWords d.window

/-- The HST and window registers but for WIN_DATA. -/
def Dev.readHst (d : Dev) : Nat → Word
  | 0x00 => d.hst.lasterr
  | 0x01 => word (place d.hst.errCrc 12 + d.hst.errOther)
  | 0x02 => d.hst.ovf
  | 0x03 => d.cfgInc.setWidth 24
  | 0x05 => d.cmds.hst.result
  | 0x06 => d.hst.cmdarg
  | 0x07 => word d.evqLevel
  | 0x08 => d.hst.evqwm.reg d.evqHigh d.evqLevel
  | 0x09 => d.hst.evqcfg
  | 0x0A => d.hst.wmovf
  | 0x10 => d.hst.winSel
  | 0x11 => d.hst.winAddr
  | 0x13 => word d.windowSize
  | _ => 0

/-- Lines of the accumulation RAM that hold increments. -/
def Dev.lineLevel (d : Dev) : Nat := ((List.range 64).filter fun i => d.lif.lines.getLsbD i).length

/-- The HIGH fields of DEP_WMCFG. -/
def Dev.tagHigh (d : Dev) : Nat := field d.dep.wmcfg 16 6
def Dev.stgHigh (d : Dev) : Nat := field d.dep.wmcfg 8 4
def Dev.histHigh (d : Dev) : Nat := field d.dep.wmcfg 0 7

/-- The log head has been found: muster step 5 is behind (R570).
DEDUCED: notes/assumptions/38.md. -/
def Dev.depLoaded (d : Dev) : Bool :=
  !(decide (d.mode.mode = Mode.muster) && decide (d.sys.path = 0b01) && decide (d.sys.step ≤ 5))

/-- The DEP and LIF page. -/
def Dev.readDep (d : Dev) : Nat → Word
  | 0x00 => word (flag d.dep.cs0Ok 23 + flag d.dep.cs1Ok 22 + flag d.dep.quad 21 + flag d.dep.pinOvf 20 +
      flag d.dep.logBad 19 + place d.evt.shed 17 + flag d.dep.flushing 16)
  | 0x01 => d.dep.cfg
  | 0x02 => d.dep.id0
  | 0x03 => d.dep.id1
  | 0x05 => d.cmds.dep.result
  | 0x06 => d.dep.argHi
  | 0x07 => d.dep.argLo
  | 0x08 => if d.depLoaded then hiWord d.dep.logSeq else 0
  | 0x09 => if d.depLoaded then loWord d.dep.logSeq else 0
  | 0x0A => if d.depLoaded then hiWord d.dep.unpin else 0
  | 0x0B => if d.depLoaded then loWord d.dep.unpin else 0
  | 0x0C => if d.depLoaded then word d.dep.pinned.length else 0
  | 0x0D => word (place d.dep.coalesced 12 + d.dep.diag)
  | 0x0E => word (place d.dep.txref 12 + d.dep.hostq)
  | 0x0F => word (place d.dep.err0 12 + d.dep.err1)
  | 0x10 => d.dep.ovf
  | 0x11 => d.dep.tagwm.reg d.tagHigh d.chn.tags.length
  | 0x12 => d.dep.stgwm.reg d.stgHigh d.staged
  | 0x13 => d.dep.histwm.reg d.histHigh d.lineLevel
  | 0x14 => d.dep.wmcfg
  | 0x18 => word (place (clampNat 255 d.lif.age) 16 + flag d.lif.copy 15)
  | 0x19 => d.lif.sat
  | 0x1B => d.cmds.lif.result
  | 0x1C => d.lif.cmdarg
  | _ => 0

/-! ### The whole map -/

/-- What a register reads, without a side effect; reserved addresses read 0 (R573). -/
def Dev.peek (d : Dev) (a : Nat) : Word :=
  if a < 0x020 then d.readSys a
  else if a < 0x040 then d.readEvt (a - 0x020)
  else if a < 0x060 then d.readMode (a - 0x040)
  else if a < 0x080 then d.readSup (a - 0x060)
  else if a < 0x0A0 then d.readEng (a - 0x080)
  else if a < 0x0C0 then d.readChn (a - 0x0A0)
  else if a < 0x0E0 then d.readSen (a - 0x0C0)
  else if a < 0x100 then d.readEst (a - 0x0E0)
  else if a < 0x120 then d.readLim (a - 0x100)
  else if a < 0x160 then d.readPwr (a - 0x120)
  else if a < 0x180 then d.readSaf (a - 0x160)
  else if a < 0x1A0 then d.readTol (a - 0x180)
  else if a < 0x1C0 then d.readLgr (a - 0x1A0)
  else if a < 0x1E0 then d.can0.read true d.cmds.can0.result (a - 0x1C0)
  else if a < 0x200 then d.can1.read false d.cmds.can1.result (a - 0x1E0)
  else if a < 0x220 then d.readHst (a - 0x200)
  else if a < 0x240 then d.readDep (a - 0x220)
  else 0

/-- The captured values of R575: lowest address and number of words. -/
def capturedValues : List (Nat × Nat) :=
  [(0x002, 3), (0x068, 2), (0x0E6, 2), (0x183, 2), (0x185, 2), (0x187, 2), (0x189, 2), (0x1A1, 2), (0x1A3, 2),
   (0x1A5, 2), (0x228, 2), (0x22A, 2)]

/-- The captured value that an address belongs to. -/
def capturedAt (a : Nat) : Option (Nat × Nat) := capturedValues.find? fun v => decide (v.1 ≤ a) && decide (a < v.1 + v.2)

/-- The words of a captured value as they stand. -/
def Dev.liveWords (d : Dev) (v : Nat × Nat) : List Word := (List.range v.2).map fun i => d.peek (v.1 + i)

/-- A read of a captured value's word (R6): the lowest address captures the whole value; another word returns its
captured part, or the live word while nothing has been captured. -/
def Dev.readCaptured (d : Dev) (v : Nat × Nat) (a : Nat) : Dev × Word :=
  let key : Addr := BitVec.ofNat 12 v.1
  if a = v.1 then
    let ws := d.liveWords v
    ({ d with hst := { d.hst with captured := (key, ws) :: d.hst.captured.filter fun c => c.1 ≠ key } }, d.peek a)
  else match d.hst.captured.find? fun c => c.1 = key with
    | some c => (d, c.2.getD (a - v.1) 0)
    | none => (d, d.peek a)

/-- CANx_RXSEL.IDX moves on after a read of CANx_RXDAT (R452).
DEDUCED: notes/assumptions/39.md. -/
def Can.nextGroup (c : Can) : Can :=
  { c with rxsel := (c.rxsel &&& 0x001F00) ||| word ((field c.rxsel 0 5 + 1) % 32) }

/-- A read of a register with its side effect, WIN_DATA excepted. -/
def Dev.readReg (d : Dev) (a : Nat) : Dev × Word :=
  match capturedAt a with
  | some v => d.readCaptured v a
  | none =>
    if a = 0x1D2 then ({ d with can0 := d.can0.nextGroup }, d.peek a)
    else if a = 0x1F2 then ({ d with can1 := d.can1.nextGroup }, d.peek a)
    else (d, d.peek a)

end Sys2Proof.Machine
end

