-- ==== Sys2Proof/Machine/Settings.lean ====
section
/-! DEFINITION. Writes to registers (R8, R29, R398, R402, R487, R497, R498, R572 to R574, R580, R581): what each
accepts, what it changes, and with which error it is refused. -/
namespace Sys2Proof.Machine

/-! ### Shared forms -/

/-- What a write does: the device after it, or the error with which it is refused (R479). -/
abbrev Written := Except Nat Dev

/-- The writable bits of a register taken from the data; RO fields and reserved bits keep their values (R8). -/
def mergeBits (old data mask : Word) : Word := (old &&& ~~~mask) ||| (data &&& mask)

/-- W1C flags after a write (R8). -/
def w1c (old data mask : Word) : Word := old &&& ~~~(data &&& mask)

/-- RWL fields are locked: the drover is in CLOSED or OUTPUT (R29). -/
def Dev.rwlLocked (d : Dev) : Bool := decide (d.seq.drover = Drover.closed) || decide (d.seq.drover = Drover.output)

/-- A write that would change a locked RWL field (R572). -/
def Dev.lockRefuses (d : Dev) (old data rwl : Word) : Bool :=
  d.rwlLocked && decide (old &&& rwl ≠ data &&& rwl)

/-- A write of settings: the range check first (R581), then the lock (R572), then the writable bits `rw` change; `rwl`
are those that the lock covers. -/
def Dev.store (d : Dev) (old data rw rwl : Word) (inRange : Bool) (set : Word → Dev) : Written :=
  if !inRange then .error 4 else if d.lockRefuses old data rwl then .error 4 else .ok (set (mergeBits old data rw))

/-- A field lies within a range. -/
def inField (data : Word) (lo len least greatest : Nat) : Bool :=
  decide (least ≤ field data lo len) && decide (field data lo len ≤ greatest)

/-- A watermark register's LATCHED written (R498): LATCHED, COUNT and the queue's HST_WMOVF bit clear, and PEAK restarts. -/
def Dev.clearWmovf (d : Dev) (q : Nat) : Dev :=
  { d with hst := { d.hst with wmovf := d.hst.wmovf &&& ~~~word (2 ^ q) } }

/-- The bits of one EVT_STAT or EVT_MASK register at their place among the 64 sources. -/
def evtBits (n : Nat) (data : Word) : BitVec 64 := data.setWidth 64 <<< (24 * n)

/-! ### SYS, EVT, MODE and SEQ, SUP -/

/-- The SYS page. -/
def Dev.writeSys (d : Dev) (data : Word) : Nat → Written
  | 0x0A => .ok { d with sys := { d.sys with find := w1c d.sys.find data 0x00FFFF } }
  | _ => .error 4

/-- The EVT page. -/
def Dev.writeEvt (d : Dev) (data : Word) : Nat → Written
  | 0 => .ok { d with evt := { d.evt with stat := d.evt.stat &&& ~~~evtBits 0 data } }
  | 1 => .ok { d with evt := { d.evt with stat := d.evt.stat &&& ~~~evtBits 1 data } }
  | 2 => .ok { d with evt := { d.evt with stat := d.evt.stat &&& ~~~evtBits 2 data } }
  | 3 => .ok { d with evt := { d.evt with mask := (d.evt.mask &&& ~~~evtBits 0 0xFFFFFF) ||| evtBits 0 data } }
  | 4 => .ok { d with evt := { d.evt with mask := (d.evt.mask &&& ~~~evtBits 1 0xFFFFFF) ||| evtBits 1 data } }
  | 5 => .ok { d with evt := { d.evt with mask := (d.evt.mask &&& ~~~evtBits 2 0xFFFFFF) ||| evtBits 2 data } }
  | _ => .error 4

/-- The MODE and SEQ page. -/
def Dev.writeMode (d : Dev) (data : Word) : Nat → Written
  | 0x03 => d.store d.mode.wakecfg data 0x00013F 0 true fun w => { d with mode := { d.mode with wakecfg := w } }
  | 0x04 => .ok { d with mode := { d.mode with wakecause := w1c d.mode.wakecause data 0x0003FF } }
  | 0x05 => d.store d.mode.watchcfg data 0x0003FF 0x0003FF (inField data 0 10 1 600) fun w =>
      { d with mode := { d.mode with watchcfg := w } }
  | 0x14 => d.store d.seq.holdcfg data 0x0003FF 0 (inField data 0 10 1 600) fun w =>
      { d with seq := { d.seq with holdcfg := w } }
  | _ => .error 4

/-- The SUP page (R70: the staging registers change nothing else). -/
def Dev.writeSup (d : Dev) (data : Word) : Nat → Written
  | 0x1 => .ok { d with sup := { d.sup with startReg := w1c d.sup.startReg data 0x00807F } }
  | 0x2 => d.store d.sup.pfcfg data 0x00000F 0 true fun w => { d with sup := { d.sup with pfcfg := w } }
  | 0x3 => d.store d.sup.domreq data 0x00001F 0 true fun w => { d with sup := { d.sup with domreq := w } }
  | 0x5 => d.store d.sup.clkcfg data 0x000003 0 true fun w => { d with sup := { d.sup with clkcfg := w } }
  | 0xA => .ok { d with sup := { d.sup with tsetHi := data } }
  | 0xB => .ok { d with sup := { d.sup with tsetLo := data } }
  | 0xC => .ok { d with sup := { d.sup with alarmHi := data } }
  | 0xD => .ok { d with sup := { d.sup with alarmLo := data } }
  | _ => .error 4

/-! ### ENG, CHN -/

/-- ENG_CLR: each bit clears its counters with their overflow flags. -/
def Eng.clear (e : Eng) (data : Word) : Eng :=
  let e := if bit data 0 then { e with resolved := 0, storage := 0, withheld := 0, ovf := e.ovf &&& ~~~0x000007 } else e
  let e := if bit data 1 then { e with oddLead := 0, oddEscort := 0, oddRear := 0, ovf := e.ovf &&& ~~~0x000038 } else e
  let e := if bit data 2 then { e with eccDouble := 0, eccSingle := 0, ovf := e.ovf &&& ~~~0x0000C0 } else e
  let e := if bit data 3 then { e with reserveMin := 0x3E8, busyPeak := 0 } else e
  if bit data 4 then { e with disagree := 0, ovf := e.ovf &&& ~~~0x000100 } else e

/-- ENG_MODECFG holds no code 0b11, and class S no Split (R125). -/
def modecfgOk (data : Word) : Bool :=
  decide (field data 0 2 ≤ 2) && decide (field data 2 2 ≤ 2) && decide (field data 4 2 ≤ 2) && decide (field data 6 2 ≤ 1)

/-- The ENG page. -/
def Dev.writeEng (d : Dev) (data : Word) : Nat → Written
  | 0x1 => d.store d.eng.modecfg data 0x0000FF 0x0000F0 (modecfgOk data) fun w =>
      { d with eng := { d.eng with modecfg := w } }
  | 0xA => .ok { d with eng := { d.eng with ovf := w1c d.eng.ovf data 0x0001FF } }
  | 0xB => .ok { d with eng := d.eng.clear data }
  | 0xC => .ok { d with eng := { d.eng with ipcfg := d.eng.ipcfg ||| (data &&& 0x000001) } }
  | _ => .error 4

/-- CHN_CLR: each bit clears its counters with their overflow flags.
DEDUCED: notes/assumptions/39.md. -/
def Chn.clear (c : Chn) (data : Word) : Chn :=
  let c := if bit data 0 then { c with tagPeak := 0 } else c
  let c := if bit data 1 then { c with crcA := 0, crcB := 0, ovf := c.ovf &&& ~~~0x000003 } else c
  let c := if bit data 2 then { c with retries := 0, failed := 0, ovf := c.ovf &&& ~~~0x00000C } else c
  if bit data 3 then { c with staleEv := 0, snapLost := 0, ovf := c.ovf &&& ~~~0x000030 } else c

/-- The CHN page; the retry budget stays within half of T_STALE (R189). -/
def Dev.writeChn (d : Dev) (data : Word) : Nat → Written
  | 0x2 =>
    let w := mergeBits d.chn.retrycfg data 0xFFFF07
    let c := { d.chn with retrycfg := w }
    d.store d.chn.retrycfg data 0xFFFF07 0 (inField data 16 8 1 100 && c.retryOk) fun _ => { d with chn := c }
  | 0x3 =>
    let w := mergeBits d.chn.stalecfg data 0x000FFF
    let c := { d.chn with stalecfg := w }
    d.store d.chn.stalecfg data 0x000FFF 0x000FFF (inField data 0 12 200 2000 && c.retryOk) fun _ => { d with chn := c }
  | 0xB => .ok { d with chn := { d.chn with ovf := w1c d.chn.ovf data 0x00003F } }
  | 0xC => .ok { d with chn := d.chn.clear data }
  | _ => .error 4

/-! ### SEN, EST, LIM -/

/-- A write of SEN_CFG: a change takes effect at the next decimation boundary (R72, R221).
DESIGN CHOICE: notes/assumptions/40.md. -/
def Dev.setSenCfg (d : Dev) (w : Word) : Dev := { d with sen := { d.sen with cfg := w } }

/-- A coefficient of an input, all of it RWL (R221). -/
def Dev.storeGain (d : Dev) (data : Word) (i : Fin 4) : Written :=
  d.store (d.sen.gain.get i) data 0xFFFFFF 0xFFFFFF true fun w => { d with sen := { d.sen with gain := upd d.sen.gain i w } }
def Dev.storeOfs (d : Dev) (data : Word) (i : Fin 4) : Written :=
  d.store (d.sen.ofs.get i) data 0xFFFFFF 0xFFFFFF true fun w => { d with sen := { d.sen with ofs := upd d.sen.ofs i w } }

/-- The SEN page. -/
def Dev.writeSen (d : Dev) (data : Word) : Nat → Written
  | 0x00 => d.store d.sen.cfg data 0x0000FF 0x0000FF (inField data 0 2 0 2) d.setSenCfg
  | 0x01 => .ok { d with sen := { d.sen with ovrSat := d.sen.ovrSat && !bit data 1, detSat := d.sen.detSat && !bit data 0 } }
  | 0x02 => d.store d.sen.frzcfg data 0x0000FF 0 (inField data 0 8 1 255) fun w => { d with sen := { d.sen with frzcfg := w } }
  | 0x03 => d.store d.sen.plscfg data 0x00FFFF 0x00FFFF (inField data 0 8 1 255 && inField data 8 8 1 255) fun w =>
      { d with sen := { d.sen with plscfg := w } }
  | 0x0D => d.storeGain data 0
  | 0x0E => d.storeGain data 1
  | 0x0F => d.storeGain data 2
  | 0x10 => d.storeGain data 3
  | 0x11 => d.storeOfs data 0
  | 0x12 => d.storeOfs data 1
  | 0x13 => d.storeOfs data 2
  | 0x14 => d.storeOfs data 3
  | 0x15 => d.store d.sen.gainH data 0xFFFFFF 0xFFFFFF true fun w => { d with sen := { d.sen with gainH := w } }
  | 0x16 => d.store d.sen.ofsH data 0xFFFFFF 0xFFFFFF true fun w => { d with sen := { d.sen with ofsH := w } }
  | 0x1D => d.store d.sen.csacfg data 0x0003FF 0x0003FF true fun w => { d with sen := { d.sen with csacfg := w } }
  | 0x1F => .ok (if bit data 0 then { d with sen := { d.sen with det := 0, ovr := 0, ovrSat := false, detSat := false } } else d)
  | _ => .error 4

/-- EST_CLR. -/
def Est.clear (e : Est) (data : Word) : Est :=
  let e := if bit data 0 then { e with accepted := 0, rejected := 0, ovf := e.ovf &&& ~~~0x000003 } else e
  if bit data 1 then { e with requested := 0, missed := 0, ovf := e.ovf &&& ~~~0x00000C } else e

/-- The EST page; EST_CFG and EST_STEPCFG take effect at the next class E period (R252). -/
def Dev.writeEst (d : Dev) (data : Word) : Nat → Written
  | 0x00 => d.store d.est.cfg data 0x0001FF 0 (inField data 0 8 1 255) fun w => { d with est := { d.est with cfg := w } }
  | 0x01 => d.store d.est.stepcfg data 0xC0FFFF 0 true fun w => { d with est := { d.est with stepcfg := w } }
  | 0x10 => .ok { d with est := { d.est with ovf := w1c d.est.ovf data 0x00001F } }
  | 0x11 => .ok { d with est := d.est.clear data }
  | _ => .error 4

/-- The LIM page (R280). -/
def Dev.writeLim (d : Dev) (data : Word) : Nat → Written
  | 0x07 => d.store d.lim.brkcfg data 0x00FFFF 0 (inField data 8 8 1 100 && inField data 0 8 1 50) fun w =>
      { d with lim := { d.lim with brkcfg := w } }
  | 0x0A => d.store d.lim.clsel data 0x00003F 0 (inField data 0 6 0 38) fun w => { d with lim := { d.lim with clsel := w } }
  | 0x16 => .ok { d with lim := { d.lim with ovf := w1c d.lim.ovf data 0x0000FF } }
  | 0x17 => .ok (if bit data 0 then
      { d with lim := { d.lim with underLoad := .replicate 4 0, ovf := d.lim.ovf &&& ~~~0x00000F } } else d)
  | _ => .error 4

/-! ### PWR -/

/-- PWR_STAT.EXT_REVOKED written: external control resumes at the next PWM period boundary while SRC is 1 (R295).
DESIGN CHOICE: notes/assumptions/40.md. -/
def Dev.clearRevoked (d : Dev) : Dev := { d with pwr := { d.pwr with extRevoked := false } }

/-- The baselines of the contactors in PWR_KNEW restart, while the drover is OPEN (R325, R343).
DESIGN CHOICE: notes/assumptions/40.md. -/
def Dev.newContactors (d : Dev) (data : Word) : Written :=
  if d.seq.drover = .openS then
    .ok (coils.foldl (fun d k =>
      if bit data k.val then d.setCoil k fun c => { c with learned := 0, t0 := 0, b0 := 0 } else d) d)
  else .error 4

/-- An ADAPT code under a new setting: MIN where the mode starts (R289), else the code between the new MIN and MAX (R290). -/
def adaptCode (w : Word) (starts : Bool) (code : Nat) : Nat :=
  if starts then (adaptRange w).1 else max (adaptRange w).1 (min (adaptRange w).2 code)

/-- A gate-drive or VDS setting, all of it RWL (R313). -/
def Dev.storeGdrv (d : Dev) (data : Word) (i : Fin 6) : Written :=
  d.store (d.pwr.gdrv.get i) data 0x8FFFFF 0x8FFFFF true fun w =>
    let starts := bit w 23 && !bit (d.pwr.gdrv.get i) 23
    { d with pwr := { d.pwr with
        gdrv := upd d.pwr.gdrv i w
        source := modify d.pwr.source i (adaptCode w starts), sink := modify d.pwr.sink i (adaptCode w starts) } }
def Dev.storeVds (d : Dev) (data : Word) (i : Fin 6) : Written :=
  d.store (d.pwr.vds.get i) data 0x000FFF 0x000FFF true fun w => { d with pwr := { d.pwr with vds := upd d.pwr.vds i w } }
def Dev.storeKcur (d : Dev) (data : Word) (i : Fin 4) : Written :=
  d.store (d.pwr.kcur.get i) data 0xFFFFFF 0xFFFFFF true fun w => { d with pwr := { d.pwr with kcur := upd d.pwr.kcur i w } }

/-- The PWR page (R313, R341, R343). -/
def Dev.writePwr (d : Dev) (data : Word) : Nat → Written
  | 0x00 => .ok (if bit data 18 then d.clearRevoked else d)
  | 0x07 => d.store d.pwr.vcfg data 0x01FFF0 0x01FFF0 (inField data 4 5 0 28) fun w => { d with pwr := { d.pwr with vcfg := w } }
  | 0x08 => d.store d.pwr.soft data 0x0000FF 0x0000FF (inField data 0 4 0 9) fun w => { d with pwr := { d.pwr with soft := w } }
  | 0x09 => d.store d.pwr.oc data 0x0FFFFF 0x0FFFFF true fun w => { d with pwr := { d.pwr with oc := w } }
  | 0x0A => d.store d.pwr.ocp data 0x0003FF 0x0003FF true fun w => { d with pwr := { d.pwr with ocp := w } }
  | 0x0B => d.storeGdrv data 0
  | 0x0C => d.storeGdrv data 1
  | 0x0D => d.storeGdrv data 2
  | 0x0E => d.storeGdrv data 3
  | 0x0F => d.storeGdrv data 4
  | 0x10 => d.storeGdrv data 5
  | 0x11 => d.storeVds data 0
  | 0x12 => d.storeVds data 1
  | 0x13 => d.storeVds data 2
  | 0x14 => d.storeVds data 3
  | 0x15 => d.storeVds data 4
  | 0x16 => d.storeVds data 5
  | 0x17 => d.store d.pwr.pumpcfg data 0xFC00FF 0 true fun w => { d with pwr := { d.pwr with pumpcfg := w } }
  | 0x21 => .ok (if bit data 0 then
      { d with pwr := { d.pwr with conflict := 0, ilim := 0, trips := 0, cntOvf := false } } else d)
  | 0x22 => d.storeKcur data 0
  | 0x23 => d.storeKcur data 1
  | 0x24 => d.storeKcur data 2
  | 0x25 => d.storeKcur data 3
  | 0x26 => d.store d.pwr.coiltim data 0x00FFFF 0x00FFFF (inField data 8 8 12 255 && inField data 0 8 5 100) fun w =>
      { d with pwr := { d.pwr with coiltim := w } }
  | 0x3C => d.newContactors data
  | _ => .error 4

/-! ### SAF, TOL, LGR -/

/-- The SAF page (R369). -/
def Dev.writeSaf (d : Dev) (data : Word) : Nat → Written
  | 0x1 => d.store d.saf.gfilt data 0x00FFFF 0x00FFFF
      (inField data 0 4 1 12 && inField data 4 4 1 12 && inField data 8 4 1 12 && inField data 12 4 1 12) fun w =>
      { d with saf := { d.saf with gfilt := w } }
  | 0x8 => .ok { d with saf := { d.saf with ovf := w1c d.saf.ovf data 0x000003 } }
  | 0x9 => .ok (if bit data 0 then { d with saf := { d.saf with opens := 0, discs := 0, ovf := 0 } } else d)
  | _ => .error 4

/-- A word of the session tag, while the session state is None (R402). -/
def Dev.storeTag (d : Dev) (data : Word) (k : Fin 6) : Written :=
  if d.tol.session ≠ .none_ then .error 4
  else .ok { d with tol := { d.tol with tagReg := upd d.tol.tagReg k (if k = 5 then data &&& 0xFF0000 else data) } }

/-- A write to a register with RWS fields (R398, R572, R581): `rws` are the sealed bits, `rw` the others. With the seal
open a changed sealed value needs its audit record. -/
def Dev.storeSealed (d : Dev) (addr : Nat) (old data rws rw : Word) (inRange : Bool) (set : Word → Toll → Toll) : Written :=
  let new := mergeBits old data (rws ||| rw)
  if !inRange then .error 4
  else if old &&& rws = data &&& rws then .ok { d with tol := set new d.tol }
  else if d.canChangeSealed then .ok (d.changeSealed addr old new (set new))
  else .error 4

/-- TOL_CFG: DISP_OFS −48 to +56, I_CREEP 1 to 255, T_INT 1 to 60. -/
def tolCfgOk (data : Word) : Bool :=
  decide (-48 ≤ signedField data 16 8) && decide (signedField data 16 8 ≤ 56) && inField data 8 8 1 255 &&
  inField data 0 6 1 60

/-- The TOL page. -/
def Dev.writeTol (d : Dev) (data : Word) : Nat → Written
  | 0x00 => .ok { d with tol := { d.tol with
      tamper := d.tol.tamper && !bit data 17, pulseOvf := d.tol.pulseOvf && !bit data 11 } }
  | 0x0C => d.storeTag data 0
  | 0x0D => d.storeTag data 1
  | 0x0E => d.storeTag data 2
  | 0x0F => d.storeTag data 3
  | 0x10 => d.storeTag data 4
  | 0x11 => d.storeTag data 5
  | 0x12 => d.storeSealed 0x192 d.tol.gainV data 0xFFFFFF 0 true fun w t => { t with gainV := w }
  | 0x13 => d.storeSealed 0x193 d.tol.ofsV data 0xFFFFFF 0 true fun w t => { t with ofsV := w }
  | 0x14 => d.storeSealed 0x194 d.tol.gainI data 0xFFFFFF 0 true fun w t => { t with gainI := w }
  | 0x15 => d.storeSealed 0x195 d.tol.ofsI data 0xFFFFFF 0 true fun w t => { t with ofsI := w }
  | 0x16 => d.storeSealed 0x196 d.tol.rcable data 0x00FFFF 0 true fun w t => { t with rcable := w }
  | 0x17 => d.storeSealed 0x197 d.tol.pulse data 0x01FFFF 0 (inField data 0 17 100 100000) fun w t => { t with pulse := w }
  | 0x18 => d.storeSealed 0x198 d.tol.cfg data 0xFFFF00 0x00003F (tolCfgOk data) fun w t => { t with cfg := w }
  | 0x1B => d.store d.tol.shasel data 0x00000F 0 (inField data 0 4 0 10) fun w => { d with tol := { d.tol with shasel := w } }
  | 0x1E => .ok { d with tol := { d.tol with opened := d.tol.opened && !bit data 21 } }
  | _ => .error 4

/-- The LGR page (R429). -/
def Dev.writeLgr (d : Dev) (data : Word) : Nat → Written
  | 0x00 => .ok { d with lgr := { d.lgr with corrupt := d.lgr.corrupt && !bit data 20 } }
  | 0x07 => .ok { d with lgr := { d.lgr with acksetHi := data &&& 0x0000FF } }
  | 0x08 => .ok { d with lgr := { d.lgr with acksetLo := data } }
  | 0x0A => d.store d.lgr.cfg data 0x0007FF 0 (inField data 0 11 0 1536) fun w => { d with lgr := { d.lgr with cfg := w } }
  | 0x0F => d.store d.lgr.certsel data 0x00003F 0 (inField data 0 6 0 47) fun w => { d with lgr := { d.lgr with certsel := w } }
  | _ => .error 4

/-! ### CAN -/

/-- A bit timing register, which accepts writes only while CANx_CFG.EN is 0 (R465, R580).
DEDUCED: notes/assumptions/59.md. -/
def Can.timing (c : Can) (old data mask : Word) (set : Word → Can) : Except Nat Can :=
  if bit c.cfg 23 then .error 4 else .ok (set (mergeBits old data mask))

/-- A write of a filter: mailboxes 0 and 1 are the Golner's while HOSTRX is 1 (R449). -/
def Can.filter (c : Can) (set : Can) : Except Nat Can :=
  if bit c.pubcfg 21 && decide (c.mbIndex.val ≤ 1) then .error 4 else .ok set

/-- CANx_TXDAT: payload group IDX, which then moves on (R440); a group beyond the payload has no store. -/
def Can.storePayload (c : Can) (data : Word) : Can :=
  let k := field c.txinfo 0 5
  { c with
    txdat := if h : k < 22 then upd c.txdat ⟨k, h⟩ data else c.txdat
    txinfo := (c.txinfo &&& ~~~0x00001F) ||| word ((k + 1) % 32) }

/-- The page of a channel but for CANx_CFG, CANx_WMCFG and CANx_PUBCFG, which the drover's state locks.
DEDUCED: notes/assumptions/39.md. -/
def Can.write (c : Can) (first : Bool) (data : Word) : Nat → Except Nat Can
  | 0x01 => c.timing c.nbt data 0xFFFFFF fun w => { c with nbt := w }
  | 0x02 => c.timing c.dbt data 0xFFFFC0 fun w => { c with dbt := w }
  | 0x03 => c.timing c.tdc data 0x80007F fun w => { c with tdc := w }
  | 0x04 => .ok { c with ovf := c.ovf &&& ~~~(BitVec.ofNat 5 (field data 16 5)) }
  | 0x07 => .ok { c with cmdarg := data &&& 0x00001F }
  | 0x08 => .ok { c with txid := data }
  | 0x09 => .ok { c with txinfo := data &&& 0xFFF81F }
  | 0x0A => .ok (c.storePayload data)
  | 0x0C => .ok (if bit data 14 then { c with txwm := Watermark.clear c.fifo.length } else c)
  | 0x0D => .ok (if bit data 14 then { c with rxwm := Watermark.clear c.rxfifo.length } else c)
  | 0x0F => if inField data 8 5 0 16 then .ok { c with rxsel := data &&& 0x001F1F } else .error 4
  | 0x13 => .ok { c with mbnew := c.mbnew &&& ~~~(data.setWidth 16) }
  | 0x14 => .ok { c with mbsel := data &&& 0x00000F }
  | 0x15 => c.filter { c with mbid := upd c.mbid c.mbIndex data }
  | 0x16 => c.filter { c with mbmask := upd c.mbmask c.mbIndex data }
  | 0x17 => if inField data 0 8 10 250 then .ok { c with ttcfg := mergeBits c.ttcfg data 0x8000FF } else .error 4
  | 0x18 => .ok { c with ttsel := data &&& 0x00001F }
  | 0x19 => .ok { c with tt := modify c.tt c.ttIndex fun e => { e with ent := data &&& 0x80FFFF } }
  | 0x1A =>
    let n := { c with hcfg := mergeBits c.hcfg data 0x8003FF }
    if inField data 0 10 10 500 && n.retryOk then .ok n else .error 4
  | 0x1E => if first then (if inField data 0 3 0 5 then .ok { c with callsel := data &&& 0x000007 } else .error 4) else .error 3
  | 0x1F =>
    if first then .ok (match c.callGroup with | some g => { c with call := upd c.call g data } | none => c) else .error 3
  | _ => .error 4

/-- Which bit of HST_WMOVF a write of LATCHED clears with it (R498). -/
def Dev.afterCanWrite (d : Dev) (ch : Ch) (data : Word) : Nat → Dev
  | 0x0C => if bit data 14 then d.clearWmovf (txQueueNo ch) else d
  | 0x0D => if bit data 14 then d.clearWmovf (rxQueueNo ch) else d
  | _ => d

/-- The page of a CAN channel (R449, R462, R465, R497). -/
def Dev.writeCan (d : Dev) (ch : Ch) (data : Word) (o : Nat) : Written :=
  let c := d.can ch
  match o with
  | 0x00 =>
    let n := { c with cfg := mergeBits c.cfg data 0xFC000F }
    d.store c.cfg data 0xFC000F 0xFC000F n.retryOk fun _ => d.setCan ch n
  | 0x0E => d.store c.wmcfg data 0x001F7F 0x001F7F (inField data 8 5 1 16 && inField data 0 7 1 64) fun w =>
      d.setCan ch (Can.reshed { c with wmcfg := w })
  | 0x1B => d.store c.pubcfg data 0x3F07FF 0x3F07FF true fun w =>
      if w = c.pubcfg then d else d.setCan ch ((Can.programMailboxes { c with pubcfg := w } (bit c.pubcfg 21)).dropDisabled)
  | o =>
    match c.write (decide (ch = Ch.can0)) data o with
    | .ok n => .ok ((d.setCan ch n).afterCanWrite ch data o)
    | .error e => .error e

/-! ### HST and windows, DEP and LIF -/

/-- The HST and window registers but for WIN_DATA (R485, R496 to R498).
DESIGN CHOICE: notes/assumptions/40.md. -/
def Dev.writeHst (d : Dev) (data : Word) : Nat → Written
  | 0x02 => .ok { d with hst := { d.hst with ovf := w1c d.hst.ovf data 0x000003 } }
  | 0x06 => d.store d.hst.cmdarg data 0x0001FF 0 (inField data 0 9 0 256) fun w => { d with hst := { d.hst with cmdarg := w } }
  | 0x08 => .ok (if bit data 14 then
      ({ d with hst := { d.hst with evqwm := Watermark.clear d.evqLevel } } : Dev).clearWmovf 0 else d)
  | 0x09 => d.store d.hst.evqcfg data 0x0001FF 0 (inField data 0 9 1 256) fun w =>
      Dev.restage { d with hst := { d.hst with evqcfg := w } }
  | 0x0A => .ok { d with hst := { d.hst with wmovf := w1c d.hst.wmovf data 0x0000FF } }
  | 0x10 => d.store d.hst.winSel data 0x000007 0 (inField data 0 3 0 6) fun w =>
      { d with hst := { d.hst with winSel := w, winAddr := 0 } }
  | 0x11 => .ok { d with hst := { d.hst with winAddr := data } }
  | _ => .error 4

/-- DEP_CLR. -/
def Dev.clearDep (d : Dev) (data : Word) : Dev :=
  let d := if bit data 0 then
    { d with dep := { d.dep with coalesced := 0, diag := 0, txref := 0, hostq := 0, ovf := d.dep.ovf &&& ~~~0x00000F } } else d
  if bit data 1 then { d with dep := { d.dep with err0 := 0, err1 := 0, ovf := d.dep.ovf &&& ~~~0x000030 } } else d

/-- The DEP and LIF page (R529). -/
def Dev.writeDep (d : Dev) (data : Word) : Nat → Written
  | 0x00 => .ok { d with dep := { d.dep with pinOvf := d.dep.pinOvf && !bit data 20, logBad := d.dep.logBad && !bit data 19 } }
  | 0x01 => d.store d.dep.cfg data 0x00010F 0x00000F (inField data 0 2 0 2) fun w => { d with dep := { d.dep with cfg := w } }
  | 0x06 => .ok { d with dep := { d.dep with argHi := data &&& 0x0000FF } }
  | 0x07 => .ok { d with dep := { d.dep with argLo := data } }
  | 0x10 => .ok { d with dep := { d.dep with ovf := w1c d.dep.ovf data 0x00003F } }
  | 0x11 => .ok (if bit data 14 then
      ({ d with dep := { d.dep with tagwm := Watermark.clear d.chn.tags.length } } : Dev).clearWmovf 5 else d)
  | 0x12 => .ok (if bit data 14 then
      ({ d with dep := { d.dep with stgwm := Watermark.clear d.staged } } : Dev).clearWmovf 6 else d)
  | 0x13 => .ok (if bit data 14 then
      ({ d with dep := { d.dep with histwm := Watermark.clear d.lineLevel } } : Dev).clearWmovf 7 else d)
  | 0x14 => d.store d.dep.wmcfg data 0x3F0F7F 0 (inField data 16 6 1 32 && inField data 8 4 1 8 && inField data 0 7 1 64)
      fun w => { d with dep := { d.dep with wmcfg := w } }
  | 0x15 => .ok (d.clearDep data)
  | 0x19 => .ok { d with lif := { d.lif with sat := w1c d.lif.sat data 0x0000FF } }
  | 0x1C => .ok { d with lif := { d.lif with cmdarg := data &&& 0x00000F } }
  | _ => .error 4

/-! ### The whole map -/

/-- A write to a register, WIN_DATA and the command registers excepted; a reserved address is an address error (R573). -/
def Dev.writeReg (d : Dev) (a : Nat) (data : Word) : Written :=
  if !registerListed a then .error 3
  else if a < 0x020 then d.writeSys data a
  else if a < 0x040 then d.writeEvt data (a - 0x020)
  else if a < 0x060 then d.writeMode data (a - 0x040)
  else if a < 0x080 then d.writeSup data (a - 0x060)
  else if a < 0x0A0 then d.writeEng data (a - 0x080)
  else if a < 0x0C0 then d.writeChn data (a - 0x0A0)
  else if a < 0x0E0 then d.writeSen data (a - 0x0C0)
  else if a < 0x100 then d.writeEst data (a - 0x0E0)
  else if a < 0x120 then d.writeLim data (a - 0x100)
  else if a < 0x160 then d.writePwr data (a - 0x120)
  else if a < 0x180 then d.writeSaf data (a - 0x160)
  else if a < 0x1A0 then d.writeTol data (a - 0x180)
  else if a < 0x1C0 then d.writeLgr data (a - 0x1A0)
  else if a < 0x1E0 then d.writeCan .can0 data (a - 0x1C0)
  else if a < 0x200 then d.writeCan .can1 data (a - 0x1E0)
  else if a < 0x220 then d.writeHst data (a - 0x200)
  else d.writeDep data (a - 0x220)

end Sys2Proof.Machine
end

