-- ==== Sys2Proof/Machine/Held.lean ====
section
/-! DEFINITION. HST_CMD (R496), and the command registers as a WRITE reaches them: the code of every command, and the
execution of a held command at the frame boundary (R27, R477, R483, R484, R584). -/
namespace Sys2Proof.Machine

/-! ### HST_CMD -/

/-- POP: the oldest ARG entries leave the dispatch queue; ARG 0 is refused (R496). -/
def bodyPop (d : Dev) : Executed :=
  let n := field d.hst.cmdarg 0 9
  if n = 0 then (d, some rCondition)
  else (({ d with evt := { d.evt with queue := d.evt.queue.drop n } } : Dev).restage, some rDone)

/-- CNT_CLR: HST_ERRCNT and HST_OVF clear. -/
def bodyHstCntClr (d : Dev) : Executed :=
  ({ d with hst := { d.hst with errCrc := 0, errOther := 0, ovf := 0 } }, some rDone)

/-- HST_CMD POP. -/
def execPop (tok : Byte) (s : State) : Host.Outcome State Fault Refusal :=
  s.effect fun d => d.hostCommand .hst tok 0x01 bodyPop

/-- HST_CMD CNT_CLR. -/
def execHstCntClr (tok : Byte) (s : State) : Host.Outcome State Fault Refusal :=
  s.effect fun d => d.hostCommand .hst tok 0x02 bodyHstCntClr

/-! ### The codes of the command registers -/

/-- The codes of the registers of the MODE, SEQ, SUP, EST, LIM, PWR and SAF pages. -/
def bodyOfLow : CmdReg → Nat → Option (Dev → Executed)
  | .mode, 0x01 => some bodyWatch
  | .mode, 0x02 => some bodyBenchEnter
  | .mode, 0x03 => some bodyBenchExit
  | .mode, 0x04 => some bodyLockAck
  | .seq, 0x01 => some bodyClose
  | .seq, 0x02 => some bodyOpen
  | .seq, 0x03 => some bodyHold
  | .seq, 0x04 => some bodyRelease
  | .sup, 0x01 => some bodySetTime
  | .sup, 0x02 => some (bodyReset none)
  | .sup, 0x03 => some bodyArmAlarm
  | .sup, 0x04 => some bodyDisarm
  | .est, 0x01 => some bodyAuthNow
  | .est, 0x02 => some bodyStepNow
  | .lim, 0x01 => some bodyFaultClr
  | .pwr, 0x01 => some bodyPwrClr
  | .pwr, 0x02 => some bodyCtst
  | .pwr, 0x03 => some bodyDiag
  | .saf, 0x10 => some (bodyGtest 0)
  | .saf, 0x11 => some (bodyGtest 1)
  | .saf, 0x12 => some (bodyGtest 2)
  | .saf, 0x13 => some (bodyGtest 3)
  | _, _ => none

/-- The codes of the two CAN command registers. -/
def bodyOfCan (ch : Ch) : Nat → Option (Dev → Executed)
  | 0x01 => some (bodyTxQueue ch)
  | 0x02 => some (bodyTxCancel ch)
  | 0x03 => some (bodyRxPop ch)
  | 0x04 => some (bodyTtLoad ch)
  | 0x05 => some (bodyBoRecover ch)
  | 0x06 => some (bodyCanCntClr ch)
  | _ => none

/-- The codes of the other command registers. -/
def bodyOfHigh : CmdReg → Nat → Option (Dev → Executed)
  | .tol, 0x01 => some bodySessionOpen
  | .tol, 0x02 => some bodySessionClose
  | .tol, 0x03 => some bodyResume
  | .tol, 0x04 => some bodySnapshot
  | .tol, 0x05 => some bodyCalOpen
  | .tol, 0x06 => some bodyCalClose
  | .lgr, 0x01 => some bodyAck
  | .can0, n => bodyOfCan .can0 n
  | .can1, n => bodyOfCan .can1 n
  | .hst, 0x01 => some bodyPop
  | .hst, 0x02 => some bodyHstCntClr
  | .dep, 0x01 => some bodyManErase
  | .dep, 0x02 => some bodyManSwitch
  | .dep, 0x03 => some bodyLogUnpin
  | .dep, 0x04 => some bodyLifFlush
  | .lif, 0x01 => some bodyClrK
  | .lif, 0x02 => some bodyClrPump
  | _, _ => none

/-- The register's table lists the code. -/
def codeDefined (r : CmdReg) (code : Nat) : Bool := (bodyOfLow r code).isSome || (bodyOfHigh r code).isSome

/-- UNKNOWN (R27). -/
def bodyUnknown (d : Dev) : Executed := (d, some rUnknown)

/-- The execution of a code at a command register; a code that is not defined returns UNKNOWN (R484). -/
def bodyOf (r : CmdReg) (code : Nat) : Dev → Executed :=
  ((bodyOfLow r code).orElse fun _ => bodyOfHigh r code).getD bodyUnknown

/-! ### Held commands -/

/-- A command written to its register: held until the next frame boundary while the engine runs frames, else executed
on arrival; SUP_CMD always on arrival (R65, R482 to R484, R584).
DEDUCED: notes/assumptions/7.md. -/
def Dev.offer (d : Dev) (r : CmdReg) (tok code : Byte) : Dev :=
  let c := d.cmds.get r
  if c.held.isSome || decide (c.kept = some tok) then d
  else if d.framesRun && decide (r ≠ CmdReg.sup) then
    { d with cmds := d.cmds.put r { c with held := some (tok, code) } }
  else d.executeNow r tok (bodyOf r code.toNat)

/-- The command that a register holds is executed.
DEDUCED: notes/assumptions/7.md. -/
def Dev.runHeld (d : Dev) (r : CmdReg) : Dev :=
  let c := d.cmds.get r
  match c.held with
  | none => d
  | some (tok, code) =>
    ({ d with cmds := d.cmds.put r { c with held := none } } : Dev).executeNow r tok (bodyOf r code.toNat)

/-- The command registers; several held commands are executed in the order of their addresses. -/
def cmdRegs : List CmdReg :=
  [.mode, .seq, .sup, .est, .lim, .pwr, .saf, .tol, .lgr, .can0, .can1, .hst, .dep, .lif]

/-- Every held command is executed at a frame boundary (R484).
DEDUCED: notes/assumptions/7.md. -/
def Dev.runCommands (d : Dev) : Dev := cmdRegs.foldl Dev.runHeld d

end Sys2Proof.Machine
end

