-- ==== Sys2Proof/Machine/Passes.lean ====
section
/-! DEFINITION. The three passes of a task (R96 to R101, R104): codings, result holds, comparators, vote, contexts. -/
namespace Sys2Proof.Machine

/-! ### Codings (R96 to R98) -/

/-- A value in the escort's coding; the same for a signed field, whose pattern is complemented. -/
def escortCode (x : Word) : Word := 0xFFFFFF - x

/-- A value from the escort's coding. -/
def escortDecode (x : Word) : Word := 0xFFFFFF - x

/-- The sum of coded terms as the escort pass corrects it (R97). -/
def escortSum (terms : List Word) : Word :=
  BitVec.ofInt 24 ((terms.map fun x => (x.toNat : Int)).sum - ((terms.length : Int) - 1) * 0xFFFFFF)

/-- A value in the rearguard's coding: 4091 · x in 40 bits. -/
def rearguardCode (x : Word) : BitVec 40 := BitVec.ofNat 40 (4091 * x.toNat)

/-- A value from the rearguard's coding; `none` is a code error (R98).
DEDUCED: notes/assumptions/13.md. -/
def rearguardDecode (x : BitVec 40) : Option Word :=
  if x.toNat % 4091 = 0 then some (BitVec.ofNat 24 (x.toNat / 4091)) else none

/-! ### Passes and result holds (R99, R100, R106) -/

/-- The three passes in the order of their banks. -/
def passes : List Pass := [.lead, .escort, .rearguard]

/-- The result hold bank of a pass (R99). -/
def bank : Pass → Fin 3
  | .lead => 0 | .escort => 1 | .rearguard => 2

/-- The words that a rearguard pass leaves: it is abandoned at its first code error (R98). -/
def rearguardWords : List ResultWord → List (Option Word)
  | [] => []
  | w :: ws => match rearguardDecode w.rearguard with
    | none => (w :: ws).map fun _ => none
    | some v => some v :: rearguardWords ws

/-- A bank with a task's words decoded into it, in groups of 64 (R99). -/
def fillBank (old : Vector (Option Word) 64) (vs : List (Option Word)) : Vector (Option Word) 64 :=
  (vs.foldl (fun (x : Nat × Vector (Option Word) 64) v =>
    (x.1 + 1, x.2.set (x.1 % 64) v (Nat.mod_lt _ (by decide)))) (0, old)).2

/-- Two words that are usable and equal. -/
def sameWord : Option Word → Option Word → Bool
  | some a, some b => decide (a = b)
  | _, _ => false

/-- The values of the passes `ps` of one word differ, or one of them is unusable. -/
def differ : List Pass → Vector (Option Word) 3 → Bool
  | [], _ => false
  | p :: ps, v => ps.any fun q => !sameWord (v.get (bank p)) (v.get (bank q))

/-- The outcome of a two-of-three vote. -/
inductive Vote where
  | agreed
  | odd (p : Pass)
  | threeWay
deriving DecidableEq, Repr

/-- The vote on one word. -/
def vote3 (v : Vector (Option Word) 3) : Vote :=
  let l := v.get 0
  let e := v.get 1
  let r := v.get 2
  if sameWord l e then if sameWord l r then .agreed else .odd .rearguard
  else if sameWord l r then .odd .escort
  else if sameWord e r then .odd .lead
  else .threeWay

/-- The votes of two words of one task together: two different odd passes are a three-way disagreement. -/
def Vote.and : Vote → Vote → Vote
  | .agreed, v => v
  | v, .agreed => v
  | .odd p, .odd q => if p = q then .odd p else .threeWay
  | _, _ => .threeWay

end Sys2Proof.Machine

namespace Sys2Proof
open Machine

/-! ### The words of a task -/

/-- The pass of a Split stream (R110). -/
def TaskResult.stream (r : TaskResult) : Pass := if r.second then .escort else .lead

/-- What SECDED finds in a pass's word. -/
def ResultWord.hold (w : ResultWord) (p : Pass) : HoldError := w.holds.get (bank p)

/-- The words that a pass decodes into its bank; `none` where the pass has been abandoned or a double-bit error makes the
word unusable (R100). A single-bit error is corrected. -/
def TaskResult.column (r : TaskResult) (p : Pass) : List (Option Word) :=
  let decoded := match p with
    | .lead => r.words.map fun w => some w.lead
    | .escort => r.words.map fun w => some (escortDecode (escortSum w.escort))
    | .rearguard => rearguardWords r.words
  (r.words.zip decoded).map fun x => if x.1.hold p = .double then none else x.2

/-- The words of a task with the values of their passes. -/
def TaskResult.rows (r : TaskResult) : List (ResultWord × Vector (Option Word) 3) :=
  (r.words.zip ((r.column .lead).zip ((r.column .escort).zip (r.column .rearguard)))).map fun x =>
    (x.1, #v[x.2.1, x.2.2.1, x.2.2.2])

/-- The three banks after the passes `ps` of a task. -/
def TaskResult.fill (r : TaskResult) (ps : List Pass) (old : Vector (Vector (Option Word) 64) 3) :
    Vector (Vector (Option Word) 64) 3 :=
  ps.foldl (fun h p => upd h (bank p) (fillBank (h.get (bank p)) (r.column p))) old

/-- The words of the passes `ps` in which SECDED finds `e`. -/
def TaskResult.errors (r : TaskResult) (ps : List Pass) (e : HoldError) : Nat :=
  (ps.map fun p => (r.words.filter fun w => w.hold p = e).length).sum

/-! ### Comparators and vote (R98, R101, R104, R130) -/

/-- The rearguard pass meets a code error, in a result or in a value that it stores (R98). -/
def TaskResult.codeError (r : TaskResult) : Bool :=
  (r.words.any fun w => (rearguardDecode w.rearguard).isNone) ||
    r.context.any fun c => (rearguardDecode c.rearguard).isNone

/-- The verdict checker finds the verdicts of CMP-A and CMP-B different on a word. -/
def TaskResult.checkerFault (r : TaskResult) : Bool := r.words.any fun w => w.cmpA != w.cmpB

/-- The words of a task on which the passes `ps` are found to differ. -/
def TaskResult.differing (r : TaskResult) (ps : List Pass) : List (ResultWord × Vector (Option Word) 3) :=
  r.rows.filter fun x => differ ps x.2 != !x.1.cmpA

/-- A mismatch of a task that runs the passes `ps`. -/
def TaskResult.mismatch (r : TaskResult) (ps : List Pass) : Bool :=
  !(r.differing ps).isEmpty || (ps.contains .rearguard && r.codeError)

/-- The mismatch is for double-bit result hold errors alone (R100, R128).
DEDUCED: notes/assumptions/13.md. -/
def TaskResult.storage (r : TaskResult) (ps : List Pass) : Bool :=
  !(ps.contains .rearguard && r.codeError) && !(r.differing ps).isEmpty &&
    (r.differing ps).all fun x => ps.any fun p => x.1.hold p = .double

/-- The vote over the three results of a task; a code error makes the rearguard odd. -/
def TaskResult.vote (r : TaskResult) : Vote :=
  (r.differing passes).foldl (fun v x => v.and (vote3 x.2)) (if r.codeError then .odd .rearguard else .agreed)

/-- The value of a word on which at least two passes agree (R104). -/
def majority (v : Vector (Option Word) 3) : Option Word :=
  if sameWord (v.get 0) (v.get 1) || sameWord (v.get 0) (v.get 2) then v.get 0 else v.get 1

/-- The outputs of a task whose passes agree or have a majority: the majority value of each word (R104). -/
def TaskResult.outputs (r : TaskResult) : List Word := r.rows.map fun x => (majority x.2).getD 0

/-- The natural value of a context word that a pass leaves. -/
def ContextWord.natural (c : ContextWord) : Pass → Word
  | .lead => c.lead
  | .escort => escortDecode c.escort
  | .rearguard => (rearguardDecode c.rearguard).getD 0

/-- A context word as the passes `ps` of a compared task leave it: that of the odd pass is copied from a majority pass in
its own coding, and the agreed value is the next entry context (R105, R107). -/
def ContextWord.taken (c : ContextWord) (k : Cls) (ps : List Pass) (odd : Option Pass) : CtxWord :=
  let good := ((ps.filter fun p => some p ≠ odd).head?).getD .lead
  let v := c.natural good
  let has (p : Pass) : Bool := ps.contains p
  { addr := c.addr.toNat, cls := some k
    lead := if has .lead then some (if odd = some .lead then v else c.lead) else none
    escort := if has .escort then some (if odd = some .escort then escortCode v else c.escort) else none
    rear := if has .rearguard then some (if odd = some .rearguard then rearguardCode v else c.rearguard) else none
    entry := rearguardCode v }

end Sys2Proof

namespace Sys2Proof.Machine

/-- The active mode of a class. -/
def Eng.act (e : Eng) : Cls → BitVec 2
  | .s => e.sAct | .c => e.cAct | .e => e.eAct | .b => e.bAct

/-- The passes that a compared task of a class runs: the two remaining paths in the degraded state (R103, R106). -/
def Eng.passes (e : Eng) (k : Cls) : List Pass :=
  if e.degraded then Machine.passes.filter fun p => some p ≠ e.dropped
  else if e.act k = 1 then Machine.passes
  else [.lead, .escort]

/-! ### Contexts (R105, R107, R112, R118, R121) -/

/-- A context word as held: as last left by a task or written over the port, else as the firmware has it, in every
coding.
DESIGN CHOICE: notes/assumptions/15.md. -/
def ctxIn (cs : List CtxWord) (a : Nat) : CtxWord :=
  match cs.find? fun x => x.addr = a with
  | some x => x
  | none =>
    let v := Config.leadWord a
    { addr := a, cls := none, lead := some v, escort := some (escortCode v), rear := some (rearguardCode v),
      entry := rearguardCode v }

/-- A context word of the engine. -/
def Eng.ctxAt (e : Eng) (a : Nat) : CtxWord := ctxIn e.ctx a

/-- A context word put in its place, addresses rising. -/
def ctxInsert (x : CtxWord) : List CtxWord → List CtxWord
  | [] => [x]
  | y :: ys => if x.addr < y.addr then x :: y :: ys else if x.addr = y.addr then x :: ys else y :: ctxInsert x ys

/-- A context word held. -/
def Eng.putCtx (e : Eng) (x : CtxWord) : Eng := { e with ctx := ctxInsert x e.ctx }

/-- The outputs of a task take the place of those of its period before (R104, R108). -/
def Eng.putOutput (e : Eng) (o : TaskOutput) : Eng :=
  { e with outputs :=
      (e.outputs.filter fun x => !(x.cls = o.cls && x.task = o.task && x.second = o.second)) ++ [o] }

/-- The results of a class carry the unchecked mark (R111, R112). -/
def Eng.uncheckedOf (e : Eng) : Cls → Bool
  | .s => false | .c => e.uncheckedC | .e => e.uncheckedE | .b => e.uncheckedB

/-- The outputs of a compared task: the majority value of each word (R104). -/
def Eng.takeOutputs (e : Eng) (r : TaskResult) : Eng :=
  e.putOutput { cls := r.cls, task := r.task, second := r.second, words := r.outputs, unchecked := e.uncheckedOf r.cls }

/-- The outputs of a Split stream, which no other pass has checked (R111). -/
def Eng.takeStreamOutputs (e : Eng) (r : TaskResult) : Eng :=
  e.putOutput { cls := r.cls, task := r.task, second := r.second
                words := (r.column r.stream).map fun v => v.getD 0, unchecked := true }

/-- The context that a compared task leaves. -/
def Eng.takeContext (e : Eng) (r : TaskResult) (odd : Option Pass) : Eng :=
  { e with ctx := r.context.foldl (fun cs c => ctxInsert (c.taken r.cls (e.passes r.cls) odd) cs) e.ctx }

/-- The context that a Split stream leaves, in the coding of its own path alone (R110). -/
def Eng.takeStream (e : Eng) (r : TaskResult) : Eng :=
  { e with ctx := r.context.foldl (fun cs c =>
      ctxInsert { ContextWord.taken c r.cls [r.stream] none with entry := (ctxIn cs c.addr.toNat).entry } cs) e.ctx }

/-- The natural value of a held context word. -/
def CtxWord.natural (x : CtxWord) : Word :=
  match x.lead, x.escort with
  | some v, _ => v
  | none, some v => escortDecode v
  | none, none => ((x.rear.bind rearguardDecode)).getD 0

/-- A held context word with every missing coding of the passes `ps` rebuilt from the one that exists (R112). -/
def CtxWord.rebuild (x : CtxWord) (ps : List Pass) : CtxWord :=
  let v := x.natural
  { x with
    lead := if ps.contains .lead then x.lead.orElse fun _ => some v else x.lead
    escort := if ps.contains .escort then x.escort.orElse fun _ => some (escortCode v) else x.escort
    rear := if ps.contains .rearguard then x.rear.orElse fun _ => some (rearguardCode v) else x.rear
    entry := rearguardCode v }

/-- The contexts of a class that has left Split are rebuilt. -/
def Eng.rebuildClass (e : Eng) (k : Cls) (cs : List CtxWord) : List CtxWord :=
  cs.map fun x => if x.cls = some k then x.rebuild (e.passes k) else x

/-- A logged write applied to the escort context, the rearguard context where one exists, and the entry context, each in
its own coding (R121). -/
def replayed (cs : List CtxWord) (w : Word × Word) : List CtxWord :=
  let x := ctxIn cs w.1.toNat
  ctxInsert { x with
    escort := some (escortCode w.2), rear := x.rear.map fun _ => rearguardCode w.2, entry := rearguardCode w.2 } cs

end Sys2Proof.Machine
end

