-- ==== Sys2Proof/Machine/Engine.lean ====
section
/-! DEFINITION. The stewardship engine (R92 to R114, R125 to R134): the frame, comparison and resolution of mismatches,
the redundancy modes, the class C period, the seam and the injection test. -/
namespace Sys2Proof.Machine

/-! ### Modes of the classes (R103, R106, R110, R125, R126) -/

/-- The mode codes of ENG_STAT. -/
def paired : BitVec 2 := 0
def triple : BitVec 2 := 1
def split : BitVec 2 := 2

/-- The mode that the settings request of a class, as the engine may use it: Split for class C needs the manifest's
permission (R126). -/
def Dev.requested (d : Dev) : Cls → BitVec 2
  | .s => BitVec.ofNat 2 (field d.eng.modecfg 6 2)
  | .c => if d.splitBad then paired else BitVec.ofNat 2 (field d.eng.modecfg 4 2)
  | .e => BitVec.ofNat 2 (field d.eng.modecfg 2 2)
  | .b => BitVec.ofNat 2 (field d.eng.modecfg 0 2)

/-- The mode of a class after a start of its period: Triple and Paired change as requested, Split neither begins nor
ends here, and in the degraded state nothing runs Triple (R106, R110, R125). -/
def Dev.modeAtPeriod (d : Dev) (k : Cls) : BitVec 2 :=
  let now := d.eng.act k
  let want := d.requested k
  if now = split then now
  else if d.eng.degraded then paired
  else if want = split then now
  else want

/-- The mode of a class after a frame boundary: classes S and B start a period with every frame; class C and class E
only leave Triple once the state is degraded (R92, R106). The first frame after a rejoin keeps class B's mark (R112). -/
def Dev.frameModes (d : Dev) : Dev :=
  let keep (k : Cls) : BitVec 2 := if d.eng.degraded && decide (d.eng.act k = triple) then paired else d.eng.act k
  { d with eng := { d.eng with
      sAct := d.modeAtPeriod .s, bAct := d.modeAtPeriod .b, cAct := keep .c, eAct := keep .e
      uncheckedB := d.eng.uncheckedB && (decide (d.eng.bAct = split) || d.eng.rebuild) } }

/-- The tasks of a class run: from muster step 10 for classes S, C and B, from step 15 for class E; those of classes E
and B stop at a power-fail warning (R48, R136). -/
def Dev.tasksRun (d : Dev) (k : Cls) : Bool :=
  let from' (n : Nat) : Bool :=
    d.inRun || (decide (d.mode.mode = Mode.muster) && decide (n < d.sys.step) && !d.stopped)
  match k with
  | .s | .c => from' 10
  | .b => from' 10 && !d.powerFailing
  | .e => from' 15 && !d.powerFailing

/-! ### The frame's time (R93) -/

/-- µs of one pass of a class. -/
def passCost : Cls → Nat
  | .s => 60 | .c => 40 | .e => 100 | .b => 30

/-- The four classes in the order of R129. -/
def classes : List Cls := [.s, .c, .e, .b]

/-- The scheduled work of a frame in µs: capture, the passes of the classes that run, comparison. -/
def Dev.frameBusy (d : Dev) : Nat :=
  (classes.filter d.tasksRun).foldl (fun a k => a + passCost k * (if d.eng.act k = triple then 3 else 2)) 30

/-- The work of a frame's resolutions: reserve used so far in µs, resynchronisations still to run, and whether class S
or class B has withheld its outputs in this frame. -/
structure Work where
  used : Nat := 0
  pending : Nat := 0
  s : Bool := false
  b : Bool := false
deriving DecidableEq, Repr, Inhabited

/-! ### Counters of the engine -/

/-- The counters of the ENG page that saturate, in the bit order of ENG_OVF.
DEDUCED: notes/assumptions/13.md. -/
inductive EngCount where
  | resolved | storage | withheld | lead | escort | rearguard | single | double | disagree
deriving DecidableEq, Repr

/-- One count; a counter that reaches its maximum sets its bit in ENG_OVF.
DEDUCED: notes/assumptions/14.md. -/
def Eng.count (e : Eng) : EngCount → Eng
  | .resolved => { e with resolved := satInc 255 e.resolved, ovf := setFlag e.ovf 0 (decide (255 ≤ e.resolved + 1)) }
  | .storage => { e with storage := satInc 255 e.storage, ovf := setFlag e.ovf 1 (decide (255 ≤ e.storage + 1)) }
  | .withheld => { e with withheld := satInc 255 e.withheld, ovf := setFlag e.ovf 2 (decide (255 ≤ e.withheld + 1)) }
  | .lead => { e with oddLead := satInc 255 e.oddLead, ovf := setFlag e.ovf 3 (decide (255 ≤ e.oddLead + 1)) }
  | .escort => { e with oddEscort := satInc 255 e.oddEscort, ovf := setFlag e.ovf 4 (decide (255 ≤ e.oddEscort + 1)) }
  | .rearguard => { e with oddRear := satInc 255 e.oddRear, ovf := setFlag e.ovf 5 (decide (255 ≤ e.oddRear + 1)) }
  | .single => { e with eccSingle := satInc 65535 e.eccSingle, ovf := setFlag e.ovf 6 (decide (65535 ≤ e.eccSingle + 1)) }
  | .double => { e with eccDouble := satInc 255 e.eccDouble, ovf := setFlag e.ovf 7 (decide (255 ≤ e.eccDouble + 1)) }
  | .disagree => { e with disagree := satInc 255 e.disagree, ovf := setFlag e.ovf 8 (decide (255 ≤ e.disagree + 1)) }

/-- One count on the device. -/
def Dev.engCount (d : Dev) (c : EngCount) : Dev := { d with eng := d.eng.count c }

/-- The ENG_ODD counter of a pass. -/
def oddCounter : Pass → EngCount
  | .lead => .lead | .escort => .escort | .rearguard => .rearguard

/-! ### Mismatches (R104 to R109, R127 to R130) -/

/-- The code of a class in ENG_LASTCAUSE and in the task order of R129. -/
def Cls.code : Cls → Nat
  | .s => 0 | .c => 1 | .e => 2 | .b => 3

/-- The passes that a task runs. -/
def Dev.passesOf (d : Dev) (r : TaskResult) : List Pass :=
  if d.eng.act r.cls = split then [r.stream] else d.eng.passes r.cls

/-- The mismatch of a task is for storage alone: in Split, where nothing is compared, a double-bit error (R100, R111). -/
def Dev.forStorage (d : Dev) (r : TaskResult) : Bool :=
  decide (d.eng.act r.cls = split) || r.storage (d.passesOf r)

/-- ENG_LASTCAUSE: task, class, cause, odd pass and outcome (0 resolved, 1 withheld, 2 lockout). -/
def Dev.lastCause (d : Dev) (r : TaskResult) (odd : Option Pass) (outcome : Nat) : Dev :=
  { d with eng := { d.eng with
      lastcause := word (place r.task.toNat 16 + place (Cls.code r.cls) 14 +
        place (if d.forStorage r then 2 else 1) 12 + place (passCode odd) 10 + place outcome 8) } }

/-- Comparator fault, three-way disagreement, failed self-test or repeated withholding: the safe state and LOCKOUT, with
its cause (R127). -/
def Dev.engineLock (d : Dev) (cause : Byte) : Dev := d.lockFault 26 cause 32 0

/-- The pass is dropped once it has been odd for execution causes more than 3 times within 1 s (R106).
DEDUCED: notes/assumptions/14.md. -/
def Dev.degradeCheck (d : Dev) (p : Pass) : Dev :=
  if !d.eng.degraded && decide (3 < (d.eng.oddHist.filter fun x => x.2 = p).length) then
    let d : Dev := { d with eng := { d.eng with degraded := true, dropped := some p } }
    (d.countDevice 20).fault 25 8 0 0
  else d

/-- An odd pass is resynchronised, with its event; one odd for storage alone counts nowhere (R105, R106, R128). The
fault lasts no longer than its event.
DEDUCED: notes/assumptions/14.md. -/
def Dev.oddPass (d : Dev) (p : Pass) (storage : Bool) : Dev :=
  let d := (d.fault 24 7 0 0).faultGone 24
  if storage then d
  else
    let d := d.engCount (oddCounter p)
    ({ d with eng := { d.eng with oddHist := (0, p) :: d.eng.oddHist } } : Dev).degradeCheck p

/-- The class has withheld its outputs in the period that runs. -/
def Dev.heldNow (d : Dev) (w : Work) : Cls → Bool
  | .s => w.s | .c => d.eng.nowC | .e => d.eng.nowE | .b => w.b

/-- The class withheld its outputs in its last period. -/
def Eng.heldBefore (e : Eng) : Cls → Bool
  | .s => e.heldS | .c => e.heldC | .e => e.heldE | .b => e.heldB

/-- The outputs of a class are withheld for this period: counted once per period, with the event; the second consecutive
period of a class leads to LOCKOUT (R108). -/
def Dev.withhold (d : Dev) (w : Work) (r : TaskResult) : Dev × Work :=
  let d := d.lastCause r none 1
  if d.heldNow w r.cls then (d, w)
  else
    let d := ((d.engCount .withheld).fault 24 9 0 0).faultGone 24
    let d : Dev := { d with eng := { d.eng with
      nowC := d.eng.nowC || decide (r.cls = Cls.c), nowE := d.eng.nowE || decide (r.cls = Cls.e) } }
    let w := { w with s := w.s || decide (r.cls = Cls.s), b := w.b || decide (r.cls = Cls.b) }
    if d.eng.heldBefore r.cls then ((d.lastCause r none 2).engineLock 0x04, w) else (d, w)

/-- A three-way disagreement (R104, R127).
DEDUCED: notes/assumptions/13.md. -/
def Dev.threeWay (d : Dev) (r : TaskResult) : Dev := (d.lastCause r none 2).engineLock 0x02

/-- The outputs of a compared task stand, and the context that it leaves is held; that of an odd pass is resynchronised (R104,
R105). -/
def Dev.takeContext (d : Dev) (r : TaskResult) (odd : Option Pass) : Dev :=
  { d with eng := (d.eng.takeContext r odd).takeOutputs r }

/-- A mismatch of a class in Triple: the vote (R104, R105, R130). -/
def Dev.voteTriple (d : Dev) (w : Work) (r : TaskResult) : Dev × Work :=
  match r.vote with
  | .agreed => (d.takeContext r none, w)
  | .threeWay => (d.threeWay r, w)
  | .odd p =>
    (((d.lastCause r (some p) 0).oddPass p (d.forStorage r)).takeContext r (some p), { w with pending := w.pending + 1 })

/-- A resolution that produced outputs. -/
def Dev.resolvedNow (d : Dev) : Dev := (d.engCount .resolved).notice 6 0 0

/-- The result hold words of the passes `ps` of a task are read: a single-bit error is corrected with its event, a double-bit error counted;
the banks hold the decoded words (R99, R100). -/
def Dev.readHolds (d : Dev) (r : TaskResult) (ps : List Pass) : Dev :=
  let d := Nat.repeat (fun d => (Dev.engCount d .single).notice 10 0 0) (r.errors ps .single) d
  let d := Nat.repeat (fun d => Dev.engCount d .double) (r.errors ps .double) d
  let e := d.eng
  { d with eng := { e with
      holds := r.fill ps e.holds, sHolds := if r.cls = Cls.s then r.fill ps e.sHolds else e.sHolds } }

/-- The resolution of a Paired mismatch once its self-test has passed: the re-execution, whose words go into their result
holds, and the vote (R99, R107, R109, R130); in the degraded state the second run of the remaining passes, compared as the
first (R101). -/
def Dev.rerunTask (d : Dev) (w : Work) (r : TaskResult) : Dev × Work :=
  if d.eng.degraded then
    let again : TaskResult := { r with words := r.rerun }
    let d := d.readHolds again (d.passesOf r)
    let d := if again.checkerFault then d.engineLock 0x01 else d
    if again.mismatch (d.passesOf r) then d.withhold w r
    else (((d.lastCause r none 0).resolvedNow).takeContext again none, w)
  else
  let d := d.readHolds r [.rearguard]
  if r.codeError then (d.threeWay r, w)
  else match r.vote with
    | .threeWay => (d.threeWay r, w)
    | .agreed => (((d.lastCause r none 0).resolvedNow).takeContext r none, w)
    | .odd p =>
      ((((d.lastCause r (some p) 0).resolvedNow).oddPass p (d.forStorage r)).takeContext r (some p),
        { w with pending := w.pending + 1 })

/-- A mismatch of a class in Paired: resolution within the reserve, else the outputs are withheld (R107 to R109, R129).
DEDUCED: notes/assumptions/13.md. -/
def Dev.resolvePaired (d : Dev) (w : Work) (r : TaskResult) : Dev × Work :=
  let cost := 185 + passCost r.cls * (if d.eng.degraded then 2 else 1)
  let own := if d.eng.degraded then 0 else 15
  if 1000 - d.frameBusy < w.used + cost + 15 * w.pending + own then d.withhold w r
  else
    let w := { w with used := w.used + cost }
    if !r.selfTestOk then ((d.lastCause r none 2).engineLock 0x03, w) else d.rerunTask w r

/-- A Split stream's result: its outputs, and its context in its own coding, or with an unusable word nothing (R100, R110, R111).
DEDUCED: notes/assumptions/13.md. -/
def Dev.takeSplit (d : Dev) (w : Work) (r : TaskResult) : Dev × Work :=
  if r.errors [r.stream] .double = 0 then ({ d with eng := (d.eng.takeStream r).takeStreamOutputs r }, w)
  else (d.engCount .storage).withhold w r

/-- One task of the frame: its holds, the verdicts of the comparators, and what a mismatch leads to; two Split streams are
not compared (R100, R101, R111).
DEDUCED: notes/assumptions/13.md. -/
def Dev.takeResult (x : Dev × Work) (r : TaskResult) : Dev × Work :=
  let d := x.1.readHolds r (x.1.passesOf r)
  if d.eng.act r.cls = split then d.takeSplit x.2 r
  else
    let d := if r.checkerFault then d.engineLock 0x01 else d
    if !r.mismatch (d.passesOf r) then (d.takeContext r none, x.2)
    else
      let d := if d.forStorage r then d.engCount .storage else d
      if d.eng.act r.cls = triple then d.voteTriple x.2 r else d.resolvePaired x.2 r

/-- A task put in its place by its number. -/
def insertTask (r : TaskResult) : List TaskResult → List TaskResult
  | [] => [r]
  | x :: xs => if r.task.toNat < x.task.toNat then r :: x :: xs else x :: insertTask r xs

/-- The tasks of the classes that run, in class order and within a class in task order (R129). -/
def Dev.ordered (d : Dev) (rs : List TaskResult) : List TaskResult :=
  (classes.filter d.tasksRun).flatMap fun k => (rs.filter fun r => r.cls = k).foldl (fun a r => insertTask r a) []

/-- Every task of a frame. -/
def Dev.resolveAll (d : Dev) (w : Work) (rs : List TaskResult) : Dev × Work := (d.ordered rs).foldl Dev.takeResult (d, w)

/-! ### Input agreement (R113, R114) -/

/-- The entry of an item after a frame. -/
def InputItem.after (x : InputItem) (bad : Bool) : InputItem :=
  if bad then { x with bad := x.bad + 1, good := 0, fault := x.fault || decide (3 ≤ x.bad + 1) }
  else { x with bad := 0, good := x.good + 1, fault := x.fault && decide (x.good + 1 < 10) }

/-- One disagreeing item: its entry is opened if there is none, and the disagreement is counted. -/
def Dev.disagrees (d : Dev) (a : Addr) : Dev :=
  let d := d.engCount .disagree
  if d.eng.items.any fun x => x.item = a then d
  else { d with eng := { d.eng with items := d.eng.items ++ [{ item := a, bad := 0, good := 0, fault := false }] } }

/-- An item that has just become faulty. -/
def Dev.itemFault (d : Dev) (a : Addr) : Dev :=
  ({ d with eng := { d.eng with item := a } } : Dev).fault 23 11 0 0

/-- Input agreement at the start of a frame: three disagreeing frames in a row raise the fault of an item, ten agreeing
ones clear it. -/
def Dev.agree (d : Dev) (items : List Addr) : Dev :=
  let d := items.eraseDups.foldl Dev.disagrees d
  let before := d.eng.items
  let after := before.map fun x => x.after (items.contains x.item)
  let d : Dev := { d with eng := { d.eng with items := after.filter fun x => x.fault || decide (0 < x.bad) } }
  let fresh := (before.zip after).filter fun p => !p.1.fault && p.2.fault
  let d := fresh.foldl (fun d p => d.itemFault p.2.item) d
  if d.eng.items.any fun x => x.fault then d else d.faultGone 23

/-! ### Trace (R123) -/

/-- Entries added to the trace buffer: 512 words, the oldest overwritten. -/
def Insp.record (i : Insp) (ws : List Word) : Insp :=
  let all := i.trace ++ ws
  { i with trace := all.drop (all.length - 512), traceOvf := i.traceOvf || decide (512 < all.length) }

/-- Bits 4 to 1 of TRACE_CTL select the classes S, C, E and B. -/
def Insp.traces (i : Insp) (k : Cls) : Bool := i.traceCls.getLsbD (3 - Cls.code k)

/-- The trace entries of a task: start and end of its lead pass and, where it is compared, the comparison's result. Their
times, numbered from `n`, are free.
DESIGN CHOICE: notes/assumptions/15.md. -/
def Dev.traceTask (d : Dev) (n : Nat) (r : TaskResult) : List Word :=
  let entry (kind i : Nat) : Word :=
    word (place r.task.toNat 16 + place kind 14 + (Config.freeWord (n + i)).toNat % 2 ^ 14)
  let led := if (d.passesOf r).contains .lead then [entry 0 0, entry 1 1] else []
  if d.eng.act r.cls = split then led
  else led ++ [entry (if r.mismatch (d.passesOf r) then 3 else 2) 2]

/-- The trace of a frame: the tasks of the selected classes in their order.
DESIGN CHOICE: notes/assumptions/15.md. -/
def Dev.traceFrame (d : Dev) (rs : List TaskResult) : Dev :=
  if d.insp.traceOn then
    let rs := (d.ordered rs).filter fun r => d.insp.traces r.cls
    let x := rs.foldl (fun (x : Nat × List Word) r => (x.1 + 3, x.2 ++ d.traceTask x.1 r)) (d.free, [])
    { d with insp := d.insp.record x.2, free := x.1 }
  else d

/-! ### The frame (R92, R93) -/

/-- The start of a frame: the watchdog is signalled, the frame is counted, and what ages by frames ages (R89, R91, R106,
R284). -/
def Dev.frameStart (d : Dev) : Dev :=
  let e := d.eng
  { d with
    sup := { d.sup with wdArmed := !d.insp.halted }
    eng := { e with
      frame := e.frame + 1, sinceSeam := (e.sinceSeam + 1) % 100
      seamDone := e.seamDone && decide ((e.sinceSeam + 1) % 100 ≠ 0)
      cDone := e.cDone && decide ((e.sinceSeam + 1) % 10 ≠ 0)
      oddHist := (e.oddHist.map fun x => (x.1 + 1, x.2)).filter fun x => x.1 < 1000 }
    can0 := { d.can0 with succeeded := false }
    can1 := { d.can1 with succeeded := false }
    lim := { d.lim with
      frameFaults := []
      episodes := (d.lim.episodes.map fun (e : FaultEpisode) =>
        { e with age := if d.faultBits.getLsbD e.fault then 0 else e.age + 1 }).filter
        fun x => x.age < episodeFrames } }

/-- The mean of the frame's 20 samples of the pump current in mA (R220). -/
def Dev.pumpCurrent (d : Dev) (codes : Vector (BitVec 12) 20) : Int :=
  let gain := 5 * 2 ^ field d.sen.csacfg 8 2
  match d.man with
  | none => d.pwr.iPump
  | some m => quantise ((codes.toList.map (senseCurrent gain m.pumpShunt)).sum / 20)

/-- SUP_VMON of the agreed readings, and the pump current, in mV and mA. -/
def Dev.readings (d : Dev) (f : FrameInputs) (keep : Kept) : Dev :=
  let vmon := word (place (clampNat 0xFFF (f.vbkup / 2)) 12 + clampNat 0xFFF (f.vsup / 10))
  { d with
    sup := { d.sup with vmon := if keep 0x066 then d.sup.vmon else vmon }
    pwr := { d.pwr with iPump := if keep 0x13E then d.pwr.iPump else d.pumpCurrent f.pump } }

/-- The rails of the agreed snapshot. -/
def Dev.railsOf (d : Dev) (f : FrameInputs) (keep : Kept) : Dev :=
  if keep 0x13F then d.railFrame d.pwr.vcoils d.pwr.vcp f.vdrv else d.railFrame f.vcoils f.vcp f.vdrv

/-- The guard levels and the pump speed of the agreed snapshot (R113, R114). -/
def Dev.levelsOf (d : Dev) (keep : Kept) : Dev :=
  { d with
    saf := { d.saf with agreed := if keep 0x162 then d.saf.agreed else d.saf.filt }
    pwr := { d.pwr with agreedSpeed := if keep 0x138 then d.pwr.agreedSpeed else d.pwr.pumpMeas } }

/-- The coil current loops; while class S withholds its outputs the duties of the frame before stand. -/
def Dev.coilFrames (d : Dev) (keep : Kept) (held : Bool) : Dev :=
  coils.foldl (fun d k =>
    let n := (d.coil.get k).duty
    let d := Dev.coilFrame d keep k
    if held then d.setCoil k fun c => { c with duty := n } else d) d

/-- The work of a frame: values, rails, cell table, faults, coil loops, releases, drover, toll and permission. What class S or
class C withholds does not act (R108). -/
def Dev.classS (d : Dev) (f : FrameInputs) (held : Bool) : Dev :=
  let keep : Kept := fun a => f.disagree.any fun x => x.toNat = a
  let d := (((d.levelsOf keep).readings f keep).sensingFrame keep).railsOf f keep
  let d := d.enterSnaps (keep 0x212)
  let d := if held then d else d.sensingFaults.ntcThresholds
  let d := if d.inRun then d.estimateFrame else d
  let d := d.coilFrames keep held
  let d := if d.eng.nowC then d else (coils.foldl Dev.releaseFrame d).droverFrame
  let d := if held then d else d.meterFrame
  if held then ({ d with saf := { d.saf with missing := d.saf.missing + 1 } } : Dev).permissionCheck
  else d.refreshPermission

/-- ENG_LOAD after a frame with `used` µs of its reserve used (R93). -/
def Dev.frameLoad (d : Dev) (busy used : Nat) : Dev :=
  let total := busy + used
  { d with eng := { d.eng with
      reserveMin := min d.eng.reserveMin (1000 - total), busyPeak := max d.eng.busyPeak (min 1000 total)
      rebuild := false } }

/-- The reserve that the rebuild of a rejoin takes from its frame: a free time of at most 100 µs (R112).
DEDUCED: notes/assumptions/14.md. -/
def Dev.rebuildTime (d : Dev) : Dev × Nat :=
  if d.eng.rebuild then (d.tick, (Config.freeWord d.free).toNat % 101) else (d, 0)

/-- One frame: capture, comparison and resolution, class S work, the commands after every fault (R32, R484), and the records
that fall due at its boundary (R417). -/
def Dev.frameWork (d : Dev) (f : FrameInputs) : Dev :=
  let d := d.frameStart.frameModes
  let busy := d.frameBusy
  let b := d.rebuildTime
  let d := if b.1.tasksRun .s then b.1.agree f.disagree else b.1
  let d := d.traceFrame f.results
  let r := d.resolveAll { used := b.2 } f.results
  let d := r.1
  let w := r.2
  let d := { d with eng := { d.eng with heldS := w.s, heldB := w.b } }
  let d := if d.tasksRun .s then d.classS f w.s else d
  let d := d.ackFrame.cfgCheck
  let d := d.runCommands.endTrips.drainRecords.zeroCheck
  let d := if d.inRun && !w.b && !d.powerFailing then d.lifeFrame else d
  d.frameLoad busy (w.used + 15 * w.pending)

/-! ### Class C (R92, R108) -/

/-- The limits that wait for a class C period are published (R92, R108). -/
def Dev.publishLate (d : Dev) : Dev :=
  if d.eng.publishDue && d.inRun then ({ d with eng := { d.eng with publishDue := false } } : Dev).publishLimits else d

/-- A class C period starts: the outputs of the one that ends are taken unless withheld, and the mode may change
between Triple and Paired. -/
def Dev.classCStart (d : Dev) : Dev :=
  let d := if d.eng.nowC then d else d.pumpLoop.publishLate
  { d with eng := { d.eng with
      cAct := d.modeAtPeriod .c
      uncheckedC := d.eng.uncheckedC && (decide (d.eng.cAct = split) || decide (d.eng.sinceSeam = 0))
      heldC := d.eng.nowC, nowC := false } }

/-- The class C period that fell due has started, with its work where its tasks run. -/
def Dev.classCPeriod (d : Dev) : Dev :=
  let d := if d.tasksRun .c then d.classCStart else d
  { d with eng := { d.eng with cDone := true } }

/-! ### The seam (R94, R110 to R112, R133) -/

/-- The mode of a class at a seam, with `held` for a resolution of class E or class B that is outstanding. -/
def Dev.modeAtSeam (d : Dev) (k : Cls) (held : Bool) : BitVec 2 :=
  let now := d.eng.act k
  let want := if d.eng.degraded then paired else d.requested k
  if want = split then (if held && decide (now ≠ split) then now else split)
  else if now = split || decide (k = Cls.e) then want
  else now

/-- A class has entered or left Split: its event. -/
def Dev.splitEvent (d : Dev) (was now : BitVec 2) : Dev :=
  if was ≠ now ∧ (was = split ∨ now = split) then d.notice 12 0 0 else d

/-- The mode changes of a seam: the unchecked mark of a class begins with its Split and lasts over the first period
after it, and a rejoining class has its contexts rebuilt. -/
def Dev.seamModes (d : Dev) : Dev :=
  let e := d.eng
  let held := e.nowE || e.heldB
  let c := d.modeAtSeam .c held
  let x := d.modeAtSeam .e held
  let b := d.modeAtSeam .b held
  let left (was now : BitVec 2) : Bool := decide (was = split) && decide (now ≠ split)
  let d : Dev := { d with eng := { e with
    cAct := c, eAct := x, bAct := b
    uncheckedC := e.uncheckedC || decide (c = split)
    uncheckedE := decide (e.eAct = split) || decide (x = split)
    uncheckedB := e.uncheckedB || decide (b = split)
    rebuild := e.rebuild || left e.cAct c || left e.eAct x || left e.bAct b } }
  let rejoin (k : Cls) (l : Bool) (cs : List CtxWord) : List CtxWord := if l then d.eng.rebuildClass k cs else cs
  let cs := rejoin .b (left e.bAct b) (rejoin .e (left e.eAct x) (rejoin .c (left e.cAct c) e.ctx))
  let d := { d with eng := { d.eng with ctx := cs } }
  ((d.splitEvent e.cAct c).splitEvent e.eAct x).splitEvent e.bAct b

/-- The outputs of the class E period that ends (R92): the estimates, the limits and the deliberate step. Where they are
withheld, the limits of before are published once more (R108, R266). -/
def Dev.classEOutputs (d : Dev) : Dev :=
  if d.inRun && d.tasksRun .e then
    if d.eng.nowE then d.publishPeriod else d.estimatePeriod.limitPeriod.publishPeriod.stepPeriod
  else d

/-- A seam: the outputs of the period that ends, the settings and modes of the one that starts. -/
def Dev.seam (d : Dev) : Dev :=
  let d := d.classEOutputs.takeEstSettings.seamModes
  { d with eng := { d.eng with heldE := d.eng.nowE, nowE := false, seamDone := true, injDue := true } }

/-- The seam that has fallen due starts, if it has not. -/
def Dev.dueSeam (d : Dev) : Dev := if d.eng.seamDone then d else d.seam

/-- SEAM: at the boundary that the engine's period counter marks. -/
def execSeam (s : State) : Host.Outcome State Fault Refusal :=
  s.effect fun d => if d.framesRun then d.dueSeam else d

/-- The starts that have fallen due at this boundary, the seam first (R94). -/
def Dev.dueStarts (d : Dev) : Dev :=
  let d := d.dueSeam
  if d.eng.cDone then d else d.classCPeriod

/-- CLASS_C_PERIOD: at every tenth boundary; the first of a class E period starts at the seam. -/
def execClassCPeriod (s : State) : Host.Outcome State Fault Refusal :=
  s.effect fun d => if d.framesRun then d.dueStarts else d

/-- A frame, after the starts that fell due at its beginning and have not been carried out. -/
def Dev.runFrame (d : Dev) (f : FrameInputs) : Dev := d.dueStarts.frameWork f

/-- ENGINE_FRAME. -/
def execEngineFrame (f : FrameInputs) (s : State) : Host.Outcome State Fault Refusal :=
  s.effect fun d => if d.framesRun then d.runFrame f else d

/-! ### The injection test (R102, R131) -/

/-- The pass after `p` among those that run, from the last back to the first. -/
def nextPass (ps : List Pass) (p : Pass) : Pass :=
  let rest := (ps.dropWhile fun q => q ≠ p).drop 1
  (rest.head?.orElse fun _ => ps.head?).getD .lead

/-- The next pass, word and bit: the pass rotates at every test, the word moves on when the rotation is complete, and the
bit when the word has come round.
DESIGN CHOICE: notes/assumptions/72.md. -/
def Eng.nextInjection (e : Eng) : Eng :=
  let p := nextPass (e.passes .s) e.injPass
  let round := decide (some p = (e.passes .s).head?)
  let w := if round then (e.injWord + 1) % 64 else e.injWord
  let b := if round && decide (w = 0) then (e.injBit + 1) % 24 else e.injBit
  { e with injWord := w, injBit := b, injPass := p, injDue := false }

/-- The chosen word as the test compares it: one bit of one pass's hold is inverted. -/
def Eng.injected (e : Eng) : Vector (Option Word) 3 :=
  let v : Vector (Option Word) 3 := e.sHolds.map fun b => b.toList.getD e.injWord (some 0)
  let p := if (e.passes .s).contains e.injPass then e.injPass else ((e.passes .s).head?).getD .lead
  upd v (bank p) ((v.get (bank p)).map fun x => x ^^^ BitVec.ofNat 24 (2 ^ e.injBit))

/-- The test verdicts, with `okA` and `okB` the comparators that judge rightly: both must flag the word (R102, R131). -/
def Dev.injection (d : Dev) (okA okB : Bool) : Dev :=
  let seen := differ (d.eng.passes .s) d.eng.injected
  let d : Dev := { d with eng := d.eng.nextInjection }
  if seen = okA && seen = okB then { d with eng := { d.eng with cmptest := d.eng.cmptest + 1 } }
  else d.engineLock 0x01

/-- INJECTION_TEST; under halt, in a frame that STEP has run (R117). -/
def execInjectionTest (okA okB : Bool) (s : State) : Host.Outcome State Fault Refusal :=
  s.effect fun d =>
    if (d.framesRun || (d.insp.halted && d.eng.injDue)) && d.tasksRun .s then d.injection okA okB else d

end Sys2Proof.Machine
end

