-- ==== Sys2Proof/Machine/Inspect.lean ====
section
/-! DEFINITION. The inspection port (R115 to R124, R132): its transactions, the halt, the lead view, the replay log and
the trace buffer. -/
namespace Sys2Proof.Machine

/-! ### Transactions (R115, R116, R124) -/

/-- One bit into an MSB-first CRC-8 of polynomial 0x2F. -/
def crc8Bit (reg : Byte) (b : Bool) : Byte := if reg.msb != b then (reg <<< 1) ^^^ 0x2F else reg <<< 1

/-- The CRC-8 over the `n` bits of `v`, the most significant first. -/
def crc8Of (n v : Nat) : Byte := ((List.range n).foldl (fun r i => crc8Bit r (v.testBit (n - 1 - i))) 0xFF) ^^^ 0xFF

/-- The CRC-8 over opcode, address and data of a request, 52 bits. -/
def ipCrc (op : Nat) (addr data : Word) : Byte := crc8Of 52 (op * 2 ^ 48 + addr.toNat * 2 ^ 24 + data.toNat)

/-- The CRC-8 over ack and data of a response, 27 bits. -/
def ipAnswerCrc (ack : BitVec 3) (data : Word) : Byte := crc8Of 27 (ack.toNat * 2 ^ 24 + data.toNat)

/-- The ack codes. -/
def ackOk : BitVec 3 := 1
def ackWait : BitVec 3 := 2
def ackRefused : BitVec 3 := 3
def ackCrc : BitVec 3 := 4

/-- The port answers: powered, out of reset, not in Watch, not disabled (R19, R124). -/
def Dev.ipAnswers (d : Dev) : Bool := d.alive && decide (d.mode.mode ≠ Mode.watch) && !bit d.eng.ipcfg 0

/-- What a transaction does: the device, the ack and the data. -/
abbrev IpResult := Dev × BitVec 3 × Word

/-- Refused outside the allowed condition. -/
def ipRefused (d : Dev) : IpResult := (d, ackRefused, 0)

/-- The response of the port. -/
def Dev.ipRespond (d : Dev) (r : Option (BitVec 3 × Word)) : Dev :=
  { d with insp := { d.insp with resp := r.map fun x => (x.1, x.2, ipAnswerCrc x.1 x.2) } }

/-- One transaction: a request of wrong CRC is answered and not executed. -/
def Dev.ip (d : Dev) (op : Nat) (addr data : Word) (crc : Byte) (run : Dev → IpResult) : Dev :=
  if !d.ipAnswers then d.ipRespond none
  else if crc ≠ ipCrc op addr data then d.ipRespond (some (ackCrc, 0))
  else
    let r := run d
    r.1.ipRespond (some r.2)

/-! ### STATUS, HALT, RESUME and STEP (R117, R120, R121) -/

/-- STATUS. -/
def ipStatusBody (d : Dev) : IpResult :=
  (d, ackOk, word (flag d.insp.halted 0 + flag (decide (d.runState = RunState.bench)) 1 +
    flag (decide (d.seq.drover = Drover.openS)) 2 + place d.insp.replay.length 3 + flag d.insp.traceOvf 9 +
    flag d.insp.traceOn 10))

/-- IP_STATUS; an undefined opcode is answered REFUSED (R116). -/
def execIpStatus (op : BitVec 4) (crc : Byte) (s : State) : Host.Outcome State Fault Refusal :=
  s.effect fun d => d.ip op.toNat 0 0 crc fun d => if op = 1 then ipStatusBody d else ipRefused d

/-- HALT: in Bench with the drover OPEN, at the end of the current frame. -/
def haltBody (d : Dev) : IpResult :=
  if d.benchOpen then ({ d with insp := { d.insp with haltReq := !d.insp.halted } }, ackOk, 0) else ipRefused d

/-- HALT. -/
def execHalt (crc : Byte) (s : State) : Host.Outcome State Fault Refusal := s.effect fun d => d.ip 2 0 0 crc haltBody

/-- The halt takes effect at the end of the frame: no task runs and no limit is published from here on, the watchdog is
disarmed, and the limits are zero (R91, R120, R265). A halt that has been accepted takes effect whatever the frame's
resolution has led to (R132).
DESIGN CHOICE: notes/assumptions/15.md. -/
def Dev.engineHalts (d : Dev) : Dev :=
  if d.insp.haltReq && d.framesRun then
    let d : Dev := { d with
      insp := { d.insp with halted := true, haltReq := false }, sup := { d.sup with wdArmed := false } }
    (d.notice 13 0 0).zeroCheck
  else d

/-- ENGINE_HALT. -/
def execEngineHalt (s : State) : Host.Outcome State Fault Refusal := s.effect Dev.engineHalts

/-- The replay log is applied to the checker contexts, in order, and emptied (R121). -/
def Dev.drainReplay (d : Dev) : Dev :=
  { d with
    eng := { d.eng with ctx := d.insp.replay.foldl replayed d.eng.ctx }
    insp := { d.insp with replay := [] } }

/-- The engine runs on after a halt: the chain is polled again, and its count of µs has gone on. -/
def Dev.unhalt (d : Dev) : Dev :=
  (({ d with insp := { d.insp with halted := false } } : Dev).newPhase).takeWaiting

/-- RESUME: while halted. -/
def resumeBody (d : Dev) : IpResult :=
  if d.insp.halted then (d.drainReplay.unhalt, ackOk, 0) else ipRefused d

/-- IP_RESUME. -/
def execIpResume (crc : Byte) (s : State) : Host.Outcome State Fault Refusal :=
  s.effect fun d => d.ip 3 0 0 crc resumeBody

/-- STEP: while halted, one complete frame. -/
def stepBody (f : FrameInputs) (d : Dev) : IpResult :=
  if d.insp.halted then ((d.drainReplay.newPhase).runFrame f, ackOk, 0) else ipRefused d

/-- STEP. -/
def execIpStep (crc : Byte) (f : FrameInputs) (s : State) : Host.Outcome State Fault Refusal :=
  s.effect fun d => d.ip 4 0 0 crc (stepBody f)

/-! ### The lead view (R118, R119, R121, R122) -/

/-- An address of a lead-context word: in the engine's SRAM, in a lead-context region, and not the context of a
second-stream Split task. -/
def Dev.leadAddr (d : Dev) (a : Word) : Bool :=
  decide (a.toNat ≤ 0x15554) && Config.leadRegion a.toNat && (d.eng.ctxAt a.toNat).lead.isSome

/-- A word of the lead context. -/
def Dev.leadValue (d : Dev) (a : Word) : Word := ((d.eng.ctxAt a.toNat).lead).getD 0

/-- READ of the lead context: at once while halted, else WAIT until the word has been captured. -/
def readLead (a : Word) (d : Dev) : IpResult :=
  if d.insp.halted then (d, ackOk, d.leadValue a)
  else match d.insp.captured with
    | some (b, v) =>
      if b = a then ({ d with insp := { d.insp with captured := none } }, ackOk, v)
      else ({ d with insp := { d.insp with asked := some a } }, ackWait, 0)
    | none => ({ d with insp := { d.insp with asked := some a } }, ackWait, 0)

/-- READ of the register space: without side effects and without a capture, and refused in a stopped domain.
DESIGN CHOICE: notes/assumptions/15.md. -/
def readSpace (a : Nat) (d : Dev) : IpResult :=
  if d.runsFor (accessDomain a) then (d, ackOk, d.peek a) else ipRefused d

/-- READ of bank 0; an unusable word reads a free value. -/
def readHold (i : Nat) (d : Dev) : IpResult :=
  match (d.eng.holds.get (bank .lead)).toList.getD i none with
  | some v => (d, ackOk, v)
  | none => (d.tick, ackOk, Config.freeWord d.free)

/-- READ: in Run and in muster. -/
def readBody (a : Word) (d : Dev) : IpResult :=
  if d.leadAddr a then readLead a d
  else if 0x400000 ≤ a.toNat ∧ a.toNat ≤ 0x40003F then readHold (a.toNat % 64) d
  else if 0x800000 ≤ a.toNat ∧ a.toNat ≤ 0x800FFF then readSpace (a.toNat % 4096) d
  else ipRefused d

/-- IP_READ. -/
def execIpRead (addr : Word) (crc : Byte) (s : State) : Host.Outcome State Fault Refusal :=
  s.effect fun d => d.ip 5 addr 0 crc (readBody addr)

/-- The word asked for is captured at the next boundary between passes. -/
def Dev.captureLead (d : Dev) : Dev :=
  match d.insp.asked with
  | some a =>
    if d.framesRun then { d with insp := { d.insp with captured := some (a, d.leadValue a), asked := none } } else d
  | none => d

/-- LEAD_VIEW_CAPTURE. -/
def execLeadViewCapture (s : State) : Host.Outcome State Fault Refusal := s.effect Dev.captureLead

/-- The most entries of the replay log. -/
def replaySize : Nat := 32

/-- WRITE: while halted, to the lead context; a write that the full log cannot take is not applied and locks the Golner
out (R122). Its ack then is open. -/
def writeBody (a v : Word) (d : Dev) : IpResult :=
  if !d.insp.halted || !d.leadAddr a then ipRefused d
  else if replaySize ≤ d.insp.replay.length then
    ((d.engineLock 0x05).tick, if Config.freeBool d.free then ackOk else ackRefused, 0)
  else
    let log := d.insp.replay ++ [(a, v)]
    let d : Dev := { d with
      eng := d.eng.putCtx { d.eng.ctxAt a.toNat with lead := some v }
      insp := { d.insp with replay := log, peak := max d.insp.peak log.length } }
    (d.notice 13 0 0, ackOk, 0)

/-- IP_WRITE. -/
def execIpWrite (addr data : Word) (crc : Byte) (s : State) : Host.Outcome State Fault Refusal :=
  s.effect fun d => d.ip 6 addr data crc (writeBody addr data)

/-! ### Trace and replay state (R117, R123) -/

/-- TRACE_CTL: in Run. -/
def traceCtlBody (data : Word) (d : Dev) : IpResult :=
  if d.inRun then
    ({ d with insp := { d.insp with traceOn := bit data 0, traceCls := BitVec.ofNat 4 (field data 1 4) } }, ackOk, 0)
  else ipRefused d

/-- TRACE_CTL. -/
def execTraceCtl (data : Word) (crc : Byte) (s : State) : Host.Outcome State Fault Refusal :=
  s.effect fun d => d.ip 7 0 data crc (traceCtlBody data)

/-- TRACE_POP: in Run; refused when the buffer is empty. -/
def tracePopBody (d : Dev) : IpResult :=
  if d.inRun then
    match d.insp.trace with
    | [] => ipRefused d
    | w :: ws => ({ d with insp := { d.insp with trace := ws } }, ackOk, w)
  else ipRefused d

/-- TRACE_POP. -/
def execTracePop (crc : Byte) (s : State) : Host.Outcome State Fault Refusal :=
  s.effect fun d => d.ip 8 0 0 crc tracePopBody

/-- REPLAY_STAT. -/
def replayStatBody (d : Dev) : IpResult := (d, ackOk, word (place d.insp.peak 8 + d.insp.replay.length))

/-- REPLAY_STAT. -/
def execReplayStat (crc : Byte) (s : State) : Host.Outcome State Fault Refusal :=
  s.effect fun d => d.ip 9 0 0 crc replayStatBody

end Sys2Proof.Machine
end

