-- ==== Sys2Proof/Machine/HostPort.lean ====
section
/-! DEFINITION. The host port (R85 to R88, R470 to R487, R503): accesses to registers and windows, NOP, ABORT, frames
with errors, and the start and stop of clock domains (R57, R58, R84). -/
namespace Sys2Proof.Machine

/-! ### Windows (R485, R486) -/

/-- WIN_ADDR lies in the window. -/
def Dev.windowOk (d : Dev) : Bool := decide (d.hst.winAddr.toNat < d.windowSize)

/-- A word of the cell table: cell `p`, word `w` of its eight. -/
def Dev.cellWord (d : Dev) (p : Fin 576) (w : Nat) : Word :=
  let c := d.est.cells.get p
  match w with
  | 0 => word (clampNat 0xFFFFFF c.v)
  | 1 => match c.t with | some t => BitVec.ofInt 24 t | none => Config.invalidTemp
  | 2 => word (flag (!d.listedCells.contains p) 23 + flag (c.unchecked || c.fitUnchecked) 22 +
      flag (d.chn.stages.get (stageOf p)).stale 21 + fieldOf 17 (c.soc * 100000))
  | 3 => word (place (clampNat 255 c.conf) 16 + fieldOf 10 (sqrtOf c.var * 1000))
  | 4 => word (fieldOf 24 (c.rs * 10000000))
  | 5 => word (fieldOf 24 (c.rp * 10000000))
  | 6 => word (fieldOf 24 (c.taup * 1000))
  | _ => word (fieldOf 24 (c.cap * 100))

/-- The lifetime record: the valid copy with the higher generation; where none is valid, what is read is open.
DESIGN CHOICE: notes/assumptions/12.md. -/
def Dev.lifetimeShown (d : Dev) : List Byte :=
  match d.lifeRecord with
  | some r => r.2
  | none => fit 1024 (Config.freeBytes d.free)

/-- A record of the impedance history, as the valid copy with the higher generation holds it (R510); where no copy is
valid, there is none.
DESIGN CHOICE: notes/assumptions/12.md. -/
def Dev.historyShown (d : Dev) (k : Nat) : List Byte :=
  if d.dep.histGen = 0 then List.replicate 320 cs1Default
  else d.cs1 (historyAddr d.dep.histCopy + 4 + 320 * k) 320

/-- The word of window `win` at word address `a`, which lies in the window.
DESIGN CHOICE: notes/assumptions/12.md. -/
def Dev.windowWord (d : Dev) (win a : Nat) : Word :=
  match win with
  | 0 =>
    let base := d.mslot * 0x10000
    wordOf (d.cs1 (base + 3 * a) (min 3 (0x10000 - 3 * a))) 0
  | 1 => d.cellWord (Fin.ofNat 576 (a / 8)) (a % 8)
  | 2 => wordOf (d.cs0 (slotAddr (a / 86)) 256) (a % 86)
  | 3 => wordOf d.lifetimeShown a
  | 4 => wordOf (d.cs1 (logAddr (a / 11)) 32) (a % 11)
  | 5 => wordOf (d.historyShown (a / 107)) (a % 107)
  | _ => match d.evt.queue[a / 4]? with | some e => e.words.getD (a % 4) 0 | none => 0

/-- Bytes programmed over what a memory holds: a bit is only ever cleared, so a byte that is still erased takes the
value. -/
def programmed (old new : List Byte) : List Byte := (old.zip new).map fun p => p.1 &&& p.2

/-- A word written through window 0: the bytes of the slot that are still erased are programmed (R530). -/
def Dev.programWord (d : Dev) (a : Nat) (data : Word) : Dev :=
  let base := d.mslot * 0x10000 + 3 * a
  let n := min 3 (0x10000 - 3 * a)
  d.setCs1 base (programmed (d.cs1 base n) ((be 3 data.toNat).take n))

/-! ### Accesses (R85 to R87) -/

/-- The clock domain that an access needs: of its register, or of its window's space (R485, R571); a read of a reserved
address needs none (R573).
DEDUCED: notes/assumptions/10.md. -/
def Dev.accessNeeds (d : Dev) : Access → Option Domain
  | .read a _ => if registerListed a.toNat then accessDomain a.toNat else none
  | .write a _ _ => accessDomain a.toNat
  | .command r _ _ => cmdDomain r
  | .winRead _ => if d.window = 1 ∨ d.window = 6 then some .per else some .dep
  | .winWrite _ _ => if d.window = 1 ∨ d.window = 6 then some .per else some .dep

/-- The access takes longer than 150 ns in a running domain: a write across the hold-and-flag crossing into the
always-on domain (R72, R75), or a transaction of the depot.
DEDUCED: notes/assumptions/10.md. -/
def Dev.slowAccess (d : Dev) (a : Access) : Bool :=
  match a with
  | .write x _ _ => inAlwaysOn x.toNat
  | .winRead _ | .winWrite _ _ => decide (d.accessNeeds a = some .dep)
  | _ => false

/-- A write that crosses into the always-on domain, which takes up to three periods of its clock (R72). -/
def Access.crossing : Access → Bool
  | .write x _ _ => inAlwaysOn x.toNat
  | _ => false

/-- The opcode and the address of the frame that made an access. -/
def Access.opcode : Access → Nat
  | .read _ inc => if inc then 3 else 1
  | .write _ _ inc => if inc then 4 else 2
  | .command _ _ _ => 7
  | .winRead inc => if inc then 3 else 1
  | .winWrite inc _ => if inc then 4 else 2
def Access.address : Access → Nat
  | .read a _ => a.toNat
  | .write a _ _ => a.toNat
  | .command r _ _ => cmdAddr r
  | .winRead _ => 0x212
  | .winWrite _ _ => 0x212

/-- An address error: a write to a reserved address, or a window address beyond the window (R479, R485, R573). -/
def Dev.addressBad (d : Dev) : Access → Bool
  | .write a _ _ => !registerListed a.toNat
  | .winRead _ => !d.windowOk
  | .winWrite _ _ => !d.windowOk
  | _ => false

/-- WIN_ADDR moves on after a READ_INC or WRITE_INC. -/
def Dev.advance (d : Dev) (inc : Bool) : Dev :=
  if inc then { d with hst := { d.hst with winAddr := d.hst.winAddr + 1 } } else d

/-- A completed access: the device, the error and the data. -/
structure Performed where
  dev : Dev
  err : Nat
  data : Word

/-- The completion of an access in its domain: a write may violate a relation between fields (R488). A refused one leaves
everything unchanged (R479). -/
def Dev.perform (d : Dev) : Access → Performed
  | .read a _ => let r := d.readReg a.toNat; { dev := r.1, err := 0, data := r.2 }
  | .write a data _ =>
    match d.writeReg a.toNat data with
    | .ok d' => let d' := d'.cfgCheck; { dev := d', err := 0, data := d'.peek a.toNat }
    | .error e => { dev := d, err := e, data := 0 }
  | .command r tok code =>
    if (d.cmds.get r).refuses tok then { dev := d, err := 4, data := 0 }
    else { dev := d.offer r tok code, err := 0, data := acceptedData tok code.toNat }
  | .winRead inc =>
    { dev := d.advance inc, err := 0, data := d.windowWord d.window d.hst.winAddr.toNat }
  | .winWrite inc data =>
    if d.window = 0 ∧ d.slotWritable then
      let d' := d.programWord d.hst.winAddr.toNat data
      { dev := d'.advance inc, err := 0, data := d'.windowWord 0 d.hst.winAddr.toNat }
    else { dev := d, err := 4, data := 0 }

/-- Whether NOP fetches the result: not that of a COMMAND (R478). -/
def Access.fetchable : Access → Bool
  | .command _ _ _ => false
  | _ => true

/-- An access completes: a refusal is recorded with the number of its frame (R478, R479), and the result becomes
fetchable.
DEDUCED: notes/assumptions/8.md. -/
def Dev.conclude (d : Dev) (a : Access) (frame : BitVec 4) : Dev × Nat × Word :=
  let r := d.perform a
  let d := if r.err = 0 then r.dev else r.dev.frameError r.err frame a.opcode a.address
  let d := if a.fetchable then { d with hst := { d.hst with fetch := some (BitVec.ofNat 3 r.err, r.data) } } else d
  (d, r.err, r.data)

/-- The error of a frame that comes while an access is outstanding: the first of R479.
DEDUCED: notes/assumptions/9.md. -/
def Dev.outstandingError (d : Dev) (a : Access) : Nat := let e := (d.perform a).err; if e = 0 then 6 else e

/-- A frame that makes an access: dropped without supply or in reset (R502); an address error, or a frame during an
outstanding access, is refused (R479, R503); in a stopped domain the access pends (R85); one that takes longer than
150 ns is outstanding until it completes (R478); any other completes at once.
DEDUCED: notes/assumptions/10.md. -/
def Dev.accessFrame (d : Dev) (a : Access) : Dev :=
  if !d.alive then d
  else
    let d := d.numberFrame
    if d.addressBad a then d.refuseFrame 3 a.opcode a.address
    else if d.hst.access.isSome then d.refuseFrame (d.outstandingError a) a.opcode a.address
    else
      let d := { d with hst := { d.hst with fetch := none } }
      let runs := d.runsFor (d.accessNeeds a)
      if runs && !d.slowAccess a then
        let r := d.conclude a d.hst.frame
        r.1.respond (BitVec.ofNat 3 r.2.1) false 0 r.2.2
      else
        ({ d with hst := { d.hst with
            access := some a, delivered := runs && !a.crossing, accessFrame := d.hst.frame } } : Dev).respondBusy

/-- The depot serves a host window now: no transaction is in progress, none waits that goes first, and no sealed record
is about to be committed (R419, R507, R583).
DEDUCED: notes/assumptions/10.md. -/
def Dev.windowTurn (d : Dev) : Bool :=
  d.dep.busy.isNone && !d.lgr.committing && (d.dep.waiting.all fun t => decide (DepotTx.window.rank ≤ t.rank)) && d.dep.jobs.isEmpty &&
    (d.lgr.depotErr || !d.commitReady)

/-- The access can complete now: its domain runs, and a depot window has its turn (R85, R86, R583).
DEDUCED: notes/assumptions/10.md. -/
def Dev.canComplete (d : Dev) (a : Access) : Bool :=
  d.runsFor (d.accessNeeds a) && (decide (d.accessNeeds a ≠ some .dep) || d.windowTurn)

/-- The response to a NOP: the result of the latest access once it has completed (R478).
DEDUCED: notes/assumptions/8.md. -/
def Dev.nopResponse (d : Dev) : Dev :=
  let x : BitVec 3 × Word := d.hst.fetch.getD (0, 0)
  { d with hst := { d.hst with resp := { d.hst.resp with
      kind := .nop, busy := d.hst.access.isSome
      err := if d.hst.access.isSome then 0 else x.1, data := if d.hst.access.isSome then 0 else x.2 } } }

/-- An access has completed: BUSY clears, and a NOP that waits for it takes its result (R85, R478). -/
def Dev.afterAccess (d : Dev) : Dev :=
  match d.hst.resp.kind with
  | .nop => d.nopResponse
  | .access => d
  | .fixed => { d with hst := { d.hst with resp := { d.hst.resp with busy := false } } }

/-- The outstanding access completes in its domain. -/
def Dev.accessCompletes (d : Dev) : Dev :=
  match d.hst.access with
  | none => d
  | some a =>
    if d.alive && d.canComplete a then
      let d := { d with hst := { d.hst with access := none, delivered := false } }
      (d.conclude a d.hst.accessFrame).1.afterAccess
    else d

/-- ACCESS_COMPLETE. -/
def execAccessComplete (s : State) : Host.Outcome State Fault Refusal := s.effect Dev.accessCompletes

/-! ### READ, WRITE, READ_INC and WRITE_INC -/

/-- The command register at an address. -/
def cmdAt (a : Nat) : Option CmdReg := cmdRegs.find? fun r => cmdAddr r = a

/-- A READ or READ_INC frame: WIN_DATA reads the window, and elsewhere the two act alike (R476). -/
def Dev.readFrame (d : Dev) (a : Addr) (inc : Bool := false) : Dev :=
  d.accessFrame (if a = 0x212 then .winRead inc else .read a inc)

/-- A WRITE or WRITE_INC frame: at a command register it acts as a COMMAND (R477), at WIN_DATA it writes the window, and
elsewhere the two act alike (R476). -/
def Dev.writeFrame (d : Dev) (a : Addr) (data : Word) (inc : Bool := false) : Dev :=
  match cmdAt a.toNat with
  | some r =>
    let tok := BitVec.ofNat 8 (field data 16 8)
    let code := BitVec.ofNat 8 (field data 0 8)
    d.commandFrame r tok code.toNat (if inc then 4 else 2) fun d => d.offer r tok code
  | none => d.accessFrame (if a = 0x212 then .winWrite inc data else .write a data inc)

/-- REGISTER_READ. -/
def execRegisterRead (addr : Addr) (s : State) : Host.Outcome State Fault Refusal := s.effect fun d => d.readFrame addr

/-- REGISTER_WRITE. -/
def execRegisterWrite (addr : Addr) (data : Word) (s : State) : Host.Outcome State Fault Refusal :=
  s.effect fun d => d.writeFrame addr data

/-- WIN_SEL_WRITE. -/
def execWinSelWrite (data : Word) (s : State) : Host.Outcome State Fault Refusal :=
  s.effect fun d => d.writeFrame 0x210 data

/-- WINDOW_ACCESS_INC: a READ_INC or WRITE_INC frame, which at WIN_DATA accesses the window and moves WIN_ADDR on, and
elsewhere acts as READ or WRITE (R476). -/
def execWindowAccessInc (addr : Addr) (write : Option Word) (s : State) : Host.Outcome State Fault Refusal :=
  s.effect fun d => match write with | some data => d.writeFrame addr data true | none => d.readFrame addr true

/-- MANIFEST_WINDOW_WRITE: a WRITE at WIN_DATA while window 0 is selected. -/
def execManifestWindowWrite (data : Word) (s : State) : Host.Outcome State Fault Refusal :=
  s.effect fun d => if d.window = 0 then d.accessFrame (.winWrite false data) else d

/-- UNKNOWN_COMMAND: a COMMAND frame with a code as the register's table has it or not (R484).
DEDUCED: notes/assumptions/7.md. -/
def execUnknownCommand (reg : CmdReg) (tok code : Byte) (s : State) : Host.Outcome State Fault Refusal :=
  s.effect fun d => d.hostCommand reg tok code.toNat
    fun d => let x := bodyOf reg code.toNat d; if reg = CmdReg.tol then x.1.drained x.2 else x

/-! ### NOP, ABORT and frames with errors -/

/-- NOP (R478). -/
def Dev.nopFrame (d : Dev) : Dev :=
  if !d.alive then d
  else
    let d := d.numberFrame
    (d.respond 0 false 0 0).nopResponse

/-- NOP. -/
def execNop (s : State) : Host.Outcome State Fault Refusal := s.effect Dev.nopFrame

/-- The access has been delivered to its domain when ABORT comes (R87): one to a domain that runs, but for a write whose
crossing into the always-on domain may still be under way, where it is free (R583).
DEDUCED: notes/assumptions/8.md. -/
def Dev.isDelivered (d : Dev) (a : Access) : Bool :=
  d.hst.delivered || (if a.crossing then Config.freeBool d.free else d.runsFor (d.accessNeeds a))

/-- ABORT: 0b01 cancels an access that has not been delivered, 0b10 leaves a delivered one, 0b11 finds none (R86, R87,
R475).
DEDUCED: notes/assumptions/8.md. -/
def Dev.abortFrame (d : Dev) : Dev :=
  if !d.alive then d
  else
    let d := d.numberFrame
    let d := { d with hst := { d.hst with fetch := none } }
    match d.hst.access with
    | none => d.respond 0 false 0b11 0
    | some a =>
      if d.isDelivered a then ({ d.tick with hst := { d.hst with delivered := true } } : Dev).respond 0 true 0b10 0
      else ({ d.tick with hst := { d.hst with access := none } } : Dev).respond 0 false 0b01 0

/-- ABORT. -/
def execAbort (s : State) : Host.Outcome State Fault Refusal := s.effect Dev.abortFrame

/-- What a received frame of 48 bits asks for: an access, a command, or neither. -/
inductive Asked where
  | access (a : Access)
  | command (r : CmdReg) (tok : Byte)
  | noAddress
  | other

/-- The request of a frame's opcode, address and data (R476, R477). -/
def askedBy (op addr : Nat) (data : Word) : Asked :=
  let a := BitVec.ofNat 12 addr
  let tok := BitVec.ofNat 8 (field data 16 8)
  let wr (inc : Bool) : Asked := match cmdAt addr with
    | some r => .command r tok
    | none => .access (if addr = 0x212 then .winWrite inc data else .write a data inc)
  let rd (inc : Bool) : Asked := .access (if addr = 0x212 then .winRead inc else .read a inc)
  match op with
  | 1 => rd false
  | 2 => wr false
  | 3 => rd true
  | 4 => wr true
  | 7 => match cmdAt addr with | some r => .command r tok | none => .noAddress
  | _ => .other

/-- Address errors and refusals of a request, 0 for neither, and ERR 6 where an access is outstanding (R479).
DEDUCED: notes/assumptions/9.md. -/
def Dev.requestError (d : Dev) (len : Bool) : Asked → Nat
  | .access a =>
    if d.addressBad a then 3
    else if len || d.hst.access.isSome then
      let e := (d.perform a).err
      if e ≠ 0 then e else if len then 5 else 6
    else 0
  | .command r tok =>
    if (d.cmds.get r).refuses tok then 4 else if len then 5 else if d.hst.access.isSome then 6 else 0
  | .noAddress => 3
  | .other => if len then 5 else 0

/-- The first error of a received frame: check value, opcode, address, refusal, length, outstanding access (R472, R479).
A frame of more than 48 edges is two frames in one as much as a long one, and has a length error.
DEDUCED: notes/assumptions/9.md. -/
def Dev.firstError (d : Dev) (raw : BitVec 48) (edges : Nat) : Nat :=
  let op := raw.toNat / 2 ^ 44
  let addr := raw.toNat / 2 ^ 32 % 4096
  let data := word (raw.toNat / 2 ^ 8)
  if 48 < edges then 5
  else if crc8 (be 5 (raw.toNat / 2 ^ 8)) ≠ BitVec.ofNat 8 raw.toNat then 1
  else if op = 0 ∨ 8 ≤ op then 2
  else d.requestError (decide (edges ≠ 48)) (askedBy op addr data)

/-- A frame with an error is numbered and recorded, and not executed (R473, R479, R480). -/
def Dev.badFrame (d : Dev) (raw : BitVec 48) (edges : Nat) : Dev :=
  let e := d.firstError raw edges
  if !d.alive || decide (e = 0) then d
  else d.numberFrame.refuseFrame e (raw.toNat / 2 ^ 44) (raw.toNat / 2 ^ 32 % 4096)

/-- BAD_FRAME.
DEDUCED: notes/assumptions/9.md. -/
def execBadFrame (raw : BitVec 48) (edges : Nat) (s : State) : Host.Outcome State Fault Refusal :=
  s.effect fun d => d.badFrame raw edges

/-! ### Registers with a row of their own -/

/-- A WRITE frame at a fixed address. -/
def State.writes (s : State) (a : Addr) (data : Word) : Host.Outcome State Fault Refusal :=
  s.effect fun d => d.writeFrame a data

/-- The base address of a CAN page. -/
def canBase : Ch → Nat
  | .can0 => 0x1C0
  | .can1 => 0x1E0

/-- An address of a CAN page. -/
def canAddr (ch : Ch) (o : Nat) : Addr := BitVec.ofNat 12 (canBase ch + o)

/-- PWR_KNEW. -/
def execPwrKnew (data : Word) (s : State) : Host.Outcome State Fault Refusal := s.writes 0x15C data

/-- ENG_MODECFG_WRITE. -/
def execEngModecfgWrite (data : Word) (s : State) : Host.Outcome State Fault Refusal := s.writes 0x081 data

/-- IP_DISABLE: a write to ENG_IPCFG. -/
def execIpDisable (data : Word) (s : State) : Host.Outcome State Fault Refusal := s.writes 0x08C data

/-- ENG_CLR_DISAGREE. -/
def execEngClrDisagree (s : State) : Host.Outcome State Fault Refusal := s.writes 0x08B 0x000010

/-- ENG_CLR_LOAD. -/
def execEngClrLoad (s : State) : Host.Outcome State Fault Refusal := s.writes 0x08B 0x000008

/-- ENG_CLR_ECC. -/
def execEngClrEcc (s : State) : Host.Outcome State Fault Refusal := s.writes 0x08B 0x000004

/-- ENG_CLR_ODD. -/
def execEngClrOdd (s : State) : Host.Outcome State Fault Refusal := s.writes 0x08B 0x000002

/-- ENG_CLR_MISMATCH. -/
def execEngClrMismatch (s : State) : Host.Outcome State Fault Refusal := s.writes 0x08B 0x000001

/-- CHN_RETRYCFG_WRITE: a write to CHN_RETRYCFG, or to CHN_STALECFG. -/
def execChnRetrycfgWrite (stale : Bool) (data : Word) (s : State) : Host.Outcome State Fault Refusal :=
  s.writes (if stale then 0x0A3 else 0x0A2) data

/-- CHN_CLR_LOSS. -/
def execChnClrLoss (s : State) : Host.Outcome State Fault Refusal := s.writes 0x0AC 0x000008

/-- CHN_CLR_RETRY. -/
def execChnClrRetry (s : State) : Host.Outcome State Fault Refusal := s.writes 0x0AC 0x000004

/-- CHN_CLR_ERR. -/
def execChnClrErr (s : State) : Host.Outcome State Fault Refusal := s.writes 0x0AC 0x000002

/-- CHN_CLR_PEAK. -/
def execChnClrPeak (s : State) : Host.Outcome State Fault Refusal := s.writes 0x0AC 0x000001

/-- SEN_CFG_WRITE. -/
def execSenCfgWrite (data : Word) (s : State) : Host.Outcome State Fault Refusal := s.writes 0x0C0 data

/-- SEN_CLR_CNT. -/
def execSenClrCnt (s : State) : Host.Outcome State Fault Refusal := s.writes 0x0DF 0x000001

/-- EST_CLR_STEP. -/
def execEstClrStep (s : State) : Host.Outcome State Fault Refusal := s.writes 0x0F1 0x000002

/-- EST_CLR_FIT. -/
def execEstClrFit (s : State) : Host.Outcome State Fault Refusal := s.writes 0x0F1 0x000001

/-- LIM_CLR_UL. -/
def execLimClrUl (s : State) : Host.Outcome State Fault Refusal := s.writes 0x117 0x000001

/-- EXT_REVOKED_CLEAR. -/
def execExtRevokedClear (s : State) : Host.Outcome State Fault Refusal := s.writes 0x120 0x040000

/-- PWR_CNTCLR. -/
def execPwrCntclr (s : State) : Host.Outcome State Fault Refusal := s.writes 0x141 0x000001

/-- SAF_CLR_CNT. -/
def execSafClrCnt (s : State) : Host.Outcome State Fault Refusal := s.writes 0x169 0x000001

/-- RWS_WRITE: a write to a register with sealed fields, 0x192 to 0x198. -/
def execRwsWrite (addr : Addr) (data : Word) (s : State) : Host.Outcome State Fault Refusal :=
  s.effect fun d => if 0x192 ≤ addr.toNat ∧ addr.toNat ≤ 0x198 then d.writeFrame addr data else d

/-- TOL_TAG_WRITE. -/
def execTolTagWrite (k : Fin 6) (data : Word) (s : State) : Host.Outcome State Fault Refusal :=
  s.writes (BitVec.ofNat 12 (0x18C + k.val)) data

/-- RXDAT_READ. -/
def execRxdatRead (ch : Ch) (s : State) : Host.Outcome State Fault Refusal :=
  s.effect fun d => d.readFrame (canAddr ch 0x12)

/-- TXDAT_WRITE. -/
def execTxdatWrite (ch : Ch) (data : Word) (s : State) : Host.Outcome State Fault Refusal := s.writes (canAddr ch 0x0A) data

/-- PUBCFG_WRITE. -/
def execPubcfgWrite (ch : Ch) (data : Word) (s : State) : Host.Outcome State Fault Refusal := s.writes (canAddr ch 0x1B) data

/-- CAN_RETRY_CONFIG_WRITE: a write to CANx_HCFG, or to CANx_CFG. -/
def execCanRetryConfigWrite (ch : Ch) (hcfg : Bool) (data : Word) (s : State) : Host.Outcome State Fault Refusal :=
  s.writes (canAddr ch (if hcfg then 0x1A else 0x00)) data

/-- The registers that hold the HIGH of a queue. -/
def watermarkConfigs : List Nat := [0x209, 0x1CE, 0x1EE, 0x234]

/-- WATERMARK_CONFIG_WRITE. -/
def execWatermarkConfigWrite (addr : Addr) (data : Word) (s : State) : Host.Outcome State Fault Refusal :=
  s.effect fun d => if watermarkConfigs.contains addr.toNat then d.writeFrame addr data else d

/-- The registers that hold the LATCHED of a queue. -/
def watermarkRegisters : List Nat := [0x208, 0x1CC, 0x1CD, 0x1EC, 0x1ED, 0x231, 0x232, 0x233]

/-- WATERMARK_CLEAR. -/
def execWatermarkClear (addr : Addr) (data : Word) (s : State) : Host.Outcome State Fault Refusal :=
  s.effect fun d => if watermarkRegisters.contains addr.toNat then d.writeFrame addr data else d

/-- DEP_CFG_WRITE. -/
def execDepCfgWrite (data : Word) (s : State) : Host.Outcome State Fault Refusal := s.writes 0x221 data

/-- DEP_CLR_ERR. -/
def execDepClrErr (s : State) : Host.Outcome State Fault Refusal := s.writes 0x235 0x000002

/-- DEP_CLR_SHED. -/
def execDepClrShed (s : State) : Host.Outcome State Fault Refusal := s.writes 0x235 0x000001

/-! ### Clock domains (R57, R58, R84, R86) -/

/-- A requested domain starts after its PLL has locked: a pending access to it is delivered (R86), and MCLK starts with
settling (R221); PER takes what waits for it (R82).
DESIGN CHOICE: notes/assumptions/11.md. -/
def Dev.domainStarts (d : Dev) (x : Domain) : Dev :=
  if d.mayStart && !d.sup.doms.runs x then
    let d : Dev := { d with sup := { d.sup with
      doms := d.sup.doms.set x true
      pllA := d.sup.pllA || decide (x ≠ Domain.dep), pllB := d.sup.pllB || decide (x = Domain.dep) } }
    let d := if x = .mod then d.startSettling else if x = .per then d.perTakes else d
    match d.hst.access with
    | some a => if d.accessNeeds a = some x then { d with hst := { d.hst with delivered := true } } else d
    | none => d
  else d

/-- DOMAIN_STARTED. -/
def execDomainStarted (dom : Domain) (s : State) : Host.Outcome State Fault Refusal :=
  s.effect fun d => d.domainStarts dom

/-- Every crossing into and out of a domain that stops between uses is idle, and nothing needs or requests it (R84).
DESIGN CHOICE: notes/assumptions/11.md. -/
def Dev.domainIdle (d : Dev) : Domain → Bool
  | .dep =>
    d.depQuiet && !bit d.sup.domreq 3 &&
      !(match d.hst.access with | some a => decide (d.accessNeeds a = some .dep) | none => false)
  | .evo => d.evoQuiet && !bit d.sup.domreq 4
  | _ => false

/-- A domain that is no longer needed stops in Run; PLL B stops with DEP (R58, R84).
DESIGN CHOICE: notes/assumptions/11.md. -/
def Dev.domainStops (d : Dev) (x : Domain) : Dev :=
  if d.alive && d.inRun && d.domainIdle x then
    { d with sup := { d.sup with
      doms := d.sup.doms.set x false, pllB := d.sup.pllB && decide (x ≠ Domain.dep) } }
  else d

/-- The access outstanding is in no crossing: there is none, or its domain is stopped (R84, R85). -/
def Dev.accessIdle (d : Dev) : Bool :=
  match d.hst.access with
  | some a => !d.runsFor (d.accessNeeds a)
  | none => true

/-- WATCH_ENTRY_COMPLETE: the domains stop once every crossing into and out of them is idle (R84). -/
def execWatchEntryComplete (s : State) : Host.Outcome State Fault Refusal :=
  s.effect fun d => if d.inRun && d.mode.entering && d.crossingsIdle && d.accessIdle then d.enterWatch else d

/-- DOMAIN_STOP. -/
def execDomainStop (dom : Domain) (s : State) : Host.Outcome State Fault Refusal := s.effect fun d => d.domainStops dom

end Sys2Proof.Machine
end

