-- ==== Sys2Proof/Machine/Dispatch.lean ====
section
/-! DEFINITION. The dispatch: one arm per command, each one call of the command's meaning. -/
namespace Sys2Proof.Machine

/-- The effect of a command on everything but the queue.
DESIGN CHOICE: notes/assumptions/1.md. -/
def exec (i : Instr) (s : State) : Host.Outcome State Fault Refusal :=
  match i with
  | .powerGood m => Sys2Proof.Machine.execPowerGood m s
  | .brownOut => Sys2Proof.Machine.execBrownOut s
  | .pinReset m => Sys2Proof.Machine.execPinReset m s
  | .retentionLoss m => Sys2Proof.Machine.execRetentionLoss m s
  | .aoSourceHandover toBackup => Sys2Proof.Machine.execAoSourceHandover toBackup s
  | .backupCellLow absent => Sys2Proof.Machine.execBackupCellLow absent s
  | .powerFailWarning => Sys2Proof.Machine.execPowerFailWarning s
  | .finalCommitComplete => Sys2Proof.Machine.execFinalCommitComplete s
  | .pfWarnClear => Sys2Proof.Machine.execPfWarnClear s
  | .powerFailRecovery m => Sys2Proof.Machine.execPowerFailRecovery m s
  | .energyShadowWrite => Sys2Proof.Machine.execEnergyShadowWrite s
  | .finalShadowWrite => Sys2Proof.Machine.execFinalShadowWrite s
  | .crystalFailover => Sys2Proof.Machine.execCrystalFailover s
  | .crystalReturn => Sys2Proof.Machine.execCrystalReturn s
  | .rtcCorrection temp => Sys2Proof.Machine.execRtcCorrection temp s
  | .mainClockFailure m => Sys2Proof.Machine.execMainClockFailure m s
  | .alarm => Sys2Proof.Machine.execAlarm s
  | .setTime tok => Sys2Proof.Machine.execSetTime tok s
  | .resetCmd tok m => Sys2Proof.Machine.execResetCmd tok m s
  | .armAlarm tok => Sys2Proof.Machine.execArmAlarm tok s
  | .disarm tok => Sys2Proof.Machine.execDisarm tok s
  | .domainStarted dom => Sys2Proof.Machine.execDomainStarted dom s
  | .domainStop dom => Sys2Proof.Machine.execDomainStop dom s
  | .watch tok => Sys2Proof.Machine.execWatch tok s
  | .watchEntryComplete => Sys2Proof.Machine.execWatchEntryComplete s
  | .watchSweep snaps => Sys2Proof.Machine.execWatchSweep snaps s
  | .wake src m => Sys2Proof.Machine.execWake src m s
  | .call f m => Sys2Proof.Machine.execCall f m s
  | .benchEnter tok => Sys2Proof.Machine.execBenchEnter tok s
  | .benchExit tok => Sys2Proof.Machine.execBenchExit tok s
  | .lockAck tok => Sys2Proof.Machine.execLockAck tok s
  | .closeCmd tok => Sys2Proof.Machine.execCloseCmd tok s
  | .openCmd tok => Sys2Proof.Machine.execOpenCmd tok s
  | .holdCmd tok => Sys2Proof.Machine.execHoldCmd tok s
  | .releaseCmd tok => Sys2Proof.Machine.execReleaseCmd tok s
  | .tHoldExpiry => Sys2Proof.Machine.execTHoldExpiry s
  | .coilCurrentSample k code => Sys2Proof.Machine.execCoilCurrentSample k code s
  | .closingTimeout k => Sys2Proof.Machine.execClosingTimeout k s
  | .pullInEnd k => Sys2Proof.Machine.execPullInEnd k s
  | .bounceWindowEnd k => Sys2Proof.Machine.execBounceWindowEnd k s
  | .k3ReleaseDelay => Sys2Proof.Machine.execK3ReleaseDelay s
  | .prechargeRetryWindowEnd => Sys2Proof.Machine.execPrechargeRetryWindowEnd s
  | .tGraceExpiry => Sys2Proof.Machine.execTGraceExpiry s
  | .releaseHighSideTimeout k => Sys2Proof.Machine.execReleaseHighSideTimeout k s
  | .releaseVerdictTimeout k => Sys2Proof.Machine.execReleaseVerdictTimeout k s
  | .liveSwitchProof k node => Sys2Proof.Machine.execLiveSwitchProof k node s
  | .feedbackCheck k => Sys2Proof.Machine.execFeedbackCheck k s
  | .feedbackCheckEnd k => Sys2Proof.Machine.execFeedbackCheckEnd k s
  | .openLoopExpiry k => Sys2Proof.Machine.execOpenLoopExpiry k s
  | .feedbackRestored k => Sys2Proof.Machine.execFeedbackRestored k s
  | .rappUpdate k => Sys2Proof.Machine.execRappUpdate k s
  | .pwrKnew data => Sys2Proof.Machine.execPwrKnew data s
  | .engineFrame f => Sys2Proof.Machine.execEngineFrame f s
  | .classCPeriod => Sys2Proof.Machine.execClassCPeriod s
  | .seam => Sys2Proof.Machine.execSeam s
  | .injectionTest cmpA cmpB => Sys2Proof.Machine.execInjectionTest cmpA cmpB s
  | .engModecfgWrite data => Sys2Proof.Machine.execEngModecfgWrite data s
  | .ipStatus op crc => Sys2Proof.Machine.execIpStatus op crc s
  | .halt crc => Sys2Proof.Machine.execHalt crc s
  | .engineHalt => Sys2Proof.Machine.execEngineHalt s
  | .ipResume crc => Sys2Proof.Machine.execIpResume crc s
  | .ipStep crc f => Sys2Proof.Machine.execIpStep crc f s
  | .ipRead addr crc => Sys2Proof.Machine.execIpRead addr crc s
  | .leadViewCapture => Sys2Proof.Machine.execLeadViewCapture s
  | .ipWrite addr data crc => Sys2Proof.Machine.execIpWrite addr data crc s
  | .traceCtl data crc => Sys2Proof.Machine.execTraceCtl data crc s
  | .tracePop crc => Sys2Proof.Machine.execTracePop crc s
  | .replayStat crc => Sys2Proof.Machine.execReplayStat crc s
  | .ipDisable data => Sys2Proof.Machine.execIpDisable data s
  | .engClrDisagree => Sys2Proof.Machine.execEngClrDisagree s
  | .engClrLoad => Sys2Proof.Machine.execEngClrLoad s
  | .engClrEcc => Sys2Proof.Machine.execEngClrEcc s
  | .engClrOdd => Sys2Proof.Machine.execEngClrOdd s
  | .engClrMismatch => Sys2Proof.Machine.execEngClrMismatch s
  | .frameWatchdogTrip m => Sys2Proof.Machine.execFrameWatchdogTrip m s
  | .snap => Sys2Proof.Machine.execSnap s
  | .chainTransactionStart req => Sys2Proof.Machine.execChainTransactionStart req s
  | .chainResponse port f => Sys2Proof.Machine.execChainResponse port f s
  | .crossingClear pos th => Sys2Proof.Machine.execCrossingClear pos th s
  | .chainAttemptFailed tag => Sys2Proof.Machine.execChainAttemptFailed tag s
  | .notReadyRepeat tag => Sys2Proof.Machine.execNotReadyRepeat tag s
  | .ringBreak lastA firstB => Sys2Proof.Machine.execRingBreak lastA firstB s
  | .ringProbe r => Sys2Proof.Machine.execRingProbe r s
  | .stageStale stage => Sys2Proof.Machine.execStageStale stage s
  | .balanceRefresh masks => Sys2Proof.Machine.execBalanceRefresh masks s
  | .chnRetrycfgWrite stale data => Sys2Proof.Machine.execChnRetrycfgWrite stale data s
  | .chnClrLoss => Sys2Proof.Machine.execChnClrLoss s
  | .chnClrRetry => Sys2Proof.Machine.execChnClrRetry s
  | .chnClrErr => Sys2Proof.Machine.execChnClrErr s
  | .chnClrPeak => Sys2Proof.Machine.execChnClrPeak s
  | .sampleSet density unacknowledged => Sys2Proof.Machine.execSampleSet density unacknowledged s
  | .inputLost n => Sys2Proof.Machine.execInputLost n s
  | .inputActiveAgain n => Sys2Proof.Machine.execInputActiveAgain n s
  | .inputFrozen n => Sys2Proof.Machine.execInputFrozen n s
  | .inputUnfrozen n => Sys2Proof.Machine.execInputUnfrozen n s
  | .sarConversion volts => Sys2Proof.Machine.execSarConversion volts s
  | .settlingEnd => Sys2Proof.Machine.execSettlingEnd s
  | .senCfgWrite data => Sys2Proof.Machine.execSenCfgWrite data s
  | .senClrCnt => Sys2Proof.Machine.execSenClrCnt s
  | .restFusion => Sys2Proof.Machine.execRestFusion s
  | .burstEnd => Sys2Proof.Machine.execBurstEnd s
  | .stepFitted => Sys2Proof.Machine.execStepFitted s
  | .confidenceDecay cell => Sys2Proof.Machine.execConfidenceDecay cell s
  | .stepRequestMissed => Sys2Proof.Machine.execStepRequestMissed s
  | .authentication stage r => Sys2Proof.Machine.execAuthentication stage r s
  | .authTimeout stage => Sys2Proof.Machine.execAuthTimeout stage s
  | .authPeriodic stage => Sys2Proof.Machine.execAuthPeriodic stage s
  | .authNow tok => Sys2Proof.Machine.execAuthNow tok s
  | .stepNow tok => Sys2Proof.Machine.execStepNow tok s
  | .estClrStep => Sys2Proof.Machine.execEstClrStep s
  | .estClrFit => Sys2Proof.Machine.execEstClrFit s
  | .faultClr tok => Sys2Proof.Machine.execFaultClr tok s
  | .limClrUl => Sys2Proof.Machine.execLimClrUl s
  | .safetyLatchSet src fault => Sys2Proof.Machine.execSafetyLatchSet src fault s
  | .softTurnOffStep2 => Sys2Proof.Machine.execSoftTurnOffStep2 s
  | .protectionTrip cause seen => Sys2Proof.Machine.execProtectionTrip cause seen s
  | .dumpOn => Sys2Proof.Machine.execDumpOn s
  | .dumpOff => Sys2Proof.Machine.execDumpOff s
  | .dumpTimeout => Sys2Proof.Machine.execDumpTimeout s
  | .dumpRearm => Sys2Proof.Machine.execDumpRearm s
  | .dumpSwitchFault => Sys2Proof.Machine.execDumpSwitchFault s
  | .offStateDiagnostics inp => Sys2Proof.Machine.execOffStateDiagnostics inp s
  | .diagPhaseEnd n => Sys2Proof.Machine.execDiagPhaseEnd n s
  | .comparatorSelfTest fails => Sys2Proof.Machine.execComparatorSelfTest fails s
  | .autoDiagnostics => Sys2Proof.Machine.execAutoDiagnostics s
  | .pwrClr tok => Sys2Proof.Machine.execPwrClr tok s
  | .ctst tok => Sys2Proof.Machine.execCtst tok s
  | .diag tok => Sys2Proof.Machine.execDiag tok s
  | .drvEnFall => Sys2Proof.Machine.execDrvEnFall s
  | .drvEnRise lowNs => Sys2Proof.Machine.execDrvEnRise lowNs s
  | .extPwmEdge levels => Sys2Proof.Machine.execExtPwmEdge levels s
  | .extPwmRevoke => Sys2Proof.Machine.execExtPwmRevoke s
  | .extRevokedClear => Sys2Proof.Machine.execExtRevokedClear s
  | .tachEdge period => Sys2Proof.Machine.execTachEdge period s
  | .tachLost frozen => Sys2Proof.Machine.execTachLost frozen s
  | .tachRecovered => Sys2Proof.Machine.execTachRecovered s
  | .pumpCycleLimit level => Sys2Proof.Machine.execPumpCycleLimit level s
  | .switchEdgeMeasured ch turnOn ns => Sys2Proof.Machine.execSwitchEdgeMeasured ch turnOn ns s
  | .pwrCntclr => Sys2Proof.Machine.execPwrCntclr s
  | .guardChannelChange ch level => Sys2Proof.Machine.execGuardChannelChange ch level s
  | .guardDiscrepancy g => Sys2Proof.Machine.execGuardDiscrepancy g s
  | .gtest g tok => Sys2Proof.Machine.execGtest g tok s
  | .guardTestVerdict g opened closed => Sys2Proof.Machine.execGuardTestVerdict g opened closed s
  | .guardRetest g => Sys2Proof.Machine.execGuardRetest g s
  | .permissionRefreshMissed => Sys2Proof.Machine.execPermissionRefreshMissed s
  | .safClrCnt => Sys2Proof.Machine.execSafClrCnt s
  | .sessionOpen tok => Sys2Proof.Machine.execSessionOpen tok s
  | .sessionClose tok => Sys2Proof.Machine.execSessionClose tok s
  | .tolResume tok => Sys2Proof.Machine.execTolResume tok s
  | .snapshot tok => Sys2Proof.Machine.execSnapshot tok s
  | .calOpen tok => Sys2Proof.Machine.execCalOpen tok s
  | .calClose tok => Sys2Proof.Machine.execCalClose tok s
  | .interimRecordDue => Sys2Proof.Machine.execInterimRecordDue s
  | .meterStopEnd => Sys2Proof.Machine.execMeterStopEnd s
  | .impulse => Sys2Proof.Machine.execImpulse s
  | .enclosureChange seal0 seal1 => Sys2Proof.Machine.execEnclosureChange seal0 seal1 s
  | .rwsWrite addr data => Sys2Proof.Machine.execRwsWrite addr data s
  | .tolTagWrite k data => Sys2Proof.Machine.execTolTagWrite k data s
  | .recordSigned => Sys2Proof.Machine.execRecordSigned s
  | .ledgerCommit => Sys2Proof.Machine.execLedgerCommit s
  | .ledgerCommitEnd first second => Sys2Proof.Machine.execLedgerCommitEnd first second s
  | .commitRetry => Sys2Proof.Machine.execCommitRetry s
  | .ack tok => Sys2Proof.Machine.execAck tok s
  | .recordCheck => Sys2Proof.Machine.execRecordCheck s
  | .arbitration ch won => Sys2Proof.Machine.execArbitration ch won s
  | .txAttemptEnd ch sent => Sys2Proof.Machine.execTxAttemptEnd ch sent s
  | .canFrameReceived ch f => Sys2Proof.Machine.execCanFrameReceived ch f s
  | .canErrorFrame ch => Sys2Proof.Machine.execCanErrorFrame ch s
  | .hostMessageTimeout ch => Sys2Proof.Machine.execHostMessageTimeout ch s
  | .timetableEntryDue ch j => Sys2Proof.Machine.execTimetableEntryDue ch j s
  | .statusFrameDue => Sys2Proof.Machine.execStatusFrameDue s
  | .stepReqFrameDue => Sys2Proof.Machine.execStepReqFrameDue s
  | .busOff ch => Sys2Proof.Machine.execBusOff ch s
  | .busOffRecovered ch => Sys2Proof.Machine.execBusOffRecovered ch s
  | .txQueue ch tok => Sys2Proof.Machine.execTxQueue ch tok s
  | .txCancel ch tok => Sys2Proof.Machine.execTxCancel ch tok s
  | .rxPop ch tok => Sys2Proof.Machine.execRxPop ch tok s
  | .ttLoad ch tok => Sys2Proof.Machine.execTtLoad ch tok s
  | .boRecover ch tok => Sys2Proof.Machine.execBoRecover ch tok s
  | .canCntClr ch tok => Sys2Proof.Machine.execCanCntClr ch tok s
  | .rxdatRead ch => Sys2Proof.Machine.execRxdatRead ch s
  | .txdatWrite ch data => Sys2Proof.Machine.execTxdatWrite ch data s
  | .pubcfgWrite ch data => Sys2Proof.Machine.execPubcfgWrite ch data s
  | .canRetryConfigWrite ch hcfg data => Sys2Proof.Machine.execCanRetryConfigWrite ch hcfg data s
  | .nop => Sys2Proof.Machine.execNop s
  | .abort => Sys2Proof.Machine.execAbort s
  | .badFrame raw edges => Sys2Proof.Machine.execBadFrame raw edges s
  | .accessComplete => Sys2Proof.Machine.execAccessComplete s
  | .registerWrite addr data => Sys2Proof.Machine.execRegisterWrite addr data s
  | .registerRead addr => Sys2Proof.Machine.execRegisterRead addr s
  | .unknownCommand reg tok code => Sys2Proof.Machine.execUnknownCommand reg tok code s
  | .winSelWrite data => Sys2Proof.Machine.execWinSelWrite data s
  | .windowAccessInc addr write => Sys2Proof.Machine.execWindowAccessInc addr write s
  | .manifestWindowWrite data => Sys2Proof.Machine.execManifestWindowWrite data s
  | .pop tok => Sys2Proof.Machine.execPop tok s
  | .hstCntClr tok => Sys2Proof.Machine.execHstCntClr tok s
  | .watermarkConfigWrite addr data => Sys2Proof.Machine.execWatermarkConfigWrite addr data s
  | .watermarkClear addr data => Sys2Proof.Machine.execWatermarkClear addr data s
  | .eventLogWrite => Sys2Proof.Machine.execEventLogWrite s
  | .lifetimeFlushDue => Sys2Proof.Machine.execLifetimeFlushDue s
  | .depotTransactionStart => Sys2Proof.Machine.execDepotTransactionStart s
  | .depotTransactionEnd ok => Sys2Proof.Machine.execDepotTransactionEnd ok s
  | .manErase tok => Sys2Proof.Machine.execManErase tok s
  | .manSwitch tok => Sys2Proof.Machine.execManSwitch tok s
  | .logUnpin tok => Sys2Proof.Machine.execLogUnpin tok s
  | .lifFlush tok => Sys2Proof.Machine.execLifFlush tok s
  | .depCfgWrite data => Sys2Proof.Machine.execDepCfgWrite data s
  | .depClrErr => Sys2Proof.Machine.execDepClrErr s
  | .depClrShed => Sys2Proof.Machine.execDepClrShed s
  | .clrK tok => Sys2Proof.Machine.execClrK tok s
  | .clrPump tok => Sys2Proof.Machine.execClrPump tok s
  | .backupCellReplaced full => Sys2Proof.Machine.execBackupCellReplaced full s

end Sys2Proof.Machine
end

