-- ==== Sys2Proof/Machine/Idle.lean ====
section
/-! DEFINITION. What happens while no command waits (notes/assumptions/6.md): a muster that was cut short goes on, else
one period of the always-on clock passes. -/
namespace Sys2Proof.Machine

/-- A muster goes on from where it was left, unless it has stopped or a power failure holds it.
DESIGN CHOICE: notes/assumptions/6.md. -/
def Dev.goesOn (d : Dev) : Option MusterInputs :=
  if d.alive && !d.stopped && !d.powerFailing then d.sys.todo else none

/-- One idle step.
DESIGN CHOICE: notes/assumptions/6.md. -/
def Dev.idle (d : Dev) : Dev :=
  match d.goesOn with
  | some m => d.musterOn m
  | none => d.rtcTick.pwmBoundary

end Sys2Proof.Machine
end

