-- ==== Sys2Proof/Safety.lean ====
section
/-! DEFINITION. What counts as a safe state, and the shapes in which statements say what a command leaves unchanged. -/
namespace Sys2Proof.Safety

open Sys2Proof.Machine

/-- Both depot memories are in their canonical form. -/
def depotCanonical (s : State) : Prop :=
  Mem.wf cs0Default s.dev.dep.cs0 = true ∧ Mem.wf cs1Default s.dev.dep.cs1 = true

/-- Class S is set to Paired or Triple, and runs in one of them. -/
def classSChecked (s : State) : Prop := field s.dev.eng.modecfg 6 2 ≤ 1 ∧ s.dev.eng.sAct ≠ split

/-! ### Frames -/

/-- `d'` is `d` but for what the firing of events writes: event bits, dispatch queue, event log buffer, shedding with
its counts, and the dispatch queue's watermark. No event bit is cleared. -/
def eventsOnly (d d' : Dev) : Prop :=
  d' = { d with
    evt := { d.evt with
      stat := d'.evt.stat, queue := d'.evt.queue, logBuf := d'.evt.logBuf, shed := d'.evt.shed, noticed := d'.evt.noticed }
    hst := { d.hst with evqwm := d'.hst.evqwm, wmovf := d'.hst.wmovf }
    dep := { d.dep with
      coalesced := d'.dep.coalesced, diag := d'.dep.diag, txref := d'.dep.txref, hostq := d'.dep.hostq, ovf := d'.dep.ovf } } ∧
  d.evt.stat &&& ~~~d'.evt.stat = 0

/-- The parts of the device that a frame names: its pages, with the running domains and their PLLs, the supplies' rest-time
stamp, the two depot memories and the shadows in CS0 apart. -/
inductive Page where
  | cmds | sup | doms | stamp | sys | mode | seq | coil | eng | insp | chn | sen | est | lim | pwr | saf | tol | lgr
  | can0 | can1 | wakeDet | inh | hst | evt | dep | mem | copies | lif | man
deriving DecidableEq

/-- A part is the same in both devices, but for what the firing of events writes. -/
def same : Page → Dev → Dev → Prop
  | .cmds, a, b => b.cmds = a.cmds
  | .sup, a, b => b.sup = { a.sup with
      restStamp := b.sup.restStamp, doms := b.sup.doms, pllA := b.sup.pllA, pllB := b.sup.pllB }
  | .doms, a, b => (b.sup.doms, b.sup.pllA, b.sup.pllB) = (a.sup.doms, a.sup.pllA, a.sup.pllB)
  | .stamp, a, b => b.sup.restStamp = a.sup.restStamp
  | .sys, a, b => b.sys = a.sys
  | .mode, a, b => b.mode = a.mode
  | .seq, a, b => b.seq = a.seq
  | .coil, a, b => b.coil = a.coil
  | .eng, a, b => b.eng = a.eng
  | .insp, a, b => b.insp = a.insp
  | .chn, a, b => b.chn = a.chn
  | .sen, a, b => b.sen = a.sen
  | .est, a, b => b.est = a.est
  | .lim, a, b => b.lim = a.lim
  | .pwr, a, b => b.pwr = a.pwr
  | .saf, a, b => b.saf = a.saf
  | .tol, a, b => b.tol = a.tol
  | .lgr, a, b => b.lgr = a.lgr
  | .can0, a, b => b.can0 = a.can0
  | .can1, a, b => b.can1 = a.can1
  | .wakeDet, a, b => b.wakeDet = a.wakeDet
  | .inh, a, b => b.inh = a.inh
  | .hst, a, b => b.hst = { a.hst with evqwm := b.hst.evqwm, wmovf := b.hst.wmovf }
  | .evt, a, b => b.evt = { a.evt with
      stat := b.evt.stat, queue := b.evt.queue, logBuf := b.evt.logBuf, shed := b.evt.shed, noticed := b.evt.noticed }
  | .dep, a, b => b.dep = { a.dep with
      coalesced := b.dep.coalesced, diag := b.dep.diag, txref := b.dep.txref, hostq := b.dep.hostq, ovf := b.dep.ovf
      cs0 := b.dep.cs0, cs1 := b.dep.cs1, energy := b.dep.energy, coul := b.dep.coul, pack := b.dep.pack
      soc := b.dep.soc, counters := b.dep.counters, rest := b.dep.rest, history := b.dep.history }
  | .mem, a, b => b.dep.cs0 = a.dep.cs0 ∧ b.dep.cs1 = a.dep.cs1
  | .copies, a, b => b.dep.energy = a.dep.energy ∧ b.dep.coul = a.dep.coul ∧ b.dep.pack = a.dep.pack ∧
      b.dep.soc = a.dep.soc ∧ b.dep.counters = a.dep.counters ∧ b.dep.rest = a.dep.rest ∧
      b.dep.history = a.dep.history
  | .lif, a, b => b.lif = a.lif
  | .man, a, b => b.man = a.man

/-- Only the named parts differ, and the bookkeeping of events. -/
def Keeps (ps : List Page) (a b : Dev) : Prop := ∀ p, p ∈ ps ∨ same p a b

/-- The parts that each command may change. -/
def touches : Instr → List Page
  | .powerGood _ =>
      [.sup, .doms, .stamp, .sys, .mode, .seq, .coil, .chn, .sen, .est, .lim, .pwr, .saf, .tol, .lgr, .can0,
      .can1, .inh, .hst, .evt, .dep, .mem, .copies, .lif, .man]
  | .brownOut =>
      [.cmds, .sup, .doms, .stamp, .sys, .mode, .seq, .coil, .eng, .insp, .chn, .sen, .est, .lim, .pwr, .saf,
      .tol, .lgr, .can0, .can1, .wakeDet, .inh, .hst, .evt, .dep, .copies, .lif, .man]
  | .pinReset _ | .retentionLoss _ | .powerFailRecovery _ | .mainClockFailure _ | .resetCmd _ _
    | .engineFrame _ | .ipStep _ _ | .frameWatchdogTrip _ | .accessComplete | .registerWrite _ _
    | .unknownCommand _ _ _ | .windowAccessInc _ _ =>
      [.cmds, .sup, .doms, .stamp, .sys, .mode, .seq, .coil, .eng, .insp, .chn, .sen, .est, .lim, .pwr, .saf,
      .tol, .lgr, .can0, .can1, .wakeDet, .inh, .hst, .evt, .dep, .mem, .copies, .lif, .man]
  | .aoSourceHandover _ | .backupCellLow _ | .crystalReturn | .rtcCorrection _ | .alarm | .backupCellReplaced _ =>
      [.sup]
  | .powerFailWarning =>
      [.sup, .doms, .stamp, .mode, .seq, .coil, .lim, .pwr, .saf, .tol, .lgr, .can0, .can1, .evt, .dep, .mem,
      .copies, .lif]
  | .finalCommitComplete =>
      [.sup, .doms, .lgr, .dep, .mem, .copies]
  | .pfWarnClear | .crystalFailover =>
      [.sup, .tol]
  | .energyShadowWrite | .finalShadowWrite =>
      [.doms, .dep, .mem, .copies]
  | .setTime _ =>
      [.cmds, .sup, .seq, .chn, .est, .tol, .hst]
  | .armAlarm _ | .disarm _ =>
      [.cmds, .sup, .hst]
  | .domainStarted _ =>
      [.doms, .stamp, .mode, .seq, .coil, .chn, .sen, .est, .lim, .pwr, .saf, .tol, .can0, .can1, .hst, .evt,
      .dep, .mem, .lif]
  | .domainStop _ =>
      [.doms]
  | .watch _ | .benchEnter _ | .benchExit _ =>
      [.cmds, .mode, .hst]
  | .watchEntryComplete =>
      [.sup, .doms, .mode, .chn, .est, .pwr, .saf, .wakeDet, .inh, .evt, .dep]
  | .watchSweep _ =>
      [.chn, .est, .lif]
  | .wake _ _ | .call _ _ =>
      [.sup, .doms, .stamp, .sys, .mode, .seq, .coil, .chn, .sen, .est, .lim, .pwr, .saf, .tol, .lgr, .can0,
      .can1, .wakeDet, .inh, .hst, .evt, .dep, .mem, .copies, .lif, .man]
  | .lockAck _ =>
      [.cmds, .stamp, .mode, .seq, .coil, .lim, .pwr, .saf, .tol, .hst]
  | .closeCmd _ =>
      [.cmds, .stamp, .seq, .coil, .hst]
  | .openCmd _ =>
      [.cmds, .stamp, .seq, .coil, .lim, .pwr, .tol, .can0, .can1, .hst]
  | .holdCmd _ =>
      [.cmds, .stamp, .seq, .hst]
  | .releaseCmd _ | .tHoldExpiry =>
      [.cmds, .stamp, .seq, .coil, .pwr, .tol, .hst]
  | .coilCurrentSample _ _ | .releaseVerdictTimeout _ | .tachLost _ =>
      [.stamp, .mode, .seq, .coil, .lim, .pwr, .saf, .tol, .can0, .can1, .evt, .dep, .lif]
  | .closingTimeout _ | .bounceWindowEnd _ | .liveSwitchProof _ _ | .feedbackCheckEnd _ | .safetyLatchSet _ _
    | .protectionTrip _ _ | .dumpTimeout | .dumpSwitchFault | .drvEnRise _ | .guardChannelChange _ _
    | .guardDiscrepancy _ | .hostMessageTimeout _ =>
      [.stamp, .mode, .seq, .coil, .lim, .pwr, .saf, .tol, .can0, .can1, .evt, .lif]
  | .pullInEnd _ | .k3ReleaseDelay | .releaseHighSideTimeout _ | .feedbackCheck _ | .openLoopExpiry _
    | .rappUpdate _ =>
      [.coil]
  | .prechargeRetryWindowEnd =>
      [.seq]
  | .tGraceExpiry =>
      [.stamp, .seq, .coil, .pwr, .tol]
  | .feedbackRestored _ =>
      [.coil, .lim]
  | .pwrKnew _ | .extRevokedClear | .pwrCntclr =>
      [.coil, .pwr, .hst]
  | .classCPeriod =>
      [.eng, .est, .lim, .pwr, .can0, .can1, .dep, .lif]
  | .seam =>
      [.eng, .est, .lim, .can0, .can1, .lif]
  | .injectionTest _ _ =>
      [.stamp, .mode, .seq, .coil, .eng, .lim, .pwr, .saf, .tol, .can0, .can1, .evt, .lif]
  | .engModecfgWrite _ | .ipDisable _ | .engClrDisagree | .engClrLoad | .engClrEcc | .engClrOdd
    | .engClrMismatch =>
      [.eng, .hst]
  | .ipStatus _ _ | .halt _ | .ipRead _ _ | .leadViewCapture | .traceCtl _ _ | .tracePop _ | .replayStat _ =>
      [.insp]
  | .engineHalt =>
      [.sup, .insp, .lim, .can0, .can1]
  | .ipResume _ =>
      [.doms, .eng, .insp, .chn, .dep]
  | .ipWrite _ _ _ =>
      [.stamp, .mode, .seq, .coil, .eng, .insp, .lim, .pwr, .saf, .tol, .can0, .can1, .evt, .lif]
  | .snap =>
      [.doms, .chn, .est]
  | .chainTransactionStart _ | .balanceRefresh _ | .authPeriodic _ =>
      [.doms, .chn, .dep]
  | .chainResponse _ _ | .ringProbe _ | .authentication _ _ | .authTimeout _ =>
      [.doms, .stamp, .mode, .seq, .coil, .chn, .est, .lim, .pwr, .saf, .tol, .can0, .can1, .evt, .dep, .lif]
  | .crossingClear _ _ =>
      [.est, .lim]
  | .chainAttemptFailed _ | .stageStale _ =>
      [.doms, .stamp, .mode, .seq, .coil, .chn, .lim, .pwr, .saf, .tol, .can0, .can1, .evt, .dep, .lif]
  | .notReadyRepeat _ =>
      [.chn]
  | .ringBreak _ _ =>
      [.stamp, .mode, .seq, .coil, .chn, .lim, .pwr, .saf, .tol, .can0, .can1, .evt, .dep, .lif]
  | .chnRetrycfgWrite _ _ | .chnClrLoss | .chnClrRetry | .chnClrErr | .chnClrPeak =>
      [.chn, .hst]
  | .sampleSet _ _ =>
      [.sen, .lim, .tol, .evt]
  | .inputLost _ | .inputFrozen _ =>
      [.sen, .lim, .evt]
  | .inputActiveAgain _ | .inputUnfrozen _ | .sarConversion _ | .settlingEnd =>
      [.sen]
  | .senCfgWrite _ | .senClrCnt =>
      [.sen, .hst]
  | .restFusion | .stepFitted | .confidenceDecay _ =>
      [.est]
  | .burstEnd | .stepRequestMissed =>
      [.est, .can0, .can1]
  | .authNow _ =>
      [.cmds, .doms, .chn, .hst, .dep]
  | .stepNow _ =>
      [.cmds, .est, .can0, .can1, .hst, .lif]
  | .estClrStep | .estClrFit =>
      [.est, .hst]
  | .faultClr _ | .pwrClr _ =>
      [.cmds, .lim, .pwr, .saf, .hst]
  | .limClrUl =>
      [.lim, .hst]
  | .softTurnOffStep2 | .dumpOn | .dumpOff | .dumpRearm | .offStateDiagnostics _ | .diagPhaseEnd _
    | .comparatorSelfTest _ | .autoDiagnostics | .drvEnFall | .tachEdge _ | .pumpCycleLimit _
    | .switchEdgeMeasured _ _ _ =>
      [.pwr]
  | .ctst _ | .diag _ =>
      [.cmds, .pwr, .hst]
  | .extPwmEdge _ | .extPwmRevoke =>
      [.pwr, .dep, .lif]
  | .tachRecovered =>
      [.lim, .pwr]
  | .gtest _ _ =>
      [.cmds, .saf, .hst]
  | .guardTestVerdict _ _ _ | .guardRetest _ | .permissionRefreshMissed =>
      [.saf]
  | .safClrCnt =>
      [.saf, .hst]
  | .sessionOpen _ =>
      [.cmds, .coil, .est, .tol, .can0, .can1, .hst]
  | .sessionClose _ =>
      [.cmds, .doms, .seq, .coil, .tol, .lgr, .can0, .can1, .hst, .dep]
  | .tolResume _ =>
      [.cmds, .coil, .tol, .hst]
  | .snapshot _ | .calOpen _ | .calClose _ =>
      [.cmds, .doms, .tol, .lgr, .hst, .dep]
  | .interimRecordDue | .impulse =>
      [.tol]
  | .meterStopEnd =>
      [.tol, .can0, .can1]
  | .enclosureChange _ _ =>
      [.doms, .tol, .lgr, .dep]
  | .rwsWrite _ _ | .tolTagWrite _ _ =>
      [.doms, .tol, .lgr, .hst, .dep, .mem, .copies]
  | .recordSigned =>
      [.lgr]
  | .ledgerCommit | .commitRetry =>
      [.doms, .lgr, .dep, .mem]
  | .ledgerCommitEnd _ _ =>
      [.lgr, .dep, .mem]
  | .ack _ =>
      [.cmds, .doms, .lgr, .hst, .dep, .mem, .copies]
  | .recordCheck =>
      [.doms, .lgr]
  | .arbitration _ _ | .timetableEntryDue _ _ | .statusFrameDue | .stepReqFrameDue | .busOffRecovered _ =>
      [.can0, .can1]
  | .txAttemptEnd _ _ | .busOff _ =>
      [.can0, .can1, .evt]
  | .canFrameReceived _ _ =>
      [.mode, .lim, .can0, .can1, .wakeDet, .evt]
  | .canErrorFrame _ =>
      [.can0, .can1, .wakeDet, .evt]
  | .txQueue _ _ | .txCancel _ _ | .rxPop _ _ | .ttLoad _ _ | .boRecover _ _ | .canCntClr _ _ =>
      [.cmds, .can0, .can1, .hst]
  | .rxdatRead _ | .txdatWrite _ _ | .pubcfgWrite _ _ | .canRetryConfigWrite _ _ _ | .registerRead _ =>
      [.can0, .can1, .hst]
  | .nop | .abort | .badFrame _ _ | .winSelWrite _ =>
      [.hst]
  | .manifestWindowWrite _ =>
      [.hst, .mem]
  | .pop _ | .hstCntClr _ =>
      [.cmds, .hst]
  | .watermarkConfigWrite _ _ | .watermarkClear _ _ =>
      [.can0, .can1, .hst, .dep, .lif]
  | .eventLogWrite =>
      [.doms, .evt, .dep, .mem, .copies]
  | .lifetimeFlushDue =>
      [.doms, .dep, .mem, .copies, .lif]
  | .depotTransactionStart =>
      [.doms, .lgr, .evt, .dep, .mem, .copies, .lif]
  | .depotTransactionEnd _ =>
      [.dep, .mem, .lif]
  | .manErase _ | .manSwitch _ | .logUnpin _ =>
      [.cmds, .doms, .hst, .dep, .mem, .copies]
  | .lifFlush _ =>
      [.cmds, .doms, .hst, .dep, .mem, .copies, .lif]
  | .depCfgWrite _ | .depClrErr | .depClrShed =>
      [.hst, .dep, .lif]
  | .clrK _ =>
      [.cmds, .coil, .lim, .hst, .lif]
  | .clrPump _ =>
      [.cmds, .hst, .lif]

/-- The event bit of a source is set. -/
def fired (src : Nat) (d : Dev) : Prop := d.evt.stat.getLsbD src = true

/-- The command ends in a device that is `d` but for the bookkeeping of events; the queue stays as it is. -/
def endsIn (c : Instr) (s : State) (d : Dev) : Prop :=
  ∃ d', exec c s = .next { s with dev := d' } ∧ eventsOnly d d'

/-- The command ends in a device that is `d` but for the bookkeeping of events, and the event of a source has fired. -/
def endsFiring (c : Instr) (s : State) (src : Nat) (d : Dev) : Prop :=
  ∃ d', exec c s = .next { s with dev := d' } ∧ eventsOnly d d' ∧ fired src d'

/-! ### Host commands -/

/-- A command register takes and executes a command with this token now: the device answers, no access is outstanding,
the register holds no command and has not executed this token last, and its domain runs (R85, R482, R483, R502). -/
def takes (d : Dev) (r : CmdReg) (tok : Byte) : Prop :=
  d.alive = true ∧ d.hst.access = none ∧ (d.cmds.get r).held = none ∧ (d.cmds.get r).kept ≠ some tok ∧
  d.runsFor (cmdDomain r) = true

/-- The device with an accepted command frame: the frame is counted, and its response carries token and code (R473,
R476). -/
def accepted (d : Dev) (tok : Byte) (code : Nat) : Dev :=
  { d with hst := { d.hst with
      frame := d.hst.frame + 1, fetch := none
      resp := { seq := d.hst.frame + 1, data := word (place tok.toNat 16 + code) } } }

/-- The device with a command executed: its token kept, and token and result code in the result register (R482, R484). -/
def executed (d : Dev) (r : CmdReg) (tok : Byte) (res : Nat) : Dev :=
  { d with cmds := d.cmds.put r { kept := some tok, held := none, result := word (place tok.toNat 16 + res) } }

/-- The device after a host command whose effect on the device is `f` and whose result code is `res`. -/
def commanded (d : Dev) (r : CmdReg) (tok : Byte) (code res : Nat) (f : Dev → Dev) : Dev :=
  executed (f (accepted d tok code)) r tok res

/-! ### Register accesses -/

/-- The command ends in exactly this device; the queue stays as it is. -/
def does (c : Instr) (s : State) (d : Dev) : Prop := exec c s = .next { s with dev := d }

/-- A frame to register `a` reaches it and completes at once: the device answers, no access is outstanding, the register
is not in the always-on domain, and its domain runs (R85, R478, R502). -/
def serves (d : Dev) (a : Nat) : Prop :=
  d.alive = true ∧ d.hst.access = none ∧ inAlwaysOn a = false ∧ d.runsFor (accessDomain a) = true

/-- The device as a frame that makes an access has arrived: the frame is counted, and nothing is fetchable any more. -/
def framed (d : Dev) : Dev := { d with hst := { d.hst with frame := d.hst.frame + 1, fetch := none } }

/-- The device with an access answered: its error and data are in the response and stay fetchable (R478). -/
def answered (d : Dev) (err : BitVec 3) (v : Word) : Dev :=
  { d with hst := { d.hst with
      fetch := some (err, v), resp := { seq := d.hst.frame, err := err, busy := false, abort := 0, data := v } } }

/-- The device after a WRITE at `a` whose effect is `f`: the relations between fields are checked (R488), and the data
returned is what the register then reads. -/
def written (d : Dev) (a : Nat) (f : Dev → Dev) : Dev :=
  answered (f (framed d)).cfgCheck 0 ((f (framed d)).cfgCheck.peek a)

/-- The device after a WRITE at `a` refused with an error: nothing but the host port's record of it changes (R479). -/
def writeRefused (d : Dev) (a e : Nat) : Dev :=
  answered ((framed d).frameError e (d.hst.frame + 1) 2 a) (BitVec.ofNat 3 e) 0

/-- The reset column of the register map, for the registers whose reset value is not 0. -/
def resetColumn : List (Nat × Word) :=
  [(0x000, 0x864001), (0x008, 0x100001), (0x043, 0x0001FD), (0x045, 0x00000A), (0x053, 0x00027F),
   (0x054, 0x00003C), (0x060, 0x000040), (0x061, 0x000001), (0x062, 0x000006), (0x064, 0x000080),
   (0x080, 0x000040), (0x081, 0x000040), (0x083, 0x0FA000), (0x0A2, 0x0A0A03), (0x0A3, 0x00012C),
   (0x0C0, 0x00004A), (0x0C2, 0x000014), (0x0C3, 0x007828), (0x0C4, 0x000003), (0x0CD, 0x400000)] ++
  [(0x0CE, 0x400000), (0x0CF, 0x400000), (0x0D0, 0x400000), (0x0D5, 0x010000), (0x0D6, 0x000800),
   (0x0DD, 0x000155), (0x0E0, 0x000114), (0x0E1, 0x008038), (0x106, 0x000001), (0x107, 0x001405),
   (0x127, 0x011140), (0x128, 0x000012), (0x129, 0x07BDEF), (0x12A, 0x0001B3), (0x12B, 0x03F088),
   (0x12C, 0x03F088), (0x12D, 0x03F088), (0x12E, 0x03F088), (0x12F, 0x03F088), (0x130, 0x03F088)] ++
  [(0x131, 0x000399), (0x132, 0x000399), (0x133, 0x000399), (0x134, 0x000399), (0x135, 0x000399),
   (0x136, 0x000399), (0x137, 0x100000), (0x142, 0x8981F4), (0x143, 0x8981F4), (0x144, 0x8981F4),
   (0x145, 0x8981F4), (0x146, 0x003C0A), (0x158, 0x003FFF), (0x159, 0x003FFF), (0x15A, 0x003FFF),
   (0x15B, 0x003FFF), (0x161, 0x005555), (0x163, 0x00001F), (0x198, 0x00000F), (0x1AA, 0x0000D8)] ++
  [(0x1C0, 0xF80003), (0x1C1, 0x09F0FF), (0x1C2, 0x079DC0), (0x1C3, 0x800020), (0x1CE, 0x000C30),
   (0x1CF, 0x001000), (0x1D7, 0x800064), (0x1D9, 0x80FF32), (0x1DA, 0x800032), (0x1DB, 0x3F00A0),
   (0x1E0, 0x980003), (0x1E1, 0x09F0FF), (0x1E2, 0x079DC0), (0x1E3, 0x800020), (0x1EE, 0x000C30),
   (0x1EF, 0x001000), (0x1F7, 0x800064), (0x1FA, 0x000032), (0x1FB, 0x0000A0), (0x209, 0x0000C0)] ++
  [(0x221, 0x000004), (0x234, 0x1C0630)]

/-- What a register reads after a cold start, before muster has loaded anything. -/
def resetValue (a : Nat) : Word := match resetColumn.find? fun p => p.1 == a with | some p => p.2 | none => 0

/-! ### Resets -/

/-- `d0` is what a reset with cause bits leaves of `d` (R18, R47, R135, R362, R570): everything that a run has set up
takes its reset value, guard proof and the safety latch are cleared, no session is open, and the always-on domain's
time, alarm and canary, the device counters and everything in the depot are kept. -/
def resetImage (bits : Word) (d d0 : Dev) : Prop :=
  (d0.mode = {} ∧ d0.seq = {} ∧ d0.coil = .replicate 4 {} ∧ d0.cmds = {} ∧ d0.eng = {} ∧ d0.insp = {} ∧ d0.sen = {} ∧
    d0.est = {} ∧ d0.lim = {} ∧ d0.hst = {} ∧ d0.evt = {} ∧ d0.can0 = canReset .can0 ∧ d0.can1 = canReset .can1 ∧
    d0.man = none) ∧
  (d0.saf.latch = false ∧ d0.saf.provenCh = 0 ∧ d0.saf.seenOpen = 0 ∧ d0.saf.granted = false ∧
    d0.tol.session = .none_ ∧ d0.pumpGates = 0 ∧ d0.sys.path = 0b01 ∧ d0.sys.step = 1 ∧ d0.sys.mstate = 0) ∧
  (d0.sup.latched = bits ∧ d0.sup.rtc = d.sup.rtc ∧ d0.sup.timeValid = d.sup.timeValid ∧ d0.sup.alarm = d.sup.alarm ∧
    d0.sup.canary = d.sup.canary ∧ d0.lif.device = d.lif.device ∧ d0.dep.cs0 = d.dep.cs0 ∧ d0.dep.cs1 = d.dep.cs1 ∧
    d0.dep.energy = d.dep.energy ∧ d0.dep.coul = d.dep.coul ∧ d0.dep.pack = d.dep.pack ∧ d0.dep.soc = d.dep.soc ∧
    d0.dep.counters = d.dep.counters ∧ d0.dep.rest = d.dep.rest ∧ d0.dep.logState = d.dep.logState)

/-- The command resets `d` with cause bits, and the start with inputs `m` follows. -/
def resets (c : Instr) (s : State) (bits : Word) (d : Dev) (m : MusterInputs) : Prop :=
  ∃ d0, resetImage bits d d0 ∧ exec c s = .next { s with dev := d0.startUp m }

/-- Muster has stopped at a step with a failure code (R138). -/
def stoppedAt (step : Nat) (code : Byte) (d : Dev) : Prop :=
  d.sys.mstate = 0b01 ∧ d.sys.step = step ∧ d.sys.failCode = code ∧ d.mode.mode = .muster ∧ d.fltLow = true

/-! ### Faults -/

/-- A fault with a lockout cause has been acted on (R16, R268, R302, R364): it is active and latched, the drover is in
LOCKOUT with its cause, the safety latch is set, the limits are zero, permission is withdrawn, the pump's gates and
the gates of every energised channel are off. -/
def lockedOut (f : Nat) (cause : Byte) (d : Dev) : Prop :=
  d.lim.active.getLsbD f = true ∧ d.lim.latched.getLsbD f = true ∧ d.seq.drover = .lockout ∧
    d.mode.lockCause = cause ∧ d.saf.latch = true ∧ d.saf.granted = false ∧ d.limitsZero = true ∧
    d.pumpGates = 0 ∧ (∀ j : K, (d.coil.get j).phase = .released ∨ ((d.coil.get j).hi = false ∧ (d.coil.get j).lo = false))

/-- A class D fault has been acted on in `d` and left `d'` (R16, R275, R302, R364): it is active and latched, the safety
latch is set, the limits are zero, permission is withdrawn, every gate of the twelve is off, and in Run the drover is
OPEN or, with the fault's lockout flag, in LOCKOUT. -/
def opened (f : Nat) (d d' : Dev) : Prop :=
  d'.lim.active.getLsbD f = true ∧ d'.lim.latched.getLsbD f = true ∧ d'.saf.latch = true ∧ d'.saf.granted = false ∧
    d'.limitsZero = true ∧ d'.pumpGates = 0 ∧
    (∀ j : K, (d'.coil.get j).phase = .released ∨ ((d'.coil.get j).hi = false ∧ (d'.coil.get j).lo = false)) ∧
    (d.inRun = true → d.seq.drover ≠ .lockout → d'.seq.drover = if d.lockoutFlag f then .lockout else .openS)

/-- A frame of the device's own has been queued in `d` and left `d'`: on each channel that has it enabled, in the
priority buffer, with its rolling count advanced (R441, R458, R459); nothing else changes. -/
def ownQueued (f : OwnFrame) (d d' : Dev) : Prop :=
  Keeps [.can0, .can1] d d' ∧ ∀ ch : Ch,
    ((d.can ch).enabled f = false → d'.can ch = d.can ch) ∧
    ((d.can ch).enabled f = true → { kind := f, frame := d.ownFrame (d.can ch) f } ∈ (d'.can ch).prio ∧
      (d'.can ch).roll = modify (d.can ch).roll f.no (· + 1) ∧
      (d'.can ch).fifo = (d.can ch).fifo ∧ (d'.can ch).tt = (d.can ch).tt)

/-- What TOL_CMD OPEN (`want` no session) or RESUME (`want` a suspended one) answers (R29, R383, R384, R390): the first
condition of R383 that fails, with its code and its reason in TOL_STAT.REFUSE; otherwise the pull-in of K4 starts, and no
session ID is consumed. -/
def sessionAsked (want : Session) (tok : Byte) (d d' : Dev) (code : Nat) : Prop :=
  d'.cmds.tol = { kept := some tok, held := none, result := word (place tok.toNat 16 + code) } ∧
  d'.tol.sessionId = d.tol.sessionId ∧ d'.lgr = d.lgr ∧
  (code ≠ 0x01 → d'.tol.session = d.tol.session ∧ d'.coil = d.coil) ∧
  if d.inRun = false then code = 0x10 ∧ d'.tol.refuse = 7
  else if d.seq.drover ≠ .closed then code = 0x11 ∧ d'.tol.refuse = 7
  else if d.runState = .bench then code = 0x10 ∧ d'.tol.refuse = 7
  else if d.tol.session ≠ want then code = 0x14 ∧ d'.tol.refuse = 6
  else if d.sup.timeValid = false then code = 0x12 ∧ d'.tol.refuse = 1
  else if d.tol.sealOpen = true ∨ d.tol.paramBad = true then code = 0x12 ∧ d'.tol.refuse = 2
  else if d.mdatValid 4 = false ∨ d.mdatValid 5 = false then code = 0x12 ∧ d'.tol.refuse = 3
  else if d.tol.stop = true then code = 0x12 ∧ d'.tol.refuse = 5
  else if d.lgr.free = 0 then code = 0x14 ∧ d'.tol.refuse = 4
  else if d.stagingFree < 2 then code = 0x12 ∧ d'.tol.refuse = 5
  else if d.outputPrecheck = false then code = 0x12 ∧ d'.tol.refuse = 3
  else code = 0x01 ∧ d'.tol.refuse = d.tol.refuse ∧ d'.tol.session = .opening ∧ fired 50 d' ∧
    (d'.coil.get 3).phase = .signature ∧ (d'.coil.get 3).setpoint = d.seq.iPull.get 3 ∧
    ∀ k : K, k ≠ 3 → d'.coil.get k = d.coil.get k

/-- The response of the inspection port to one transaction; the device is otherwise as `d`. -/
def responds (c : Instr) (s : State) (d : Dev) (ack : BitVec 3) (data : Word) : Prop :=
  does c s { d with insp := { d.insp with resp := some (ack, data, ipAnswerCrc ack data) } }

/-- Outside the ranges given (start, length) every byte of a memory reads as before. -/
def keepsOutside (dflt : Byte) (m m' : Mem) (ranges : List (Nat × Nat)) : Prop :=
  ∀ a, (∀ r ∈ ranges, a < r.1 ∨ r.1 + r.2 ≤ a) → Mem.read dflt m' a = Mem.read dflt m a

/-- The commit of the sealed record `r` has begun in `d` and left `d'` (R89, R418): marker WRITING and bytes 0 to 251 in
its slot and nothing else, the depot busy with it and its domain running. -/
def commitBegun (r : Sealed) (d d' : Dev) : Prop :=
  d'.lgr = { d.lgr with committing := true } ∧ d'.dep = { d.dep with busy := some .commit, cs0 := d'.dep.cs0 } ∧
  d'.sup.doms.dep = true ∧ (d.sup.doms.dep = true → d'.sup = d.sup) ∧
  d'.cs0 (0x20000 + 256 * (r.seq % 1536)) 252 = fit 252 r.bytes ∧
  d'.cs0 (0x20000 + 256 * (r.seq % 1536) + 252) 4 = [0xA5, 0xA5, 0xA5, 0xA5] ∧
  keepsOutside cs0Default d.dep.cs0 d'.dep.cs0 [(0x20000 + 256 * (r.seq % 1536), 256)]

/-- A flush of the lifetime record has been made in `d` and left `d'` (R251, R509, R510, R519): the increments are in the
record, the record in the older copy, the counter shadow renewed; a changed impedance history is in its older copy. -/
def flushed (d d' : Dev) : Prop :=
  (d'.lif.total = d.lif.total.add d.lif.inc ∧ d'.lif.inc = {} ∧ d'.lif.lines = 0 ∧ d'.lif.age = 0 ∧ d'.lif.due = false ∧
    d'.lif.gen = d.lif.gen + 1 ∧ d'.lif.copy = (!d.lifeKept) ∧ d'.lif.undo = some d.flushUndo ∧ d'.lif.device = d.lif.device ∧
    d'.dep.counters.value = some (d.lif.device, {})) ∧
  (Mem.wf 0xFF d.dep.cs1 = true → d'.cs1 (lifeAddr (!d.lifeKept)) 1024 =
    d.lifetimeBytes (d.lif.gen + 1) (d.lif.total.add d.lif.inc)) ∧
  (d'.dep.history = d.dep.history → d'.dep.histGen = d.dep.histGen ∧ d'.dep.histCopy = d.dep.histCopy ∧
    keepsOutside 0xFF d.dep.cs1 d'.dep.cs1 [(lifeAddr (!d.lifeKept), 1024)]) ∧
  (d'.dep.history ≠ d.dep.history → d'.dep.histGen = d.dep.histGen + 1 ∧ d'.dep.histCopy = (!d.histKept) ∧
    (Mem.wf 0xFF d.dep.cs1 = true →
      d'.cs1 (historyAddr (!d.histKept)) 0x8000 = historyArea (d.dep.histGen + 1) d'.dep.history) ∧
    keepsOutside 0xFF d.dep.cs1 d'.dep.cs1
      [(lifeAddr (!d.lifeKept), 1024), (historyAddr (!d.histKept), 0x8000)])

/-! ### Accesses that wait -/

/-- The device with an access that has not completed (R85, R478): the frame is counted and answered with BUSY. -/
def pendingOn (d : Dev) (a : Access) (delivered : Bool) : Dev :=
  { d with hst := { d.hst with
      frame := d.hst.frame + 1, fetch := none, access := some a, delivered := delivered, accessFrame := d.hst.frame + 1
      resp := { kind := .access, seq := d.hst.frame + 1, err := 0, busy := true, abort := 0, data := 0 } } }

/-- ABORT has found the access delivered: it goes on (R86, R87). -/
def abortLeft (x : Access) (d d' : Dev) : Prop :=
  Keeps [.hst] d d' ∧ d'.hst.access = some x ∧ d'.hst.delivered = true ∧ d'.hst.fetch = none ∧
  d'.hst.resp.abort = 0b10 ∧ d'.hst.resp.busy = true ∧ d'.hst.resp.seq = d.hst.frame + 1

/-- ABORT has cancelled an access that had not been delivered (R86, R87). -/
def abortCancelled (d d' : Dev) : Prop :=
  Keeps [.hst] d d' ∧ d'.hst.access = none ∧ d'.hst.fetch = none ∧
  d'.hst.resp.abort = 0b01 ∧ d'.hst.resp.busy = false ∧ d'.hst.resp.seq = d.hst.frame + 1

/-- The device with its access no longer outstanding. -/
def noAccess (d : Dev) : Dev := { d with hst := { d.hst with access := none, delivered := false } }

/-- The device with a result that NOP fetches. -/
def fetched (d : Dev) (err : BitVec 3) (v : Word) : Dev := { d with hst := { d.hst with fetch := some (err, v) } }

/-- The host commands: register, token and code of each (R27, R440 and the command tables of the block chapters). -/
def hostRow : Instr → Option (CmdReg × Byte × Byte)
  | .watch t => some (.mode, t, 0x01)
  | .benchEnter t => some (.mode, t, 0x02)
  | .benchExit t => some (.mode, t, 0x03)
  | .lockAck t => some (.mode, t, 0x04)
  | .closeCmd t => some (.seq, t, 0x01)
  | .openCmd t => some (.seq, t, 0x02)
  | .holdCmd t => some (.seq, t, 0x03)
  | .releaseCmd t => some (.seq, t, 0x04)
  | .setTime t => some (.sup, t, 0x01)
  | .resetCmd t _ => some (.sup, t, 0x02)
  | .armAlarm t => some (.sup, t, 0x03)
  | .disarm t => some (.sup, t, 0x04)
  | .authNow t => some (.est, t, 0x01)
  | .stepNow t => some (.est, t, 0x02)
  | .faultClr t => some (.lim, t, 0x01)
  | .pwrClr t => some (.pwr, t, 0x01)
  | .ctst t => some (.pwr, t, 0x02)
  | .diag t => some (.pwr, t, 0x03)
  | .gtest g t => some (.saf, t, BitVec.ofNat 8 (0x10 + g.val))
  | .sessionOpen t => some (.tol, t, 0x01)
  | .sessionClose t => some (.tol, t, 0x02)
  | .tolResume t => some (.tol, t, 0x03)
  | .snapshot t => some (.tol, t, 0x04)
  | .calOpen t => some (.tol, t, 0x05)
  | .calClose t => some (.tol, t, 0x06)
  | .ack t => some (.lgr, t, 0x01)
  | .txQueue ch t => some (canReg ch, t, 0x01)
  | .txCancel ch t => some (canReg ch, t, 0x02)
  | .rxPop ch t => some (canReg ch, t, 0x03)
  | .ttLoad ch t => some (canReg ch, t, 0x04)
  | .boRecover ch t => some (canReg ch, t, 0x05)
  | .canCntClr ch t => some (canReg ch, t, 0x06)
  | .pop t => some (.hst, t, 0x01)
  | .hstCntClr t => some (.hst, t, 0x02)
  | .manErase t => some (.dep, t, 0x01)
  | .manSwitch t => some (.dep, t, 0x02)
  | .logUnpin t => some (.dep, t, 0x03)
  | .lifFlush t => some (.dep, t, 0x04)
  | .clrK t => some (.lif, t, 0x01)
  | .clrPump t => some (.lif, t, 0x02)
  | .unknownCommand r t code => some (r, t, code)
  | _ => none

end Sys2Proof.Safety
end

