-- ==== Sys2Proof/Certificates/Slice0/Obligations.lean ====
section
/-! DEFINITION. The statements about the model, for the provers. -/

open Sys2Proof Sys2Proof.Machine Sys2Proof.Safety

/-! ### The step -/

/-- A step takes the command at the front of the queue and is that command's effect with the queue's rest. -/
def Obligations.StepRunsFrontCommand : Prop :=
  ∀ (c : Instr) (cs : List Instr) (d : Dev), step { dev := d, pending := c :: cs } = exec c { dev := d, pending := cs }

/-- The frame of every command: it answers a next state whose queue is the same, and only the parts of the device that
Safety.touches names for it may differ, with the bookkeeping of the events that it fires. The model's own readings: a
row without its trigger (notes/assumptions/1.md); free values (notes/assumptions/5.md). -/
def Obligations.CommandFrames : Prop :=
  ∀ (c : Instr) (s : State), ∃ d', exec c s = .next { s with dev := d' } ∧ Keeps (touches c) s.dev d'

/-! ### Invariants of every step -/

/-- Both depot memories keep their canonical form: addresses strictly rising, and no byte listed that an unlisted
address reads as. The model's own readings: what unwritten memory reads (notes/assumptions/3.md). -/
def Obligations.DepotStaysCanonical : Prop :=
  ∀ s s' : State, depotCanonical s → step s = .next s' → depotCanonical s'

/-- R92 and R125: class S is never set to Split and never runs in it. -/
def Obligations.ClassSNeverSplit : Prop :=
  ∀ s s' : State, classSChecked s → step s = .next s' → classSChecked s'

/-- The state after reset meets both invariants and has no command waiting. The model's own readings: the instant of
reset (notes/assumptions/2.md); unwritten memory (notes/assumptions/3.md). -/
def Obligations.ResetMeetsInvariants : Prop :=
  depotCanonical State.reset ∧ classSChecked State.reset ∧ State.reset.pending = []

/-- R570 and R573: after a cold start, before muster has loaded anything, every register reads its reset value, a Loaded
one its pre-load value and a reserved address 0; the mode is Muster, the drover OPEN and no coil is energised. The
model's own readings: the instant of reset (notes/assumptions/2.md); registers before they are loaded
(notes/assumptions/38.md). -/
def Obligations.ResetRegisters : Prop :=
  (∀ a : Fin 0x240, State.reset.dev.peek a.val = resetValue a.val) ∧ State.reset.dev.mode.mode = .muster ∧
    State.reset.dev.seq.drover = .openS ∧ (∀ k : K, (State.reset.dev.coil.get k).phase = .released) ∧
    State.reset.dev.limitsZero = true ∧ State.reset.dev.tol.session = .none_

/-! ### Supplies, crystal and time -/

/-- R60 and R68, with AO_SOURCE_HANDOVER, PF_WARN_CLEAR and BACKUP_CELL_REPLACED: what SUP_STAT reports of the supplies and
of the crystal after each of the six commands, the event of each rising edge of VBK_LOW and VBK_ABSENT and of each
change of TIME_VALID, and that nothing else changes but a session's status marks: of a time that becomes invalid, and of
a warning that ends. -/
def Obligations.SupplyFlagsFollow : Prop :=
  ∀ s : State,
    (∀ b, endsIn (.aoSourceHandover b) s { s.dev with sup := { s.dev.sup with aoBackup := b } }) ∧
    (∀ b, endsIn (.backupCellLow b) s
      { s.dev with sup := { s.dev.sup with vbkLow := true, vbkAbsent := s.dev.sup.vbkAbsent || b } }) ∧
    (∀ b, s.dev.alive = true → (s.dev.sup.vbkLow = false ∨ (b = true ∧ s.dev.sup.vbkAbsent = false)) →
      endsFiring (.backupCellLow b) s 3
        { s.dev with sup := { s.dev.sup with vbkLow := true, vbkAbsent := s.dev.sup.vbkAbsent || b } }) ∧
    (∀ b, endsIn (.backupCellReplaced b) s
      { s.dev with sup := { s.dev.sup with vbkAbsent := false, vbkLow := s.dev.sup.vbkLow && !b } }) ∧
    endsIn .pfWarnClear s { s.dev with
      sup := { s.dev.sup with pfWarn := false }
      tol := { s.dev.tol with
        marks := if s.dev.tol.hasSession ∧ s.dev.sup.pfWarn = true then s.dev.tol.marks ||| 16 else s.dev.tol.marks } } ∧
    endsIn .crystalReturn s { s.dev with sup := { s.dev.sup with lfrc := false } } ∧
    endsIn .crystalFailover s { s.dev with
      sup := { s.dev.sup with lfrc := true, timeValid := false }
      tol := { s.dev.tol with
        marks := if s.dev.tol.hasSession ∧ s.dev.sup.timeValid = true then s.dev.tol.marks ||| 1 else s.dev.tol.marks } } ∧
    (s.dev.alive = true → s.dev.sup.timeValid = true →
      endsFiring .crystalFailover s 4 { s.dev with
        sup := { s.dev.sup with lfrc := true, timeValid := false }
        tol := { s.dev.tol with marks := if s.dev.tol.hasSession then s.dev.tol.marks ||| 1 else s.dev.tol.marks } })

/-- R59, R66 and the commands of R65 on time and alarm. SET_TIME copies the staged time into the RTC and makes it
valid, marking a session whose time was not, or is refused with 0x14 while a session is open or suspended and the time
is valid; the starts of the spans that the device times move with the RTC (notes/assumptions/26.md); ARM_ALARM arms a
staged value above the RTC and refuses another with 0x12; DISARM disarms; an armed alarm that the RTC has reached fires
once and disarms itself, and one that it has not reached stays. The RTC's correction from the crystal adds whole ticks
and carries the rest (its formula is the model's, notes/assumptions/26.md); on the LF RC there is none. On an empty
queue nothing is taken: a muster that was cut short goes on, and otherwise one period of the always-on clock passes, in
which the RTC counts unless SET_TIME has written it in that period (the idle step is the model's,
notes/assumptions/6.md), and a PWM period boundary of the pump bridge lies in it (notes/assumptions/40.md). -/
def Obligations.TimeAndAlarm : Prop :=
  ∀ (s : State) (tok : Byte),
    (takes s.dev .sup tok → (s.dev.tol.hasSession && s.dev.sup.timeValid) = false →
      endsIn (.setTime tok) s (commanded s.dev .sup tok 0x01 0x00 fun d =>
        { d.moveTimes (d.sup.tsetHi ++ d.sup.tsetLo - d.sup.rtc) with
          sup := { d.sup with
            rtc := d.sup.tsetHi ++ d.sup.tsetLo, timeValid := true, tickTaken := true, rtcResidue := 0 }
          tol := { d.tol with marks := if d.tol.hasSession then d.tol.marks ||| 1 else d.tol.marks } })) ∧
    (takes s.dev .sup tok → (s.dev.tol.hasSession && s.dev.sup.timeValid) = true →
      endsIn (.setTime tok) s (commanded s.dev .sup tok 0x01 0x14 id)) ∧
    (takes s.dev .sup tok → s.dev.sup.rtc < s.dev.sup.alarmHi ++ s.dev.sup.alarmLo →
      endsIn (.armAlarm tok) s (commanded s.dev .sup tok 0x03 0x00 fun d => { d with
        sup := { d.sup with alarm := some (d.sup.alarmHi ++ d.sup.alarmLo) } })) ∧
    (takes s.dev .sup tok → s.dev.sup.alarmHi ++ s.dev.sup.alarmLo ≤ s.dev.sup.rtc →
      endsIn (.armAlarm tok) s (commanded s.dev .sup tok 0x03 0x12 id)) ∧
    (takes s.dev .sup tok →
      endsIn (.disarm tok) s (commanded s.dev .sup tok 0x04 0x00 fun d => { d with sup := { d.sup with alarm := none } })) ∧
    (∀ a, s.dev.sup.alarm = some a → a ≤ s.dev.sup.rtc →
      endsIn .alarm s { s.dev with sup := { s.dev.sup with alarm := none } }) ∧
    (∀ a, s.dev.sup.alarm = some a → s.dev.sup.rtc < a → endsIn .alarm s s.dev) ∧
    (∀ temp, s.dev.sup.xtal = none ∨ s.dev.sup.lfrc = true → endsIn (.rtcCorrection temp) s s.dev) ∧
    (∀ temp t0 coef, s.dev.sup.xtal = some (t0, coef) → s.dev.sup.lfrc = false →
      ∀ r, r = s.dev.sup.rtcResidue + lostTicks t0 coef temp →
      endsIn (.rtcCorrection temp) s { s.dev with
        sup := { s.dev.sup with rtc := s.dev.sup.rtc + BitVec.ofInt 48 r.floor, rtcResidue := r - (r.floor : Rat) } }) ∧
    (∀ m, s.dev.alive = true → s.dev.stopped = false → s.dev.powerFailing = false → s.dev.sys.todo = some m →
      step { dev := s.dev, pending := [] } = .next { dev := s.dev.musterOn m, pending := [] }) ∧
    (s.dev.sys.todo = none → step { dev := s.dev, pending := [] } = .next { pending := [], dev := { s.dev with
      sup := { s.dev.sup with rtc := if s.dev.sup.tickTaken then s.dev.sup.rtc else s.dev.sup.rtc + 1, tickTaken := false }
      pwr := { s.dev.pwr with pumpUse := s.dev.pwr.pumpcfg, extOff := s.dev.pwr.extRevoked, cycleOff := false } } })

/-! ### Modes and the drover -/

/-- R29, outside Run: each of the eight commands of MODE_CMD and SEQ_CMD is answered with REFUSED_MODE, and nothing but
the host port and the command register changes. -/
def Obligations.RefusedOutsideRun : Prop :=
  ∀ (s : State) (tok : Byte), s.dev.inRun = false →
    (takes s.dev .mode tok →
      endsIn (.watch tok) s (commanded s.dev .mode tok 0x01 0x10 id) ∧
      endsIn (.benchEnter tok) s (commanded s.dev .mode tok 0x02 0x10 id) ∧
      endsIn (.benchExit tok) s (commanded s.dev .mode tok 0x03 0x10 id) ∧
      endsIn (.lockAck tok) s (commanded s.dev .mode tok 0x04 0x10 id)) ∧
    (takes s.dev .seq tok →
      endsIn (.closeCmd tok) s (commanded s.dev .seq tok 0x01 0x10 id) ∧
      endsIn (.openCmd tok) s (commanded s.dev .seq tok 0x02 0x10 id) ∧
      endsIn (.holdCmd tok) s (commanded s.dev .seq tok 0x03 0x10 id) ∧
      endsIn (.releaseCmd tok) s (commanded s.dev .seq tok 0x04 0x10 id))

/-- R28 and R31: BENCH_ENTER and BENCH_EXIT move the run state between Normal and Bench with an event, BENCH_EXIT is
refused while the engine is halted, and an accepted LOCK_ACK opens the drover, clears the cause and returns to the run
state that LOCKOUT was entered from, which MODE_STAT.LOCK_FROM shows in LOCKOUT; with its cause present it is refused
with 0x13. -/
def Obligations.ModeCommands : Prop :=
  ∀ (s : State) (tok : Byte), takes s.dev .mode tok → s.dev.inRun = true →
    (s.dev.watchAllowed = true → s.dev.mode.entering = false →
      endsFiring (.benchEnter tok) s 0 (commanded s.dev .mode tok 0x02 0x00 fun d =>
        { d with mode := { d.mode with bench := true } })) ∧
    (s.dev.seq.drover = .openS → s.dev.mode.bench = true → s.dev.insp.halted = false →
      endsFiring (.benchExit tok) s 0 (commanded s.dev .mode tok 0x03 0x00 fun d =>
        { d with mode := { d.mode with bench := false } })) ∧
    (s.dev.seq.drover = .openS → s.dev.mode.bench = true → s.dev.insp.halted = true →
      endsIn (.benchExit tok) s (commanded s.dev .mode tok 0x03 0x12 id)) ∧
    (s.dev.seq.drover = .lockout → s.dev.lockCauseAbsent = false →
      endsIn (.lockAck tok) s (commanded s.dev .mode tok 0x04 0x13 id)) ∧
    (s.dev.seq.drover = .lockout → s.dev.lockCauseAbsent = true →
      ∃ d', exec (.lockAck tok) s = .next { s with dev := d' } ∧ d'.seq.drover = .openS ∧ d'.mode.lockCause = 0 ∧
        d'.mode.bench = s.dev.mode.bench ∧ d'.runState = (if s.dev.mode.bench then .bench else .normal) ∧
        d'.cmds.mode = { kept := some tok, held := none, result := word (place tok.toNat 16) } ∧ fired 0 d') ∧
    field (s.dev.peek 0x040) 4 1 = (if s.dev.seq.drover = .lockout ∧ s.dev.mode.bench = true then 1 else 0)

/-- The rows of R29 and R16 for HOLD and RELEASE, with R14, R23 and R35: HOLD from OPEN, CLOSED or OUTPUT records where
it came from; in Bench it does not leave OPEN, and in a Watch entry it is refused; in HOLD it has no effect; RELEASE
and the expiry of T_hold return there, check the relations of R488 again and start the release that T_coil_ol has made
due in HOLD, or K4's at a session's end whose T_grace has expired there; a RELEASE held in the frame of the expiry has
the result DONE; elsewhere both are refused with 0x11. Contactors, session and limits stay as they are otherwise. The
model's own readings: the refusal in Bench and in a Watch entry (notes/assumptions/21.md); releases due in HOLD
(notes/assumptions/23.md). -/
def Obligations.HoldAndRelease : Prop :=
  ∀ (s : State) (tok : Byte), s.dev.inRun = true →
    (takes s.dev .seq tok → (s.dev.seq.drover = .openS ∨ s.dev.seq.drover = .closed ∨ s.dev.seq.drover = .output) →
      (s.dev.mode.entering = false → (s.dev.mode.bench = true → s.dev.seq.drover ≠ .openS) →
        endsFiring (.holdCmd tok) s 1 (commanded s.dev .seq tok 0x03 0x00 fun d =>
          { d with seq := { d.seq with holdFrom := d.seq.drover, drover := .hold } })) ∧
      (s.dev.mode.entering = true ∨ (s.dev.mode.bench = true ∧ s.dev.seq.drover = .openS) →
        endsIn (.holdCmd tok) s (commanded s.dev .seq tok 0x03 0x10 id)) ∧
      endsIn (.releaseCmd tok) s (commanded s.dev .seq tok 0x04 0x11 id)) ∧
    (takes s.dev .seq tok → (s.dev.seq.drover = .precharge ∨ s.dev.seq.drover = .breaking ∨ s.dev.seq.drover = .lockout) →
      (s.dev.mode.entering = false → endsIn (.holdCmd tok) s (commanded s.dev .seq tok 0x03 0x11 id)) ∧
      endsIn (.releaseCmd tok) s (commanded s.dev .seq tok 0x04 0x11 id)) ∧
    (takes s.dev .seq tok → s.dev.seq.drover = .hold → s.dev.mode.entering = false →
      endsIn (.holdCmd tok) s (commanded s.dev .seq tok 0x03 0x00 id)) ∧
    (s.dev.seq.drover = .hold → (s.dev.seq.holdFrom = .openS ∨ s.dev.seq.holdFrom = .closed ∨ s.dev.seq.holdFrom = .output) →
      ((∀ k : K, (s.dev.coil.get k).olDue = false) →
        (s.dev.seq.sessionEnding && !s.dev.seq.grace && !s.dev.seq.opening) = false →
        (takes s.dev .seq tok → endsFiring (.releaseCmd tok) s 1 (commanded s.dev .seq tok 0x04 0x00 fun d =>
          { d with seq := { d.seq with drover := d.seq.holdFrom }
                   hst := { d.hst with cfginc := s.dev.cfgInc } })) ∧
        (s.dev.cmds.seq.held = none → endsFiring .tHoldExpiry s 1
          { s.dev with seq := { s.dev.seq with drover := s.dev.seq.holdFrom }
                       hst := { s.dev.hst with cfginc := s.dev.cfgInc } }) ∧
        (s.dev.cmds.seq.held = some (tok, 0x04) → endsFiring .tHoldExpiry s 1
          (executed { s.dev with seq := { s.dev.seq with drover := s.dev.seq.holdFrom }
                                 hst := { s.dev.hst with cfginc := s.dev.cfgInc } } .seq tok 0x00))) ∧
      (∀ k : K, (s.dev.coil.get k).olDue = true → (s.dev.coil.get k).phase = .openLoop →
        (∀ j : K, j ≠ k → (s.dev.coil.get j).olDue = false) →
        (s.dev.seq.sessionEnding && !s.dev.seq.grace && !s.dev.seq.opening) = false → takes s.dev .seq tok →
        ∃ d', exec (.releaseCmd tok) s = .next { s with dev := d' } ∧ d'.seq.drover = s.dev.seq.holdFrom ∧
          (d'.coil.get k).phase = .releasing ∧ (d'.coil.get k).lo = false ∧ (d'.coil.get k).olDue = false ∧
          ∀ j : K, j ≠ k → d'.coil.get j = s.dev.stopChecks.coil.get j) ∧
      ((∀ k : K, (s.dev.coil.get k).olDue = false) → s.dev.seq.sessionEnding = true → s.dev.seq.grace = false →
        s.dev.seq.opening = false → (s.dev.coil.get 3).phase = .hold → takes s.dev .seq tok →
        ∃ d', exec (.releaseCmd tok) s = .next { s with dev := d' } ∧ d'.seq.drover = s.dev.seq.holdFrom ∧
          (d'.coil.get 3).phase = .releasing ∧ (d'.coil.get 3).lo = false ∧
          ∀ j : K, j ≠ 3 → d'.coil.get j = s.dev.stopChecks.coil.get j))

/-- R17, R36 and R37, with the rows of R29 for CLOSE and OPEN: a CLOSE with every close condition met starts the close
sequence with K2's pull-in and changes no other coil; with a condition unmet it is refused with 0x12, in every drover
state but OPEN with 0x11, and with the token of the last command it does nothing more. OPEN aborts a pre-charge without
a BREAKING phase, starts BREAKING from CLOSED and OUTPUT, with the feedback checks stopped (R346), and elsewhere has no
effect but in HOLD, where it is refused. -/
def Obligations.CloseAndOpen : Prop :=
  ∀ (s : State) (tok : Byte), s.dev.inRun = true →
    (takes s.dev .seq tok → s.dev.mode.entering = false →
      (s.dev.seq.drover = .openS → s.dev.seqBlock = 0 →
        ∃ d', exec (.closeCmd tok) s = .next { s with dev := d' } ∧ d'.seq.drover = .precharge ∧
          (d'.coil.get 1).phase = .signature ∧ (d'.coil.get 1).hi = s.dev.gatesOn ∧ (d'.coil.get 1).lo = s.dev.gatesOn ∧
          (∀ k : K, k ≠ 1 → d'.coil.get k = s.dev.coil.get k) ∧
          d'.cmds.seq = { kept := some tok, held := none, result := word (place tok.toNat 16 + 0x01) } ∧
          d'.sup = s.dev.sup ∧ d'.mode = s.dev.mode ∧ d'.lim = s.dev.lim ∧ d'.pwr = s.dev.pwr ∧ d'.saf = s.dev.saf ∧
          d'.tol = s.dev.tol ∧ d'.lgr = s.dev.lgr ∧ d'.est = s.dev.est ∧ d'.chn = s.dev.chn ∧ fired 1 d') ∧
      (s.dev.seq.drover = .openS → s.dev.seqBlock ≠ 0 →
        endsIn (.closeCmd tok) s (commanded s.dev .seq tok 0x01 0x12 id)) ∧
      (s.dev.seq.drover ≠ .openS → endsIn (.closeCmd tok) s (commanded s.dev .seq tok 0x01 0x11 id))) ∧
    (s.dev.alive = true → s.dev.hst.access = none → s.dev.cmds.seq.held = none → s.dev.cmds.seq.kept = some tok →
      endsIn (.closeCmd tok) s (accepted s.dev tok 0x01)) ∧
    (takes s.dev .seq tok →
      (s.dev.seq.drover = .precharge →
        ∃ d', exec (.openCmd tok) s = .next { s with dev := d' } ∧ d'.seq.drover = .openS ∧
          (∀ k : K, k ≠ 3 → (d'.coil.get k).phase = .released ∨ (d'.coil.get k).phase = .releasing) ∧
          { d'.coil.get 3 with raising := false } = s.dev.stopChecks.coil.get 3 ∧
          d'.cmds.seq = { kept := some tok, held := none, result := word (place tok.toNat 16) }) ∧
      ((s.dev.seq.drover = .closed ∨ s.dev.seq.drover = .output) →
        ∃ d', exec (.openCmd tok) s = .next { s with dev := d' } ∧ d'.seq.drover = .breaking ∧ d'.seq.grace = true ∧
          d'.limitsZero = true ∧ ((∀ k : K, (s.dev.coil.get k).olDue = false) → d'.coil = s.dev.stopChecks.coil) ∧
          d'.cmds.seq = { kept := some tok, held := none, result := word (place tok.toNat 16 + 0x01) }) ∧
      ((s.dev.seq.drover = .openS ∨ s.dev.seq.drover = .breaking ∨ s.dev.seq.drover = .lockout) →
        endsIn (.openCmd tok) s (commanded s.dev .seq tok 0x02 0x00 id)) ∧
      (s.dev.seq.drover = .hold → endsIn (.openCmd tok) s (commanded s.dev .seq tok 0x02 0x11 id)))

/-! ### Power failure -/

/-- R56, R48, R67 and R533: in Watch a warning sets PF_WARN and nothing else; a repeated one does nothing; in muster it
starts the shadow-only commit and queues the event once PER runs; the first in Run raises the class C fault 35, zeroes
every limit, moves the drover from CLOSED and OUTPUT to BREAKING and starts the final commit; the depot is started
where its domain is stopped (notes/assumptions/11.md). A flush in progress is abandoned (R533): the other copy of the
record stays as it was, and the increments are kept. The model's own readings: the event of a warning in muster
(notes/assumptions/36.md). -/
def Obligations.PowerFailWarning : Prop :=
  ∀ s : State,
    (s.dev.alive = false ∨ s.dev.sup.pfWarn = true → endsIn .powerFailWarning s s.dev) ∧
    (s.dev.alive = true → s.dev.sup.pfWarn = false →
      (s.dev.mode.mode = .watch →
        endsIn .powerFailWarning s { s.dev with sup := { s.dev.sup with pfWarn := true } }) ∧
      (s.dev.mode.mode = .muster → s.dev.powerFailing = true →
        endsIn .powerFailWarning s { s.dev with sup := { s.dev.sup with pfWarn := true } }) ∧
      (s.dev.mode.mode = .muster → s.dev.powerFailing = false → s.dev.sup.pfEvent = false → s.dev.sup.doms.per = true →
        s.dev.lif.undo = none → endsFiring .powerFailWarning s 2 { s.dev with sup := { s.dev.needDepot.sup with
          pfWarn := true, commit := some .shadowOnly, pfEvent := true, pfEventDue := false } }) ∧
      (s.dev.mode.mode = .muster → s.dev.powerFailing = false → s.dev.sup.pfEvent = false → s.dev.sup.doms.per = false →
        s.dev.lif.undo = none → endsIn .powerFailWarning s { s.dev with sup := { s.dev.needDepot.sup with
          pfWarn := true, commit := some .shadowOnly, pfEventDue := true } }) ∧
      (s.dev.mode.mode = .run → s.dev.sup.pfSeen = false → s.dev.powerFailing = false →
        s.dev.faultBits.getLsbD 35 = false →
        ∃ d', exec .powerFailWarning s = .next { s with dev := d' } ∧ d'.sup.pfWarn = true ∧ d'.sup.pfSeen = true ∧
          d'.sup.commit = some .final ∧ d'.limitsZero = true ∧ d'.lim.active.getLsbD 35 = true ∧
          ((s.dev.seq.drover = .closed ∨ s.dev.seq.drover = .output) → d'.seq.drover = .breaking) ∧
          d'.man = s.dev.man ∧ d'.saf = s.dev.saf ∧ d'.sen = s.dev.sen) ∧
      (∀ u, s.dev.lif.undo = some u → s.dev.mode.mode ≠ .watch → s.dev.powerFailing = false →
        (s.dev.mode.mode = .run → s.dev.sup.pfSeen = false) →
        ∃ d', exec .powerFailWarning s = .next { s with dev := d' } ∧ d'.lif.undo = none ∧ d'.lif.total = u.total ∧
          d'.lif.copy = u.copy ∧ d'.lif.gen = u.gen ∧ d'.dep.busy ≠ some .lifetime ∧ DepotTx.lifetime ∉ d'.dep.waiting ∧
          d'.dep.flushing = false ∧ d'.cs1 (lifeAddr u.copy) 1024 = s.dev.cs1 (lifeAddr u.copy) 1024 ∧
          (s.dev.mode.mode = .muster → d'.lif.inc = u.inc.add s.dev.lif.inc)))

/-- R53 and R427: the end of either commit is the entry to power-fail hold; with nothing staged the final commit leaves
the energy, pack current and coulomb shadows at their present values. The energy shadow is written whenever its content
is valid, with the pack current shadow while a contactor of the string is closed: at once where the depot is free and no
write waits, else as a write that waits with the present content; the shadow writes change nothing outside the depot but
to start its domain where it is stopped. The model's own readings: the depot's start
(notes/assumptions/11.md); what the commits and shadow writes contain (notes/assumptions/28.md); writes that wait
(notes/assumptions/49.md). -/
def Obligations.CommitsAndShadows : Prop :=
  ∀ s : State,
    (∀ k, s.dev.alive = true → s.dev.sup.commit = some k →
      ∃ d', exec .finalCommitComplete s = .next { s with dev := d' } ∧ d'.sup.pfHold = true ∧ d'.sup.commit = none ∧
        d'.seq = s.dev.seq ∧ d'.coil = s.dev.coil ∧ d'.saf = s.dev.saf ∧ (s.dev.sup.doms.per = true → fired 2 d') ∧
        (k = .final → s.dev.lgr.signing = [] → s.dev.lgr.staging = [] →
          d'.dep.energy.value = some s.dev.energyShadow ∧ d'.dep.coul.value = some s.dev.est.coulomb ∧
          d'.dep.pack.value = some (s.dev.sen.iPack.natAbs, s.dev.sup.rtc))) ∧
    (s.dev.alive = true → s.dev.sup.commit = none → endsIn .finalCommitComplete s s.dev) ∧
    (∀ c ∈ [Instr.energyShadowWrite, .finalShadowWrite], s.dev.shadowsValid = true →
      (c = .energyShadowWrite → s.dev.sup.doms.mod = true) → (c = .finalShadowWrite → s.dev.sup.pfHold = true) →
      ∃ d', exec c s = .next { s with dev := d' } ∧ DepotTx.shadow ∈ d'.dep.waiting ∧
        (s.dev.needDepot.depotFree = true → s.dev.dep.jobs = [] →
          d'.dep.energy.value = some s.dev.energyShadow ∧
          (s.dev.stringClosed = true → d'.dep.pack.value = some (s.dev.sen.iPack.natAbs, s.dev.sup.rtc)) ∧
          (s.dev.stringClosed = false → d'.dep.pack = s.dev.dep.pack)) ∧
        (s.dev.needDepot.depotFree = false ∨ s.dev.dep.jobs ≠ [] →
          d'.dep.energy = s.dev.dep.energy ∧ d'.dep.pack = s.dev.dep.pack ∧
          DepotJob.energy s.dev.energyShadow (if s.dev.stringClosed then some (s.dev.sen.iPack.natAbs, s.dev.sup.rtc)
            else none) ∈ d'.dep.jobs) ∧
        d' = { s.dev with dep := d'.dep, sup := s.dev.needDepot.sup } ∧ d'.dep.cs0 = s.dev.dep.cs0 ∧
        d'.dep.cs1 = s.dev.dep.cs1) ∧
    ((s.dev.shadowsValid = false ∨ s.dev.sup.doms.mod = false) → does .energyShadowWrite s s.dev) ∧
    ((s.dev.shadowsValid = false ∨ s.dev.sup.pfHold = false) → does .finalShadowWrite s s.dev)


/-! ### Resets and starts -/

/-- R18, R40, R43, R52, R62, R65, R91 and R135: each reset with its cause bit in what the start reads, and no reset
where its cause cannot arise. RESET is refused with 0x11 unless the drover is OPEN or LOCKOUT. A clock failure and a
watchdog trip count as class D trips. The model's own readings: where none arises (notes/assumptions/1.md); what a reset
keeps (notes/assumptions/27.md); contactors closed at a reset (notes/assumptions/29.md). -/
def Obligations.ResetsAndTheirCauses : Prop :=
  ∀ (s : State) (m : MusterInputs) (tok : Byte),
    (s.dev.sup.powered = true → resets (.pinReset m) s 0x000008 s.dev m) ∧
    (s.dev.sup.powered = true →
      ∃ d0, resetImage 0x000002 s.dev d0 ∧ exec .brownOut s = .next { s with dev := { d0 with
        sup := { d0.sup with powered := false, inReset := true }, dep := { d0.dep with badSectors := [] } } }) ∧
    (s.dev.sup.powered = true → resets (.retentionLoss m) s 0
      { s.dev with sup := { s.dev.sup with canary := false, vaoDipped := true, lfrc := true } } m) ∧
    (s.dev.sup.powered = false → endsIn (.retentionLoss m) s
      { s.dev with sup := { s.dev.sup with canary := false, vaoDipped := true, lfrc := true } }) ∧
    (s.dev.alive = true → s.dev.sup.pfHold = true → resets (.powerFailRecovery m) s 0x000004 s.dev m) ∧
    (s.dev.sup.pfHold = false → endsIn (.powerFailRecovery m) s s.dev) ∧
    (s.dev.alive = true → s.dev.sup.mainOsc = true →
      resets (.mainClockFailure m) s 0x000020 (s.dev.countDevice 13) m) ∧
    (s.dev.alive = true → s.dev.sup.wdArmed = true →
      resets (.frameWatchdogTrip m) s 0x000010 (s.dev.countDevice 13) m) ∧
    (s.dev.sup.wdArmed = false → endsIn (.frameWatchdogTrip m) s s.dev) ∧
    (takes s.dev .sup tok → (s.dev.seq.drover = .openS ∨ s.dev.seq.drover = .lockout) →
      resets (.resetCmd tok m) s 0x000040 (accepted s.dev tok 0x02) m) ∧
    (takes s.dev .sup tok → s.dev.seq.drover ≠ .openS → s.dev.seq.drover ≠ .lockout →
      endsIn (.resetCmd tok m) s (commanded s.dev .sup tok 0x02 0x11 id))

/-- R39, R40, R136, R138 and R544: POWER_GOOD powers a device that waits for it and starts the full muster, unless TEST
high keeps it in reset; with its clocks, OTP and self-test good the first four steps run, so that the peripheral, CAN
and engine domains run and the frame watchdog is armed; a start whose clocks, OTP or self-test fail stops at its step
with its code, stays in muster and drives FLT_N low; after the third reset of R139 it stops at step 4 with 0x0C. The
model's own readings: the start (notes/assumptions/2.md); which step does what (notes/assumptions/30.md). -/
def Obligations.MusterStops : Prop :=
  ∀ (s : State) (m : MusterInputs),
    (s.dev.awaitsPower = true → m.test = true →
      does (.powerGood m) s { s.dev with sup := { s.dev.sup with powered := true, inReset := true } }) ∧
    (s.dev.awaitsPower = true → m.test = false → does (.powerGood m) s
      (Dev.musterFrom 16 m { s.dev with sup := { s.dev.sup with powered := true, inReset := false } })) ∧
    (s.dev.awaitsPower = false → does (.powerGood m) s s.dev) ∧
    (s.dev.awaitsPower = true → s.dev.sys.step = 1 → s.dev.sys.mstate = 0 → s.dev.mode.mode = .muster →
      s.dev.sys.path = 0b01 → s.dev.powerFailing = false → m.test = false →
      ∃ d', exec (.powerGood m) s = .next { s with dev := d' } ∧
        (m.cutAfter = 4 → m.mainOsc = true → m.pllLock = true → m.otpOk = true → s.dev.sys.repeated = false →
          m.selfTestOk = true → m.injectionMiss = none →
          d'.mode.mode = .muster ∧ d'.sys.step = 5 ∧ d'.sys.mstate = 0 ∧ d'.sup.powered = true ∧ d'.sup.inReset = false ∧
            d'.sup.canary = true ∧ d'.sup.mainOsc = true ∧ d'.sup.pllA = true ∧ d'.sup.wdArmed = true ∧ d'.inh = true ∧
            d'.sup.doms.per = true ∧ d'.sup.doms.can = true ∧ d'.sup.doms.eng = true ∧ d'.sys.sn = Config.serial) ∧
        (m.cutAfter = 0 →
          (m.mainOsc = false → stoppedAt 2 0x02 d') ∧
          (m.mainOsc = true → m.pllLock = false → stoppedAt 2 0x03 d') ∧
          (m.mainOsc = true → m.pllLock = true → m.otpOk = false → stoppedAt 3 0x04 d') ∧
          (m.mainOsc = true → m.pllLock = true → m.otpOk = true → s.dev.sys.repeated = true → s.dev.sup.canary = true →
            m.retainedCrcOk = true → stoppedAt 4 0x0C d') ∧
          (m.mainOsc = true → m.pllLock = true → m.otpOk = true → s.dev.sys.repeated = false → m.selfTestOk = false →
            stoppedAt 4 0x05 d')))


/-! ### Watch -/

/-- R11, R19 to R21, R84, R457, R539 and R542: WATCH under its conditions starts the entry; it ends once the crossings of
the domains are idle, with every fast clock stopped, INH off, the pump and the permission off, the chain asleep with
balancing off, the depot devices that list it in deep power-down and the call settings copied; coils, session, ledger
and estimates stay as they are. The model's own readings: when the crossings are idle (notes/assumptions/11.md); the
result code of WATCH (notes/assumptions/21.md); what the entry ends (notes/assumptions/34.md). -/
def Obligations.WatchEntry : Prop :=
  ∀ (s : State) (tok : Byte), s.dev.inRun = true →
    (takes s.dev .mode tok → s.dev.watchAllowed = true →
      endsIn (.watch tok) s (commanded s.dev .mode tok 0x01 0x00 fun d =>
        { d with mode := { d.mode with entering := true } })) ∧
    (takes s.dev .mode tok → s.dev.seq.drover ≠ .openS →
      endsIn (.watch tok) s (commanded s.dev .mode tok 0x01 0x11 id)) ∧
    ((s.dev.mode.entering = false ∨ s.dev.crossingsIdle = false ∨ s.dev.accessIdle = false) →
      does .watchEntryComplete s s.dev) ∧
    (s.dev.mode.entering = true → s.dev.crossingsIdle = true → s.dev.accessIdle = true →
    ∃ d', exec .watchEntryComplete s = .next { s with dev := d' } ∧ d'.mode.mode = .watch ∧ d'.mode.entering = false ∧
      d'.inh = false ∧ d'.sup.doms = {} ∧ d'.sup.pllA = false ∧ d'.sup.pllB = false ∧ d'.sup.mainOsc = false ∧
      d'.sup.wdArmed = false ∧ d'.pumpGates = 0 ∧ d'.pwr.cpOk = false ∧ d'.saf.granted = false ∧ d'.saf.testing = 0 ∧
      d'.dep.deepDown = s.dev.dep.deepOk ∧
      (s.dev.chn.running = true → d'.chn.sleeping = 0b11 ∧ (∀ a : Fin 32, (d'.chn.stages.get a).mask = 0) ∧
        d'.chn.sent = some (if s.dev.chn.intact then (Port.eva, chainFrame 0 0x0D s.dev.chn.seq [])
          else (.evb, chainFrame 0 0x0D (s.dev.chn.seq + 1) []))) ∧
      d'.wakeDet = { call := s.dev.can0.call, nbt := s.dev.can0.nbt, errors := 0 } ∧
      d'.seq = s.dev.seq ∧ d'.coil = s.dev.coil ∧ d'.lim = s.dev.lim ∧ d'.tol = s.dev.tol ∧ d'.lgr = s.dev.lgr ∧
      d'.est.cells = s.dev.est.cells ∧ d'.can0 = s.dev.can0 ∧ d'.can1 = s.dev.can1 ∧ d'.saf.provenCh = s.dev.saf.provenCh)

/-- R11, R19, R23, R33, R157, R188 and R456: a sweep wakes the stages, enters the cell values it reads, counts no
charge and ends with SLEEP; an enabled wake source in Watch sets its cause, turns INH on and starts the resume path;
one that asserts during Watch entry aborts it; one that asserts in the resume path only sets its cause; the call wakes
as a source of its own; a classical frame that is not the call lowers the error count, which a wake ends, and an FD
frame is ignored. The model's own readings: the SEQ after a sweep (notes/assumptions/33.md); the resume path
(notes/assumptions/34.md); the match of the call (notes/assumptions/35.md); a sweep (notes/assumptions/37.md). -/
def Obligations.SweepAndWake : Prop :=
  ∀ (s : State) (m : MusterInputs) (src : WakeSource) (f : CanFrame) (r : SnapReading), s.dev.alive = true →
    (s.dev.mode.mode ≠ .watch → does (.watchSweep [r]) s s.dev) ∧
    (s.dev.mode.mode = .watch →
      ∃ d', exec (.watchSweep [r]) s = .next { s with dev := d' } ∧ d'.est.coulomb = s.dev.est.coulomb ∧
        d'.mode = s.dev.mode ∧ d'.lim = s.dev.lim ∧ d'.sup = s.dev.sup ∧ d'.chn.sleeping = 0b11 ∧
        (∀ a : Fin 32, (d'.chn.stages.get a).mask = 0) ∧
        d'.lif.watchSec = (s.dev.lif.watchSec + field s.dev.mode.watchcfg 0 10) % 3600 ∧
        (∀ i : Fin 18, r.measFault = false →
          (d'.est.cells.get ⟨18 * r.stage.val + i.val, by omega⟩).v = r.cells.getD i.val 0) ∧
        (∀ p : Fin 576, p.val / 18 ≠ r.stage.val → d'.est.cells.get p = s.dev.est.cells.get p)) ∧
    (s.dev.wakeEnabled src = true → s.dev.mode.mode = .watch →
      ∃ d0, exec (.wake src m) s = .next { s with dev := Dev.musterFrom 16 m d0 } ∧ d0.mode.mode = .muster ∧
        d0.inh = true ∧ d0.sys.path = 0b10 ∧ d0.sys.step = 2 ∧ d0.sys.mstate = 0 ∧
        d0.mode.wakecause = setFlag s.dev.mode.wakecause (wakeBit src) true ∧ d0.wakeDet.errors = 0 ∧ d0.saf = s.dev.saf ∧ d0.tol = s.dev.tol) ∧
    (s.dev.wakeEnabled src = true → s.dev.inRun = true → s.dev.mode.entering = true →
      endsFiring (.wake src m) s 0 { s.dev with mode := { s.dev.mode with
        entering := false, wakecause := setFlag (setFlag s.dev.mode.wakecause (wakeBit src) true) 9 true } }) ∧
    (s.dev.wakeEnabled src = true → s.dev.mode.mode = .muster → s.dev.resuming = true → s.dev.stopped = false →
      endsIn (.wake src m) s { s.dev with mode := { s.dev.mode with
        wakecause := setFlag s.dev.mode.wakecause (wakeBit src) true } }) ∧
    (s.dev.wakeEnabled src = false → endsIn (.wake src m) s s.dev) ∧
    (s.dev.wakeEnabled .call = true → s.dev.mode.mode = .watch → isCall s.dev.wakeDet.call f = true →
      ∃ d0, exec (.call f m) s = .next { s with dev := Dev.musterFrom 16 m d0 } ∧ d0.mode.mode = .muster ∧
        d0.inh = true ∧ d0.sys.path = 0b10 ∧ d0.sys.step = 2 ∧ d0.sys.mstate = 0 ∧
        d0.mode.wakecause = setFlag s.dev.mode.wakecause 1 true ∧ d0.wakeDet.errors = 0 ∧ d0.saf = s.dev.saf ∧
        d0.tol = s.dev.tol) ∧
    (f.fdf = true → endsIn (.call f m) s s.dev) ∧
    (s.dev.mode.mode = .watch → isCall s.dev.wakeDet.call f = false → f.fdf = false →
      endsIn (.call f m) s { s.dev with wakeDet := { s.dev.wakeDet with errors := s.dev.wakeDet.errors - 1 } })


/-! ### Registers that clear and set -/

/-- The write-one-to-clear registers of the pages ENG, CHN, SEN, EST, LIM, PWR and DEP: each of the sixteen commands
clears the counters that its register's table names, with their overflow flags, restarts the peaks and extremes it
names, and changes nothing else but the answer of the host port and the check of HST_CFGINC that every write brings
(R488, Safety.written). The model's own readings: what a peak restarts at (notes/assumptions/39.md). -/
def Obligations.ClearRegisters : Prop :=
  ∀ s : State,
    (serves s.dev 0x08B →
      does .engClrMismatch s (written s.dev 0x08B fun d => { d with eng := { d.eng with
        resolved := 0, storage := 0, withheld := 0, ovf := d.eng.ovf &&& ~~~0x000007 } }) ∧
      does .engClrOdd s (written s.dev 0x08B fun d => { d with eng := { d.eng with
        oddLead := 0, oddEscort := 0, oddRear := 0, ovf := d.eng.ovf &&& ~~~0x000038 } }) ∧
      does .engClrEcc s (written s.dev 0x08B fun d => { d with eng := { d.eng with
        eccDouble := 0, eccSingle := 0, ovf := d.eng.ovf &&& ~~~0x0000C0 } }) ∧
      does .engClrLoad s (written s.dev 0x08B fun d => { d with eng := { d.eng with reserveMin := 0x3E8, busyPeak := 0 } }) ∧
      does .engClrDisagree s (written s.dev 0x08B fun d => { d with eng := { d.eng with
        disagree := 0, ovf := d.eng.ovf &&& ~~~0x000100 } })) ∧
    (serves s.dev 0x0AC →
      does .chnClrPeak s (written s.dev 0x0AC fun d => { d with chn := { d.chn with tagPeak := 0 } }) ∧
      does .chnClrErr s (written s.dev 0x0AC fun d => { d with chn := { d.chn with
        crcA := 0, crcB := 0, ovf := d.chn.ovf &&& ~~~0x000003 } }) ∧
      does .chnClrRetry s (written s.dev 0x0AC fun d => { d with chn := { d.chn with
        retries := 0, failed := 0, ovf := d.chn.ovf &&& ~~~0x00000C } }) ∧
      does .chnClrLoss s (written s.dev 0x0AC fun d => { d with chn := { d.chn with
        staleEv := 0, snapLost := 0, ovf := d.chn.ovf &&& ~~~0x000030 } })) ∧
    (serves s.dev 0x0DF → does .senClrCnt s (written s.dev 0x0DF fun d => { d with sen := { d.sen with
      det := 0, ovr := 0, ovrSat := false, detSat := false } })) ∧
    (serves s.dev 0x0F1 →
      does .estClrFit s (written s.dev 0x0F1 fun d => { d with est := { d.est with
        accepted := 0, rejected := 0, ovf := d.est.ovf &&& ~~~0x000003 } }) ∧
      does .estClrStep s (written s.dev 0x0F1 fun d => { d with est := { d.est with
        requested := 0, missed := 0, ovf := d.est.ovf &&& ~~~0x00000C } })) ∧
    (serves s.dev 0x117 → does .limClrUl s (written s.dev 0x117 fun d => { d with lim := { d.lim with
      underLoad := .replicate 4 0, ovf := d.lim.ovf &&& ~~~0x00000F } })) ∧
    (serves s.dev 0x141 → does .pwrCntclr s (written s.dev 0x141 fun d => { d with pwr := { d.pwr with
      conflict := 0, ilim := 0, trips := 0, cntOvf := false } })) ∧
    (serves s.dev 0x235 →
      does .depClrShed s (written s.dev 0x235 fun d => { d with dep := { d.dep with
        coalesced := 0, diag := 0, txref := 0, hostq := 0, ovf := d.dep.ovf &&& ~~~0x00000F } }) ∧
      does .depClrErr s (written s.dev 0x235 fun d => { d with dep := { d.dep with
        err0 := 0, err1 := 0, ovf := d.dep.ovf &&& ~~~0x000030 } }))

/-- R125, R189, R221, R462, R529, R572 and R581: the settings ENG_MODECFG, CHN_RETRYCFG, CHN_STALECFG, SEN_CFG, DEP_CFG
and CANx_HCFG or CANx_CFG take a value within their ranges and relations into their writable bits; a value outside them,
and one that would change a bit locked in CLOSED and OUTPUT, is refused as a whole with ERR 4. The model's own readings:
when a setting takes effect (notes/assumptions/40.md); the retry relation (notes/assumptions/41.md). -/
def Obligations.SettingsWithinRange : Prop :=
  ∀ (s : State) (data : Word),
    (serves s.dev 0x081 →
      (modecfgOk data = true → s.dev.lockRefuses s.dev.eng.modecfg data 0x0000F0 = false →
        does (.engModecfgWrite data) s (written s.dev 0x081 fun d => { d with eng := { d.eng with
          modecfg := mergeBits d.eng.modecfg data 0x0000FF } })) ∧
      ((modecfgOk data = false ∨ s.dev.lockRefuses s.dev.eng.modecfg data 0x0000F0 = true) →
        does (.engModecfgWrite data) s (writeRefused s.dev 0x081 4))) ∧
    (serves s.dev 0x0A2 → ∀ c : Chn, c = { s.dev.chn with retrycfg := mergeBits s.dev.chn.retrycfg data 0xFFFF07 } →
      ((1 ≤ field data 16 8 ∧ field data 16 8 ≤ 100 ∧ c.retryOk = true) →
        does (.chnRetrycfgWrite false data) s (written s.dev 0x0A2 fun d => { d with chn := c })) ∧
      (¬(1 ≤ field data 16 8 ∧ field data 16 8 ≤ 100 ∧ c.retryOk = true) →
        does (.chnRetrycfgWrite false data) s (writeRefused s.dev 0x0A2 4))) ∧
    (serves s.dev 0x0A3 → ∀ c : Chn, c = { s.dev.chn with stalecfg := mergeBits s.dev.chn.stalecfg data 0x000FFF } →
      ((200 ≤ field data 0 12 ∧ field data 0 12 ≤ 2000 ∧ c.retryOk = true) →
        s.dev.lockRefuses s.dev.chn.stalecfg data 0x000FFF = false →
        does (.chnRetrycfgWrite true data) s (written s.dev 0x0A3 fun d => { d with chn := c })) ∧
      ((¬(200 ≤ field data 0 12 ∧ field data 0 12 ≤ 2000 ∧ c.retryOk = true) ∨
          s.dev.lockRefuses s.dev.chn.stalecfg data 0x000FFF = true) →
        does (.chnRetrycfgWrite true data) s (writeRefused s.dev 0x0A3 4))) ∧
    (serves s.dev 0x0C0 →
      (field data 0 2 ≤ 2 → s.dev.lockRefuses s.dev.sen.cfg data 0x0000FF = false →
        does (.senCfgWrite data) s (written s.dev 0x0C0 fun d => { d with sen := { d.sen with
          cfg := mergeBits d.sen.cfg data 0x0000FF } })) ∧
      ((¬ field data 0 2 ≤ 2 ∨ s.dev.lockRefuses s.dev.sen.cfg data 0x0000FF = true) →
        does (.senCfgWrite data) s (writeRefused s.dev 0x0C0 4))) ∧
    (serves s.dev 0x221 →
      (field data 0 2 ≤ 2 → s.dev.lockRefuses s.dev.dep.cfg data 0x00000F = false →
        does (.depCfgWrite data) s (written s.dev 0x221 fun d => { d with dep := { d.dep with
          cfg := mergeBits d.dep.cfg data 0x00010F } })) ∧
      ((¬ field data 0 2 ≤ 2 ∨ s.dev.lockRefuses s.dev.dep.cfg data 0x00000F = true) →
        does (.depCfgWrite data) s (writeRefused s.dev 0x221 4))) ∧
    (∀ ch : Ch, serves s.dev (canBase ch) →
      ∀ c : Can, c = { s.dev.can ch with cfg := mergeBits (s.dev.can ch).cfg data 0xFC000F } →
      (c.retryOk = true → s.dev.lockRefuses (s.dev.can ch).cfg data 0xFC000F = false →
        does (.canRetryConfigWrite ch false data) s (written s.dev (canBase ch) fun d => d.setCan ch c)) ∧
      ((c.retryOk = false ∨ s.dev.lockRefuses (s.dev.can ch).cfg data 0xFC000F = true) →
        does (.canRetryConfigWrite ch false data) s (writeRefused s.dev (canBase ch) 4))) ∧
    (∀ ch : Ch, serves s.dev (canBase ch + 0x1A) →
      ∀ c : Can, c = { s.dev.can ch with hcfg := mergeBits (s.dev.can ch).hcfg data 0x8003FF } →
      ((10 ≤ field data 0 10 ∧ field data 0 10 ≤ 500 ∧ c.retryOk = true) →
        does (.canRetryConfigWrite ch true data) s (written s.dev (canBase ch + 0x1A) fun d => d.setCan ch c)) ∧
      (¬(10 ≤ field data 0 10 ∧ field data 0 10 ≤ 500 ∧ c.retryOk = true) →
        does (.canRetryConfigWrite ch true data) s (writeRefused s.dev (canBase ch + 0x1A) 4)))

/-- R124, R292 to R295, R325, R402, R440 and R449: IP_DISABLE is set and never cleared; PWR_KNEW restarts the marked
contactors' baselines in OPEN and is refused elsewhere; EXT_REVOKED clears, while the pump's gates stay with their
source until the next PWM period boundary; a tag word is taken while there is no session and refused otherwise;
CANx_TXDAT takes payload group IDX and IDX moves on; a changed CANx_PUBCFG programs mailboxes 0 and 1 and drops the
waiting frames that it disables. The model's own readings: IDX wraps (notes/assumptions/39.md); mailboxes programmed on
a change (notes/assumptions/41.md); PWM period boundaries (notes/assumptions/40.md); frames disabled while they wait
(notes/assumptions/58.md). -/
def Obligations.DirectWrites : Prop :=
  ∀ (s : State) (data : Word),
    (serves s.dev 0x08C → does (.ipDisable data) s (written s.dev 0x08C fun d => { d with eng := { d.eng with
      ipcfg := d.eng.ipcfg ||| (data &&& 0x000001) } })) ∧
    (serves s.dev 0x15C →
      (s.dev.seq.drover = .openS → ∃ v, does (.pwrKnew data) s (written s.dev 0x15C fun d => { d with coil := v }) ∧
        ∀ k : K, v.get k = if bit data k.val then { s.dev.coil.get k with learned := 0, t0 := 0, b0 := 0 }
          else s.dev.coil.get k) ∧
      (s.dev.seq.drover ≠ .openS → does (.pwrKnew data) s (writeRefused s.dev 0x15C 4))) ∧
    (serves s.dev 0x120 →
      (s.dev.pwr.extRevoked = false → does .extRevokedClear s (written s.dev 0x120 id)) ∧
      (s.dev.pwr.extRevoked = true →
        does .extRevokedClear s (written s.dev 0x120 fun d => { d with pwr := { d.pwr with extRevoked := false } }))) ∧
    (∀ k : Fin 6, serves s.dev (0x18C + k.val) →
      (s.dev.tol.session = .none_ → does (.tolTagWrite k data) s (written s.dev (0x18C + k.val) fun d =>
        { d with tol := { d.tol with tagReg := upd d.tol.tagReg k (if k = 5 then data &&& 0xFF0000 else data) } })) ∧
      (s.dev.tol.session ≠ .none_ → does (.tolTagWrite k data) s (writeRefused s.dev (0x18C + k.val) 4))) ∧
    (∀ ch : Ch, serves s.dev (canBase ch + 0x0A) →
      ∃ c, does (.txdatWrite ch data) s (written s.dev (canBase ch + 0x0A) fun d => d.setCan ch c) ∧
        (∀ i : Fin 22, c.txdat.get i = if i.val = field (s.dev.can ch).txinfo 0 5 then data else (s.dev.can ch).txdat.get i) ∧
        field c.txinfo 0 5 = (field (s.dev.can ch).txinfo 0 5 + 1) % 32 ∧
        c = { s.dev.can ch with txdat := c.txdat, txinfo := c.txinfo }) ∧
    (∀ ch : Ch, serves s.dev (canBase ch + 0x1B) →
      (s.dev.lockRefuses (s.dev.can ch).pubcfg data 0x3F07FF = true →
        does (.pubcfgWrite ch data) s (writeRefused s.dev (canBase ch + 0x1B) 4)) ∧
      (s.dev.lockRefuses (s.dev.can ch).pubcfg data 0x3F07FF = false →
        mergeBits (s.dev.can ch).pubcfg data 0x3F07FF = (s.dev.can ch).pubcfg →
        does (.pubcfgWrite ch data) s (written s.dev (canBase ch + 0x1B) id)) ∧
      (s.dev.lockRefuses (s.dev.can ch).pubcfg data 0x3F07FF = false →
        mergeBits (s.dev.can ch).pubcfg data 0x3F07FF ≠ (s.dev.can ch).pubcfg → bit data 21 = true →
        ∃ c, does (.pubcfgWrite ch data) s (written s.dev (canBase ch + 0x1B) fun d => d.setCan ch c) ∧
          c.pubcfg = mergeBits (s.dev.can ch).pubcfg data 0x3F07FF ∧
          c.mbmask.get 0 = 0x8007FF ∧ c.mbmask.get 1 = 0x8007FF ∧
          (∀ i : Fin 16, i ≠ 0 → i ≠ 1 → c.mbid.get i = (s.dev.can ch).mbid.get i ∧
            c.mbmask.get i = (s.dev.can ch).mbmask.get i) ∧
          (∀ x ∈ c.prio, c.enabled x.kind = true ∧ x ∈ (s.dev.can ch).prio)))


/-! ### Contactors -/

/-- R320, R323, R326, R330, R332, R337, R338 and R347: what the timers of the coil channels do to their channel, and
that each changes nothing else: T_pull lowers the setpoint to I_hold, 50 ms after K1's confirmation K3 is released with
both switches off, the end of the retry window allows K3 commands again, 30 ms after the low side the high side turns
off, a feedback check takes the mean before its raise, T_coil_ol releases an open-loop channel, in HOLD
once it ends, and R_app
moves by an eighth towards D × VCOILS / I (in mΩ, the duty in 1/6000). The model's own readings: a channel in another
phase (notes/assumptions/1.md); T_coil_ol in HOLD (notes/assumptions/23.md); rounding (notes/assumptions/25.md). -/
def Obligations.CoilTimers : Prop :=
  ∀ (s : State) (k : K) (c : Coil), c = s.dev.coil.get k →
    (c.phase = .pullIn → does (.pullInEnd k) s (s.dev.setCoil k fun c => { c with
      phase := .hold, setpoint := s.dev.seq.iHold.get k, steady := 0 })) ∧
    (c.phase = .openLoop → does (.pullInEnd k) s (s.dev.setCoil k fun c => { c with setpoint := s.dev.seq.iHold.get k })) ∧
    (c.phase ≠ .pullIn → c.phase ≠ .openLoop → does (.pullInEnd k) s s.dev) ∧
    (s.dev.seq.drover = .precharge → s.dev.seq.phase = 5 → k = 2 → c.phase ≠ .released → c.phase ≠ .releasing →
      ∃ c', does .k3ReleaseDelay s (s.dev.stopChecks.setCoil 2 fun _ => c') ∧ c'.phase = .releasing ∧ c'.hi = false ∧
        c'.lo = false ∧ c'.duty = 0 ∧ c'.setpoint = 0 ∧ c'.confirmed = false ∧ c'.wasClosed = c.confirmed) ∧
    ((s.dev.seq.drover ≠ .precharge ∨ s.dev.seq.phase ≠ 5) → does .k3ReleaseDelay s s.dev) ∧
    does .prechargeRetryWindowEnd s { s.dev with seq := { s.dev.seq with
      aborts := if s.dev.seq.aborts.length < 3 then s.dev.seq.aborts else s.dev.seq.aborts.drop 1
      retryBlocked := false } } ∧
    (c.phase = .releasing → c.slow = true → c.hi = true → does (.releaseHighSideTimeout k) s (s.dev.setCoil k fun c =>
      { c with hi := false, breakDue := c.wasClosed })) ∧
    ((c.phase ≠ .releasing ∨ c.slow = false ∨ c.hi = false) → does (.releaseHighSideTimeout k) s s.dev) ∧
    ((c.phase = .hold ∨ c.phase = .openLoop) → s.dev.seq.drover ≠ .breaking →
      (∀ j : K, (s.dev.coil.get j).phase ≠ .releasing) →
      does (.feedbackCheck k) s (s.dev.setCoil k fun c => { c with raising := true, before := c.mean })) ∧
    ((c.phase ≠ .hold ∧ c.phase ≠ .openLoop ∨ s.dev.seq.drover = .breaking ∨
        ∃ j : K, (s.dev.coil.get j).phase = .releasing) → does (.feedbackCheck k) s s.dev) ∧
    (c.phase = .openLoop → s.dev.seq.drover ≠ .hold →
      ∃ c', does (.openLoopExpiry k) s (s.dev.setCoil k fun _ => c') ∧ c'.phase = .releasing ∧ c'.lo = false ∧
        c'.duty = 0 ∧ c'.setpoint = 0 ∧ c'.confirmed = false ∧ c'.wasClosed = c.confirmed ∧
        (c.lost = true ∨ c.frozen = true → c'.hi = false)) ∧
    (c.phase = .openLoop → s.dev.seq.drover = .hold →
      does (.openLoopExpiry k) s (s.dev.setCoil k fun c => { c with olDue := true })) ∧
    (c.phase ≠ .openLoop → does (.openLoopExpiry k) s s.dev) ∧
    (c.phase = .hold → c.lost = false → c.frozen = false → 100 ≤ c.steady → 0 < c.mean →
      does (.rappUpdate k) s (s.dev.setCoil k fun c => { c with
        rApp := c.rApp + ((c.duty : Rat) / 6000 * s.dev.pwr.vcoils / (c.mean : Rat) * 1000 - c.rApp) / 8 })) ∧
    (c.phase ≠ .hold ∨ c.lost = true ∨ c.frozen = true ∨ c.steady < 100 → does (.rappUpdate k) s s.dev)

/-- R219, R324, R326, R330 and R336, a sample away from the rail codes. In the signature phase the running maximum
rises, the dip starts below i_pk − ΔI, its lowest point is the seat, and a sample ΔI above that confirms the closing:
K_CLOSED is set and the closing time taken at the seat, and the close sequence goes on from K2 to K3, from an unjudged
K3 to K1, and from K1 to its last step; under the retry limit the K3 command ends the pre-charge with code 8. In a slow
release the first rise of R326 gives the mark and turns the high side off. The model's own readings: a channel in
another phase (notes/assumptions/1.md); the scale of the codes (notes/assumptions/70.md). -/
def Obligations.ArmatureSignature : Prop :=
  ∀ (s : State) (k : K) (code : BitVec 12) (ma : Int) (c : Coil), c = s.dev.coil.get k → ma = s.dev.coilCurrent k code →
    8 < code.toNat → code.toNat < 4087 →
    (∀ m, s.dev.man = some m → ma = quantise (((code.toNat : Int) - 2048 : Int) * (3300 / 4096) /
      ((5 * 2 ^ field s.dev.sen.csacfg (2 * k.val) 2 : Nat) * m.coilShunt.get k))) ∧
    (c.phase = .signature → c.dip = false → c.iPk < ma →
      ∃ c', does (.coilCurrentSample k code) s (s.dev.setCoil k fun _ => c') ∧ c'.iPk = ma ∧ c'.iPkAt = c.samples + 1 ∧
        c'.samples = c.samples + 1 ∧ c'.phase = .signature ∧ c'.dip = false ∧ c'.railRun = 0 ∧ c'.confirmed = c.confirmed) ∧
    (c.phase = .signature → c.dip = false → 50 * ma < 50 * c.iPk - max 1000 (s.dev.seq.iPull.get k : Int) →
      ∃ c' d', exec (.coilCurrentSample k code) s = .next { s with dev := d' } ∧ d'.coil = upd s.dev.coil k c' ∧
        c'.dip = true ∧ c'.iLow = ma ∧ c'.iLowAt = c.samples + 1 ∧ c'.phase = .signature ∧ c'.confirmed = c.confirmed ∧
        (k = 2 → s.dev.seq.drover = .precharge → s.dev.seq.phase = 2 →
          d' = { s.dev with coil := d'.coil, seq := { s.dev.seq with weldWindow := false, phase := 3 } }) ∧
        (k ≠ 2 → d' = s.dev.setCoil k fun _ => c')) ∧
    (c.phase = .signature → c.dip = true → ma < c.iLow →
      ∃ c', does (.coilCurrentSample k code) s (s.dev.setCoil k fun _ => c') ∧ c'.iLow = ma ∧
        c'.iLowAt = c.samples + 1 ∧ c'.phase = .signature ∧ c'.confirmed = c.confirmed) ∧
    (c.phase = .signature → c.dip = true → 50 * c.iLow + max 1000 (s.dev.seq.iPull.get k : Int) ≤ 50 * ma →
      s.dev.seq.drover = .precharge → k = 1 → s.dev.seq.phase = 1 → s.dev.seq.retryBlocked = true →
      ∃ d', exec (.coilCurrentSample k code) s = .next { s with dev := d' } ∧ d'.seq.drover = .openS ∧ d'.seq.abort = 8) ∧
    (c.phase = .signature → c.dip = true → 50 * c.iLow + max 1000 (s.dev.seq.iPull.get k : Int) ≤ 50 * ma →
      (s.dev.seq.drover = .precharge → k = 1 → s.dev.seq.phase = 1 → s.dev.seq.retryBlocked = false) →
      ∃ d', exec (.coilCurrentSample k code) s = .next { s with dev := d' } ∧ (d'.coil.get k).confirmed = true ∧
        (d'.coil.get k).phase = (if c.lost || c.frozen then .openLoop else .pullIn) ∧ (d'.coil.get k).iLowAt = c.iLowAt ∧ (d'.coil.get k).bouncing = true ∧
        (d'.coil.get k).tClose = clampNat 0x3FF (natOf (quantise ((c.iLowAt : Rat) / 2))) ∧
        (s.dev.seq.drover = .precharge →
          (k = 1 → s.dev.seq.phase = 1 →
            d'.seq.drover = .precharge ∧ d'.seq.phase = 2 ∧ d'.seq.v0 = s.dev.sen.vals.get 3 ∧
              d'.seq.k3Frames = 0 ∧ (d'.coil.get 2).phase = .signature) ∧
          (k = 2 → (s.dev.seq.phase = 2 ∨ s.dev.seq.phase = 3) → s.dev.seq.judged = false →
            d'.seq.drover = .precharge ∧ d'.seq.phase = 4 ∧ (d'.coil.get 0).phase = .signature) ∧
          (k = 0 → s.dev.seq.phase = 4 → d'.seq.drover = .precharge ∧ d'.seq.phase = 5))) ∧
    (c.phase = .releasing → c.slow = true → c.hi = true → c.relSamples ≠ 0 → c.relMin ≤ ma →
      20 * c.relMin + max 200 (s.dev.seq.iHold.get k : Int) ≤ 20 * ma →
      ∃ c', does (.coilCurrentSample k code) s (s.dev.setCoil k fun _ => c') ∧ c'.mark = some c.relMinAt ∧
        c'.hi = false ∧ c'.phase = .releasing ∧ c'.breakDue = c.wasClosed) ∧
    (c.phase = .releasing → c.slow = true → c.hi = true → ma < c.relMin →
      ∃ c', does (.coilCurrentSample k code) s (s.dev.setCoil k fun _ => c') ∧ c'.relMin = ma ∧
        c'.relMinAt = c.relSamples + 1 ∧ c'.hi = true ∧ c'.phase = .releasing)

/-- R16, R325, R328, R329, R331, R346 and R347. A pull-in unconfirmed after 80 ms is a weld, locked out with cause
0x06, where it showed no dip and the last release was unverified; else it aborts the pre-charge with code 7, and for K4
of an opening session releases K4 and refuses the session. At 40 ms a release is judged by the table of R328: open,
unverified without feedback or with both switches off; not confirmed, cause 0x07, at 50 mA or more; confirmed open with
a mark; welded, cause 0x06, without one. T_grace starts the openings with the first contactor that is energised, and
the feedback checks stop; in HOLD it starts nothing, and a pull-in that times out there is released when HOLD ends. The
end of the bounce window learns the closing. The model's own readings: K_CLOSED and wear (notes/assumptions/22.md);
learning, welds at the timeout (notes/assumptions/23.md). -/
def Obligations.VerdictsAndTimeouts : Prop :=
  ∀ (s : State) (k : K) (c : Coil), c = s.dev.coil.get k → s.dev.inRun = true → s.dev.seq.drover ≠ .lockout →
    (c.phase = .signature → c.unverified = true → c.dip = false →
      ∃ d', exec (.closingTimeout k) s = .next { s with dev := d' } ∧ lockedOut 38 0x06 d') ∧
    (c.phase = .signature → (c.unverified = false ∨ c.dip = true) → s.dev.seq.drover = .precharge →
      ∃ d', exec (.closingTimeout k) s = .next { s with dev := d' } ∧ d'.seq.drover = .openS ∧ d'.seq.abort = 7 ∧
        (∀ j : K, j ≠ 3 → (d'.coil.get j).phase = .released ∨ (d'.coil.get j).phase = .releasing)) ∧
    (c.phase = .signature → (c.unverified = false ∨ c.dip = true) → s.dev.seq.drover ≠ .precharge → k = 3 →
      s.dev.seq.drover ≠ .hold → s.dev.tol.session = .opening → s.dev.tol.resuming = false →
      ∃ d', exec (.closingTimeout k) s = .next { s with dev := d' } ∧ d'.tol.session = .none_ ∧
        (d'.coil.get 3).phase = .releasing ∧ d'.seq = s.dev.seq) ∧
    (c.phase = .signature → (c.unverified = false ∨ c.dip = true) → s.dev.seq.drover = .hold → k ≠ 3 →
      does (.closingTimeout k) s (s.dev.setCoil k fun c => { c with olDue := true })) ∧
    (c.phase ≠ .signature → does (.closingTimeout k) s s.dev) ∧
    (c.phase ≠ .releasing → does (.releaseVerdictTimeout k) s s.dev) ∧
    (c.phase = .releasing → c.lost = false → c.frozen = false → 50 ≤ c.mean.natAbs →
      ∃ d', exec (.releaseVerdictTimeout k) s = .next { s with dev := d' } ∧ lockedOut 38 0x07 d' ∧
        (d'.coil.get k).stuck = c.wasClosed) ∧
    (c.phase = .releasing → c.lost = false → c.frozen = false → c.mean.natAbs < 50 → c.mark = none → c.slow = true →
      c.wasClosed = true →
      ∃ d', exec (.releaseVerdictTimeout k) s = .next { s with dev := d' } ∧ lockedOut 38 0x06 d' ∧
        (d'.coil.get k).stuck = true) ∧
    (∀ t, c.phase = .releasing → c.lost = false → c.frozen = false → c.mean.natAbs < 50 → c.mark = some t →
      ∃ d', exec (.releaseVerdictTimeout k) s = .next { s with dev := d' } ∧ (d'.coil.get k).phase = .released ∧
        (d'.coil.get k).tRel = clampNat 0x3FF (natOf (quantise ((t : Rat) / 2))) ∧
        (c.wasClosed = true → (d'.coil.get k).unverified = false) ∧
        (c.wasClosed = true → (d'.lif.inc.k.get k).openings = satInc 0xFFFFFF (s.dev.lif.inc.k.get k).openings)) ∧
    (c.phase = .releasing → c.wasClosed = true →
      (c.lost = true ∨ c.frozen = true ∨ (c.mean.natAbs < 50 ∧ c.mark = none ∧ c.slow = false)) →
      ∃ d', exec (.releaseVerdictTimeout k) s = .next { s with dev := d' } ∧ (d'.coil.get k).phase = .released ∧
        (d'.coil.get k).unverified = true) ∧
    (s.dev.seq.grace = false → does .tGraceExpiry s s.dev) ∧
    (s.dev.seq.grace = true → s.dev.seq.drover = .hold → s.dev.seq.sessionEnding = true →
      does .tGraceExpiry s { s.dev with seq := { s.dev.seq with grace := false } }) ∧
    (s.dev.seq.grace = true → (s.dev.seq.drover = .breaking ∨
        (s.dev.seq.sessionEnding = true ∧ s.dev.seq.drover = .output)) →
      (s.dev.coil.get 3).phase ≠ .released → (s.dev.coil.get 3).phase ≠ .releasing →
      ∃ c', does .tGraceExpiry s { s.dev with
          seq := { s.dev.seq with
            grace := false, opening := true, toRelease := if s.dev.seq.drover = .breaking then [3, 0, 1] else [3] }
          coil := upd s.dev.stopChecks.coil 3 c' } ∧
        c'.phase = .releasing ∧ c'.lo = false ∧ c'.duty = 0 ∧ c'.setpoint = 0 ∧
        c'.wasClosed = (s.dev.coil.get 3).confirmed) ∧
    (s.dev.seq.grace = true → s.dev.seq.drover = .breaking → (s.dev.coil.get 3).phase = .released →
      (s.dev.coil.get 0).phase ≠ .released → (s.dev.coil.get 0).phase ≠ .releasing →
      ∃ d', exec .tGraceExpiry s = .next { s with dev := d' } ∧ (d'.coil.get 0).phase = .releasing ∧
        d'.coil.get 1 = s.dev.stopChecks.coil.get 1 ∧ d'.seq.toRelease = [0, 1] ∧ d'.seq.drover = .breaking ∧ d'.seq.grace = false) ∧
    (c.bouncing = false → does (.bounceWindowEnd k) s s.dev) ∧
    (c.bouncing = true → c.railOk = false →
      does (.bounceWindowEnd k) s (s.dev.setCoil k fun c => { c with bouncing := false, lastLearned := false })) ∧
    (c.bouncing = true → c.railOk = true →
      ∃ d', exec (.bounceWindowEnd k) s = .next { s with dev := d' } ∧
        (d'.coil.get k).tL = c.tL + ((c.iLowAt : Rat) / 2 - c.tL) / 16 ∧
        (d'.coil.get k).bL = c.bL + (((c.bLast - c.iLowAt : Nat) : Rat) / 2 - c.bL) / 16 ∧
        (d'.coil.get k).learned = satInc 0xFFFFFF c.learned ∧ (d'.coil.get k).lastLearned = true ∧
        (d'.coil.get k).bouncing = false ∧
        (c.learned < 16 → (d'.coil.get k).t0 = (c.t0 * c.learned + (c.iLowAt : Rat) / 2) / (c.learned + 1)) ∧
        (16 ≤ c.learned → (d'.coil.get k).t0 = c.t0 ∧ (d'.coil.get k).b0 = c.b0))

/-- R335 to R339 and R346. A live proof alternates between the sides; a node that moves (SHx below 2 V or DLx above
VCOILS − 2 V to the pulse's end) proves its switch, and one that does not is counted, recorded and raises fault 31. The
tenth sample in a row at a rail code makes the feedback lost: fault 30, and open loop from hold. A feedback check
passes with a rise of 2 % of I_hold; the third failure in a row makes the feedback frozen, and a frozen channel may be
lost too. The lost or frozen state ends in OPEN after a second near zero with passed diagnostics, and fault 30 with the
last channel's. The model's own readings: saturation (notes/assumptions/18.md); when a cause is absent
(notes/assumptions/24.md). -/
def Obligations.FeedbackAndProofs : Prop :=
  ∀ (s : State) (k : K) (c : Coil), c = s.dev.coil.get k →
    ((c.phase = .hold ∨ c.phase = .openLoop) → s.dev.seq.drover ≠ .breaking →
      (∀ j : K, (s.dev.coil.get j).phase ≠ .releasing) →
      ∀ n : ProofNode, ∀ moved : Prop,
        (moved ↔ if c.proofLow then s.dev.pwr.vcoils < n.lowest + 2000 else n.highest < 2000) →
      (moved → s.dev.pwr.proofBad &&& ~~~proofBit k c.proofLow ≠ 0 →
        does (.liveSwitchProof k n) s { s.dev with
          coil := upd s.dev.coil k { c with proofLow := !c.proofLow }
          pwr := { s.dev.pwr with proofBad := s.dev.pwr.proofBad &&& ~~~proofBit k c.proofLow } }) ∧
      (moved → s.dev.pwr.proofBad &&& ~~~proofBit k c.proofLow = 0 → s.dev.lim.active.getLsbD 31 = false →
        does (.liveSwitchProof k n) s { s.dev with
          coil := upd s.dev.coil k { c with proofLow := !c.proofLow }, pwr := { s.dev.pwr with proofBad := 0 } }) ∧
      (¬moved → ∃ d', exec (.liveSwitchProof k n) s = .next { s with dev := d' } ∧
        d'.lim.active.getLsbD 31 = true ∧ d'.pwr.proofBad = s.dev.pwr.proofBad ||| proofBit k c.proofLow ∧
        d'.pwr.proofFails = satInc 255 s.dev.pwr.proofFails ∧ d'.pwr.proofValid = true ∧
        d'.pwr.proofSide = c.proofLow ∧ d'.pwr.proofChannel = k.val)) ∧
    ((c.phase ≠ .hold ∧ c.phase ≠ .openLoop) → ∀ n, does (.liveSwitchProof k n) s s.dev) ∧
    (∀ code, (code.toNat ≤ 8 ∨ 4087 ≤ code.toNat) → c.phase = .hold → c.bouncing = false →
      c.lost = false → c.frozen = false →
      (c.railRun < 9 → ∃ c', does (.coilCurrentSample k code) s (s.dev.setCoil k fun _ => c') ∧
        c'.railRun = c.railRun + 1 ∧ c'.phase = .hold ∧ c'.lost = false) ∧
      (9 ≤ c.railRun → s.dev.faultBits.getLsbD 30 = false → s.dev.seq.drover ≠ .precharge →
        ∃ d', exec (.coilCurrentSample k code) s = .next { s with dev := d' } ∧ d'.lim.active.getLsbD 30 = true ∧
          (d'.coil.get k).lost = true ∧ (d'.coil.get k).phase = .openLoop ∧
          ((s.dev.seq.drover = .closed ∨ s.dev.seq.drover = .output) →
            d'.seq.drover = .breaking ∧ d'.limitsZero = true))) ∧
    (∀ code, (code.toNat ≤ 8 ∨ 4087 ≤ code.toNat) → c.phase = .openLoop → c.bouncing = false → c.frozen = true →
      c.lost = false → 9 ≤ c.railRun → ∃ c', does (.coilCurrentSample k code) s (s.dev.setCoil k fun _ => c') ∧
        c'.lost = true ∧ c'.frozen = true ∧ c'.phase = .openLoop) ∧
    (c.raising = false → does (.feedbackCheckEnd k) s s.dev) ∧
    (c.raising = true → c.phase ≠ .hold →
      does (.feedbackCheckEnd k) s (s.dev.setCoil k fun c => { c with raising := false })) ∧
    (c.raising = true → c.phase = .hold → c.lost = false → c.frozen = false →
      ((s.dev.seq.iHold.get k : Int) ≤ 50 * (c.mean - c.before) →
        does (.feedbackCheckEnd k) s (s.dev.setCoil k fun c => { c with raising := false, checkFails := 0 })) ∧
      (50 * (c.mean - c.before) < s.dev.seq.iHold.get k → c.checkFails < 2 →
        does (.feedbackCheckEnd k) s (s.dev.setCoil k fun c => { c with
          raising := false, checkFails := c.checkFails + 1 })) ∧
      (50 * (c.mean - c.before) < s.dev.seq.iHold.get k → 2 ≤ c.checkFails → s.dev.faultBits.getLsbD 30 = false →
        s.dev.seq.drover = .closed ∨ s.dev.seq.drover = .output →
        ∃ d', exec (.feedbackCheckEnd k) s = .next { s with dev := d' } ∧ d'.lim.active.getLsbD 30 = true ∧
          (d'.coil.get k).frozen = true ∧ (d'.coil.get k).phase = .openLoop ∧ d'.seq.drover = .breaking)) ∧
    (s.dev.seq.drover = .openS → (c.lost = true ∨ c.frozen = true) → c.phase = .released → 1000 ≤ c.quiet →
      s.dev.pwr.passedSince = true → ∀ v, v = modify s.dev.coil k (fun c => { c with
        lost := false, frozen := false, railRun := 0, lowRun := 0, checkFails := 0 }) →
      ((∃ j, (v.get j).lost = true ∨ (v.get j).frozen = true) → does (.feedbackRestored k) s { s.dev with coil := v }) ∧
      ((∀ j, (v.get j).lost = false ∧ (v.get j).frozen = false) → does (.feedbackRestored k) s { s.dev with
        coil := v, lim := { s.dev.lim with active := s.dev.lim.active &&& ~~~BitVec.ofNat 39 (2 ^ 30) } })) ∧
    (s.dev.seq.drover ≠ .openS ∨ s.dev.pwr.passedSince = false → does (.feedbackRestored k) s s.dev)


/-! ### Engine and inspection port -/

/-- R92, R93, R96, R97, R99, R104, R105, R107, R483 and R484, and the worked case of class C. The escort's and the
rearguard's codings decode to the value, and the escort's sum of coded terms is the coded sum, which the comparators
judge. While no frames run nothing changes. A frame executes every command that a register holds. With no command held,
no start due, the default modes and no disagreeing input, the frame is counted, nothing is withheld, and ENG_LOAD takes
the 550 µs of R93; a task whose passes agree leaves its words in the result holds and its context for the next entry;
one class C mismatch with an odd escort is resolved within 790 µs and counted, and the escort's context is that of the
majority in its own coding; a class S mismatch with an odd rearguard is outvoted and counted for that pass. The model's
own readings: held commands (notes/assumptions/7.md); the time of resynchronisations (notes/assumptions/13.md); what is
counted as resolved (notes/assumptions/14.md). -/
def Obligations.EngineFrame : Prop :=
  (∀ x : Word, escortDecode (escortCode x) = x ∧ rearguardDecode (rearguardCode x) = some x) ∧
  (∀ xs : List Word, escortSum (xs.map escortCode) = escortCode (BitVec.ofInt 24 (xs.map fun x => (x.toNat : Int)).sum)) ∧
  ∀ (s : State) (f : FrameInputs),
    (s.dev.framesRun = false → does (.engineFrame f) s s.dev) ∧
    (s.dev.framesRun = true → ∃ d', exec (.engineFrame f) s = .next { s with dev := d' } ∧
      ∀ r, (d'.cmds.get r).held = none) ∧
    (s.dev.framesRun = true → s.dev.inRun = true → s.dev.powerFailing = false → (∀ r, (s.dev.cmds.get r).held = none) →
      s.dev.eng.seamDone = true → s.dev.eng.cDone = true → s.dev.eng.modecfg = 0x000040 → s.dev.eng.sAct = triple →
      s.dev.eng.cAct = paired → s.dev.eng.eAct = paired → s.dev.eng.bAct = paired → s.dev.eng.degraded = false →
      s.dev.eng.rebuild = false → f.disagree = [] →
      ∃ d', exec (.engineFrame f) s = .next { s with dev := d' } ∧ d'.eng.frame = s.dev.eng.frame + 1 ∧
        d'.eng.sinceSeam = (s.dev.eng.sinceSeam + 1) % 100 ∧
        (∀ (a x v : Word) (vs : List Word) (t : Byte) (k : Cls), vs ≠ [] →
          v = BitVec.ofInt 24 (vs.map fun v => (v.toNat : Int)).sum → (f.results = [] ∨ f.results = [{
            cls := k, task := t, words := [{ lead := v, escort := vs.map escortCode, rearguard := rearguardCode v }],
            context := [{ addr := a, lead := x, escort := escortCode x, rearguard := rearguardCode x }] }]) →
          d'.eng.heldS = false ∧ d'.eng.heldB = false ∧
          d'.eng.reserveMin = min s.dev.eng.reserveMin 450 ∧ d'.eng.busyPeak = max s.dev.eng.busyPeak 550 ∧
          d'.eng.resolved = s.dev.eng.resolved ∧ d'.eng.withheld = s.dev.eng.withheld ∧
          d'.eng.oddLead = s.dev.eng.oddLead ∧ d'.eng.oddEscort = s.dev.eng.oddEscort ∧
          d'.eng.oddRear = s.dev.eng.oddRear ∧ d'.eng.lastcause = s.dev.eng.lastcause ∧
          (f.results ≠ [] → ((d'.eng.holds.get 0).get 0) = some v ∧ (d'.eng.ctxAt a.toNat).lead = some x ∧
            (d'.eng.ctxAt a.toNat).entry = rearguardCode x)) ∧
        (∀ (a x v e y : Word) (t : Byte), s.dev.eng.oddHist = [] → e ≠ escortCode v → f.results = [{
            cls := .c, task := t, words := [{ lead := v, escort := [e], rearguard := rearguardCode v }],
            context := [{ addr := a, lead := x, escort := y, rearguard := rearguardCode x }] }] →
          d'.eng.resolved = satInc 255 s.dev.eng.resolved ∧ d'.eng.oddEscort = satInc 255 s.dev.eng.oddEscort ∧
          d'.eng.withheld = s.dev.eng.withheld ∧ d'.eng.reserveMin = min s.dev.eng.reserveMin 210 ∧
          d'.eng.lastcause = word (place t.toNat 16 + place 1 14 + place 1 12 + place (passCode (some .escort)) 10) ∧
          (d'.eng.ctxAt a.toNat).escort = some (escortCode x)) ∧
        (∀ (v : Word) (q : BitVec 40) (t : Byte), s.dev.eng.oddHist = [] → q ≠ rearguardCode v → f.results = [{
            cls := .s, task := t, words := [{ lead := v, escort := [escortCode v], rearguard := q }] }] →
          d'.eng.oddRear = satInc 255 s.dev.eng.oddRear ∧ d'.eng.resolved = s.dev.eng.resolved ∧
          d'.eng.withheld = s.dev.eng.withheld ∧ d'.eng.reserveMin = min s.dev.eng.reserveMin 435))

/-- R92, R94, R102, R108, R110, R112, R125, R127, R131 and R133. The class C period and the seam start when they have
fallen due and once. A class C period takes the requested mode between Triple and Paired and notes whether its outputs
were withheld, and the limits that wait are published where they are not; a seam lets class E enter and leave Split
with an event, keeps a degraded engine out of it, and has a class that leaves it rebuild its contexts; the injection
test counts a pass when both comparators flag the inverted word, moves on to the next pass, after the last to the next
word and after the last word to the next bit, and leads to LOCKOUT with cause 0x01 when one misses. The model's own
readings: what a frame withholds (notes/assumptions/13.md); the order of word, bit and pass (notes/assumptions/72.md). -/
def Obligations.PeriodsAndInjection : Prop :=
  ∀ s : State, s.dev.framesRun = true → s.dev.inRun = true →
    (s.dev.eng.seamDone = true → s.dev.eng.cDone = true → does .classCPeriod s s.dev) ∧
    (∀ want, want = (if s.dev.splitBad then paired else BitVec.ofNat 2 (field s.dev.eng.modecfg 4 2)) →
      s.dev.eng.seamDone = true → s.dev.eng.cDone = false → s.dev.eng.cAct ≠ split → s.dev.eng.degraded = false →
      ∃ d', exec .classCPeriod s = .next { s with dev := d' } ∧
        d'.eng = { s.dev.eng with
          cAct := if want = split then s.dev.eng.cAct else want
          uncheckedC := s.dev.eng.uncheckedC && decide (s.dev.eng.sinceSeam = 0)
          heldC := s.dev.eng.nowC, nowC := false, cDone := true, publishDue := d'.eng.publishDue } ∧
        d'.eng.publishDue = (s.dev.eng.publishDue && s.dev.eng.nowC) ∧
        (s.dev.eng.nowC = true → d'.pwr = s.dev.pwr ∧ d'.can0 = s.dev.can0 ∧ d'.can1 = s.dev.can1)) ∧
    (s.dev.eng.seamDone = true → does .seam s s.dev) ∧
    (s.dev.eng.seamDone = false → ∃ d', exec .seam s = .next { s with dev := d' } ∧ d'.eng.seamDone = true ∧
      d'.eng.injDue = true ∧ d'.eng.heldE = s.dev.eng.nowE ∧ d'.eng.nowE = false ∧
      (s.dev.eng.degraded = true → d'.eng.eAct = paired) ∧
      (s.dev.eng.degraded = false → s.dev.eng.nowE = false → s.dev.eng.heldB = false →
        d'.eng.eAct = BitVec.ofNat 2 (field s.dev.eng.modecfg 2 2)) ∧
      (s.dev.eng.degraded = false → s.dev.eng.nowE = true → s.dev.eng.eAct ≠ split →
        field s.dev.eng.modecfg 2 2 = 2 → d'.eng.eAct = s.dev.eng.eAct) ∧
      (s.dev.eng.eAct ≠ d'.eng.eAct → (s.dev.eng.eAct = split ∨ d'.eng.eAct = split) → fired 12 d') ∧
      (d'.eng.eAct = split → d'.eng.uncheckedE = true) ∧ (s.dev.eng.eAct = split → d'.eng.uncheckedE = true) ∧
      (s.dev.eng.eAct = split → d'.eng.eAct ≠ split → d'.eng.rebuild = true)) ∧
    (∀ v : Word, s.dev.eng.injBit < 24 →
      (∀ p : Fin 3, (s.dev.eng.sHolds.get p).toList.getD s.dev.eng.injWord (some 0) = some v) →
      (s.dev.eng.degraded = false → ∀ last : Pass, last = (if s.dev.eng.sAct = triple then .rearguard else .escort) →
        (s.dev.eng.sAct ≠ triple → s.dev.eng.injPass ≠ .rearguard) →
        does (.injectionTest true true) s { s.dev with eng := { s.dev.eng with
          injPass := if s.dev.eng.injPass = last then .lead
            else match s.dev.eng.injPass with | .lead => .escort | _ => .rearguard
          injWord := if s.dev.eng.injPass = last then (s.dev.eng.injWord + 1) % 64 else s.dev.eng.injWord
          injBit := if s.dev.eng.injPass = last ∧ (s.dev.eng.injWord + 1) % 64 = 0 then (s.dev.eng.injBit + 1) % 24
            else s.dev.eng.injBit
          injDue := false, cmptest := s.dev.eng.cmptest + 1 } }) ∧
      (∀ a b, (a && b) = false → s.dev.seq.drover ≠ .lockout →
        ∃ d', exec (.injectionTest a b) s = .next { s with dev := d' } ∧ lockedOut 26 0x01 d' ∧
          d'.eng.cmptest = s.dev.eng.cmptest))

/-- R115 to R117, R121, R123 and R124: while the port does not answer, a transaction leaves no response and no effect;
a request of wrong CRC is answered with 0b100 and not executed; every response carries the CRC-8 over its ack and data;
an undefined opcode is refused; STATUS and REPLAY_STAT answer always; HALT is taken in Bench with the drover OPEN,
RESUME only while halted, and it applies the logged writes to the checker contexts; TRACE_CTL and TRACE_POP only in
Run, and an empty buffer refuses the pop. The model's own readings: trace words (notes/assumptions/15.md); the count of
µs after a halt (notes/assumptions/48.md). -/
def Obligations.InspectionTransactions : Prop :=
  ∀ (s : State) (crc : Byte) (addr data : Word) (f : FrameInputs) (op : BitVec 4),
    (s.dev.ipAnswers = false → ∀ c ∈ [Instr.ipStatus op crc, .halt crc, .ipResume crc, .ipStep crc f, .ipRead addr crc,
        .ipWrite addr data crc, .traceCtl data crc, .tracePop crc, .replayStat crc],
      does c s { s.dev with insp := { s.dev.insp with resp := none } }) ∧
    (s.dev.ipAnswers = true → ∀ c ∈ [(Instr.ipStatus op crc, op.toNat, (0 : Word), (0 : Word)), (.halt crc, 2, 0, 0),
        (.ipResume crc, 3, 0, 0), (.ipStep crc f, 4, 0, 0), (.ipRead addr crc, 5, addr, 0),
        (.ipWrite addr data crc, 6, addr, data), (.traceCtl data crc, 7, 0, data), (.tracePop crc, 8, 0, 0),
        (.replayStat crc, 9, 0, 0)],
      crc ≠ ipCrc c.2.1 c.2.2.1 c.2.2.2 → responds c.1 s s.dev 0b100 0) ∧
    (s.dev.ipAnswers = true →
      responds (.ipStatus 1 (ipCrc 1 0 0)) s s.dev 0b001 (word (flag s.dev.insp.halted 0 +
        flag (decide (s.dev.runState = .bench)) 1 + flag (decide (s.dev.seq.drover = .openS)) 2 +
        place s.dev.insp.replay.length 3 + flag s.dev.insp.traceOvf 9 + flag s.dev.insp.traceOn 10)) ∧
      ((op = 0 ∨ 10 ≤ op.toNat) → responds (.ipStatus op (ipCrc op.toNat 0 0)) s s.dev 0b011 0) ∧
      responds (.replayStat (ipCrc 9 0 0)) s s.dev 0b001 (word (place s.dev.insp.peak 8 + s.dev.insp.replay.length)) ∧
      (s.dev.inRun = true → s.dev.runState = .bench → s.dev.seq.drover = .openS →
        responds (.halt (ipCrc 2 0 0)) s { s.dev with insp := { s.dev.insp with haltReq := !s.dev.insp.halted } } 0b001 0) ∧
      ((s.dev.inRun = false ∨ s.dev.runState ≠ .bench ∨ s.dev.seq.drover ≠ .openS) →
        responds (.halt (ipCrc 2 0 0)) s s.dev 0b011 0) ∧
      (s.dev.insp.halted = true → s.dev.chn.waiting = [] → responds (.ipResume (ipCrc 3 0 0)) s
        { s.dev with
          insp := { s.dev.insp with halted := false, replay := [] }
          eng := { s.dev.eng with ctx := s.dev.insp.replay.foldl replayed s.dev.eng.ctx }
          chn := { s.dev.chn with phase := s.dev.free }, free := s.dev.free + 1 } 0b001 0) ∧
      (s.dev.insp.halted = true → ∃ d', exec (.ipResume (ipCrc 3 0 0)) s = .next { s with dev := d' } ∧
        d'.insp.halted = false ∧ d'.insp.replay = [] ∧ d'.insp.resp = some (0b001, 0, ipAnswerCrc 0b001 0)) ∧
      (s.dev.insp.halted = false → responds (.ipResume (ipCrc 3 0 0)) s s.dev 0b011 0) ∧
      (s.dev.insp.halted = false → responds (.ipStep (ipCrc 4 0 0) f) s s.dev 0b011 0) ∧
      (s.dev.inRun = true → responds (.traceCtl data (ipCrc 7 0 data)) s { s.dev with insp := { s.dev.insp with
        traceOn := bit data 0, traceCls := BitVec.ofNat 4 (field data 1 4) } } 0b001 0) ∧
      (∀ w ws, s.dev.inRun = true → s.dev.insp.trace = w :: ws →
        responds (.tracePop (ipCrc 8 0 0)) s { s.dev with insp := { s.dev.insp with trace := ws } } 0b001 w) ∧
      ((s.dev.inRun = false ∨ s.dev.insp.trace = []) → responds (.tracePop (ipCrc 8 0 0)) s s.dev 0b011 0) ∧
      (s.dev.inRun = false → responds (.traceCtl data (ipCrc 7 0 data)) s s.dev 0b011 0)) ∧
    (∀ (w : Word × Word) (cs : List CtxWord) (x : CtxWord), x = ctxIn cs w.1.toNat →
      ∀ y, y = ctxIn (replayed cs w) w.1.toNat → y.lead = x.lead ∧ y.escort = some (escortCode w.2) ∧
        y.rear = x.rear.map (fun _ => rearguardCode w.2) ∧ y.entry = rearguardCode w.2)

/-- R99, R118 to R122, R132 and R265: an accepted halt takes effect at the end of its frame, whatever the drover's
state, disarms the watchdog and zeroes the limits; a lead-context word is read at once while halted, else with WAIT
until the capture; a word of result hold bank 0 and a register read without side effects, a register of a stopped
domain and any other address are refused; a WRITE while halted is applied to the lead context and logged, the
thirty-third locks out with cause 0x05; STEP empties the log and runs the frame. The model's own readings: which words
are lead context, reads without a capture (notes/assumptions/15.md). -/
def Obligations.HaltReadAndWrite : Prop :=
  ∀ (s : State) (addr data : Word) (f : FrameInputs),
    (s.dev.framesRun = true → s.dev.insp.haltReq = true →
      ∃ d', exec .engineHalt s = .next { s with dev := d' } ∧
        d'.insp = { s.dev.insp with halted := true, haltReq := false } ∧ d'.sup.wdArmed = false ∧
        d'.limitsZero = true ∧ fired 13 d') ∧
    (s.dev.insp.haltReq = false ∨ s.dev.framesRun = false → does .engineHalt s s.dev) ∧
    (s.dev.ipAnswers = true → addr.toNat ≤ 0x15554 → if s.dev.leadAddr addr then
      ((s.dev.insp.halted = true → responds (.ipRead addr (ipCrc 5 addr 0)) s s.dev 0b001 (s.dev.leadValue addr)) ∧
      (s.dev.insp.halted = false → s.dev.insp.captured = none →
        responds (.ipRead addr (ipCrc 5 addr 0)) s { s.dev with insp := { s.dev.insp with asked := some addr } } 0b010 0) ∧
      (∀ v, s.dev.insp.halted = false → s.dev.insp.captured = some (addr, v) →
        responds (.ipRead addr (ipCrc 5 addr 0)) s { s.dev with insp := { s.dev.insp with captured := none } } 0b001 v))
      else responds (.ipRead addr (ipCrc 5 addr 0)) s s.dev 0b011 0) ∧
    (s.dev.framesRun = true → s.dev.insp.asked = some addr → does .leadViewCapture s { s.dev with insp := { s.dev.insp with
      captured := some (addr, s.dev.leadValue addr), asked := none } }) ∧
    ((s.dev.framesRun = false ∨ s.dev.insp.asked = none) → does .leadViewCapture s s.dev) ∧
    (∀ (i : Fin 64) v, s.dev.ipAnswers = true → (s.dev.eng.holds.get 0).get i = some v →
      ∀ a, a = BitVec.ofNat 24 (0x400000 + i.val) → responds (.ipRead a (ipCrc 5 a 0)) s s.dev 0b001 v) ∧
    (s.dev.ipAnswers = true → 0x800000 ≤ addr.toNat → addr.toNat ≤ 0x800FFF →
      (s.dev.runsFor (accessDomain (addr.toNat % 4096)) = true →
        responds (.ipRead addr (ipCrc 5 addr 0)) s s.dev 0b001 (s.dev.peek (addr.toNat % 4096))) ∧
      (s.dev.runsFor (accessDomain (addr.toNat % 4096)) = false →
        responds (.ipRead addr (ipCrc 5 addr 0)) s s.dev 0b011 0)) ∧
    (s.dev.ipAnswers = true → (0x800FFF < addr.toNat ∨ (0x40003F < addr.toNat ∧ addr.toNat < 0x800000) ∨
        (0x15554 < addr.toNat ∧ addr.toNat < 0x400000)) →
      responds (.ipRead addr (ipCrc 5 addr 0)) s s.dev 0b011 0) ∧
    (s.dev.ipAnswers = true →
      ((s.dev.insp.halted = false ∨ 0x15554 < addr.toNat) →
        responds (.ipWrite addr data (ipCrc 6 addr data)) s s.dev 0b011 0) ∧
      (s.dev.insp.halted = true → s.dev.insp.replay.length < 32 →
        ∃ d', exec (.ipWrite addr data (ipCrc 6 addr data)) s = .next { s with dev := d' } ∧ if s.dev.leadAddr addr then
          (d'.insp.replay = s.dev.insp.replay ++ [(addr, data)] ∧ d'.insp.resp = some (0b001, 0, ipAnswerCrc 0b001 0) ∧
          d'.insp.peak = max s.dev.insp.peak (s.dev.insp.replay.length + 1) ∧ d'.leadValue addr = data ∧ fired 13 d' ∧
          Keeps [.insp, .eng] s.dev d')
          else d' = { s.dev with insp := { s.dev.insp with resp := some (0b011, 0, ipAnswerCrc 0b011 0) } }) ∧
      (s.dev.insp.halted = true → 32 ≤ s.dev.insp.replay.length → s.dev.inRun = true → s.dev.seq.drover ≠ .lockout →
        ∃ d', exec (.ipWrite addr data (ipCrc 6 addr data)) s = .next { s with dev := d' } ∧
          d'.insp.replay = s.dev.insp.replay ∧ if s.dev.leadAddr addr then lockedOut 26 0x05 d'
          else d' = { s.dev with insp := { s.dev.insp with resp := some (0b011, 0, ipAnswerCrc 0b011 0) } })) ∧
    (s.dev.ipAnswers = true → s.dev.insp.halted = true →
      ∃ d', exec (.ipStep (ipCrc 4 0 0) f) s = .next { s with dev := d' } ∧ d'.insp.replay = [] ∧
        ((∀ r, (s.dev.cmds.get r).held = none) → d'.insp.halted = true ∧ d'.eng.frame = s.dev.eng.frame + 1 ∧
          d'.insp.resp = some (0b001, 0, ipAnswerCrc 0b001 0)))


/-! ### Chain -/

/-- R164, R166, R167, R171, R172, R174, R175, R178, R188, R193, R194 and R232. A request outside R167 does nothing. A
broadcast is sent from EVA with the next SEQ, on a broken ring from both ports, and takes no tag; the first frame of a
side after SLEEP follows a wake burst. A stopped EVO is started for it (notes/assumptions/11.md). A request to a stage
takes the lowest free tag and a SEQ that no other tag awaits, and waits where all 32 are in use; on a broken ring it
goes out from the side that reaches its stage, and waits while another is on that side. A failed attempt opens the
stage's episode and is sent again from the other port while the budget lasts, else the transaction is abandoned with
fault 13; a NOT_READY repeat uses no budget. While the chain serves nothing, none of the three does anything. The
model's own readings: SEQ after enumeration (notes/assumptions/33.md); requests, SEQ (notes/assumptions/48.md). -/
def Obligations.ChainTransactions : Prop :=
  ∀ (s : State) (req r : ChainRequest) (tag : Fin 32) (c : Chn), c = s.dev.chn →
    r = (if s.dev.est.burst = true ∧ req.cmd = 9 then
      { req with words := [word (c.stages.get (stageAt req.addr.toNat)).mask.toNat] } else req) →
    (s.dev.callChain.chainLive = false → does (.chainTransactionStart req) s s.dev) ∧
    (s.dev.chainLive = false → does (.chainAttemptFailed tag) s s.dev ∧ does (.notReadyRepeat tag) s s.dev) ∧
    (s.dev.sup.doms.evo = false → s.dev.mayStart = true → s.dev.chainWork = true → requestOk req = true →
      ∀ d0, d0 = { s.dev with sup := { s.dev.sup with doms := { s.dev.sup.doms with evo := true }, pllA := true } } →
        exec (.chainTransactionStart req) s = exec (.chainTransactionStart req) { s with dev := d0 }) ∧
    (requestOk req = false → does (.chainTransactionStart req) s s.dev) ∧
    (s.dev.chainLive = true → requestOk req = true → req.addr = 0 →
      (c.intact = true → does (.chainTransactionStart req) s { s.dev with chn := { c with
        sent := some (.eva, chainFrame 0 req.cmd.toNat c.seq req.words), seq := c.seq + 1, sleeping := 0
        wakeBurst := if c.sleeping.getLsbD 0 then 55 * s.dev.listedStages.length else 0 } }) ∧
      (c.intact = false → does (.chainTransactionStart req) s { s.dev with chn := { c with
        sent := some (.evb, chainFrame 0 req.cmd.toNat (c.seq + 1) req.words), seq := c.seq + 2, sleeping := 0
        wakeBurst := if c.sleeping.getLsbD 1 then 55 * s.dev.listedStages.length else 0 } })) ∧
    (s.dev.chainLive = true → requestOk req = true → req.addr ≠ 0 →
      (∀ n, n < 32 → (∀ x ∈ c.tags, x.tag ≠ n) → (∀ m, m < n → ∃ x ∈ c.tags, x.tag = m) → ∀ p, c.portFor req.addr.toNat = some p →
        ∃ d', exec (.chainTransactionStart req) s = .next { s with dev := d' } ∧ d'.chn.stages = c.stages ∧
          d'.chn.tagPeak = max c.tagPeak (c.tags.length + 1) ∧ d'.chn.waiting = c.waiting ∧
          ((c.intact = true ∨ ∀ x ∈ c.tags, x.port = p → x.unsent = true ∨ x.notReady = true) →
            ∀ q, q = d'.chn.seq - 1 → (c.tags.length ≤ 32 → c.awaits q = false) ∧ (c.awaits c.seq = false → q = c.seq) ∧
              d'.chn.tags = c.tags ++ [{ tag := n, req := r, seq := q, port := p }] ∧
              d'.chn.sent = some (p, chainFrame req.addr.toNat req.cmd.toNat q r.words)) ∧
          (c.intact = false → (∃ x ∈ c.tags, x.port = p ∧ x.unsent = false ∧ x.notReady = false) →
            d'.chn.tags = c.tags ++ [{ tag := n, req := req, seq := 0, port := p, unsent := true }] ∧
              d'.chn.sent = c.sent)) ∧
      ((∀ n, n < 32 → ∃ x ∈ c.tags, x.tag = n) → (c.portFor req.addr.toNat).isSome = true →
        does (.chainTransactionStart req) s { s.dev with chn := { c with waiting := c.waiting ++ [req] } }) ∧
      (c.portFor req.addr.toNat = none → does (.chainTransactionStart req) s s.dev)) ∧
    (∀ t, s.dev.chainLive = true → c.tagNo tag.val = some t → t.req = req → c.intact = true → (∀ x ∈ c.tags, x.unsent = false) →
      (t.fails < field c.retrycfg 0 3 →
        ∃ d', exec (.chainAttemptFailed tag) s = .next { s with dev := d' } ∧
          (∀ q, q = d'.chn.seq - 1 → d'.chn.tags = (c.tags.filter fun x => x.tag ≠ t.tag) ++
            [{ t with req := r, seq := q, port := otherPort t.port, fails := t.fails + 1, notReady := false }] ∧
          d'.chn.sent = some (otherPort t.port, chainFrame r.addr.toNat r.cmd.toNat q r.words)) ∧
          d'.chn.retries = satInc 4095 c.retries ∧ d'.chn.failed = c.failed ∧
          (d'.chn.stages.get (stageAt t.req.addr.toNat)).episode.isSome = true ∧ d'.lim = s.dev.lim) ∧
      (field c.retrycfg 0 3 ≤ t.fails → c.waiting = [] →
        ∃ d', exec (.chainAttemptFailed tag) s = .next { s with dev := d' } ∧
          d'.chn.tags = (c.tags.filter fun x => x.tag ≠ t.tag) ∧ d'.chn.failed = satInc 4095 c.failed ∧
          d'.chn.retries = c.retries ∧ d'.lim.active.getLsbD 13 = true ∧ fired 17 d') ∧
      (t.notReady = true → ∃ d', exec (.notReadyRepeat tag) s = .next { s with dev := d' } ∧ ∀ q, q = d'.chn.seq - 1 →
        d' = { s.dev with chn := { c with
          sent := some (t.port, chainFrame r.addr.toNat r.cmd.toNat q r.words), seq := q + 1, sleeping := 0
          wakeBurst := if c.sleeping.getLsbD (portBit t.port) then 55 * s.dev.listedStages.length else 0
          tags := (c.tags.filter fun x => x.tag ≠ t.tag) ++ [{ t with req := r, seq := q, notReady := false }] } }) ∧
      (t.notReady = false → does (.notReadyRepeat tag) s s.dev)) ∧
    (c.tagNo tag.val = none → does (.chainAttemptFailed tag) s s.dev ∧ does (.notReadyRepeat tag) s s.dev)

/-- R80 to R82, R168, R174, R175, R184, R185, R191 and R195 to R197. While chain traffic is stopped no frame is taken;
while PER is stopped a frame waits with its carried count, and the sixteenth sets the overrun flag. A frame that no tag
awaits is discarded and counted for its port; one of wrong CRC or length that answers a request is counted and a failed
attempt. A response that is accepted closes the stage's episode: NOT_READY waits for its repeat, NO_ENTRY is a lost
snap that is not read again, a certificate's part is assembled in the tag's slot and its next part goes out under the
same tag, a BALANCE response is recorded, and the second part of a snap enters the stage's cell voltages and ends its
staleness. The model's own readings: which frames are counted, NAKs (notes/assumptions/48.md). -/
def Obligations.ChainResponses : Prop :=
  ∀ (s : State) (p : Port) (f : ChainFrame) (c : Chn), c = s.dev.chn →
    (s.dev.chainLive = false → does (.chainResponse p f) s s.dev) ∧
    (s.dev.chainLive = true → s.dev.sup.doms.per = false →
      (c.doneCount.sent - c.doneCount.returned ≠ 15 → does (.chainResponse p f) s { s.dev with chn := { c with
        doneCount := { c.doneCount with sent := c.doneCount.sent + 1 }, heldFrames := c.heldFrames ++ [(p, f)] } }) ∧
      (c.doneCount.sent - c.doneCount.returned = 15 → does (.chainResponse p f) s { s.dev with chn := { c with
        doneCount := { c.doneCount with overrun := true } } })) ∧
    (s.dev.chainLive = true → s.dev.sup.doms.per = true →
      ((c.answered f).isNone = true → ∃ d', exec (.chainResponse p f) s = .next { s with dev := d' } ∧ Keeps [.chn] s.dev d' ∧
        d'.chn.crcA = (if p = .eva then satInc 4095 c.crcA else c.crcA) ∧
        d'.chn.crcB = (if p = .evb then satInc 4095 c.crcB else c.crcB) ∧
        d'.chn.tags = c.tags ∧ d'.chn.stages = c.stages) ∧
      (∀ t a, c.answered f = some t → a = stageAt t.req.addr.toNat → c.waiting = [] → c.intact = true →
        (∀ x ∈ c.tags, x.unsent = false) → ∃ d', exec (.chainResponse p f) s = .next { s with dev := d' } ∧
        (frameOk f = false → t.fails < field c.retrycfg 0 3 → t.req.cmd ≠ 9 →
            d'.chn.crcA = (if p = .eva then satInc 4095 c.crcA else c.crcA) ∧
            d'.chn.crcB = (if p = .evb then satInc 4095 c.crcB else c.crcB) ∧
            d'.chn.retries = satInc 4095 c.retries ∧ d'.chn.tags = (c.tags.filter fun x => x.tag ≠ t.tag) ++
              [{ t with seq := d'.chn.seq - 1, port := otherPort t.port, fails := t.fails + 1, notReady := false }]) ∧
        (frameOk f = true → field f.header 12 6 = 0x3F → (f.words.headD 0).toNat % 256 = 1 →
          (t.req.cmd = 7 ∨ t.req.cmd = 8 ∨ t.req.cmd = 0x0B) →
            d'.chn.tags = c.tags.map (fun x => if x.tag = t.tag then { x with notReady := true } else x) ∧
            (d'.chn.stages.get a).episode = none ∧ d'.chn.retries = c.retries ∧ d'.chn.sent = c.sent) ∧
        (frameOk f = true → field f.header 12 6 = 0x3F → (f.words.headD 0).toNat % 256 = 2 →
          (t.req.cmd = 7 ∨ t.req.cmd = 8) →
            d'.chn.snapLost = satInc 4095 c.snapLost ∧ d'.chn.tags = (c.tags.filter fun x => x.tag ≠ t.tag) ∧
            d'.chn.sent = c.sent ∧ fired 19 d') ∧
        (frameOk f = true → field f.header 12 6 ≠ 0x3F → t.req.cmd = 0x0C → t.req.words = [0] →
            d'.chn.tags = (c.tags.filter fun x => x.tag ≠ t.tag) ++ [{ t with
              req := { t.req with words := [1] }, fails := 0, seq := d'.chn.seq - 1 }] ∧
            d'.chn.slot t.tag = c.slot t.tag ++ f.words ∧
            d'.chn.sent = some (t.port, chainFrame t.req.addr.toNat 0x0C (d'.chn.seq - 1) [1])) ∧
        (frameOk f = true → field f.header 12 6 ≠ 0x3F → t.req.cmd = 9 →
            (d'.chn.stages.get a).mask = BitVec.ofNat 18 ((c.slot t.tag ++ f.words).headD 0).toNat ∧
            d'.chn.tags = (c.tags.filter fun x => x.tag ≠ t.tag)) ∧
        (∀ m wb, frameOk f = true → field f.header 12 6 ≠ 0x3F → t.req.cmd = 7 → c.slot t.tag = [] → s.dev.man = some m →
          (c.stages.get a).partB = some (f.words.headD 0, wb) → bit (wb.getD 12 0) 3 = false →
            (∀ i : Fin 18, (d'.est.cells.get ⟨18 * a.val + i.val, by omega⟩).v =
              ((((f.words.drop 1).take 14 ++ wb.take 4).map BitVec.toNat).getD i.val 0)) ∧
            (d'.chn.stages.get a).stale = false ∧ (d'.chn.stages.get a).newest = some (f.words.headD 0) ∧
            d'.chn.tags = (c.tags.filter fun x => x.tag ≠ t.tag))))

/-- R178 to R181, R187, R195, R196, R199, R232 and R527. SNAP is broadcast with its timestamp, on a broken ring from
both ports; a stage goes stale, but not in a frame in which a snap of it has been fully read: its bit is set, it is
counted, its retries end and the class C fault 12 is raised; a ring break sends LINK back and ECHOs, records its two
sides, keeps the stages that a side reaches and counts; a probe sends LINK back; one that finds the ring whole clears
the break, fault 14 and the record of its sides once no side awaits a response, and one that nothing answers changes
none of them; a balance refresh sends a present stage its mask, which a burst keeps. The model's own readings: a stage
that is not present (notes/assumptions/1.md); ring breaks counted (notes/assumptions/33.md); the timestamp
(notes/assumptions/48.md). -/
def Obligations.RingSnapAndStale : Prop :=
  ∀ (s : State) (c : Chn), c = s.dev.chn →
    (s.dev.inRun = true → s.dev.chainLive = true → s.dev.snapped = false →
      ∃ d', exec .snap s = .next { s with dev := d' } ∧ Keeps [.chn, .est] s.dev d' ∧
        d'.chn.snapTs = word (1000 * s.dev.eng.frame.toNat) + Config.freeWord c.phase ∧
        d'.chn.sent = (if c.intact then some (Port.eva, chainFrame 0 6 c.seq [d'.chn.snapTs])
          else some (.evb, chainFrame 0 6 (c.seq + 1) [d'.chn.snapTs])) ∧
        d'.chn.tags = c.tags ∧ d'.chn.stages = c.stages ∧ d'.snapped = true ∧
        (d'.est.snaps.head?.map fun x => x.ts) = some d'.chn.snapTs ∧
        d'.est.burstSnaps = if s.dev.est.burst then s.dev.est.burstSnaps + 1 else s.dev.est.burstSnaps) ∧
    ((s.dev.inRun = false ∨ s.dev.callChain.chainLive = false ∨ s.dev.snapped = true) → does .snap s s.dev) ∧
    (s.dev.inRun = true → s.dev.snapped = false → s.dev.sup.doms.evo = false → s.dev.mayStart = true →
      s.dev.chainWork = true →
      ∀ d0, d0 = { s.dev with sup := { s.dev.sup with doms := { s.dev.sup.doms with evo := true }, pllA := true } } →
        exec .snap s = exec .snap { s with dev := d0 }) ∧
    (∀ a : Fin 32, ((s.dev.inRun = false ∨ a ∉ s.dev.listedStages ∨ (c.stages.get a).stale = true ∨
          (c.stages.get a).readFrame = some s.dev.eng.frame ∨ ∃ x ∈ c.heldSnaps, x.stage = a) →
        does (.stageStale a) s s.dev) ∧
      (s.dev.inRun = true → a ∈ s.dev.listedStages → (c.stages.get a).stale = false →
        (c.stages.get a).readFrame ≠ some s.dev.eng.frame → (∀ x ∈ c.heldSnaps, x.stage ≠ a) → c.waiting = [] →
        ∃ d', exec (.stageStale a) s = .next { s with dev := d' } ∧ (d'.chn.stages.get a).stale = true ∧
          d'.chn.staleEv = satInc 4095 c.staleEv ∧ d'.lim.active.getLsbD 12 = true ∧
          (∀ t ∈ d'.chn.tags, stageAt t.req.addr.toNat = a → t.fails = 0) ∧
          (s.dev.faultBits.getLsbD 12 = false → (s.dev.seq.drover = .closed ∨ s.dev.seq.drover = .output) →
            d'.seq.drover = .breaking))) ∧
    (∀ x y : BitVec 6, ((s.dev.chainLive = false ∨ c.intact = false) → does (.ringBreak x y) s s.dev) ∧
      (s.dev.chainLive = true → c.intact = true → s.dev.sup.doms.per = false →
        c.ringCount.sent - c.ringCount.returned ≠ 15 → does (.ringBreak x y) s { s.dev with chn := { c with
          ringCount := { c.ringCount with sent := c.ringCount.sent + 1 }, heldBreaks := c.heldBreaks ++ [(x, y)] } }) ∧
      (s.dev.chainLive = true → c.intact = true → s.dev.sup.doms.per = true → x.toNat ≤ 32 → y.toNat ≤ 32 →
        ∃ d', exec (.ringBreak x y) s = .next { s with dev := d' } ∧ d'.chn.intact = false ∧
          d'.chn.lastA = x.toNat ∧ d'.chn.firstB = y.toNat ∧ fired 14 d' ∧
          d'.lif.device.get 18 = satInc 0xFFFFFF (s.dev.lif.device.get 18) ∧
          ∀ a : Fin 32, (d'.chn.stages.get a).present = ((c.stages.get a).id.isSome &&
            (decide (a.val + 1 ≤ x.toNat) || (decide (y.toNat ≠ 0) && decide (y.toNat ≤ a.val + 1)))))) ∧
    (∀ r : ProbeResult, ((s.dev.callChain.chainLive = false ∨ (c.intact = true ∧ s.dev.chainLive = true)) → does (.ringProbe r) s s.dev) ∧
      (s.dev.chainLive = true → c.intact = false → r.identities = [] →
        ∃ d', exec (.ringProbe r) s = .next { s with dev := d' } ∧
        (r.rejoined = true → c.unicastFree .eva = true → c.unicastFree .evb = true →
          d'.chn.intact = true ∧ d'.chn.lastA = 0 ∧
          d'.chn.firstB = 0 ∧ fired 15 d' ∧ d'.lim.active.getLsbD 14 = false) ∧
        (r.rejoined = true → (c.unicastFree .eva = false ∨ c.unicastFree .evb = false) → d'.chn.intact = false ∧
          d'.chn.lastA = c.lastA ∧ d'.chn.firstB = c.firstB) ∧
        (r.rejoined = false → r.nextA = none → r.nextB = none → d'.chn.intact = false ∧ d'.chn.lastA = c.lastA ∧
          d'.chn.firstB = c.firstB))) ∧
    (∀ (masks : Vector (BitVec 18) 32) (a : Fin 32),
      ((s.dev.inRun = false ∨ s.dev.chainWork = false) → does (.balanceRefresh masks) s s.dev) ∧
      (s.dev.inRun = true → s.dev.chainLive = true → c.intact = true → c.tags = [] →
        (∀ b : Fin 32, (c.stages.get b).present = decide (b = a)) →
        ∃ d', exec (.balanceRefresh masks) s = .next { s with dev := d' } ∧ d'.chn.sent = some (.eva, chainFrame (a.val + 1) 9 c.seq
          [word (if s.dev.est.burst then (c.stages.get a).mask else masks.get a).toNat])))


/-! ### Estimation and authentication -/

/-- R185, R186, R247 to R249 and R258. The cached key serves while the history holds its certificate's digest, and
else, or where the signature does not hold with it, the certificate that is read. A stage whose certificate names it
and its cells, is signed by its maker and verifies the answer to the challenge is authenticated; a bad signature, a
certificate of another module, a wrong cell count, a missing answer and a duplicate each clear its bit, record their
reason, and raise fault 16 in a closed state. AUTH_PERIODIC, of a stage that has failed too, and AUTH_NOW challenge
with AUTH_CHALLENGE and a nonce, and a stage stays authenticated meanwhile. The model's own readings: AUTH_NOW
(notes/assumptions/44.md); the cached key (notes/assumptions/48.md); signatures (notes/assumptions/67.md). -/
def Obligations.Authentication : Prop :=
  ∀ (s : State) (a : Fin 32) (r : AuthReply) (tok : Byte) (st : Stage), st = s.dev.chn.stages.get a →
    ((s.dev.chainLive = false ∨ st.present = false) → does (.authentication a r) s s.dev) ∧
    (s.dev.chainLive = true → st.present = true → s.dev.duplicates a = [] → ∀ n x sig m,
      st.challenge = some n → st.id = some x → (st.reply r).sig = some sig → s.dev.man = some m → ∀ cert,
      cert = (if s.dev.keyCached a = true ∧ s.dev.certFinding a n sig st.cert ≠ some .signature then st.cert
        else (st.reply r).cert) →
      (ofBe (slice 0 8 cert) ≠ x.id.toNat →
        ∃ d', exec (.authentication a r) s = .next { s with dev := d' } ∧ (d'.chn.stages.get a).auth = false ∧
          d'.est.authReason = 2 ∧ d'.est.authStage = a.val + 1 ∧ d'.est.authFails = satInc 255 s.dev.est.authFails ∧
          fired 29 d') ∧
      (ofBe (slice 0 8 cert) = x.id.toNat → (cert.getD 8 0 ≠ x.cells ∨ x.cells.toNat ≠ m.cellCounts.getD a.val 0) →
        ∃ d', exec (.authentication a r) s = .next { s with dev := d' } ∧ (d'.chn.stages.get a).auth = false ∧
          d'.est.authReason = 4 ∧ d'.est.authStage = a.val + 1) ∧
      (∀ maker key, (m.makerKeys.find? fun k => k.1.toNat = ofBe (slice 9 3 cert)) = some (maker, key) →
        ofBe (slice 0 8 cert) = x.id.toNat → cert.getD 8 0 = x.cells → x.cells.toNat = m.cellCounts.getD a.val 0 →
        ∀ good, good = ecdsaVerify key (sha256 (cert.take 76)) (slice 76 64 cert) → ∀ proof,
        proof = ecdsaVerify (slice 12 64 cert) (sha256 (nonceBytes n ++ be 8 x.id.toNat ++ [x.cells])) sig →
        ∃ d', exec (.authentication a r) s = .next { s with dev := d' } ∧
          (d'.chn.stages.get a).auth = (good && proof) ∧ (d'.chn.stages.get a).challenge = none ∧
          (good = true ∧ proof = true → (d'.chn.stages.get a).lastAuth = s.dev.sup.rtc ∧
            (d'.chn.stages.get a).cert = cert ∧ d'.est.authFails = s.dev.est.authFails) ∧
          (good = false → d'.est.authReason = 2) ∧ (good = true ∧ proof = false → d'.est.authReason = 3) ∧
          (good = false ∨ proof = false → d'.est.authFails = satInc 255 s.dev.est.authFails ∧
            (s.dev.inClosedState = true → d'.lim.active.getLsbD 16 = true)))) ∧
    (s.dev.chainLive = true → st.present = true → s.dev.duplicates a ≠ [] →
      ∃ d', exec (.authentication a r) s = .next { s with dev := d' } ∧ d'.est.authReason = 5 ∧
        ∀ b ∈ a :: s.dev.duplicates a, (d'.chn.stages.get b).auth = false) ∧
    ((st.challenge.isSome = false ∨ st.sigRead.isSome = true) → does (.authTimeout a) s s.dev) ∧
    (st.challenge.isSome = true → st.sigRead.isSome = false →
      ∃ d', exec (.authTimeout a) s = .next { s with dev := d' } ∧ (d'.chn.stages.get a).auth = false ∧
        (d'.chn.stages.get a).challenge = none ∧ d'.est.authReason = 1 ∧ d'.est.authStage = a.val + 1 ∧ fired 29 d') ∧
    ((s.dev.chainWork = false ∨ st.present = false) → does (.authPeriodic a) s s.dev) ∧
    (s.dev.chainLive = true → st.present = true →
      ∃ d', exec (.authPeriodic a) s = .next { s with dev := d' } ∧ (d'.chn.stages.get a).challenge = some s.dev.free ∧
        (d'.chn.stages.get a).auth = st.auth ∧ (∀ b, b ≠ a → d'.chn.stages.get b = s.dev.chn.stages.get b) ∧
        (s.dev.chn.intact = true → s.dev.chn.tags = [] →
          d'.chn.sent = some (.eva, chainFrame (a.val + 1) 0x0A s.dev.chn.seq (nonceWords s.dev.free)))) ∧
    (takes s.dev .est tok →
      ∃ d', exec (.authNow tok) s = .next { s with dev := d' } ∧
        d'.cmds.est = { kept := some tok, held := none, result := word (place tok.toNat 16 + 0x01) } ∧
        ∀ b, (d'.chn.stages.get b).auth = (s.dev.chn.stages.get b).auth ∧
          ((s.dev.chn.stages.get b).present = true → (d'.chn.stages.get b).challenge.isSome = true))

/-- R48, R108, R120, R229, R232 to R236, R238, R240 to R243 and R250. A rest of T_rest fuses the OCV reading of each
listed cell of valid temperature once, of an inserted module not before its first snap; a burst's end starts the fits
and serves the request of its deliberate step; fits finish with their event, none is made without a pre-step snap, one
whose stage has read less than 80 % of the burst snaps is rejected, and an accepted one blends Rs, outside a flat
current not Rp and τp, and raises the confidence; 12 h without a fit lower a listed cell's confidence by 1; a missed
request is counted and withdrawn; STEP_NOW requests a step under the conditions of R241 but its timing, else is
refused. A halt, a power-fail warning and withheld outputs of class E stop its work. The model's own readings: STEP_NOW
(notes/assumptions/44.md); estimate updates (notes/assumptions/45.md). -/
def Obligations.StepsAndRest : Prop :=
  ∀ (s : State) (tok : Byte) (p : Fin 576) (c : Cell), c = s.dev.est.cells.get p →
    ((s.dev.inRun = false ∨ s.dev.isQuiet = false ∨ s.dev.est.fused = true ∨ s.dev.insp.halted = true ∨
      s.dev.powerFailing = true ∨ s.dev.eng.nowE = true) → does .restFusion s s.dev) ∧
    (∀ m, s.dev.man = some m →
      (s.dev.est.quiet < 1000 * m.tRest → does .restFusion s s.dev) ∧
      (s.dev.inRun = true → s.dev.isQuiet = true → 1000 * m.tRest ≤ s.dev.est.quiet → s.dev.est.fused = false →
        s.dev.insp.halted = false → s.dev.powerFailing = false → s.dev.eng.nowE = false →
        ∃ d', exec .restFusion s = .next { s with dev := d' } ∧ d'.est.fused = true ∧ d'.est.coulomb = s.dev.est.coulomb ∧
          (p ∈ s.dev.listedCells → c.t ≠ none → c.inserted = false →
            (d'.est.cells.get p).soc = c.soc + c.var / (c.var + 9 / 10000) *
              (m.ocvInverse ((c.v : Rat) / 1000000) (c.celsius m) - c.soc) ∧
            (d'.est.cells.get p).var = (1 - c.var / (c.var + 9 / 10000)) * c.var) ∧
          ((p ∉ s.dev.listedCells ∨ c.t = none ∨ c.inserted = true) → d'.est.cells.get p = c))) ∧
    (s.dev.est.burst = false ∨ s.dev.insp.halted = true → does .burstEnd s s.dev) ∧
    (s.dev.est.burst = true → s.dev.insp.halted = false → ∃ d', exec .burstEnd s = .next { s with dev := d' } ∧ d'.est.burst = false ∧
      d'.est.fitting = true ∧ d'.est.stepReq = (s.dev.est.stepReq && !s.dev.est.delib) ∧
      d'.est.missed = s.dev.est.missed ∧ d'.est.cells = s.dev.est.cells) ∧
    ((s.dev.est.fitting = false ∨ s.dev.insp.halted = true ∨ s.dev.powerFailing = true ∨ s.dev.eng.nowE = true) →
      does .stepFitted s s.dev) ∧
    (s.dev.est.fitting = true → s.dev.insp.halted = false → s.dev.powerFailing = false → s.dev.eng.nowE = false → s.dev.est.preTs = none →
      endsFiring .stepFitted s 28 { s.dev with est := { s.dev.est with fitting := false } }) ∧
    (∀ m vPre iPre v1 bal i1, s.dev.man = some m → c.pre = some (vPre, iPre) → c.first = some (v1, bal) →
      s.dev.est.i1 = some i1 → s.dev.est.fitting = true → s.dev.insp.halted = false → s.dev.powerFailing = false →
      s.dev.eng.nowE = false → s.dev.est.preTs ≠ none → p ∈ s.dev.listedCells → ∀ n, n = (s.dev.chn.stages.get (stageOf p)).burstRead →
      ∃ d', exec .stepFitted s = .next { s with dev := d' } ∧ fired 28 d' ∧ d'.est.fitting = false ∧
        (100 * n < 80 * s.dev.est.burstSnaps → d'.est.cells.get p = c) ∧
        (∀ step, step = (i1 : Rat) / 1000 - bal - iPre → ∀ rs, rs = (vPre - v1) / step →
          ∀ f, f = burstFit c.points (s.dev.est.firstTs.getD 0) step →
          80 * s.dev.est.burstSnaps ≤ 100 * n → c.t ≠ none → c.fitFault = false → 0 < rs → c.conf < 128 →
          (s.dev.est.flat = true → f.square ≤ 1 / 1000000 ∧ 0 < f.rp) →
          ∀ w, w = max (1 / 8) (1 - (c.conf : Rat) / 256) →
          (d'.est.cells.get p).rs = c.rs + w * (rs / m.factorAt (c.celsius m) - c.rs) ∧
          (d'.est.cells.get p).rp = (if s.dev.est.flat = true ∧ 2 / 100 < f.taup ∧ f.taup < 2 then
            c.rp + w * (f.rp / m.factorAt (c.celsius m) - c.rp) else c.rp) ∧
          (d'.est.cells.get p).conf = c.conf + (255 - c.conf) / (if m.capacity / 4 ≤ absRat step then 4 else 8) ∧
          (d'.est.cells.get p).sinceFit = 0 ∧
          ((∀ q ∈ s.dev.listedCells, q ≠ p → (s.dev.est.cells.get q).pre = none) →
            d'.est.accepted = satInc 4095 s.dev.est.accepted ∧ d'.est.rejected = s.dev.est.rejected ∧
            ∀ q, q ≠ p → d'.est.cells.get q = s.dev.est.cells.get q))) ∧
    ((s.dev.insp.halted = true ∨ s.dev.powerFailing = true ∨ p ∉ s.dev.listedCells) →
      does (.confidenceDecay p) s s.dev) ∧
    (s.dev.insp.halted = false → s.dev.powerFailing = false → p ∈ s.dev.listedCells → does (.confidenceDecay p) s { s.dev with est := { s.dev.est with
      cells := upd s.dev.est.cells p { c with conf := c.conf - 1, sinceFit := c.sinceFit + 1 } } }) ∧
    (s.dev.est.stepReq = true → (s.dev.est.burst && s.dev.est.delib) = false → s.dev.insp.halted = false →
      ∃ d', exec .stepRequestMissed s = .next { s with dev := d' } ∧ d'.est.stepReq = false ∧
        d'.est.missed = satInc 4095 s.dev.est.missed) ∧
    ((s.dev.est.stepReq = false ∨ (s.dev.est.burst && s.dev.est.delib) = true ∨ s.dev.insp.halted = true) →
      does .stepRequestMissed s s.dev) ∧
    (takes s.dev .est tok → s.dev.stepReady = true → s.dev.stepLargeEnough = true →
      ∃ d', exec (.stepNow tok) s = .next { s with dev := d' } ∧ d'.est.stepReq = true ∧
        d'.est.requested = satInc 4095 s.dev.est.requested ∧ d'.est.stepAmp = s.dev.stepAmplitude ∧
        d'.cmds.est = { kept := some tok, held := none, result := word (place tok.toNat 16) }) ∧
    (takes s.dev .est tok → (s.dev.stepReady = false ∨ s.dev.stepLargeEnough = false) →
      endsIn (.stepNow tok) s (commanded s.dev .est tok 0x02 0x12 id))


/-! ### Sensing and limits -/

/-- R74, R76, R205, R207, R208, R211, R221, R224, R376 to R378 and R381. Without MCLK nothing comes; a set goes into
the hold register, and one that comes while the set before it has not been acknowledged is dropped, counted and
reported; at its boundary a changed SEN_CFG takes effect and settling starts; a set for a stopped peripheral domain is
held, and during settling a set only adds unmeasured time to a session. Otherwise each usable input adds its
engineering value to its frame, an unusable one holds, and with both toll inputs the connector's energy of the set goes
into the accumulators and their residues without loss. The model's own readings: rounding (notes/assumptions/25.md);
held values (notes/assumptions/52.md). -/
def Obligations.SampleSets : Prop :=
  ∀ (s : State) (density : Vector Rat 6) (un : Bool) (codes : Vector (BitVec 24) 6), codes = density.map filterCode →
    ((s.dev.alive = false ∨ s.dev.sup.doms.mod = false) → does (.sampleSet density un) s s.dev) ∧
    (∀ n : Fin 6, ∀ x, x = (2 * density.get n - 1) * 2 ^ 23 → (-2 ^ 23 ≤ x → x ≤ 2 ^ 23 - 1 →
        x - 1 / 2 ≤ (codes.get n).toInt ∧ (codes.get n).toInt ≤ x + 1 / 2) ∧
      (2 ^ 23 - 1 < x → (codes.get n).toInt = 2 ^ 23 - 1) ∧ (x < -2 ^ 23 → (codes.get n).toInt = -2 ^ 23)) ∧
    (s.dev.alive = true → s.dev.sup.doms.mod = true →
      ∃ d', exec (.sampleSet density un) s = .next { s with dev := d' } ∧ d'.sen.inForce = s.dev.sen.cfg ∧
      d'.sen.settling = (s.dev.sen.settling || decide (s.dev.sen.inForce ≠ s.dev.sen.cfg)) ∧
      d'.sen.vals = s.dev.sen.vals ∧ d'.sen.iPack = s.dev.sen.iPack ∧
      ((un = true ∨ s.dev.sen.held.isSome = true) → d'.sen.ovr = satInc 4095 s.dev.sen.ovr ∧ d'.sen.dropped = true ∧
        fired 25 d' ∧ d'.sen.sums = s.dev.sen.sums ∧ d'.sen.held = s.dev.sen.held ∧ d'.tol = s.dev.tol) ∧
      (un = false → s.dev.sen.held = none → d'.sen.ovr = s.dev.sen.ovr ∧
        (s.dev.sup.doms.per = false →
          d'.sen.held = some codes ∧ d'.sen.sums = s.dev.sen.sums ∧ d'.tol = s.dev.tol) ∧
        (s.dev.sup.doms.per = true → s.dev.sen.settling = true → d'.sen.sums = s.dev.sen.sums ∧ d'.sen.held = none ∧
          d'.tol = { s.dev.tol with
            unmeasured := if s.dev.tol.hasSession then s.dev.tol.unmeasured + 5000000 * s.dev.osr / s.dev.mclk
              else s.dev.tol.unmeasured }) ∧
        (s.dev.sup.doms.per = true → s.dev.sen.settling = false → d'.sen.held = none ∧
          (∀ n : Fin 6, s.dev.mdatValid n.val = true →
            d'.sen.sums.get n = s.dev.sen.sums.get n + sat24 (roundAway
              ((((codes.get n).toInt - (s.dev.coefficients n).2.toInt) * (s.dev.coefficients n).1.toInt : Int) / (2 ^ 22 : Rat))) ∧
            d'.sen.sets.get n = s.dev.sen.sets.get n + 1) ∧
          (∀ n : Fin 6, s.dev.mdatValid n.val = false → d'.sen.sums.get n = s.dev.sen.sums.get n ∧
            d'.sen.sets.get n = s.dev.sen.sets.get n ∧ d'.sen.last.get n = s.dev.sen.last.get n) ∧
          (s.dev.mdatValid 4 = true → s.dev.mdatValid 5 = true → ∀ k p, k = 1000 * s.dev.mclk / s.dev.osr →
            p = s.dev.connectorPower (s.dev.engineering 4 (codes.get 4)) (s.dev.engineering 5 (codes.get 5)) →
            d'.tol.exp * k + d'.tol.resExp = s.dev.tol.exp * k + s.dev.tol.resExp + (if 0 < p then p.natAbs else 0) ∧
            d'.tol.imp * k + d'.tol.resImp = s.dev.tol.imp * k + s.dev.tol.resImp + (if p < 0 then p.natAbs else 0) ∧
            d'.tol.resExp < k ∧ d'.tol.resImp < k ∧
            (s.dev.tol.following = true → d'.tol.sexp + s.dev.tol.exp = s.dev.tol.sexp + d'.tol.exp) ∧
            (s.dev.tol.following = false → d'.tol.sexp = s.dev.tol.sexp ∧ d'.tol.simp = s.dev.tol.simp)) ∧
          ((s.dev.mdatValid 4 = false ∨ s.dev.mdatValid 5 = false) →
            d'.tol.exp = s.dev.tol.exp ∧ d'.tol.imp = s.dev.tol.imp ∧
            d'.tol.unmeasured = if s.dev.tol.hasSession then s.dev.tol.unmeasured + 5000000 * s.dev.osr / s.dev.mclk
              else s.dev.tol.unmeasured))))

/-- R209, R210, R214, R216, R221 and R223. A lost or frozen verdict sets the input's bit, is counted and fires its
event, where the detector runs and, for a freeze, is armed: MDAT2 throughout Run, MDAT3 in PRECHARGE from the K3
command, MDAT4 and MDAT5 in OUTPUT. The verdict's end clears the bit, and both restart the plausibility counts of A and
B. The end of settling restarts every count and keeps the verdicts. A pin voltage of k / 4096
of 3.3 V converts to k, clamped at 4095, and is summed for the channel of its slot.
The model's own readings: the instant of a fault (notes/assumptions/52.md). -/
def Obligations.Detectors : Prop :=
  ∀ (s : State) (n : Fin 6) (volts : Rat) (code : BitVec 12), code = sarCode volts →
    ((s.dev.detectorsRun = false ∨ s.dev.sen.lost.getLsbD n.val = true) → does (.inputLost n) s s.dev) ∧
    (s.dev.detectorsRun = true → s.dev.sen.lost.getLsbD n.val = false →
      ∃ d', exec (.inputLost n) s = .next { s with dev := d' } ∧ d'.sen.lost = putBit s.dev.sen.lost n.val true ∧
        d'.sen.frozen = s.dev.sen.frozen ∧ d'.sen.det = satInc 4095 s.dev.sen.det ∧ fired 22 d' ∧
        d'.lim.active = s.dev.lim.active) ∧
    ((s.dev.detectorsRun = false ∨ s.dev.sen.lost.getLsbD n.val = false) → does (.inputActiveAgain n) s s.dev) ∧
    (s.dev.detectorsRun = true → s.dev.sen.lost.getLsbD n.val = true → does (.inputActiveAgain n) s { s.dev with
      sen := { s.dev.sen with
        lost := putBit s.dev.sen.lost n.val false
        bad := if h : n.val < 2 then upd s.dev.sen.bad ⟨n.val, by omega⟩ 0 else s.dev.sen.bad
        good := if h : n.val < 2 then upd s.dev.sen.good ⟨n.val, by omega⟩ 0 else s.dev.sen.good } }) ∧
    ((s.dev.detectorsRun = false ∨ s.dev.inRun = false ∨ s.dev.sen.frozen.getLsbD n.val = true ∨
      (n = 3 ∧ s.dev.seq.drover = .precharge ∧ s.dev.seq.phase < 2) ∨ (4 ≤ n.val ∧ s.dev.seq.drover = .closed)) →
      does (.inputFrozen n) s s.dev) ∧
    (s.dev.detectorsRun = true → s.dev.inRun = true → s.dev.sen.frozen.getLsbD n.val = false →
      (n = 2 ∨ s.dev.seq.drover = .output ∨ (n.val < 4 ∧ s.dev.seq.drover = .closed) ∨
        (n.val < 2 ∧ s.dev.seq.drover = .precharge) ∨ (n = 3 ∧ s.dev.seq.drover = .precharge ∧ 2 ≤ s.dev.seq.phase)) →
      ∃ d', exec (.inputFrozen n) s = .next { s with dev := d' } ∧ d'.sen.frozen = putBit s.dev.sen.frozen n.val true ∧
        d'.sen.lost = s.dev.sen.lost ∧ d'.sen.det = satInc 4095 s.dev.sen.det ∧ fired 23 d' ∧
        d'.lim.active = s.dev.lim.active) ∧
    ((s.dev.detectorsRun = false ∨ s.dev.sen.frozen.getLsbD n.val = false) → does (.inputUnfrozen n) s s.dev) ∧
    (s.dev.detectorsRun = true → s.dev.sen.frozen.getLsbD n.val = true → does (.inputUnfrozen n) s { s.dev with
      sen := { s.dev.sen with
        frozen := putBit s.dev.sen.frozen n.val false
        bad := if h : n.val < 2 then upd s.dev.sen.bad ⟨n.val, by omega⟩ 0 else s.dev.sen.bad
        good := if h : n.val < 2 then upd s.dev.sen.good ⟨n.val, by omega⟩ 0 else s.dev.sen.good } }) ∧
    (s.dev.sen.settling = true → does .settlingEnd s { s.dev with sen := { s.dev.sen with
      settling := false, bad := .replicate 3 0, good := .replicate 3 0 } }) ∧
    (s.dev.sen.settling = false → does .settlingEnd s s.dev) ∧
    (s.dev.alive = true → s.dev.sup.doms.per = true → s.dev.sup.doms.mod = true → ∀ q, q = s.dev.sen.slot % 16 →
      (∀ i, sarRound[q]? = some (.ain i) → does (.sarConversion volts) s { s.dev with sen := { s.dev.sen with
        ainSum := modify s.dev.sen.ainSum i (· + code.toNat), ainCnt := modify s.dev.sen.ainCnt i (· + 1)
        slot := (s.dev.sen.slot + 1) % 16 } }) ∧
      (∀ i, sarRound[q]? = some (.ntc i) → does (.sarConversion volts) s { s.dev with sen := { s.dev.sen with
        ntcSum := modify s.dev.sen.ntcSum i (· + code.toNat), ntcCnt := modify s.dev.sen.ntcCnt i (· + 1)
        slot := (s.dev.sen.slot + 1) % 16 } }) ∧
      (q = 15 → does (.sarConversion volts) s { s.dev with sen := { s.dev.sen with
        vcc5 := code.toNat, slot := (s.dev.sen.slot + 1) % 16 } }) ∧
      ((q = 0 ∨ q = 4 ∨ q = 8 ∨ q = 12) → sarRound[q]? = some (.ain 0))) ∧
    ((s.dev.alive = false ∨ s.dev.sup.doms.per = false ∨ s.dev.sup.doms.mod = false) →
      does (.sarConversion volts) s s.dev) ∧
    (∀ k : Nat, k ≤ 4095 → volts * 4096 = k * (33 / 10) → code.toNat = k) ∧
    (33 / 10 ≤ volts → code.toNat = 4095) ∧ (volts ≤ 0 → code.toNat = 0)

/-- R261, R275, R276, R302, R361, R362 and R364. A crossing clears once its value lies inside by the margin, and its
fault ends with the last one; FAULT_CLR ends the latched faults without a lockout flag whose cause is absent, but for
fault 28, clears the latch once nothing holds it, which an input that a reset alone ends does not allow, and reports a
cause that persists with 0x13; a class D trigger latches its fault, sets the latch, withdraws permission, turns every
gate off, zeroes the limits, and opens the drover or, with the lockout flag, locks it out. The model's own readings:
when causes are absent (notes/assumptions/24.md); FAULT_CLR (notes/assumptions/47.md). -/
def Obligations.CrossingsAndLatch : Prop :=
  ∀ (s : State) (tok : Byte),
    (∀ (p : Fin 576) (th : Threshold) (i : Fin 8) m c, th.index = some i → s.dev.man = some m → c = s.dev.est.cells.get p →
      (c.crossed.getLsbD i.val = false → does (.crossingClear p th) s s.dev) ∧
      (∀ v, c.crossed.getLsbD i.val = true → c.judged ((safer m.th).cell i).2.2 = some v →
        (insideBy ((safer m.th).cell i).1 ((safer m.th).cell i).2.1 (if ((safer m.th).cell i).2.2 then 20000 else 200) v = false →
          does (.crossingClear p th) s s.dev) ∧
        (insideBy ((safer m.th).cell i).1 ((safer m.th).cell i).2.1 (if ((safer m.th).cell i).2.2 then 20000 else 200) v = true →
          ∃ d', exec (.crossingClear p th) s = .next { s with dev := d' } ∧
            d'.est.cells = upd s.dev.est.cells p { c with
              crossed := c.crossed &&& ~~~(BitVec.ofNat 8 (2 ^ i.val)), beyond := upd c.beyond i 0 } ∧
            (d'.anyCrossed i.val = true → d'.lim = s.dev.lim) ∧
            (d'.anyCrossed i.val = false → d'.lim.active.getLsbD i.val = false ∧
              ∀ f, f ≠ i.val → d'.lim.active.getLsbD f = s.dev.lim.active.getLsbD f)))) ∧
    (∀ (p : Fin 576) level v, s.dev.ntcLevel false = some level → s.dev.sen.ntc.get (Fin.ofNat 4 p.val) = some v →
      ((s.dev.lim.ntcCross.getLsbD (p.val % 4) = false ∨ level < v + 20) → does (.crossingClear p .ntcHigh1) s s.dev) ∧
      (s.dev.lim.ntcCross.getLsbD (p.val % 4) = true → v + 20 ≤ level →
        ∃ d', exec (.crossingClear p .ntcHigh1) s = .next { s with dev := d' } ∧
          d'.lim.ntcCross = s.dev.lim.ntcCross &&& ~~~(BitVec.ofNat 8 (2 ^ (p.val % 4))) ∧
          (d'.lim.ntcCross &&& 0x0F = 0 → d'.lim.active.getLsbD 9 = false))) ∧
    (takes s.dev .lim tok →
      ∃ d' res, exec (.faultClr tok) s = .next { s with dev := d' } ∧
        d'.cmds.lim = { kept := some tok, held := none, result := word (place tok.toNat 16 + res) } ∧
        ((∃ f < 39, s.dev.lim.latched.getLsbD f = true ∧ s.dev.lockoutFlag f = false ∧ f ≠ 28 ∧
          s.dev.lim.active.getLsbD f = true) → res = 0x13) ∧
        ((∀ f < 39, s.dev.lim.latched.getLsbD f = true → s.dev.lockoutFlag f = false → f ≠ 28 →
          s.dev.lim.active.getLsbD f = false) → res = 0x00) ∧
        (∀ f < 39, d'.lim.latched.getLsbD f = (s.dev.lim.latched.getLsbD f &&
          (s.dev.lockoutFlag f || decide (f = 28) || s.dev.lim.active.getLsbD f))) ∧
        d'.lim.active = s.dev.lim.active ∧
        (d'.lim.latched = 0 → s.dev.saf.openInput = 0 → s.dev.noDiscrepancy = true → s.dev.pwr.causes = 0 →
          s.dev.saf.resetInput = false → s.dev.engineInput.saf.engInput = false → d'.saf.latch = false) ∧
        (s.dev.saf.resetInput = true → d'.saf.latch = s.dev.saf.latch) ∧
        (d'.lim.latched ≠ 0 → d'.saf.latch = s.dev.saf.latch)) ∧
    (∀ (src : LatchSource) (f : Fin 39),
      ((s.dev.alive = false ∨ s.dev.faultClass f.val ≠ .d) → does (.safetyLatchSet src f) s s.dev) ∧
      (s.dev.alive = true → s.dev.faultClass f.val = .d →
        ∃ d', exec (.safetyLatchSet src f) s = .next { s with dev := d' } ∧ d'.saf.latch = true ∧ d'.saf.granted = false ∧
          d'.lim.latched.getLsbD f.val = true ∧ d'.lim.active = s.dev.lim.active ∧ d'.limitsZero = true ∧
          d'.pumpGates = 0 ∧
          (∀ j : K, (d'.coil.get j).phase = .released ∨ ((d'.coil.get j).hi = false ∧ (d'.coil.get j).lo = false)) ∧
          (s.dev.inRun = true → s.dev.seq.drover ≠ .lockout →
            d'.seq.drover = if s.dev.lockoutFlag f.val then .lockout else .openS)))

/-! ### Power stage -/

/-- R275, R300 to R303, R311, R314, R316 and R317. A monitor that is not live, watches a switch that is off, or has
seen no more than its threshold, does nothing; a trip acts as fault 28 does, ends the diagnostics, sets its cause, and
is recorded with cause and place where it is the first, else counted. PWR_CLR clears fault 28 with its record only
while no cause is present, and refuses with 0x13 otherwise. DRV_EN low turns nothing on; its rise after 10 µs or more
clears fault 28 where no other cause remains, after 8 µs or less clears nothing, and above 1 µs it has tripped. The
model's own readings: when causes end, DRV_EN low times (notes/assumptions/62.md). -/
def Obligations.PowerFaultAndClear : Prop :=
  ∀ (s : State) (tok : Byte) (cause : Fin 8) (x : Monitored) (low : Nat),
    does .softTurnOffStep2 s { s.dev with pwr := { s.dev.pwr with
      softStep := if s.dev.pwr.softStep = 1 then 2 else s.dev.pwr.softStep } } ∧
    (s.dev.mayTrip (cause.val + 1) x = false → does (.protectionTrip cause x) s s.dev) ∧
    (s.dev.mayTrip (cause.val + 1) x = true →
      ∃ d', exec (.protectionTrip cause x) s = .next { s with dev := d' } ∧ opened 28 s.dev d' ∧
        d'.pwr.diagPhase = none ∧ d'.pwr.diagSeq = false ∧ d'.pwr.ctstDue = false ∧
        d'.pwr.verdicts = s.dev.pwr.verdicts ∧
        (s.dev.lim.latched.getLsbD 28 = false → d'.pwr.fltCause.toNat = cause.val + 1 ∧ d'.pwr.fltWhere = x.place ∧
          d'.pwr.trips = s.dev.pwr.trips) ∧
        (s.dev.lim.latched.getLsbD 28 = true → d'.pwr.fltCause = s.dev.pwr.fltCause ∧
          d'.pwr.fltWhere = s.dev.pwr.fltWhere ∧ d'.pwr.trips = satInc 63 s.dev.pwr.trips) ∧
        d'.pwr.causes = s.dev.pwr.causes ||| BitVec.ofNat 9 (2 ^ cause.val)) ∧
    (∀ (k : K) (lo : Bool), x.place.toNat = 2 * k.val + lo.toNat → s.dev.mayTrip 1 x =
      (s.dev.stageLive && (if lo then s.dev.lowOn k else s.dev.highOn k) &&
        decide ((field (s.dev.pwr.vds.get ⟨k.val, by omega⟩) (if lo then 4 else 0) 4 + 1) * 100 < x.level))) ∧
    (∀ k : K, x.place.toNat = k.val → s.dev.mayTrip 2 x =
      (s.dev.stageLive && decide ((field s.dev.pwr.oc (5 * k.val) 5 + 1) * 50 < x.level))) ∧
    s.dev.mayTrip 3 x = (s.dev.stageLive && decide ((s.dev.ocp + 1) * 50 < x.level)) ∧
    s.dev.mayTrip 6 x = (s.dev.stageLive && !s.dev.allGatesOff && decide (x.level < 500 * s.dev.vUv)) ∧
    s.dev.mayTrip 7 x = (s.dev.stageLive && decide (500 * s.dev.vOv < x.level)) ∧
    (takes s.dev .pwr tok →
      (s.dev.lim.latched.getLsbD 28 = false → does (.pwrClr tok) s (commanded s.dev .pwr tok 0x01 0x00 id)) ∧
      (s.dev.lim.latched.getLsbD 28 = true → s.dev.pwr.causes ≠ 0 →
        does (.pwrClr tok) s (commanded s.dev .pwr tok 0x01 0x13 id)) ∧
      (s.dev.lim.latched.getLsbD 28 = true → s.dev.pwr.causes = 0 →
        ∃ d', exec (.pwrClr tok) s = .next { s with dev := d' } ∧
          d'.cmds.pwr = { kept := some tok, held := none, result := word (Machine.place tok.toNat 16) } ∧
          d'.lim.latched = s.dev.lim.latched &&& ~~~BitVec.ofNat 39 (2 ^ 28) ∧
          d'.lim.active = s.dev.lim.active &&& ~~~BitVec.ofNat 39 (2 ^ 28) ∧ d'.pwr.fltCause = 0 ∧ d'.pwr.fltWhere = 0 ∧
          fired 35 d' ∧ d'.seq = s.dev.seq ∧ d'.coil = s.dev.coil ∧
          (d'.lim.latched = 0 → s.dev.saf.openInput = 0 → s.dev.noDiscrepancy = true →
            s.dev.saf.resetInput = false → s.dev.engineInput.saf.engInput = false → d'.saf.latch = false) ∧
          (d'.lim.latched ≠ 0 → d'.saf.latch = s.dev.saf.latch))) ∧
    does .drvEnFall s { s.dev with pwr := { s.dev.pwr with drvEn := false } } ∧
    (low ≤ 1000 → does (.drvEnRise low) s { s.dev.tick with pwr := { s.dev.pwr with
      drvEn := true, causes := s.dev.pwr.causes &&& ~~~0x080 } }) ∧
    (1000 < low → low ≤ 8000 → s.dev.pwr.drvEn = false →
      (s.dev.pwr.causes.getLsbD 7 = false ∨ s.dev.lim.latched.getLsbD 28 = false) → s.dev.stageLive = true →
      ∃ d', exec (.drvEnRise low) s = .next { s with dev := d' } ∧ opened 28 s.dev d' ∧ d'.pwr.drvEn = true ∧
        d'.pwr.causes = s.dev.pwr.causes &&& ~~~0x080 ∧ (s.dev.lim.latched.getLsbD 28 = false → d'.pwr.fltCause = 0x08)) ∧
    (10000 ≤ low → s.dev.pwr.causes &&& ~~~0x080 = 0 →
      ∃ d', exec (.drvEnRise low) s = .next { s with dev := d' } ∧ d'.lim.latched.getLsbD 28 = false ∧
        d'.pwr.drvEn = true ∧ d'.pwr.causes = 0) ∧
    (10000 ≤ low → s.dev.pwr.causes &&& ~~~0x080 ≠ 0 → s.dev.lim.latched.getLsbD 28 = true →
      ∃ d', exec (.drvEnRise low) s = .next { s with dev := d' } ∧ d'.lim.latched.getLsbD 28 = true ∧
        d'.pwr.drvEn = true ∧ d'.pwr.causes = s.dev.pwr.causes &&& ~~~0x080)

/-- R304, R305, R307 to R310, R315 and R317. GD turns on and off with its comparator, is held off 950 ms after 50 ms
with fault 28 of cause 0x09, and is disabled with fault 29 in the latch by a dump switch fault. A sequence starts in
OPEN with every verdict "not run"; each phase takes its verdict from its nodes and the next one follows, a passing dump
phase enabling the chopper where no lockout is due or in force; the pump stops in its phases alone; both trips of the
chopper end the sequence; the self-test counts the failing comparators, names the first, and ends the sequence. The
model's own readings: patterns of the diagnostics (notes/assumptions/63.md). -/
def Obligations.DumpAndDiagnostics : Prop :=
  ∀ (s : State) (tok : Byte) (n : DiagNodes) (fails : BitVec 23) (p : Pwr), p = s.dev.pwr →
    (p.dumpOn = true ∨ p.dumpDis = true ∨ p.dumpPause = true → does .dumpOn s s.dev) ∧
    (p.dumpOn = false → p.dumpDis = false → p.dumpPause = false →
      (s.dev.alive = true → endsFiring .dumpOn s 36 { s.dev with pwr := { p with
        dumpOn := true, rail := max p.rail (500 * s.dev.vDump + 1) } }) ∧
      (s.dev.alive = false → does .dumpOn s { s.dev with pwr := { p with
        dumpOn := true, rail := max p.rail (500 * s.dev.vDump + 1) } })) ∧
    does .dumpOff s { s.dev with pwr := { p with
      dumpOn := false, rail := min p.rail (500 * s.dev.vDump - 2001) } } ∧
    (p.dumpOn = false → does .dumpTimeout s s.dev) ∧
    (p.dumpOn = true → s.dev.alive = false → does .dumpTimeout s { s.dev with pwr := { p with
      dumpOn := false, dumpPause := true, causes := p.causes ||| 0x100 } }) ∧
    (p.dumpOn = true → s.dev.alive = true → ∃ d', exec .dumpTimeout s = .next { s with dev := d' } ∧ opened 28 s.dev d' ∧
      d'.pwr.dumpOn = false ∧ d'.pwr.dumpPause = true ∧ d'.pwr.causes = p.causes ||| 0x100 ∧
      d'.pwr.diagPhase = none ∧ d'.pwr.diagSeq = false ∧
      (s.dev.lim.latched.getLsbD 28 = false → d'.pwr.fltCause = 0x09 ∧ d'.pwr.fltWhere = 12)) ∧
    does .dumpRearm s { s.dev with pwr := { p with dumpPause := false, causes := p.causes &&& ~~~0x100 } } ∧
    (s.dev.alive = false → does .dumpSwitchFault s { s.dev with pwr := { p with dumpOn := false, dumpDis := true } }) ∧
    (s.dev.alive = true → ∃ d', exec .dumpSwitchFault s = .next { s with dev := d' } ∧ d'.pwr.dumpOn = false ∧ d'.pwr.dumpDis = true ∧
      d'.lim.latched.getLsbD 29 = true ∧ d'.saf.latch = true ∧ d'.saf.granted = false ∧ d'.limitsZero = true ∧
      d'.pumpGates = 0 ∧ d'.pwr.diagPhase = none ∧ d'.pwr.diagSeq = false) ∧
    ((s.dev.diagAllowed = false ∨ p.diagSeq = true) → does .autoDiagnostics s s.dev) ∧
    (s.dev.diagAllowed = true → p.diagSeq = false → does .autoDiagnostics s { s.dev with pwr := { p with
      diagSeq := true, diagPhase := some 0, ctstDue := false, verdicts := 0x3FFFF, diagDone := false, diagPass := false
      passedSince := false } }) ∧
    (p.diagPhase = none → does (.diagPhaseEnd n) s s.dev) ∧
    (∀ i u, p.diagPhase = some i → i ≤ 10 → u = i / 2 →
      ∃ d', exec (.diagPhaseEnd n) s = .next { s with dev := d' } ∧
        (i < 10 → d'.pwr.diagPhase = some (i + 1) ∧ d'.pwr.ctstDue = p.ctstDue ∧ d'.pwr.dumpDis = p.dumpDis) ∧
        (i = 10 → d'.pwr.diagPhase = none ∧ d'.pwr.ctstDue = true) ∧
        (i = 7 ∨ i = 8 → d'.pumpGates = 0) ∧ (i < 7 ∨ i = 10 → d'.pumpGates = s.dev.pumpGates) ∧
        (i = 9 → d'.pumpGates = Dev.pumpGates { s.dev with pwr := { p with diagPhase := none } }) ∧
        (∀ v, v < 6 → v ≠ u → getVerdict d'.pwr.verdicts v = getVerdict p.verdicts v) ∧
        (i < 10 → i % 2 = 0 → n.hi < 500 → getVerdict d'.pwr.verdicts u = 1) ∧
        (i < 10 → i % 2 = 0 → 500 ≤ n.hi → (6000 < n.hi ∨ 6000 < n.lo) → getVerdict d'.pwr.verdicts u = 2) ∧
        (i < 10 → i % 2 = 0 → 2500 < n.hi → n.hi ≤ 6000 → n.lo < 500 → getVerdict d'.pwr.verdicts u = 3) ∧
        (i < 10 → i % 2 = 0 → 2500 ≤ n.hi → n.hi ≤ 4500 → 2500 ≤ n.lo → n.lo ≤ 4500 → getVerdict d'.pwr.verdicts u = 0) ∧
        (i < 10 → i % 2 = 1 → getVerdict p.verdicts u ≠ 0 → getVerdict d'.pwr.verdicts u = getVerdict p.verdicts u) ∧
        (i < 10 → i % 2 = 1 → getVerdict p.verdicts u = 0 → n.hi < 500 → n.lo < 500 → getVerdict d'.pwr.verdicts u = 0) ∧
        (i < 10 → i % 2 = 1 → getVerdict p.verdicts u = 0 → 6000 < n.lo → getVerdict d'.pwr.verdicts u = 2) ∧
        (i = 10 → n.vcoils ≤ n.hi + 2000 → n.hi ≤ n.vcoils + 2000 → getVerdict d'.pwr.verdicts 5 = 0 ∧
          d'.pwr.dumpDis = (p.dumpDis && (decide (s.dev.seq.drover = .lockout) || decide (s.dev.mode.lockDue ≠ 0)))) ∧
        (i = 10 → n.hi + 2000 < n.vcoils → n.hi < 500 → getVerdict d'.pwr.verdicts 5 = 4 ∧
          d'.pwr.dumpDis = p.dumpDis)) ∧
    (p.ctstDue = false → does (.comparatorSelfTest fails) s s.dev) ∧
    (∀ first, p.ctstDue = true → (fails = 0 ∧ first = 0 ∨ fails.getLsbD first = true ∧ ∀ j, j < first → fails.getLsbD j = false) →
      (p.diagSeq = false → endsFiring (.comparatorSelfTest fails) s 39 { s.dev with pwr := { p with
        ctstDue := false, ctstPass := decide (fails = 0), ctstFails := ((List.range 23).filter fun i => fails.getLsbD i).length
        ctstFirst := first, passedSince := p.passedSince && decide (fails = 0) } }) ∧
      (p.diagSeq = true → ∃ d', exec (.comparatorSelfTest fails) s = .next { s with dev := d' } ∧ Keeps [.pwr] s.dev d' ∧
        d'.pwr = { p with
          ctstDue := false, ctstPass := decide (fails = 0), ctstFails := d'.pwr.ctstFails, ctstFirst := first
          diagSeq := false, diagDone := true, diagPass := decide (p.verdicts = 0)
          passedSince := decide (p.verdicts = 0) && decide (fails = 0) } ∧ fired 39 d' ∧ fired 38 d')) ∧
    (∀ i : DiagInputs, (s.dev.diagAllowed = false → does (.offStateDiagnostics i) s s.dev) ∧
      (s.dev.diagAllowed = true →
        ∃ d', exec (.offStateDiagnostics i) s = .next { s with dev := d' } ∧ Keeps [.pwr] s.dev d' ∧
          d'.pwr.diagSeq = false ∧ d'.pwr.diagPhase = none ∧ d'.pwr.diagDone = true ∧
          d'.pwr.diagPass = decide (d'.pwr.verdicts = 0) ∧ d'.pwr.ctstPass = decide (i.compFails = 0) ∧
          d'.pwr.passedSince = (decide (d'.pwr.verdicts = 0) && decide (i.compFails = 0)) ∧
          (s.dev.pumpPhase = false → d'.pumpGates = s.dev.pumpGates) ∧ fired 38 d' ∧ fired 39 d')) ∧
    (takes s.dev .pwr tok →
      (s.dev.seq.drover ≠ .openS →
        does (.diag tok) s (commanded s.dev .pwr tok 0x03 0x11 id) ∧ does (.ctst tok) s (commanded s.dev .pwr tok 0x02 0x11 id)) ∧
      (s.dev.seq.drover = .openS →
        (s.dev.lim.latched.getLsbD 28 = true →
          does (.diag tok) s (commanded s.dev .pwr tok 0x03 0x13 id) ∧
          does (.ctst tok) s (commanded s.dev .pwr tok 0x02 0x13 id)) ∧
        (s.dev.lim.latched.getLsbD 28 = false →
          (p.diagSeq = false → does (.ctst tok) s (commanded s.dev .pwr tok 0x02 0x01 fun d =>
            { d with pwr := { p with ctstDue := true } })) ∧
          (p.diagSeq = true → does (.ctst tok) s (commanded s.dev .pwr tok 0x02 0x01 id)) ∧
          (p.diagSeq = true → does (.diag tok) s (commanded s.dev .pwr tok 0x03 0x01 id)) ∧
          (p.diagSeq = false → does (.diag tok) s (commanded s.dev .pwr tok 0x03 0x01 fun d => { d with pwr := { p with
            diagSeq := true, diagPhase := some 0, ctstDue := false, verdicts := 0x3FFFF, diagDone := false
            diagPass := false, passedSince := false } })))))

/-- R19, R290, R293 to R299, R303, R310, R314 and R319. External inputs drive their gates while they are in control, in
Run outside LOCKOUT with the gates enabled and no pump phase of the diagnostics, never both of one half-bridge; each
onset of both-high is counted, latch or no latch. Revocation runs the pump at 70 % duty. A tach edge gives 60 s / (2 ×
T), read in 2 rpm; feedback that is lost or frozen raises fault 32 and sets 70 % under internal control only, and its
recovery ends the fault. Beyond the cycle limit the high sides turn off, and it is counted. A measured edge moves its
ADAPT code by one step towards the target, within MIN and MAX. The model's own readings: a row without its trigger
(notes/assumptions/1.md); pins and drives (notes/assumptions/64.md). -/
def Obligations.PumpAndGates : Prop :=
  ∀ (s : State) (l : BitVec 4) (p : Pwr), p = s.dev.pwr →
    (s.dev.pumpExt = false → does (.extPwmEdge l) s { s.dev with pwr := { p with extIn := l } }) ∧
    (∀ onA onB, s.dev.pumpExt = true →
      onA = (l.getLsbD 0 && l.getLsbD 1 && !(p.extIn.getLsbD 0 && p.extIn.getLsbD 1)) →
      onB = (l.getLsbD 2 && l.getLsbD 3 && !(p.extIn.getLsbD 2 && p.extIn.getLsbD 3)) →
      ∃ d', exec (.extPwmEdge l) s = .next { s with dev := d' } ∧ Keeps [.pwr, .dep, .lif] s.dev d' ∧ d'.pwr.extIn = l ∧
        (s.dev.pumpMayRun = false ∨ s.dev.pumpPhase = true → d'.pumpGates = 0) ∧
        (s.dev.pumpMayRun = true → s.dev.pumpPhase = false →
          d'.pumpGates.getLsbD 0 = (l.getLsbD 0 && !l.getLsbD 1 && !p.cycleOff) ∧
          d'.pumpGates.getLsbD 1 = (l.getLsbD 1 && !l.getLsbD 0) ∧
          d'.pumpGates.getLsbD 2 = (l.getLsbD 2 && !l.getLsbD 3 && !p.cycleOff) ∧
          d'.pumpGates.getLsbD 3 = (l.getLsbD 3 && !l.getLsbD 2)) ∧
        (onA = false → onB = false → d'.pwr.conflict = p.conflict ∧ d'.pwr.conflictAges = p.conflictAges) ∧
        (onA ≠ onB → d'.pwr.conflict = satInc 255 p.conflict ∧ d'.pwr.conflictAges = p.conflictAges ++ [0]) ∧
        (onA = true → onB = true → d'.pwr.conflict = satInc 255 (satInc 255 p.conflict)) ∧
        ((onA || onB) = true → p.conflictEvt = false → fired 40 d') ∧
        ((onA || onB) = true → d'.pwr.conflictEvt = true)) ∧
    (s.dev.pumpExt = false ∨ s.dev.revokeDue = false → does .extPwmRevoke s s.dev) ∧
    (s.dev.pumpExt = true → s.dev.revokeDue = true → ∃ d', exec .extPwmRevoke s = .next { s with dev := d' } ∧ Keeps [.pwr, .dep, .lif] s.dev d' ∧
      d'.pumpExt = false ∧ fired 41 d' ∧ (s.dev.pumpMayRun = true → d'.pwr.duty = 700) ∧
      (s.dev.pumpMayRun = true → s.dev.pumpPhase = false → p.cycleOff = false →
        d'.pumpGates = if bit p.pumpUse 22 then 0b1110 else 0b1011) ∧
      (s.dev.pumpMayRun = false → d'.pumpGates = 0)) ∧
    (∀ t rpm2 : Nat, 0 < t → 1800000000 = rpm2 * t → rpm2 ≤ 0xFFF →
      does (.tachEdge t) s { s.dev with pwr := { p with tachPeriod := t, pumpMeas := rpm2 } }) ∧
    (∀ t : Nat, ∃ m, m ≤ 0xFFF ∧
      does (.tachEdge t) s { s.dev with pwr := { p with tachPeriod := t, pumpMeas := m } }) ∧
    (p.tachLost = true ∨ (s.dev.pumpExt = false ∧ p.duty < 200) → does (.tachLost false) s s.dev) ∧
    (p.tachFrozen = true → does (.tachLost true) s s.dev) ∧
    (∀ frozen, (frozen = true ∧ p.tachFrozen = false ∨
        frozen = false ∧ p.tachLost = false ∧ (s.dev.pumpExt = true ∨ 200 ≤ p.duty)) →
      ∃ d', exec (.tachLost frozen) s = .next { s with dev := d' } ∧ d'.lim.active.getLsbD 32 = true ∧
        d'.pwr.tachLost = (p.tachLost || !frozen) ∧ d'.pwr.tachFrozen = (p.tachFrozen || frozen) ∧
        (s.dev.pumpExt = true → d'.pwr.duty = p.duty ∧ d'.pumpGates = s.dev.pumpGates) ∧
        (s.dev.pumpExt = false → s.dev.pumpMayRun = true → d'.pwr.duty = 700) ∧
        (s.dev.pumpExt = false → s.dev.pumpMayRun = false → d'.pumpGates = 0)) ∧
    endsIn .tachRecovered s { s.dev with
      pwr := { p with tachLost := false, tachFrozen := false }
      lim := { s.dev.lim with active := s.dev.lim.active &&& ~~~BitVec.ofNat 39 (2 ^ 32) } } ∧
    (∀ level, (s.dev.pumpGates = 0 ∨ level ≤ s.dev.ilimThreshold) → does (.pumpCycleLimit level) s s.dev) ∧
    (∀ level, s.dev.pumpGates ≠ 0 → s.dev.ilimThreshold < level →
      ∃ d', exec (.pumpCycleLimit level) s = .next { s with dev := d' } ∧
        eventsOnly { s.dev with pwr := { p with
          cycleOff := true, ilim := satInc 255 p.ilim, cntOvf := p.cntOvf || decide (255 ≤ p.ilim + 1) } } d' ∧
        d'.pumpGates = s.dev.pumpGates &&& 0b1010) ∧
    (∀ (ch : DriveChannel) (on : Bool) (ns : Option Nat) (w : Word), w = p.gdrv.get (driveIndex ch) →
      (bit w 23 = false → does (.switchEdgeMeasured ch on ns) s s.dev) ∧
      (∀ old lo hi target, bit w 23 = true → old = (if on then p.source else p.sink).get (driveIndex ch) → lo = field w 8 4 →
        hi = max (field w 8 4) (field w 12 4) → target = (field w 16 4 + 1) * 50 →
        ∃ code, does (.switchEdgeMeasured ch on ns) s { s.dev with pwr := if on
            then { p with source := upd p.source (driveIndex ch) code }
            else { p with sink := upd p.sink (driveIndex ch) code } } ∧
          lo ≤ code ∧ (field w 8 4 ≤ field w 12 4 → code ≤ field w 12 4) ∧ (field w 12 4 < field w 8 4 → code = lo) ∧
          (lo ≤ old → old ≤ hi → lo ≤ field w 12 4 →
            ((ns = none ∨ ∃ t, ns = some t ∧ 2000 < t) → code = old) ∧
            (∀ t, ns = some t → t ≤ 2000 → (target + 25 < t → code = min hi (old + 1)) ∧
              (t + 25 < target → code = max lo (old - 1)) ∧ (t ≤ target + 25 → target ≤ t + 25 → code = old)))))


/-! ### Guards and permission -/

/-- R147, R350 to R356, R362 and R373. A new filtered level is kept in every mode, and judged once the guard kinds are
loaded. A guard that opens with a coil gate commanded on acts as fault 33 does, is counted, and is an input of the latch
until it is closed again; with none it withdraws permission with an event, in the episode of another guard's fault of
the frame, and sets nothing; under test it is not reported, and GTSTx goes low once both channels read open. Both
channels closed prove each one that was seen open, and end the discrepancy. Disagreement for 50 ms acts as fault 34
does, in the episode of the opening; under test it only marks the test. The model's own readings: a guard under test,
episodes (notes/assumptions/51.md). -/
def Obligations.GuardChannels : Prop :=
  ∀ (s : State) (ch : Fin 8) (level : Bool) (g : Fin 4) (d : Dev), g = guardOf ch →
    d = { s.dev with saf := { s.dev.saf with
      raw := putBit s.dev.saf.raw ch.val level, filt := putBit s.dev.saf.filt ch.val level } } →
    ((s.dev.alive = false ∨ s.dev.saf.kindsLoaded = false ∨ s.dev.guardUsed g = false) →
      does (.guardChannelChange ch level) s d) ∧
    (s.dev.alive = true → s.dev.saf.kindsLoaded = true → s.dev.guardUsed g = true →
      (s.dev.guardClosed g = true → d.guardClosed g = false → s.dev.saf.testing.getLsbD g.val = false →
        s.dev.coilCommanded = true →
        ∃ d', exec (.guardChannelChange ch level) s = .next { s with dev := d' } ∧ opened 33 s.dev d' ∧
          d'.saf.openInput.getLsbD g.val = true ∧ d'.saf.opens = satInc 4095 s.dev.saf.opens ∧
          d'.saf.filt = d.saf.filt ∧ d'.saf.raw = d.saf.raw ∧ d'.saf.provenCh = s.dev.saf.provenCh ∧
          d'.saf.seenOpen.getLsbD ch.val = true) ∧
      (s.dev.guardClosed g = true → d.guardClosed g = false → s.dev.saf.testing.getLsbD g.val = false →
        s.dev.coilCommanded = false →
        ∃ d', exec (.guardChannelChange ch level) s = .next { s with dev := d' } ∧ Keeps [.saf] s.dev d' ∧
          d'.saf.granted = false ∧ fired 44 d' ∧ d'.saf.latch = s.dev.saf.latch ∧
          d'.saf.episode.get g = s.dev.guardEpisode ∧ d'.saf.openInput = s.dev.saf.openInput ∧ d'.saf.opens = s.dev.saf.opens ∧ d'.saf.filt = d.saf.filt ∧
          d'.saf.provenCh = s.dev.saf.provenCh ∧ d'.saf.seenOpen.getLsbD ch.val = true) ∧
      (s.dev.guardClosed g = true → d.guardClosed g = false → s.dev.saf.testing.getLsbD g.val = true →
        ∃ d', exec (.guardChannelChange ch level) s = .next { s with dev := d' } ∧ Keeps [.saf] s.dev d' ∧
          d'.saf.granted = false ∧ d'.saf.latch = s.dev.saf.latch ∧ d'.saf.filt = d.saf.filt ∧
          d'.saf.testing = s.dev.saf.testing ∧ d'.saf.gtst = s.dev.saf.gtst ∧ d'.saf.testBad = s.dev.saf.testBad ∧
          d'.saf.opens = s.dev.saf.opens ∧ d'.saf.openInput = s.dev.saf.openInput) ∧
      (s.dev.guardClosed g = false → d.guardClosed g = false →
        ∃ d', exec (.guardChannelChange ch level) s = .next { s with dev := d' } ∧ Keeps [.saf, .lim] s.dev d' ∧
          d'.saf.latch = s.dev.saf.latch ∧ d'.saf.filt = d.saf.filt ∧ d'.saf.opens = s.dev.saf.opens ∧
          (d.closedA g = false → d.closedB g = false → d'.saf.disc.getLsbD g.val = false) ∧
          d'.saf.testing = s.dev.saf.testing ∧ d'.saf.gtst = (if s.dev.saf.testing.getLsbD g.val = true ∧
            d.closedA g = false ∧ d.closedB g = false then s.dev.saf.gtst &&& ~~~BitVec.ofNat 4 (2 ^ g.val)
            else s.dev.saf.gtst) ∧
          (d.closedA g = false → d'.saf.seenOpen.getLsbD (2 * g.val) = true) ∧
          (d.closedB g = false → d'.saf.seenOpen.getLsbD (2 * g.val + 1) = true)) ∧
      (d.guardClosed g = true →
        ∃ d', exec (.guardChannelChange ch level) s = .next { s with dev := d' } ∧ Keeps [.saf, .lim] s.dev d' ∧
          d'.saf.filt = d.saf.filt ∧ d'.saf.latch = s.dev.saf.latch ∧
          d'.saf.openInput = s.dev.saf.openInput &&& ~~~BitVec.ofNat 4 (2 ^ g.val) ∧
          d'.saf.disc = s.dev.saf.disc &&& ~~~BitVec.ofNat 4 (2 ^ g.val) ∧
          d'.saf.provenCh.getLsbD (2 * g.val) =
            (s.dev.saf.provenCh.getLsbD (2 * g.val) || s.dev.saf.seenOpen.getLsbD (2 * g.val)) ∧
          d'.saf.provenCh.getLsbD (2 * g.val + 1) =
            (s.dev.saf.provenCh.getLsbD (2 * g.val + 1) || s.dev.saf.seenOpen.getLsbD (2 * g.val + 1)) ∧
          (d'.saf.openInput = 0 → d'.lim.active.getLsbD 33 = false) ∧
          (d'.saf.disc = 0 → d'.lim.active.getLsbD 34 = false) ∧
          d'.lim.latched = s.dev.lim.latched ∧ (s.dev.guardProven g = false → d'.guardProven g = true → fired 46 d'))) ∧
    ((s.dev.alive = false ∨ s.dev.saf.kindsLoaded = false ∨ s.dev.guardUsed g = false ∨
        s.dev.closedA g = s.dev.closedB g ∨
        (s.dev.saf.testing.getLsbD g.val = false ∧ s.dev.saf.disc.getLsbD g.val = true)) →
      does (.guardDiscrepancy g) s s.dev) ∧
    (s.dev.alive = true → s.dev.saf.kindsLoaded = true → s.dev.guardUsed g = true →
      s.dev.closedA g ≠ s.dev.closedB g → s.dev.saf.testing.getLsbD g.val = true →
      does (.guardDiscrepancy g) s { s.dev with saf := { s.dev.saf with
        testBad := s.dev.saf.testBad ||| BitVec.ofNat 4 (2 ^ g.val) } }) ∧
    (s.dev.alive = true → s.dev.saf.kindsLoaded = true → s.dev.guardUsed g = true →
      s.dev.closedA g ≠ s.dev.closedB g → s.dev.saf.testing.getLsbD g.val = false → s.dev.saf.disc.getLsbD g.val = false →
      ∃ d', exec (.guardDiscrepancy g) s = .next { s with dev := d' } ∧ opened 34 s.dev d' ∧
        d'.saf.disc.getLsbD g.val = true ∧ d'.saf.discs = satInc 4095 s.dev.saf.discs ∧
        ∀ e, s.dev.saf.episode.get g = some e → d'.lim.episodes.head? = some { fault := 34, inst := g.val, id := e })

/-- R146, R148, R357, R358, R360 and R372. GTEST is refused outside Run, outside OPEN, for a guard that is unused or has
no test switch, and with the latch set; accepted it drives GTSTx high, until both channels read open, and withdraws
permission. A pass proves both channels and a failure removes their proof, each with GTSTx low and its event; a test in
which a discrepancy was found fails. Every 10 s the test repeats only for an unproven guard with a test switch in OPEN
with the latch clear. Two missing refreshes withdraw permission. The model's own readings: a guard under test
(notes/assumptions/51.md). -/
def Obligations.GuardTests : Prop :=
  ∀ (s : State) (g : Fin 4) (tok : Byte) (f t : Saf), f = s.dev.saf →
    t = { f with
      testing := f.testing ||| BitVec.ofNat 4 (2 ^ g.val), testBad := f.testBad &&& ~~~BitVec.ofNat 4 (2 ^ g.val)
      gtst := if s.dev.closedA g = false ∧ s.dev.closedB g = false then f.gtst &&& ~~~BitVec.ofNat 4 (2 ^ g.val)
        else f.gtst ||| BitVec.ofNat 4 (2 ^ g.val)
      granted := false } →
    (takes s.dev .saf tok →
      (s.dev.inRun = false → does (.gtest g tok) s (commanded s.dev .saf tok (0x10 + g.val) 0x10 id)) ∧
      (s.dev.inRun = true → s.dev.seq.drover ≠ .openS →
        does (.gtest g tok) s (commanded s.dev .saf tok (0x10 + g.val) 0x11 id)) ∧
      (s.dev.inRun = true → s.dev.seq.drover = .openS →
        ((s.dev.guardUsed g = false ∨ s.dev.guardSwitch g = false) →
          does (.gtest g tok) s (commanded s.dev .saf tok (0x10 + g.val) 0x12 id)) ∧
        (s.dev.guardUsed g = true → s.dev.guardSwitch g = true →
          (f.latch = true → does (.gtest g tok) s (commanded s.dev .saf tok (0x10 + g.val) 0x13 id)) ∧
          (f.latch = false → f.testing.getLsbD g.val = true →
            does (.gtest g tok) s (commanded s.dev .saf tok (0x10 + g.val) 0x00 id)) ∧
          (f.latch = false → f.testing.getLsbD g.val = false →
            endsIn (.gtest g tok) s (commanded s.dev .saf tok (0x10 + g.val) 0x01 fun d => { d with saf := t }))))) ∧
    (∀ o c, f.testing.getLsbD g.val = false → does (.guardTestVerdict g o c) s s.dev) ∧
    (∀ o c, f.testing.getLsbD g.val = true →
      ∃ d', exec (.guardTestVerdict g o c) s = .next { s with dev := d' } ∧ Keeps [.saf] s.dev d' ∧
        d'.saf = { f with
          testing := f.testing &&& ~~~BitVec.ofNat 4 (2 ^ g.val), gtst := f.gtst &&& ~~~BitVec.ofNat 4 (2 ^ g.val)
          provenCh := d'.saf.provenCh, seenOpen := d'.saf.seenOpen } ∧
        (∀ pass, pass = (o && c && !f.testBad.getLsbD g.val) →
          d'.guardProven g = pass ∧ d'.saf.provenCh.getLsbD (2 * g.val) = pass ∧
          d'.saf.provenCh.getLsbD (2 * g.val + 1) = pass) ∧ (∀ h : Fin 4, h ≠ g → d'.guardProven h = s.dev.guardProven h) ∧
        (o = true → c = true → f.testBad.getLsbD g.val = false → fired 46 d') ∧
        (o = false ∨ c = false ∨ f.testBad.getLsbD g.val = true → fired 47 d' ∧ d'.saf.seenOpen.getLsbD (2 * g.val) = !s.dev.closedA g ∧
          d'.saf.seenOpen.getLsbD (2 * g.val + 1) = !s.dev.closedB g)) ∧
    (s.dev.inRun = true → s.dev.seq.drover = .openS → s.dev.guardUsed g = true → s.dev.guardSwitch g = true →
      s.dev.guardProven g = false → f.latch = false → f.testing.getLsbD g.val = false →
      endsIn (.guardRetest g) s { s.dev with saf := t }) ∧
    ((s.dev.inRun = false ∨ s.dev.seq.drover ≠ .openS ∨ s.dev.guardUsed g = false ∨ s.dev.guardSwitch g = false ∨
        s.dev.guardProven g = true ∨ f.latch = true ∨ f.testing.getLsbD g.val = true) →
      does (.guardRetest g) s s.dev) ∧
    endsIn .permissionRefreshMissed s { s.dev with saf := { f with missing := max 2 f.missing, granted := false } }

/-! ### Toll -/

/-- R29, R383, R384, R387, R390, R405, R406 and R430. OPEN and RESUME are refused with the first reason of R383 that
holds, in TOL_STAT.REFUSE, and with its code; accepted they pull K4 in and consume no session ID. CLOSE is refused in
HOLD; it returns DONE without a session and while it closes, refuses an opening session with no record, starts the end
of an active one, and seals the end record of a suspended one at once in Run; elsewhere it waits. An interim record
falls due only in a session that meters and when T_int has passed, and the next frame boundary freezes it where an
entry is free. SNAPSHOT is refused outside Run, in Bench and where no entry is free, and freezes one record otherwise.
The model's own readings: a command stands for its frame boundary (notes/assumptions/7.md); result codes at their
corners (notes/assumptions/54.md); records that wait (notes/assumptions/55.md). -/
def Obligations.SessionCommands : Prop :=
  ∀ (s : State) (tok : Byte) (d : Dev), d = s.dev →
    (takes d .tol tok →
      (∃ d' code, exec (.sessionOpen tok) s = .next { s with dev := d' } ∧ sessionAsked .none_ tok d d' code) ∧
      (∃ d' code, exec (.tolResume tok) s = .next { s with dev := d' } ∧ sessionAsked .suspended tok d d' code)) ∧
    (takes d .tol tok →
      (d.seq.drover = .hold → does (.sessionClose tok) s (commanded d .tol tok 0x02 0x11 Dev.drainRecords)) ∧
      (d.seq.drover ≠ .hold →
        ((d.tol.session = .none_ ∨ d.tol.session = .closing) →
          does (.sessionClose tok) s (commanded d .tol tok 0x02 0x00 Dev.drainRecords)) ∧
        (d.tol.session = .opening → d.tol.due = [] → d.lgr.waitingAudit = [] →
          ∃ d', exec (.sessionClose tok) s = .next { s with dev := d' } ∧
          d'.tol.session = (if d.tol.resuming then .suspended else .none_) ∧ d'.lgr = d.lgr ∧
          d'.tol.sessionId = d.tol.sessionId ∧ fired 50 d' ∧
          ((d'.coil.get 3).phase = .releasing ∨ (d'.coil.get 3).phase = .released) ∧
          d'.cmds.tol.result = word (place tok.toNat 16 + 0x00)) ∧
        (d.tol.session = .active → d.tol.due = [] → d.lgr.waitingAudit = [] →
          ∃ d', exec (.sessionClose tok) s = .next { s with dev := d' } ∧
          d'.tol.session = .closing ∧ d'.seq.grace = true ∧ d'.seq.sessionEnding = true ∧ d'.seq.drover = d.seq.drover ∧
          d'.coil = d.coil ∧ d'.lgr = d.lgr ∧ fired 50 d' ∧ d'.cmds.tol.result = word (place tok.toNat 16 + 0x01)) ∧
        (d.tol.session = .suspended → d.tol.suspendDue = false → d.tol.due = [] → d.lgr.waitingAudit = [] →
          (d.inRun = true → d.runState ≠ .bench → 1 ≤ d.stagingFree →
            ∃ d' b, exec (.sessionClose tok) s = .next { s with dev := d' } ∧ d'.tol.session = .none_ ∧
              d'.lgr.signing = d.lgr.signing ++ [{ seq := d.lgr.next, body := b }] ∧ b[5]? = some 0x03 ∧
              d'.lgr.next = d.lgr.next + 1 ∧ fired 50 d' ∧ d'.cmds.tol.result = word (place tok.toNat 16 + 0x00)) ∧
          ((d.inRun = false ∨ d.runState = .bench ∨ d.stagingFree = 0) →
            ∃ d', exec (.sessionClose tok) s = .next { s with dev := d' } ∧ d'.tol.session = .closing ∧
              d'.tol.due = [.ended] ∧ d'.lgr = d.lgr ∧ fired 50 d' ∧
              d'.cmds.tol.result = word (place tok.toNat 16 + 0x00))))) ∧
    ((d.inRun = false ∨ (d.tol.session ≠ .active ∧ d.tol.session ≠ .closing) ∨ d.sup.rtc.toNat < d.tol.intEnd ∨
        TollRecord.ended ∈ d.tol.due) →
      does .interimRecordDue s d) ∧
    (d.inRun = true → (d.tol.session = .active ∨ d.tol.session = .closing) → d.tol.intEnd ≤ d.sup.rtc.toNat →
      TollRecord.ended ∉ d.tol.due →
      does .interimRecordDue s { d with tol := { d.tol with
        intFrom := BitVec.ofNat 48 d.tol.intEnd, tInt := field d.tol.cfg 0 6
        due := if TollRecord.interim ∈ d.tol.due then d.tol.due else d.tol.due ++ [.interim] } }) ∧
    (d.inRun = true → d.runState ≠ .bench → 1 ≤ d.stagingFree → d.tol.due = [.interim] → d.lgr.waitingAudit = [] →
      ∃ b, d.drainRecords.lgr.signing = d.lgr.signing ++ [{ seq := d.lgr.next, body := b }] ∧ b[5]? = some 0x02 ∧
        d.drainRecords.lgr.next = d.lgr.next + 1 ∧ d.drainRecords.tol.recordNo = satInc 0xFFFF d.tol.recordNo ∧
        d.drainRecords.tol.due = [] ∧ d.drainRecords.tol.session = d.tol.session) ∧
    (takes d .tol tok →
      ((d.inRun = false ∨ d.runState = .bench) →
        does (.snapshot tok) s (commanded d .tol tok 0x04 0x10 Dev.drainRecords)) ∧
      (d.inRun = true → d.runState ≠ .bench →
        ((accepted d tok 0x04).drainRecords.canStageAudit = false →
          does (.snapshot tok) s (commanded d .tol tok 0x04 0x14 fun d => d.drainRecords.drainRecords)) ∧
        (d.tol.due = [] → d.lgr.waitingAudit = [] → d.canStageAudit = true →
          ∃ d', exec (.snapshot tok) s = .next { s with dev := d' } ∧
          d'.lgr.signing = d.lgr.signing ++
            [{ seq := d.lgr.next, body := d.recordBody 6 d.lgr.next (field d.tol.cfg 16 8) (be 6 d.localTime) }] ∧
          d'.lgr.next = d.lgr.next + 1 ∧ d'.tol.session = d.tol.session ∧
          d'.cmds.tol.result = word (place tok.toNat 16 + 0x00))))

/-- R396 to R398, R404, R433, R572 and R581. CAL_OPEN is refused while a session is open and while the enclosure is
closed; the seal opens and closes with an event and its audit record. The enclosure is closed with SEAL0 low and SEAL1
high alone; an opening is kept, marks a session and is recorded, or its time is kept where nothing can be; a closing
closes the seal. A sealed field changes only with the seal open and an audit record that carries address, old and new
value; a write that leaves the sealed fields as they are needs neither. A record waits for the frame boundary while
frames run, and is frozen at once elsewhere. The model's own readings: a command stands for its frame boundary
(notes/assumptions/7.md); audits that wait (notes/assumptions/55.md). -/
def Obligations.SealAndSealedParameters : Prop :=
  ∀ (s : State) (tok : Byte) (a b : Bool) (data : Word) (d : Dev), d = s.dev →
    (takes d .tol tok →
      (d.tol.session ≠ .none_ → does (.calOpen tok) s (commanded d .tol tok 0x05 0x14 Dev.drainRecords)) ∧
      (d.tol.session = .none_ → d.tol.enclOpen = false →
        does (.calOpen tok) s (commanded d .tol tok 0x05 0x12 Dev.drainRecords)) ∧
      (d.tol.session = .none_ → d.tol.enclOpen = true → d.tol.sealOpen = true →
        does (.calOpen tok) s (commanded d .tol tok 0x05 0x00 Dev.drainRecords)) ∧
      (d.tol.session = .none_ → d.tol.enclOpen = true → d.tol.sealOpen = false →
        ∃ d', exec (.calOpen tok) s = .next { s with dev := d' } ∧ d'.tol.sealOpen = true ∧ fired 52 d' ∧
          d'.cmds.tol.result = word (place tok.toNat 16 + 0x00) ∧
          (d.recordsRun = true → 1 ≤ d.stagingFree → d.tol.due = [] → d.lgr.waitingAudit = [] →
            d'.lgr.next = d.lgr.next + 1 ∧ d'.lgr.waitingAudit = []) ∧
          (d.stagingFree = 0 → d'.lgr.waitingAudit = d.lgr.waitingAudit ++ [(2, [])] ∧ d'.lgr.next = d.lgr.next)) ∧
      (d.tol.sealOpen = false → does (.calClose tok) s (commanded d .tol tok 0x06 0x00 Dev.drainRecords)) ∧
      (d.tol.sealOpen = true → ∃ d', exec (.calClose tok) s = .next { s with dev := d' } ∧ d'.tol.sealOpen = false ∧
        fired 52 d' ∧ d'.cmds.tol.result = word (place tok.toNat 16 + 0x00) ∧
        (d.recordsRun = true → d.canStageAudit = true → d.tol.due = [] → d.lgr.waitingAudit = [] →
          d'.lgr.next = d.lgr.next + 1) ∧
        (d.canStage 0 = false → d.tol.due = [] → d'.lgr.waitingAudit = d.lgr.waitingAudit ++ [(3, [])]))) ∧
    ((d.tol.enclOpen = !(!a && b)) → does (.enclosureChange a b) s { d with tol := { d.tol with seal0 := a, seal1 := b } }) ∧
    (d.vaoUp = false → does (.enclosureChange a b) s { d with tol := { d.tol with
      seal0 := a, seal1 := b, enclOpen := !(!a && b) } }) ∧
    (d.vaoUp = true → d.tol.enclOpen = false → (!a && b) = false → ∃ d', exec (.enclosureChange a b) s = .next { s with dev := d' } ∧
      d'.tol = { d.tol with
        seal0 := a, seal1 := b, enclOpen := true, opened := true, tamper := d.tol.tamper || decide (d.tol.session ≠ .none_)
        sessionTamper := d.tol.sessionTamper || decide (d.tol.session ≠ .none_), openings := d'.tol.openings
        marks := d'.tol.marks } ∧
      (d.alive = true → fired 52 d') ∧
      ((d.alive = false ∨ (d.inRun = false ∧ d.recordsRun = false)) →
        d'.tol.openings = d.tol.openings ++ [d.sup.rtc] ∧ d'.lgr = d.lgr) ∧
      (d.alive = true → (d.inRun = true ∨ d.recordsRun = true) → d'.tol.openings = d.tol.openings ∧
        (d.framesRun = true → d'.lgr = { d.lgr with waitingAudit := d.lgr.waitingAudit ++ [(4, [])] }) ∧
        (d.framesRun = false → d.recordsRun = true → d.canStageAudit = true → d.lgr.waitingAudit = [] →
          d'.lgr.next = d.lgr.next + 1 ∧ d'.lgr.waitingAudit = []) ∧
        (d.canStage 0 = false → d'.lgr.waitingAudit = d.lgr.waitingAudit ++ [(4, [])]))) ∧
    (d.vaoUp = true → d.tol.enclOpen = true → (!a && b) = true → ∃ d', exec (.enclosureChange a b) s = .next { s with dev := d' } ∧
      d'.tol.enclOpen = false ∧ d'.tol.sealOpen = false ∧ (d.alive = true → fired 52 d') ∧
      (d.tol.sealOpen = false → d'.lgr = d.lgr) ∧
      (d.tol.sealOpen = true → d.framesRun = true →
        d'.lgr = { d.lgr with waitingAudit := d.lgr.waitingAudit ++ [(3, [])] }) ∧
      (d.tol.sealOpen = true → d.framesRun = false → d.recordsRun = true → d.canStageAudit = true →
        d.lgr.waitingAudit = [] → d'.lgr.next = d.lgr.next + 1)) ∧
    (∀ x ∈ [((0x192 : Nat), d.tol.gainV, (0xFFFFFF : Word), (0 : Word), true, fun (w : Word) (t : Toll) => { t with gainV := w }),
        (0x193, d.tol.ofsV, 0xFFFFFF, 0, true, fun w t => { t with ofsV := w }),
        (0x194, d.tol.gainI, 0xFFFFFF, 0, true, fun w t => { t with gainI := w }),
        (0x195, d.tol.ofsI, 0xFFFFFF, 0, true, fun w t => { t with ofsI := w }),
        (0x196, d.tol.rcable, 0x00FFFF, 0, true, fun w t => { t with rcable := w }),
        (0x197, d.tol.pulse, 0x01FFFF, 0, decide (100 ≤ field data 0 17 ∧ field data 0 17 ≤ 100000), fun w t => { t with pulse := w }),
        (0x198, d.tol.cfg, 0xFFFF00, 0x00003F,
          decide (-48 ≤ signedField data 16 8 ∧ signedField data 16 8 ≤ 56 ∧ 1 ≤ field data 8 8 ∧ 1 ≤ field data 0 6 ∧
            field data 0 6 ≤ 60), fun w t => { t with cfg := w })],
      serves d x.1 →
        (x.2.2.2.2.1 = false → does (.rwsWrite (BitVec.ofNat 12 x.1) data) s (writeRefused d x.1 4)) ∧
        (x.2.2.2.2.1 = true → x.2.1 &&& x.2.2.1 = data &&& x.2.2.1 →
          does (.rwsWrite (BitVec.ofNat 12 x.1) data) s (written d x.1 fun d =>
            { d with tol := x.2.2.2.2.2 (mergeBits x.2.1 data (x.2.2.1 ||| x.2.2.2.1)) d.tol })) ∧
        (x.2.2.2.2.1 = true → x.2.1 &&& x.2.2.1 ≠ data &&& x.2.2.1 →
          (d.tol.sealOpen = false ∨ d.canStageAudit = false ∨ 0xFFFFFF ≤ d.tol.audit) →
          does (.rwsWrite (BitVec.ofNat 12 x.1) data) s (writeRefused d x.1 4)) ∧
        (x.2.2.2.2.1 = true → x.2.1 &&& x.2.2.1 ≠ data &&& x.2.2.1 → d.tol.sealOpen = true → d.canStageAudit = true →
          d.tol.audit < 0xFFFFFF →
          ∃ d' area, exec (.rwsWrite (BitVec.ofNat 12 x.1) data) s = .next { s with dev := d' } ∧
            d'.tol = { x.2.2.2.2.2 (mergeBits x.2.1 data (x.2.2.1 ||| x.2.2.2.1)) d.tol with
              audit := d.tol.audit + 1, paramBad := false, pdig := d'.tol.pdig, marks := d'.tol.marks } ∧
            area = be 2 x.1 ++ be 3 x.2.1.toNat ++ be 3 (mergeBits x.2.1 data (x.2.2.1 ||| x.2.2.2.1)).toNat ∧
            (d.framesRun = true → d'.lgr = { d.lgr with waitingAudit := d.lgr.waitingAudit ++ [(1, area)] }) ∧
            (d.framesRun = false → d.recordsRun = true → d.lgr.waitingAudit = [] →
              ∃ body, d'.lgr.signing = d.lgr.signing ++ [{ seq := d.lgr.next, body := body }] ∧
                (body.drop 112).take 9 = be 1 1 ++ area) ∧
            d'.hst.resp.err = 0 ∧ d'.hst.resp.seq = d.hst.frame + 1)) ∧
    (∀ addr : Addr, (addr.toNat < 0x192 ∨ 0x198 < addr.toNat) → does (.rwsWrite addr data) s d)

/-- R392, R394 and R395. A meter stop ends after 10 frames without either condition, with its event, and not before. An
owed impulse is emitted in Run alone. The model's own readings: a row without its trigger (notes/assumptions/1.md). -/
def Obligations.MeterStopAndImpulse : Prop :=
  ∀ (s : State) (t : Toll), t = s.dev.tol →
    ((t.stop = false ∨ t.stopInput = true ∨ t.stopStaging = true ∨ t.absent < 10) → does .meterStopEnd s s.dev) ∧
    (t.stop = true → t.stopInput = false → t.stopStaging = false → 10 ≤ t.absent →
      ∃ d', exec .meterStopEnd s = .next { s with dev := d' } ∧ d'.tol = { t with stop := false, marks := t.marks ||| 0x20 } ∧
        fired 51 d' ∧
        Keeps [.tol, .can0, .can1] s.dev d') ∧
    ((s.dev.inRun = false ∨ t.owed = 0) → does .impulse s s.dev) ∧
    (s.dev.inRun = true → 0 < t.owed → does .impulse s { s.dev with tol := { t with owed := t.owed - 1 } })

/-! ### Ledger -/

/-- R89, R411, R412 and R417 to R421. Signing seals the oldest frozen record: its body, CRC-32 and signature. A commit
writes the marker WRITING and bytes 0 to 251 into the record's slot and nothing else, with the depot's domain started
for it where it is stopped, and not while the depot is busy nor beyond LGR_ACK + 1536; after a failed one the tries of
every 100 ms take its place. At its end a matching read-back writes the marker COMMITTED and the next header copy,
frees the entry and queues the event; a second mismatch keeps the entry, sets DEPOT_ERR and reports it. The model's
own readings: counts and the header's next number (notes/assumptions/56.md); signatures (notes/assumptions/67.md). -/
def Obligations.CommitProtocol : Prop :=
  ∀ (s : State) (l : Ledger), l = s.dev.lgr → depotCanonical s →
    (l.signing = [] → does .recordSigned s s.dev) ∧
    (∀ r rest body, l.signing = r :: rest → body = fit 184 r.body → does .recordSigned s { s.dev with lgr := { l with
      signing := rest
      staging := l.staging ++
        [⟨r.seq, body ++ be 4 (crc32 body).toNat ++ fit 64 (deviceSign r.seq (sha256 body))⟩] } }) ∧
    (∀ c tries, (c = .ledgerCommit ∧ tries = false) ∨ (c = .commitRetry ∧ tries = true) →
      (l.depotErr ≠ tries ∨ l.staging = [] ∨ l.committing = true ∨
          (s.dev.sup.doms.dep = true ∧ s.dev.dep.busy ≠ none) ∨ (s.dev.sup.doms.dep = false ∧ s.dev.mayStart = false)) →
        does c s s.dev) ∧
    (∀ r rest, l.staging = r :: rest → l.ack + 1536 < r.seq → does .ledgerCommit s s.dev ∧ does .commitRetry s s.dev) ∧
    (∀ r rest, l.depotErr = false → l.staging = r :: rest → l.committing = false → s.dev.dep.busy = none →
      (s.dev.sup.doms.dep = true ∨ s.dev.mayStart = true) → r.seq ≤ l.ack + 1536 →
      ∃ d', exec .ledgerCommit s = .next { s with dev := d' } ∧ commitBegun r s.dev d') ∧
    (∀ r rest, l.depotErr = true → l.staging = r :: rest → l.committing = false → s.dev.dep.busy = none →
      (s.dev.sup.doms.dep = true ∨ s.dev.mayStart = true) → r.seq ≤ l.ack + 1536 →
      ∃ d', exec .commitRetry s = .next { s with dev := d' } ∧ commitBegun r s.dev d') ∧
    (∀ a b, l.committing = false → does (.ledgerCommitEnd a b) s s.dev) ∧
    (∀ a b r rest, l.committing = true → l.staging = r :: rest → (a = true ∨ b = true) →
      ∃ d', exec (.ledgerCommitEnd a b) s = .next { s with dev := d' } ∧
        d'.lgr = { l with commit := r.seq, staging := rest, depotErr := false, committing := false, gen := l.gen + 1 } ∧
        d'.dep.busy = none ∧ fired 53 d' ∧ d'.dep.err0 = (if a then s.dev.dep.err0 else satInc 4095 s.dev.dep.err0) ∧
        d'.cs0 (0x20000 + 256 * (r.seq % 1536) + 252) 4 = [0x5A, 0x5A, 0x5A, 0x5A] ∧
        d'.cs0 (32 * ((l.gen + 1) % 2)) 20 = be 4 0x46564C48 ++ be 4 (l.gen + 1) ++ be 4 (r.seq + 1) ++ be 4 l.ack ++ be 4 0 ∧
        d'.headerCopy ((l.gen + 1) % 2) = some ((l.gen + 1) % 2 ^ 32, (r.seq + 1) % 2 ^ 32, l.ack % 2 ^ 32) ∧
        keepsOutside cs0Default s.dev.dep.cs0 d'.dep.cs0
          [(0x20000 + 256 * (r.seq % 1536) + 252, 4), (32 * ((l.gen + 1) % 2), 24)]) ∧
    (∀ r rest, l.committing = true → l.staging = r :: rest →
      ∃ d', exec (.ledgerCommitEnd false false) s = .next { s with dev := d' } ∧
        d'.lgr = { l with depotErr := true, committing := false } ∧ d'.dep.busy = none ∧ fired 55 d' ∧
        d'.dep.cs0 = s.dev.dep.cs0 ∧ d'.dep.err0 = satInc 4095 (satInc 4095 s.dev.dep.err0))

/-- R422, R428 and R432. ACK of a number above LGR_COMMIT is refused with 0x12, of one at or below LGR_ACK returns DONE
without effect, and otherwise moves LGR_ACK and writes a header copy, or leaves that write to the transactions that
wait, waiting while a commit runs. In Run the next unacknowledged committed record is checked once the depot, started
for it, is free of the other classes: a correct CRC changes nothing, and a wrong one is judged once by its signature,
counted, reported, and shown in LGR_BAD where it is the newest; the slot is never rewritten. The model's own readings:
starting the depot (notes/assumptions/11.md); counts (notes/assumptions/56.md); signatures (notes/assumptions/67.md). -/
def Obligations.AckAndRecordCheck : Prop :=
  ∀ (s : State) (tok : Byte) (l : Ledger) (v : Nat), l = s.dev.lgr → v = field l.acksetHi 0 8 * 2 ^ 24 + l.acksetLo.toNat →
    (takes s.dev .lgr tok →
      (l.commit < v → does (.ack tok) s (commanded s.dev .lgr tok 0x01 0x12 id)) ∧
      (v ≤ l.commit → v ≤ l.ack → does (.ack tok) s (commanded s.dev .lgr tok 0x01 0x00 id)) ∧
      (v ≤ l.commit → l.ack < v → l.committing = true →
        does (.ack tok) s (commanded s.dev .lgr tok 0x01 0x00 fun d => { d with lgr := { l with ackDue := some v } })) ∧
      (v ≤ l.commit → l.ack < v → l.committing = false → depotCanonical s →
        ∃ d', exec (.ack tok) s = .next { s with dev := d' } ∧ d'.lgr = { l with
            ack := v, ackDue := none, gen := l.gen + 1, judged := l.judged.filter (fun n => decide (v < n)), armed := d'.lgr.armed } ∧
          d'.cmds.lgr.result = word (place tok.toNat 16 + 0x00) ∧
          (s.dev.needDepot.depotFree = true → s.dev.dep.jobs = [] → d'.dep.jobs = [] ∧
            d'.headerCopy ((l.gen + 1) % 2) = some ((l.gen + 1) % 2 ^ 32, (l.commit + 1) % 2 ^ 32, v % 2 ^ 32) ∧
            keepsOutside cs0Default s.dev.dep.cs0 d'.dep.cs0 [(32 * ((l.gen + 1) % 2), 24)]) ∧
          ((s.dev.needDepot.depotFree = false ∨ s.dev.dep.jobs ≠ []) → d'.dep.cs0 = s.dev.dep.cs0 ∧
            d'.dep.jobs = s.dev.dep.jobs ++
              [.bytes true (32 * ((l.gen + 1) % 2)) (headerBytes (l.gen + 1) (l.commit + 1) v)]))) ∧
    ((s.dev.inRun = false ∨ s.dev.powerFailing = true ∨ s.dev.insp.halted = true ∨ l.commit ≤ l.ack) →
      does .recordCheck s s.dev) ∧
    (s.dev.inRun = true → s.dev.powerFailing = false → s.dev.insp.halted = false → l.ack < l.commit →
      (s.dev.needDepot.depotFree = false ∨ s.dev.dep.jobs ≠ [] ∨ ∃ t ∈ s.dev.dep.waiting, t ≠ .lifetime) →
      does .recordCheck s s.dev.needDepot) ∧
    (∀ n b, s.dev.inRun = true → s.dev.powerFailing = false → s.dev.insp.halted = false → l.ack < l.commit →
      s.dev.needDepot.depotFree = true → s.dev.dep.jobs = [] → (∀ t ∈ s.dev.dep.waiting, t = .lifetime) →
      n = (if l.ack < l.cursor ∧ l.cursor ≤ l.commit then l.cursor else l.ack + 1) →
      b = s.dev.cs0 (0x20000 + 256 * (n % 1536)) 256 →
      ((ofBe (slice 184 4 b) = (crc32 (slice 0 184 b)).toNat ∨ n ∈ l.judged) →
        does .recordCheck s { s.dev.needDepot with lgr := { l with cursor := n + 1 } }) ∧
      (ofBe (slice 184 4 b) ≠ (crc32 (slice 0 184 b)).toNat → n ∉ l.judged →
        ∀ ok : Bool, ok = ecdsaVerify deviceKey (sha256 (slice 0 184 b)) (slice 188 64 b) →
        endsFiring .recordCheck s 55 { s.dev.needDepot with lgr := { l with
          cursor := n + 1, judged := l.judged ++ [n], bad := word (max ((l.judged ++ [n]).foldl max 0) l.bad.toNat)
          damaged := if ok then satInc 255 l.damaged else l.damaged
          corruptCnt := if ok then l.corruptCnt else satInc 255 l.corruptCnt
          corrupt := l.corrupt || !ok } }))


/-! ### CAN -/

/-- R435, R438 to R444 and R464. The bus is offered the priority buffer first, then a due timetable entry, then the
head of the FIFO, which waits where the channel does not have its format; a frame that loses, a listen-only channel and
one that is off change nothing. A frame sent leaves its source with outcome 0 and closes the episode. A failed attempt
opens the episode, costs the transmitter 8, and keeps the frame with one attempt more while the budget lasts; beyond it
the frame is dropped, counted and reported, and one cancelled on the bus leaves with the cancel's outcome; a frame of
the Golner's own that a newer instance has replaced goes away uncounted unless its budget is used; above 255 the
channel is bus-off and the attempt does not count. The model's own readings: error counts, PRESUMED from ISO 11898-1
(notes/assumptions/57.md); retries (notes/assumptions/58.md). -/
def Obligations.CanTransmission : Prop :=
  ∀ (s : State) (ch : Ch) (c : Can), c = s.dev.can ch →
    ((s.dev.canLive ch = false ∨ bit c.cfg 18 = true ∨ c.onBus ≠ none) → ∀ won, does (.arbitration ch won) s s.dev) ∧
    does (.arbitration ch false) s s.dev ∧
    (s.dev.canLive ch = true → bit c.cfg 18 = false → c.onBus = none →
      (∀ x rest, c.prio = x :: rest → does (.arbitration ch true) s (s.dev.tick.setCan ch { c with
        prio := rest, onBus := some { source := .priority x.kind, frame := x.frame, tries := x.tries } })) ∧
      (c.prio = [] → c.dueEntries ≠ [] → ∃ j ∈ c.dueEntries, does (.arbitration ch true) s (s.dev.tick.setCan ch { c with
        onBus := some { source := .timetable j, frame := (c.tt.get j).frame, tries := (c.tt.get j).tries } })) ∧
      (∀ f rest, c.prio = [] → c.dueEntries = [] → c.fifo = f :: rest →
        (f.frame.fdf = false ∨ (bit c.cfg 22 = true ∧ f.frame.rtr = false) →
          does (.arbitration ch true) s (s.dev.tick.setCan ch { c with
            onBus := some { source := .fifo, frame := f.frame, tries := f.tries } })) ∧
        (f.frame.fdf = true → (bit c.cfg 22 = false ∨ f.frame.rtr = true) → does (.arbitration ch true) s s.dev)) ∧
      (c.prio = [] → c.dueEntries = [] → c.fifo = [] → does (.arbitration ch true) s s.dev)) ∧
    ((c.onBus = none ∨ s.dev.canLive ch = false) → ∀ sent, does (.txAttemptEnd ch sent) s s.dev) ∧
    (∀ o, c.onBus = some o → s.dev.canLive ch = true →
      (∃ d' c', exec (.txAttemptEnd ch true) s = .next { s with dev := d' } ∧ c' = d'.can ch ∧ c'.onBus = none ∧
        c'.lastSent = some o.frame ∧ c'.episode = none ∧ c'.txfail = c.txfail ∧ c'.tec = min (c.tec - 1) 255 ∧
        c'.retries = (if 0 < o.tries then satInc 4095 c.retries else c.retries) ∧
        (∀ k, o.source = .priority k → c'.prio = c.prio ∧ c'.fifo = c.fifo) ∧
        (∀ j, o.source = .timetable j → (c'.tt.get j).due = (c.tt.get j).again ∧ (c'.tt.get j).tries = 0 ∧
          ∀ i, i ≠ j → c'.tt.get i = c.tt.get i) ∧
        (∀ f rest, o.source = .fifo → c.fifo = f :: rest → c'.fifo = c.fifo.filter (fun x => decide (x.tag ≠ f.tag)) ∧
          c'.lastTag = f.tag ∧ c'.lastOut = 0)) ∧
      (∀ k, o.source = .priority k → c.state = 0 → c.tec + 8 ≤ 255 → o.cancel = none →
        ∃ d' c', exec (.txAttemptEnd ch false) s = .next { s with dev := d' } ∧ c' = d'.can ch ∧ c'.onBus = none ∧
          c'.fifo = c.fifo ∧
          (field c.cfg 0 4 ≤ o.tries → c'.prio = c.prio ∧ c'.txfail = satInc 4095 c.txfail ∧ fired 59 d') ∧
          (o.tries < field c.cfg 0 4 → c'.txfail = c.txfail ∧
            ((∃ x ∈ c.prio, x.kind = k) → c'.prio = c.prio) ∧
            ((∀ x ∈ c.prio, x.kind ≠ k) → c.enabled k = true →
              { kind := k, frame := o.frame, tries := o.tries + 1 } ∈ c'.prio))) ∧
      (∀ f rest, o.source = .fifo → c.fifo = f :: rest → c.state = 0 →
        (255 < c.tec + 8 → o.cancel = none →
          ∃ d' c', exec (.txAttemptEnd ch false) s = .next { s with dev := d' } ∧ c' = d'.can ch ∧ c'.state = 2 ∧
            c'.onBus = none ∧ c'.fifo = { f with tries := o.tries } :: rest ∧ c'.retries = c.retries ∧
            c'.txfail = c.txfail ∧ fired 56 d') ∧
        (c.tec + 8 ≤ 255 → ∃ d' c', exec (.txAttemptEnd ch false) s = .next { s with dev := d' } ∧ c' = d'.can ch ∧
          c'.onBus = none ∧ c'.tec = c.tec + 8 ∧ c'.episode.isSome = true ∧
          c'.retries = (if 0 < o.tries then satInc 4095 c.retries else c.retries) ∧
          (127 < c.tec + 8 → c'.state = 1 ∧ fired 56 d') ∧
          (o.cancel = none → o.tries < field c.cfg 0 4 →
            c'.fifo = { f with tries := o.tries + 1 } :: rest ∧ c'.txfail = c.txfail) ∧
          (o.cancel = none → field c.cfg 0 4 ≤ o.tries → c'.fifo = c.fifo.filter (fun x => decide (x.tag ≠ f.tag)) ∧
            c'.lastTag = f.tag ∧ c'.lastOut = 1 ∧ c'.txfail = satInc 4095 c.txfail ∧ fired 59 d') ∧
          (∀ out, o.cancel = some out → c'.fifo = c.fifo.filter (fun x => decide (x.tag ≠ f.tag)) ∧
            c'.lastTag = f.tag ∧ c'.lastOut = out ∧ c'.txfail = c.txfail))))

/-- R445, R456, R461, R463, R464 and R527. An error raises the receive error count and opens the channel's episode, in
selective wake the detector's count. Bus-off stops a live channel with every frame in place; the recovery starts at
once with BO_AUTO or at BO_RECOVER, and its end brings the channel back error-active; each change queues the event. A
host message timeout in Run with EN, in a frame in which no success has come first (R527), raises fault 36, is counted,
and cancels the remaining retries with outcome 3. The model's own readings: error counts, PRESUMED from ISO 11898-1
(notes/assumptions/57.md); host timeout, BO_RECOVER (notes/assumptions/60.md). -/
def Obligations.CanErrors : Prop :=
  ∀ (s : State) (ch : Ch) (tok : Byte) (c : Can), c = s.dev.can ch →
    (s.dev.canLive ch = true → ∃ d' c', exec (.canErrorFrame ch) s = .next { s with dev := d' } ∧ c' = d'.can ch ∧
      c' = { c with
        tec := min c.tec 255, rec_ := min (c.rec_ + 1) 255, episode := c'.episode
        state := if 127 < c.tec ∨ 127 < c.rec_ + 1 then 1 else 0 } ∧ c'.episode.isSome = true ∧
      (∀ e, c.episode = some e → c'.episode = some e) ∧ (c'.state ≠ c.state → fired 56 d')) ∧
    (s.dev.canLive ch = false → s.dev.mode.mode = .watch → ch = .can0 → bit s.dev.mode.wakecfg 1 = true →
      does (.canErrorFrame ch) s { s.dev with wakeDet := { s.dev.wakeDet with errors := satInc 32 s.dev.wakeDet.errors } }) ∧
    (s.dev.canLive ch = false → (s.dev.mode.mode ≠ .watch ∨ ch = .can1 ∨ bit s.dev.mode.wakecfg 1 = false) →
      does (.canErrorFrame ch) s s.dev) ∧
    (s.dev.canLive ch = false → does (.busOff ch) s s.dev) ∧
    (s.dev.canLive ch = true → ∃ d' c', exec (.busOff ch) s = .next { s with dev := d' } ∧ c' = d'.can ch ∧
      c'.state = 2 ∧ c'.recovering = bit c.cfg 20 ∧ c'.onBus = none ∧ c'.retries = c.retries ∧ c'.txfail = c.txfail ∧
      c'.episode.isSome = true ∧ fired 56 d' ∧
      (c.onBus = none → c'.fifo = c.fifo ∧ c'.prio = c.prio ∧ c'.tt = c.tt) ∧
      (∀ o f rest, c.onBus = some o → o.cancel = none → o.source = .fifo → c.fifo = f :: rest →
        c'.fifo = { f with tries := o.tries } :: rest)) ∧
    ((s.dev.sup.doms.can = false ∨ c.state ≠ 2 ∨ c.recovering = false) → does (.busOffRecovered ch) s s.dev) ∧
    (s.dev.sup.doms.can = true → c.state = 2 → c.recovering = true →
      endsFiring (.busOffRecovered ch) s 56 (s.dev.setCan ch { c with state := 0, tec := 0, rec_ := 0, recovering := false })) ∧
    (takes s.dev (canReg ch) tok → does (.boRecover ch tok) s (commanded s.dev (canReg ch) tok 0x05 0x00 fun d =>
      d.setCan ch { c with recovering := c.recovering || decide (c.state = 2) })) ∧
    ((s.dev.inRun = false ∨ bit c.hcfg 23 = false ∨ c.succeeded = true) → does (.hostMessageTimeout ch) s s.dev) ∧
    (s.dev.inRun = true → bit c.hcfg 23 = true → c.succeeded = false →
      ∃ d' c', exec (.hostMessageTimeout ch) s = .next { s with dev := d' } ∧ c' = d'.can ch ∧ c'.timedOut = true ∧
        c'.aliveCount = 0 ∧ c'.hto = satInc 255 c.hto ∧ d'.lim.active.getLsbD 36 = true ∧
        (∀ o, c.onBus = some o → 0 < o.tries → o.cancel = none → c'.onBus = some { o with cancel := some 3 }) ∧
        (∀ f rest, c.onBus = none → c.fifo = f :: rest → 0 < f.tries →
          c'.fifo = c.fifo.filter (fun x => decide (x.tag ≠ f.tag)) ∧ c'.lastTag = f.tag ∧ c'.lastOut = 3) ∧
        (∀ f rest, c.onBus = none → c.fifo = f :: rest → f.tries = 0 → c'.fifo = c.fifo))

/-- R448 to R453, R456, R460 and R461. A frame goes whole into the lowest-numbered mailbox whose filter matches, which
is marked, or was overwritten, counted and reported where it was marked already; else into the receive FIFO while
FIFO_EN is 1, and is dropped, counted and reported when that holds 64. The selective wake counts a classical frame and
ignores an FD one. HOST_ALIVE of a new byte 0 counts towards the
three that end a timeout; SLEEP acts as WATCH where that is allowed and is reported otherwise. RX_POP removes the head,
and CANx_RXDAT reads group IDX and moves on. The model's own readings: SLEEP and the call (notes/assumptions/35.md); FD
errors (notes/assumptions/59.md); host timeout, SLEEP (notes/assumptions/60.md). -/
def Obligations.CanReception : Prop :=
  ∀ (s : State) (ch : Ch) (f : CanFrame) (tok : Byte) (c : Can), c = s.dev.can ch →
    (s.dev.detecting ch = false → f.fdf = true → (bit c.cfg 22 = false ∨ f.rtr = true) →
      exec (.canFrameReceived ch f) s = exec (.canErrorFrame ch) s) ∧
    (s.dev.detecting ch = false → s.dev.canLive ch = true → (f.fdf = false ∨ (bit c.cfg 22 = true ∧ f.rtr = false)) →
      (∀ n : Fin 16, filterMatches (c.mbid.get n) (c.mbmask.get n) f = true →
        (∀ m, m < n → filterMatches (c.mbid.get m) (c.mbmask.get m) f = false) →
        ∃ d' c', exec (.canFrameReceived ch f) s = .next { s with dev := d' } ∧ c' = d'.can ch ∧
          c'.mbox = upd c.mbox n (some f) ∧ c'.mbnew = c.mbnew ||| BitVec.ofNat 16 (2 ^ n.val) ∧
          c'.rxfifo = c.rxfifo ∧ c'.episode = none ∧
          (c.mbnew.getLsbD n.val = false → c'.mblost = c.mblost) ∧
          (c.mbnew.getLsbD n.val = true → c'.mblost = satInc 255 c.mblost ∧ fired 58 d') ∧
          (bit c.pubcfg 21 = true → f.rtr = false → f.dlc ≠ 0 →
            (n = 0 → s.dev.inRun = true → bit c.hcfg 23 = true → c.aliveLast ≠ some (f.data.getD 0 0) → c.timedOut = true →
              c'.aliveLast = some (f.data.getD 0 0) ∧
              (c.aliveCount < 2 → c'.aliveCount = c.aliveCount + 1 ∧ c'.timedOut = true) ∧
              (2 ≤ c.aliveCount → c'.timedOut = false ∧
                (s.dev.can0.timedOut = false ∨ s.dev.can1.timedOut = false → d'.lim.active.getLsbD 36 = false))) ∧
            (n = 0 → c.aliveLast = some (f.data.getD 0 0) → c'.aliveCount = c.aliveCount ∧ c'.timedOut = c.timedOut) ∧
            (n = 1 → f.data.getD 0 0 = 1 → (s.dev.watchAllowed = true → d'.mode.entering = true) ∧
              (s.dev.watchAllowed = false → d'.mode = s.dev.mode ∧ fired 0 d')))) ∧
      ((∀ m : Fin 16, filterMatches (c.mbid.get m) (c.mbmask.get m) f = false) →
        ∃ d' c', exec (.canFrameReceived ch f) s = .next { s with dev := d' } ∧ c' = d'.can ch ∧ c'.mbox = c.mbox ∧
          c'.mbnew = c.mbnew ∧ c'.episode = none ∧
          (bit c.cfg 19 = false → c'.rxfifo = c.rxfifo) ∧
          (bit c.cfg 19 = true → c.rxfifo.length < 64 → c'.rxfifo = c.rxfifo ++ [f] ∧ c'.rxovr = c.rxovr) ∧
          (bit c.cfg 19 = true → 64 ≤ c.rxfifo.length → c'.rxfifo = c.rxfifo ∧ c'.rxovr = satInc 255 c.rxovr ∧
            fired 57 d'))) ∧
    (s.dev.mode.mode = .watch → ch = .can0 → bit s.dev.mode.wakecfg 1 = true →
      (f.fdf = true → does (.canFrameReceived ch f) s s.dev) ∧
      (f.fdf = false → does (.canFrameReceived ch f) s { s.dev with wakeDet := { s.dev.wakeDet with errors := s.dev.wakeDet.errors - 1 } })) ∧
    (s.dev.canLive ch = false → (s.dev.mode.mode ≠ .watch ∨ ch = .can1 ∨ bit s.dev.mode.wakecfg 1 = false) → f.fdf = false →
      does (.canFrameReceived ch f) s s.dev) ∧
    (takes s.dev (canReg ch) tok → does (.rxPop ch tok) s (commanded s.dev (canReg ch) tok 0x03 0x00 fun d =>
      d.setCan ch { c with rxfifo := c.rxfifo.drop 1 })) ∧
    (serves s.dev (canBase ch + 0x12) → ∃ c', does (.rxdatRead ch) s
        (answered ((framed s.dev).setCan ch c') 0 (match c.selected with
          | some g => wordOf g.data (field c.rxsel 0 5)
          | none => 0)) ∧
      c' = { c with rxsel := c'.rxsel } ∧ field c'.rxsel 0 5 = (field c.rxsel 0 5 + 1) % 32 ∧
      field c'.rxsel 8 5 = field c.rxsel 8 5)

/-- R440, R443, R446, R447, R458, R466, R467, R523 and R574. TX_QUEUE puts the staging frame at the tail under a tag
that no frame in the FIFO carries, and reports it; it is refused while the channel is off, while requests are shed or
the FIFO is full, and for a frame the channel does not have. TX_CANCEL removes a frame, or marks the one on the bus.
TT_LOAD loads an entry, at the attempt's end where it is on the bus, and never the entry of CELL_SUM. A due entry
competes, but CELL_SUM without its enable bit, and one that was not sent before is counted as missed. STATUS and
STEP_REQ go into the priority buffer of the channels that carry them. CNT_CLR clears the counters. The model's own
readings: disabled entries (notes/assumptions/41.md); entries due together (notes/assumptions/58.md); refusals
(notes/assumptions/59.md). -/
def Obligations.CanQueueAndTimetable : Prop :=
  ∀ (s : State) (ch : Ch) (tok : Byte) (j : Fin 32) (c : Can), c = s.dev.can ch →
    (takes s.dev (canReg ch) tok →
      (bit c.cfg 23 = false → does (.txQueue ch tok) s (commanded s.dev (canReg ch) tok 0x01 0x11 id)) ∧
      (bit c.cfg 23 = true → (s.dev.evt.shed = 3 ∨ c.shed = true) →
        ∃ d' c', exec (.txQueue ch tok) s = .next { s with dev := d' } ∧ c' = d'.can ch ∧
          c' = { c with shedSaid := c'.shedSaid } ∧ d'.dep.txref = satInc 4095 s.dev.dep.txref ∧
          (d'.cmds.get (canReg ch)).result = word (place tok.toNat 16 + 0x15)) ∧
      (bit c.cfg 23 = true → s.dev.evt.shed ≠ 3 → c.shed = false →
        (16 ≤ c.fifo.length → does (.txQueue ch tok) s (commanded s.dev (canReg ch) tok 0x01 0x15 id)) ∧
        (c.fifo.length < 16 → c.stagingFrame.fdf = true → (bit c.cfg 22 = false ∨ c.stagingFrame.rtr = true) →
          does (.txQueue ch tok) s (commanded s.dev (canReg ch) tok 0x01 0x12 id)) ∧
        (c.fifo.length < 16 → (c.stagingFrame.fdf = false ∨ (bit c.cfg 22 = true ∧ c.stagingFrame.rtr = false)) →
          c.nextTag < 32 →
          ∃ d' c' tag, exec (.txQueue ch tok) s = .next { s with dev := d' } ∧ c' = d'.can ch ∧ tag < 32 ∧
            (∀ x ∈ c.fifo, x.tag ≠ tag) ∧ c'.fifo = c.fifo ++ [{ tag := tag, frame := c.stagingFrame }] ∧
            c'.nextTag = (tag + 1) % 32 ∧ c'.shed = decide (field c.wmcfg 8 5 ≤ c.fifo.length + 1) ∧
            (d'.cmds.get (canReg ch)).result = word (place tok.toNat 16 + (place tag 8 + 0x00)))) ∧
      (c.tagOnBus c.arg = true → does (.txCancel ch tok) s (commanded s.dev (canReg ch) tok 0x02 0x00 fun d =>
        d.setCan ch { c with onBus := c.onBus.map fun o => { o with cancel := some (o.cancel.getD 2) } })) ∧
      (c.tagOnBus c.arg = false → (∃ x ∈ c.fifo, x.tag = c.arg) →
        ∃ d' c', exec (.txCancel ch tok) s = .next { s with dev := d' } ∧ c' = d'.can ch ∧
          c'.fifo = c.fifo.filter (fun x => decide (x.tag ≠ c.arg)) ∧ c'.lastTag = c.arg ∧ c'.lastOut = 2 ∧
          c'.onBus = c.onBus ∧ (d'.cmds.get (canReg ch)).result = word (place tok.toNat 16 + 0x00)) ∧
      (c.tagOnBus c.arg = false → (∀ x ∈ c.fifo, x.tag ≠ c.arg) →
        does (.txCancel ch tok) s (commanded s.dev (canReg ch) tok 0x02 0x12 id)) ∧
      (j.val = c.arg → c.carriesCells j = true → does (.ttLoad ch tok) s (commanded s.dev (canReg ch) tok 0x04 0x12 id)) ∧
      (j.val = c.arg → c.carriesCells j = false →
        ((∃ o, c.onBus = some o ∧ o.source = .timetable j) →
          does (.ttLoad ch tok) s (commanded s.dev (canReg ch) tok 0x04 0x00 fun d => d.setCan ch { c with
            tt := upd c.tt j { c.tt.get j with load := some (c.stagingFrame, false) } })) ∧
        ((∀ o, c.onBus = some o → o.source ≠ .timetable j) →
          does (.ttLoad ch tok) s (commanded s.dev (canReg ch) tok 0x04 0x00 fun d => d.setCan ch { c with
            tt := upd c.tt j { c.tt.get j with frame := c.stagingFrame, own := false } }))) ∧
      does (.canCntClr ch tok) s (commanded s.dev (canReg ch) tok 0x06 0x00 fun d => d.setCan ch { c with
        retries := 0, txfail := 0, rxovr := 0, mblost := 0, hto := 0, missed := 0, ovf := 0 })) ∧
    ((s.dev.sup.doms.can = false ∨ bit c.ttcfg 23 = false ∨ bit (c.tt.get j).ent 23 = false ∨
        field (c.tt.get j).ent 8 8 = 0 ∨ field c.ttcfg 0 8 ≤ field (c.tt.get j).ent 0 8 ∨
        ((c.tt.get j).own = true ∧ c.carriesCells j = false)) →
      does (.timetableEntryDue ch j) s s.dev) ∧
    (s.dev.sup.doms.can = true → bit c.ttcfg 23 = true → bit (c.tt.get j).ent 23 = true →
      field (c.tt.get j).ent 8 8 ≠ 0 → field (c.tt.get j).ent 0 8 < field c.ttcfg 0 8 →
      ((c.tt.get j).own = false ∨ c.carriesCells j = true) →
      ∃ d' c', exec (.timetableEntryDue ch j) s = .next { s with dev := d' } ∧ c' = d'.can ch ∧
        (∀ i, i ≠ j → c'.tt.get i = c.tt.get i) ∧ (c'.tt.get j).ent = (c.tt.get j).ent ∧ c'.fifo = c.fifo ∧
        c'.prio = c.prio ∧ c'.onBus = c.onBus ∧
        ((c.tt.get j).due = true → c'.missed = satInc 255 c.missed ∧ fired 60 d') ∧
        ((c.tt.get j).due = false → c'.missed = c.missed) ∧
        ((∀ o, c.onBus = some o → o.source ≠ .timetable j) → (c'.tt.get j).due = true ∧ (c'.tt.get j).tries = 0 ∧
          (c.carriesCells j = true → (c'.tt.get j).frame = s.dev.ownFrame c .cellSum ∧
            (c'.tt.get j).own = true ∧ c'.roll = modify c.roll 4 (· + 1)) ∧
          (c.carriesCells j = false → (c'.tt.get j).frame = (c.tt.get j).frame ∧ c'.roll = c.roll)) ∧
        ((∃ o, c.onBus = some o ∧ o.source = .timetable j) → (c'.tt.get j).again = true ∧
          (c'.tt.get j).frame = (c.tt.get j).frame)) ∧
    (s.dev.sup.doms.can = false → does .statusFrameDue s s.dev) ∧
    (s.dev.sup.doms.can = true →
      ∃ d', exec .statusFrameDue s = .next { s with dev := d' } ∧ ownQueued .status s.dev d') ∧
    ((s.dev.sup.doms.can = false ∨ s.dev.est.stepReq = false) → does .stepReqFrameDue s s.dev) ∧
    (s.dev.sup.doms.can = true → s.dev.est.stepReq = true →
      ∃ d', exec .stepReqFrameDue s = .next { s with dev := d' } ∧ ownQueued .stepReq s.dev d')


/-! ### The host port -/

/-- R6, R85, R476, R478, R479, R487, R488, R502, R503, R571 and R573, for every register but WIN_DATA and the command
registers (what a read of CANx_RXDAT does when it completes is in CanReception). Without supply a frame has no effect.
A read answers what the register reads, a reserved address 0; a write is taken or refused as its register's table
gives, and the relations between fields are checked after it; READ_INC and WRITE_INC act alike; the lowest word of a
captured value captures it, and its other words return the captured part; an access to a stopped domain pends, a write
into the always-on domain is outstanding, and ACCESS_COMPLETE finishes it; a frame during either is refused; a write to
a reserved address has ERR 3. The model's own readings: outstanding accesses (notes/assumptions/10.md). -/
def Obligations.RegisterFrames : Prop :=
  ∀ (s : State) (a : Addr) (data : Word), a ≠ 0x212 → cmdAt a.toNat = none →
    (s.dev.alive = false → does (.registerRead a) s s.dev ∧ does (.registerWrite a data) s s.dev ∧
      does .accessComplete s s.dev) ∧
    (s.dev.alive = true →
      (registerListed a.toNat = false →
        does (.registerWrite a data) s (s.dev.numberFrame.refuseFrame 3 2 a.toNat) ∧
        (s.dev.hst.access = none → does (.registerRead a) s (answered (framed s.dev) 0 0))) ∧
      (s.dev.hst.access.isSome = true →
        does (.registerRead a) s (s.dev.numberFrame.refuseFrame 6 1 a.toNat) ∧
        (registerListed a.toNat = true →
          (∀ d', s.dev.numberFrame.writeReg a.toNat data = .ok d' →
            does (.registerWrite a data) s (s.dev.numberFrame.refuseFrame 6 2 a.toNat)) ∧
          (s.dev.numberFrame.writeReg a.toNat data = .error 4 →
            does (.registerWrite a data) s (s.dev.numberFrame.refuseFrame 4 2 a.toNat)))) ∧
      (s.dev.hst.access = none → registerListed a.toNat = true →
        (s.dev.runsFor (accessDomain a.toNat) = false →
          does (.registerRead a) s (pendingOn s.dev (.read a) false) ∧
          does (.registerWrite a data) s (pendingOn s.dev (.write a data) false)) ∧
        (inAlwaysOn a.toNat = true → does (.registerWrite a data) s (pendingOn s.dev (.write a data) false)) ∧
        (s.dev.runsFor (accessDomain a.toNat) = true → capturedAt a.toNat = none → a ≠ 0x1D2 → a ≠ 0x1F2 →
          does (.registerRead a) s (answered (framed s.dev) 0 (s.dev.peek a.toNat))) ∧
        (s.dev.runsFor (accessDomain a.toNat) = true → ∀ first n, capturedAt a.toNat = some (first, n) →
          (a.toNat = first → does (.registerRead a) s (answered { framed s.dev with hst := { (framed s.dev).hst with
            captured := (a, s.dev.liveWords (first, n)) :: s.dev.hst.captured.filter fun c => c.1 ≠ a } } 0
            (s.dev.peek a.toNat))) ∧
          (a.toNat ≠ first → ∀ c, s.dev.hst.captured.find? (fun c => c.1 = BitVec.ofNat 12 first) = c →
            does (.registerRead a) s (answered (framed s.dev) 0
              (match c with | some c => c.2.getD (a.toNat - first) 0 | none => s.dev.peek a.toNat)))) ∧
        (serves s.dev a.toNat →
          (∀ d', (framed s.dev).writeReg a.toNat data = .ok d' →
            does (.registerWrite a data) s (answered d'.cfgCheck 0 (d'.cfgCheck.peek a.toNat)) ∧
            does (.windowAccessInc a (some data)) s (answered d'.cfgCheck 0 (d'.cfgCheck.peek a.toNat))) ∧
          exec (.windowAccessInc a none) s = exec (.registerRead a) s ∧
          ((framed s.dev).writeReg a.toNat data = .error 4 →
            does (.registerWrite a data) s (writeRefused s.dev a.toNat 4) ∧
            does (.windowAccessInc a (some data)) s
              (answered ((framed s.dev).frameError 4 (s.dev.hst.frame + 1) 4 a.toNat) 4 0)))) ∧
      (s.dev.hst.access = none → does .accessComplete s s.dev ∧ does .safClrCnt s (pendingOn s.dev (.write 0x169 1) false)) ∧
      (s.dev.hst.access = some (.write 0x169 1) → does .accessComplete s (fetched
        ({ noAccess s.dev with saf := { s.dev.saf with opens := 0, discs := 0, ovf := 0 } } : Dev).cfgCheck 0 0).afterAccess) ∧
      (s.dev.hst.access = some (.read a) → capturedAt a.toNat = none → a ≠ 0x1D2 → a ≠ 0x1F2 →
        s.dev.runsFor (s.dev.accessNeeds (.read a)) = true →
        does .accessComplete s (fetched (noAccess s.dev) 0 (s.dev.peek a.toNat)).afterAccess) ∧
      (s.dev.hst.access = some (.write a data) → registerListed a.toNat = true →
        (s.dev.runsFor (accessDomain a.toNat) = false → does .accessComplete s s.dev) ∧
        (s.dev.runsFor (accessDomain a.toNat) = true →
          (∀ d', (noAccess s.dev).writeReg a.toNat data = .ok d' →
            does .accessComplete s (fetched d'.cfgCheck 0 (d'.cfgCheck.peek a.toNat)).afterAccess) ∧
          ((noAccess s.dev).writeReg a.toNat data = .error 4 →
            does .accessComplete s (fetched ((noAccess s.dev).frameError 4 s.dev.hst.accessFrame 2 a.toNat) 4 0).afterAccess))))

/-- R472 to R480 and R484 to R487. NOP answers with the latest access' result, or with BUSY while it waits; ABORT
cancels an access that has not been delivered (ABORT code 01), leaves a delivered one (10), and finds none (11); every
frame takes the next number, and a frame with an error leaves all but the host port's record of it unchanged: more than
48 edges are a length error, a wrong check value, an opcode and a COMMAND elsewhere than at a command register come in
that order. A defined error-free frame of 48 edges is no BAD_FRAME. The model's own readings: an access that completes
after an ABORT (notes/assumptions/8.md); several errors in one frame (notes/assumptions/9.md). -/
def Obligations.NopAbortAndBadFrames : Prop :=
  ∀ (s : State) (raw : BitVec 48) (edges : Nat), ∀ op addr, op = raw.toNat / 2 ^ 44 → addr = raw.toNat / 2 ^ 32 % 4096 →
    (s.dev.alive = false → does .nop s s.dev ∧ does .abort s s.dev ∧ does (.badFrame raw edges) s s.dev) ∧
    (s.dev.alive = true →
      (∀ x, s.dev.hst.access = some x → does .nop s { s.dev with hst := { s.dev.hst with
        frame := s.dev.hst.frame + 1
        resp := { kind := .nop, seq := s.dev.hst.frame + 1, err := 0, busy := true, abort := 0, data := 0 } } }) ∧
      (∀ e v, s.dev.hst.access = none → s.dev.hst.fetch.getD (0, 0) = (e, v) → does .nop s { s.dev with hst := { s.dev.hst with
        frame := s.dev.hst.frame + 1
        resp := { kind := .nop, seq := s.dev.hst.frame + 1, err := e, busy := false, abort := 0, data := v } } }) ∧
      (s.dev.hst.access = none → ∃ d', exec .abort s = .next { s with dev := d' } ∧ d'.hst.access = none ∧
        d'.hst.fetch = none ∧ d'.hst.resp.abort = 0b11 ∧ d'.hst.resp.seq = s.dev.hst.frame + 1 ∧ Keeps [.hst] s.dev d') ∧
      (∀ x, s.dev.hst.access = some x →
        (s.dev.hst.delivered = true ∨ (x.crossing = false ∧ s.dev.runsFor (s.dev.accessNeeds x) = true)) →
        ∃ d', exec .abort s = .next { s with dev := d' } ∧ abortLeft x s.dev d') ∧
      (∀ x, s.dev.hst.access = some x → s.dev.hst.delivered = false → x.crossing = false →
        s.dev.runsFor (s.dev.accessNeeds x) = false →
        ∃ d', exec .abort s = .next { s with dev := d' } ∧ abortCancelled s.dev d') ∧
      (∀ x, s.dev.hst.access = some x → s.dev.hst.delivered = false → x.crossing = true →
        ∃ d', exec .abort s = .next { s with dev := d' } ∧ (abortLeft x s.dev d' ∨ abortCancelled s.dev d')) ∧
      (∀ e : BitVec 3, ∀ good, good = decide (crc8 (be 5 (raw.toNat / 2 ^ 8)) = BitVec.ofNat 8 raw.toNat) →
        ((48 < edges ∧ e = 5) ∨ (edges ≤ 48 ∧ good = false ∧ e = 1) ∨
          (edges ≤ 48 ∧ good = true ∧ (op = 0 ∨ 8 ≤ op) ∧ e = 2) ∨
          (edges ≤ 48 ∧ good = true ∧ op = 7 ∧ cmdAt addr = none ∧ e = 3) ∨
          (edges < 48 ∧ good = true ∧ (op = 5 ∨ op = 6 ∨ (op = 1 ∧ addr ≠ 0x212)) ∧ e = 5) ∨
          (edges = 48 ∧ good = true ∧ op = 1 ∧ addr ≠ 0x212 ∧ s.dev.hst.access.isSome = true ∧ e = 6)) →
        ∃ d', exec (.badFrame raw edges) s = .next { s with dev := d' } ∧
        Keeps [.hst] s.dev d' ∧ d'.hst.frame = s.dev.hst.frame + 1 ∧ d'.hst.resp.seq = s.dev.hst.frame + 1 ∧
          d'.hst.resp.err = e ∧ d'.hst.resp.data = 0 ∧ d'.hst.access = s.dev.hst.access ∧
          d'.hst.lasterr = word (place e.toNat 21 + place (s.dev.hst.frame + 1).toNat 16 + place (op % 16) 12 + addr % 4096) ∧
          d'.hst.errCrc = (if e = 1 then satInc 4095 s.dev.hst.errCrc else s.dev.hst.errCrc) ∧
          d'.hst.errOther = (if e = 1 then s.dev.hst.errOther else satInc 4095 s.dev.hst.errOther)) ∧
      (crc8 (be 5 (raw.toNat / 2 ^ 8)) = BitVec.ofNat 8 raw.toNat → edges = 48 →
        (op = 5 ∨ op = 6 ∨ (op = 1 ∧ addr ≠ 0x212 ∧ s.dev.hst.access = none)) →
        does (.badFrame raw edges) s s.dev))

/-- R485, R486, R507, R530 and R583. WIN_SEL takes 0 to 6 and sets WIN_ADDR to 0, and refuses 7; an access at or above
WIN_SIZE is an address error that does not advance; windows 1 and 6 answer at once, READ_INC advances, a write to them
is refused with ERR 4; a depot window's access is outstanding, and completes once the depot runs, has no transaction
and none that waits goes before it. A write through window 0 programs the bytes of the slot that are still erased,
where muster is stopped or in Bench with the drover OPEN and the slot is not in use, and is refused elsewhere; window
6 shows the dispatch queue and removes nothing. The model's own readings: outstanding accesses
(notes/assumptions/10.md); windows 3 and 5 (notes/assumptions/12.md). -/
def Obligations.Windows : Prop :=
  ∀ (s : State) (data : Word) (w : Option Word) (d1 : Dev), s.dev.alive = true → s.dev.hst.access = none →
    d1 = framed s.dev → ∀ acc, acc = (match w with | some v => Access.winWrite true v | none => .winRead true) →
    (s.dev.sup.doms.per = true → field data 0 3 ≤ 6 → does (.winSelWrite data) s (written s.dev 0x210 fun d =>
      { d with hst := { d.hst with winSel := mergeBits d.hst.winSel data 0x000007, winAddr := 0 } })) ∧
    (field data 0 3 = 7 → does (.winSelWrite data) s (writeRefused s.dev 0x210 4)) ∧
    (s.dev.windowOk = false →
      does (.windowAccessInc 0x212 w) s (s.dev.numberFrame.refuseFrame 3 (match w with | some _ => 4 | none => 3) 0x212) ∧
      (s.dev.window = 0 → does (.manifestWindowWrite data) s (s.dev.numberFrame.refuseFrame 3 2 0x212))) ∧
    (s.dev.window ≠ 0 → does (.manifestWindowWrite data) s s.dev) ∧
    (s.dev.windowOk = true → (s.dev.window = 1 ∨ s.dev.window = 6) → s.dev.sup.doms.per = true →
      does (.windowAccessInc 0x212 none) s (answered { d1 with hst := { d1.hst with winAddr := d1.hst.winAddr + 1 } } 0
        (s.dev.windowWord s.dev.window s.dev.hst.winAddr.toNat)) ∧
      (∀ v, does (.windowAccessInc 0x212 (some v)) s (answered (d1.frameError 4 (s.dev.hst.frame + 1) 4 0x212) 4 0))) ∧
    (s.dev.windowOk = false → does (.registerRead 0x212) s (s.dev.numberFrame.refuseFrame 3 1 0x212) ∧
      does (.registerWrite 0x212 data) s (s.dev.numberFrame.refuseFrame 3 2 0x212)) ∧
    (s.dev.windowOk = true → (s.dev.window = 1 ∨ s.dev.window = 6) → s.dev.sup.doms.per = true →
      does (.registerRead 0x212) s (answered d1 0 (s.dev.windowWord s.dev.window s.dev.hst.winAddr.toNat)) ∧
      does (.registerWrite 0x212 data) s (writeRefused s.dev 0x212 4)) ∧
    (s.dev.windowOk = true → (s.dev.window = 1 ∨ s.dev.window = 6) → s.dev.sup.doms.per = false →
      does (.windowAccessInc 0x212 w) s (pendingOn s.dev acc false) ∧
      does (.registerRead 0x212) s (pendingOn s.dev (.winRead false) false)) ∧
    (∀ k j : Nat, k < 256 → j < 4 → s.dev.windowWord 6 (4 * k + j) =
      (match s.dev.evt.queue[k]? with | some e => e.words.getD j 0 | none => 0)) ∧
    (s.dev.windowOk = true → s.dev.window ≠ 1 → s.dev.window ≠ 6 →
      does (.windowAccessInc 0x212 w) s (pendingOn s.dev acc s.dev.sup.doms.dep) ∧
      does (.registerRead 0x212) s (pendingOn s.dev (.winRead false) s.dev.sup.doms.dep) ∧
      does (.registerWrite 0x212 data) s (pendingOn s.dev (.winWrite false data) s.dev.sup.doms.dep) ∧
      (s.dev.window = 0 → does (.manifestWindowWrite data) s (pendingOn s.dev (.winWrite false data) s.dev.sup.doms.dep))) ∧
    (s.dev.sup.doms.dep = true → s.dev.windowTurn = true → s.dev.window ≠ 1 →
      s.dev.window ≠ 6 → ∀ t : State, ∀ inc : Bool,
      t = { s with dev := { s.dev with hst := { s.dev.hst with access := some (.winRead inc) } } } →
      ∃ d', exec .accessComplete t = .next { t with dev := d' } ∧ d'.hst.access = none ∧ Keeps [.hst] s.dev d' ∧
        d'.hst.winAddr = (if inc then s.dev.hst.winAddr + 1 else s.dev.hst.winAddr) ∧
        d'.hst.fetch = some (0, s.dev.windowWord s.dev.window s.dev.hst.winAddr.toNat)) ∧
    (s.dev.window ≠ 1 → s.dev.window ≠ 6 → ∀ t : State, ∀ inc : Bool, ∀ v : Word,
      t = { s with dev := { s.dev with hst := { s.dev.hst with access := some (.winWrite inc v) } } } →
      ((s.dev.sup.doms.dep = false ∨ s.dev.windowTurn = false) →
        does .accessComplete t t.dev) ∧
      (s.dev.sup.doms.dep = true → s.dev.windowTurn = true →
        ∃ d', exec .accessComplete t = .next { t with dev := d' } ∧ d'.hst.access = none ∧
          (s.dev.window = 0 → s.dev.slotWritable = true → ∀ base n, base = s.dev.mslot * 0x10000 + 3 * s.dev.hst.winAddr.toNat →
            n = min 3 (0x10000 - 3 * s.dev.hst.winAddr.toNat) →
            d'.dep.cs1 = (s.dev.setCs1 base (programmed (s.dev.cs1 base n) ((be 3 v.toNat).take n))).dep.cs1 ∧
            d'.hst.winAddr = (if inc then s.dev.hst.winAddr + 1 else s.dev.hst.winAddr) ∧
            d'.hst.fetch = some (0, d'.windowWord 0 s.dev.hst.winAddr.toNat)) ∧
          ((s.dev.window ≠ 0 ∨ s.dev.slotWritable = false) → d'.dep = s.dev.dep ∧ d'.hst.winAddr = s.dev.hst.winAddr ∧
            d'.hst.fetch = some (4, 0)))) ∧
    ((s.dev.dep.busy.isSome = true ∨ s.dev.lgr.committing = true ∨ DepotTx.shadow ∈ s.dev.dep.waiting ∨
      DepotTx.commit ∈ s.dev.dep.waiting ∨ s.dev.dep.jobs ≠ []) → s.dev.windowTurn = false) ∧
    (s.dev.dep.busy = none → s.dev.lgr.committing = false → s.dev.dep.jobs = [] → s.dev.lgr.staging = [] →
      (∀ t ∈ s.dev.dep.waiting, t = .window ∨ t = .log ∨ t = .lifetime) → s.dev.windowTurn = true)

/-- R496 and R497. POP removes the oldest ARG entries of the dispatch queue, or all of them, and refuses ARG 0; CNT_CLR
clears the error counts. A write of a HIGH in range is stored and one out of range refused with ERR 4; LATCHED clears by
writing 1, with PEAK starting again at the present level and the queue's saturation flag cleared, and writing 0 changes
nothing; other addresses are none of these rows'. The model's own readings: source 62 (notes/assumptions/61.md). -/
def Obligations.QueueCommandsAndWatermarks : Prop :=
  ∀ (s : State) (tok : Byte) (a : Addr) (data : Word) (d1 : Dev), d1 = framed s.dev →
    (takes s.dev .hst tok → field s.dev.hst.cmdarg 0 9 = 0 →
      does (.pop tok) s (commanded s.dev .hst tok 0x01 0x12 id)) ∧
    (takes s.dev .hst tok → ∀ n, n = field s.dev.hst.cmdarg 0 9 → 0 < n →
      does (.pop tok) s (commanded s.dev .hst tok 0x01 0x00 fun d => Dev.restage
        { d with evt := { d.evt with queue := d.evt.queue.drop n } })) ∧
    (takes s.dev .hst tok → does (.hstCntClr tok) s (commanded s.dev .hst tok 0x02 0x00 fun d =>
      { d with hst := { d.hst with errCrc := 0, errOther := 0, ovf := 0 } })) ∧
    (a.toNat ∉ watermarkConfigs → does (.watermarkConfigWrite a data) s s.dev) ∧
    (a.toNat ∉ watermarkRegisters → does (.watermarkClear a data) s s.dev) ∧
    (a.toNat ∈ watermarkRegisters → serves s.dev a.toNat → bit data 14 = false →
      does (.watermarkClear a data) s (written s.dev a.toNat id)) ∧
    (serves s.dev 0x209 →
      (1 ≤ field data 0 9 → field data 0 9 ≤ 256 → ∃ d', exec (.watermarkConfigWrite 0x209 data) s = .next { s with dev := d' } ∧
        d'.evqHigh = field data 0 9 ∧ (s.dev.cfgInc &&& ~~~s.dev.hst.cfginc = 0 → d'.evt.queue = s.dev.evt.queue ∧
          d'.evt.shed = shedStage (field data 0 9) s.dev.evqLevel s.dev.evt.shed)) ∧
      ((field data 0 9 = 0 ∨ 256 < field data 0 9) →
        does (.watermarkConfigWrite 0x209 data) s (writeRefused s.dev 0x209 4))) ∧
    (∀ ch, serves s.dev (canBase ch + 0x0E) →
      ((field data 8 5 = 0 ∨ 16 < field data 8 5 ∨ field data 0 7 = 0 ∨ 64 < field data 0 7 ∨
          s.dev.lockRefuses (s.dev.can ch).wmcfg data 0x001F7F = true) →
        does (.watermarkConfigWrite (canAddr ch 0x0E) data) s (writeRefused s.dev (canBase ch + 0x0E) 4)) ∧
      (1 ≤ field data 8 5 → field data 8 5 ≤ 16 → 1 ≤ field data 0 7 → field data 0 7 ≤ 64 →
        s.dev.lockRefuses (s.dev.can ch).wmcfg data 0x001F7F = false →
        ∃ d', exec (.watermarkConfigWrite (canAddr ch 0x0E) data) s = .next { s with dev := d' } ∧
          field (d'.can ch).wmcfg 8 5 = field data 8 5 ∧ field (d'.can ch).wmcfg 0 7 = field data 0 7 ∧
          (d'.can ch).fifo = (s.dev.can ch).fifo ∧ (d'.can ch).rxfifo = (s.dev.can ch).rxfifo)) ∧
    (serves s.dev 0x234 →
      ((field data 16 6 = 0 ∨ 32 < field data 16 6 ∨ field data 8 4 = 0 ∨ 8 < field data 8 4 ∨ field data 0 7 = 0 ∨
        64 < field data 0 7) → does (.watermarkConfigWrite 0x234 data) s (writeRefused s.dev 0x234 4)) ∧
      (1 ≤ field data 16 6 → field data 16 6 ≤ 32 → 1 ≤ field data 8 4 → field data 8 4 ≤ 8 → 1 ≤ field data 0 7 →
        field data 0 7 ≤ 64 → does (.watermarkConfigWrite 0x234 data) s (written s.dev 0x234 fun d =>
          { d with dep := { d.dep with wmcfg := (d.dep.wmcfg &&& ~~~0x3F0F7F) ||| (data &&& 0x3F0F7F) } }))) ∧
    (serves s.dev 0x208 → bit data 14 = true → does (.watermarkClear 0x208 data) s (written s.dev 0x208 fun d =>
      { d with hst := { d.hst with evqwm := Watermark.clear d.evqLevel, wmovf := d.hst.wmovf &&& ~~~(1 : Word) } })) ∧
    (serves s.dev 0x231 → bit data 14 = true → does (.watermarkClear 0x231 data) s (written s.dev 0x231 fun d =>
      { d with dep := { d.dep with tagwm := Watermark.clear d.chn.tags.length }
               hst := { d.hst with wmovf := d.hst.wmovf &&& ~~~(0x20 : Word) } })) ∧
    (serves s.dev 0x232 → bit data 14 = true → does (.watermarkClear 0x232 data) s (written s.dev 0x232 fun d =>
      { d with dep := { d.dep with stgwm := Watermark.clear d.staged }
               hst := { d.hst with wmovf := d.hst.wmovf &&& ~~~(0x40 : Word) } })) ∧
    (serves s.dev 0x233 → bit data 14 = true → does (.watermarkClear 0x233 data) s (written s.dev 0x233 fun d =>
      { d with dep := { d.dep with histwm := Watermark.clear d.lineLevel }
               hst := { d.hst with wmovf := d.hst.wmovf &&& ~~~(0x80 : Word) } })) ∧
    (∀ ch, serves s.dev (canBase ch + 0x0D) → bit data 14 = true →
      ∃ d', exec (.watermarkClear (canAddr ch 0x0D) data) s = .next { s with dev := d' } ∧
        (d'.can ch).rxwm = Watermark.clear (s.dev.can ch).rxfifo.length ∧
        d'.hst.wmovf.getLsbD (rxQueueNo ch) = false ∧ (d'.can ch).rxfifo = (s.dev.can ch).rxfifo) ∧
    (∀ ch, serves s.dev (canBase ch + 0x0C) → bit data 14 = true →
      ∃ d', exec (.watermarkClear (canAddr ch 0x0C) data) s = .next { s with dev := d' } ∧
        (d'.can ch).txwm = Watermark.clear (s.dev.can ch).fifo.length ∧
        d'.hst.wmovf.getLsbD (txQueueNo ch) = false ∧ (d'.can ch).fifo = (s.dev.can ch).fifo)

/-- R483 for every command of every command register, as a COMMAND and as a WRITE at the register: while the register
holds a command, a further one with its token is absorbed and changes nothing but the host port's answer, and one with
another token is refused with ERR 4 and is not kept. -/
def Obligations.OneHeldCommand : Prop :=
  ∀ (c : Instr) (s : State) (r : CmdReg) (tok code t x : Byte), hostRow c = some (r, tok, code) → s.dev.alive = true →
    s.dev.hst.access = none → s.dev.runsFor (cmdDomain r) = true → (s.dev.cmds.get r).held = some (t, x) →
    (t = tok → does c s (accepted s.dev tok code.toNat)) ∧
    (t ≠ tok → does c s (s.dev.numberFrame.refuseFrame 4 7 (cmdAddr r))) ∧
    (∀ (a : Addr) (data : Word), a.toNat = cmdAddr r → field data 16 8 = tok.toNat → field data 0 8 = code.toNat →
      (t = tok → does (.registerWrite a data) s (accepted s.dev tok code.toNat)) ∧
      (t ≠ tok → does (.registerWrite a data) s (s.dev.numberFrame.refuseFrame 4 2 (cmdAddr r))))

/-- R27, R85, R476, R477, R482, R484 and R502, for every command of every command register: a frame without supply has
no effect; during an outstanding access it is refused with ERR 6; the token of the last command executed has no effect
but its response; in a stopped domain the command pends. A code that is not defined answers UNKNOWN, and one that is
defined is the command of its row. A WRITE at the command register is the same command, and is held until the next frame
boundary while the engine runs frames; SUP_CMD is executed on arrival. The model's own readings: when a command executes
(notes/assumptions/7.md). -/
def Obligations.CommandShell : Prop :=
  ∀ (c : Instr) (s : State) (r : CmdReg) (tok code : Byte), hostRow c = some (r, tok, code) →
    (s.dev.alive = false → does c s s.dev) ∧
    (s.dev.alive = true →
      ((s.dev.cmds.get r).refuses tok = false → s.dev.hst.access.isSome = true →
        does c s (s.dev.numberFrame.refuseFrame 6 7 (cmdAddr r))) ∧
      ((s.dev.cmds.get r).refuses tok = false → s.dev.hst.access = none →
        (s.dev.runsFor (cmdDomain r) = false → does c s (pendingOn s.dev (.command r tok code) false)) ∧
        (s.dev.runsFor (cmdDomain r) = true →
          (s.dev.cmds.get r).kept = some tok → does c s (accepted s.dev tok code.toNat)))) ∧
    (takes s.dev r tok → codeDefined r code.toNat = false →
      does (.unknownCommand r tok code) s (commanded s.dev r tok code.toNat 0x1F id)) ∧
    ((∀ m, c ≠ .resetCmd tok m) → exec (.unknownCommand r tok code) s = exec c s) ∧
    (∀ (a : Addr) (data : Word), a.toNat = cmdAddr r → field data 16 8 = tok.toNat → field data 0 8 = code.toNat →
      takes s.dev r tok →
      (s.dev.framesRun = true → r ≠ .sup → does (.registerWrite a data) s { accepted s.dev tok code.toNat with
        cmds := s.dev.cmds.put r { s.dev.cmds.get r with held := some (tok, code) } }) ∧
      ((s.dev.framesRun = false ∨ r = .sup) → exec (.registerWrite a data) s = exec (.unknownCommand r tok code) s))

/-! ### The depot and the lifetime records -/

/-- R48, R251, R507 to R510, R517, R519, R530 to R532 and R536. MAN_ERASE erases the slot selected and MAN_SWITCH points
to it, each only where muster is stopped or in Bench with the drover OPEN, and not on the slot in use; MAN_SWITCH
refuses an image that does not verify or wants newer firmware; where another transaction goes first the write waits.
LOG_UNPIN ends the pins up to its value, and the event log state is renewed. LIF_FLUSH, and the flush that is due, fold
the increments into the record, write it to the older copy, a changed impedance history to its own older copy, and
nothing else of CS1, and renew the counter shadow; a flush that cannot be made stays due, and one whose turn has not
come waits. CLR_K and CLR_PUMP clear their blocks, in Bench with the drover OPEN. The model's own readings: when the
depot is written (notes/assumptions/49.md); the flush (notes/assumptions/50.md). -/
def Obligations.DepotCommandsAndFlush : Prop :=
  ∀ (s : State) (tok : Byte), ∀ slot, slot = s.dev.mslot →
    (takes s.dev .dep tok → s.dev.manifestWritable = false →
      does (.manErase tok) s (commanded s.dev .dep tok 0x01 0x11 id) ∧
      does (.manSwitch tok) s (commanded s.dev .dep tok 0x02 0x11 id)) ∧
    (takes s.dev .dep tok → s.dev.manifestWritable = true →
      (s.dev.slotInUse = some slot → does (.manErase tok) s (commanded s.dev .dep tok 0x01 0x12 id)) ∧
      (s.dev.slotInUse ≠ some slot → ∃ d', exec (.manErase tok) s = .next { s with dev := d' } ∧
        (s.dev.needDepot.depotFree = true → s.dev.dep.jobs = [] → d'.dep.jobs = [] ∧
          keepsOutside 0xFF s.dev.dep.cs1 d'.dep.cs1 [(slot * 0x10000, 0x10000)] ∧
          ∀ a, slot * 0x10000 ≤ a → a < slot * 0x10000 + 0x10000 → Mem.read 0xFF d'.dep.cs1 a = 0xFF) ∧
        ((s.dev.needDepot.depotFree = false ∨ s.dev.dep.jobs ≠ []) → d'.dep.cs1 = s.dev.dep.cs1 ∧
          d'.dep.jobs = s.dev.dep.jobs ++ [.erase slot]) ∧ DepotTx.window ∈ d'.dep.waiting ∧
        d'.dep.cs0 = s.dev.dep.cs0 ∧ d'.cmds.dep = { kept := some tok, held := none, result := word (place tok.toNat 16) }) ∧
      ((s.dev.pointer.map fun p => p.2.1) = some slot →
        does (.manSwitch tok) s (commanded s.dev .dep tok 0x02 0x00 id)) ∧
      ((s.dev.pointer.map fun p => p.2.1) ≠ some slot →
        Mem.wf 0x00 s.dev.dep.cs0 = true → (∀ p, s.dev.pointer = some p → p.1 + 1 < 2 ^ 24) →
        ∃ d', exec (.manSwitch tok) s = .next { s with dev := d' } ∧ d'.man = s.dev.man ∧
          (if (match s.dev.manifestImage slot with | some (v, _) => s.dev.firmwareOk v | none => false) then
            d'.dep.cs1 = s.dev.dep.cs1 ∧ DepotTx.shadow ∈ d'.dep.waiting ∧
              (s.dev.needDepot.depotFree = true → s.dev.dep.jobs = [] → d'.dep.jobs = [] ∧
                (d'.pointer.map fun p => p.2.1) = some slot ∧ keepsOutside 0x00 s.dev.dep.cs0 d'.dep.cs0 [(0x40, 16)]) ∧
              ((s.dev.needDepot.depotFree = false ∨ s.dev.dep.jobs ≠ []) → d'.dep.cs0 = s.dev.dep.cs0 ∧
                ∃ a b, d'.dep.jobs = s.dev.dep.jobs ++ [.bytes false a b] ∧ (a = 0x40 ∨ a = 0x48) ∧ b.length = 8 ∧
                  b.head? = some (BitVec.ofNat 8 slot)) ∧
              d'.cmds.dep = { kept := some tok, held := none, result := word (place tok.toNat 16) }
          else d' = commanded s.dev .dep tok 0x02 0x12 Dev.needDepot))) ∧
    (takes s.dev .dep tok → ∀ v, v = min (place (field s.dev.dep.argHi 0 8) 24 + s.dev.dep.argLo.toNat) s.dev.dep.logSeq →
      (v ≤ s.dev.dep.unpin → does (.logUnpin tok) s (commanded s.dev .dep tok 0x03 0x00 id)) ∧
      (s.dev.dep.unpin < v → does (.logUnpin tok) s (commanded s.dev .dep tok 0x03 0x00 fun d =>
        ({ d with dep := { d.dep with unpin := v, pinned := d.dep.pinned.filter fun n => v < n } } : Dev).depotWrite
          (.logState d.dep.logSeq v)))) ∧
    ((s.dev.powerFailing = true ∨ (s.dev.sup.doms.dep = false ∧ s.dev.mayStart = false)) →
      does .lifetimeFlushDue s { s.dev with lif := { s.dev.lif with due := true } }) ∧
    (s.dev.powerFailing = false → (s.dev.sup.doms.dep = true ∨ s.dev.mayStart = true) →
      (s.dev.needDepot.depotFree = true → s.dev.dep.jobs = [] →
        ∃ d', exec .lifetimeFlushDue s = .next { s with dev := d' } ∧ flushed s.dev d') ∧
      ((s.dev.needDepot.depotFree = false ∨ s.dev.dep.jobs ≠ []) → does .lifetimeFlushDue s
        (({ s.dev with lif := { s.dev.lif with due := true } } : Dev).needDepot.queueTx .lifetime))) ∧
    (takes s.dev .dep tok →
      ((s.dev.powerFailing = true ∨ (s.dev.sup.doms.dep = false ∧ s.dev.mayStart = false)) →
        does (.lifFlush tok) s (commanded s.dev .dep tok 0x04 0x00 fun d => { d with lif := { d.lif with due := true } })) ∧
      (s.dev.powerFailing = false → (s.dev.sup.doms.dep = true ∨ s.dev.mayStart = true) →
        (s.dev.needDepot.depotFree = true → s.dev.dep.jobs = [] →
          ∃ d', exec (.lifFlush tok) s = .next { s with dev := d' } ∧ flushed s.dev d' ∧
            d'.cmds.dep = { kept := some tok, held := none, result := word (place tok.toNat 16) }) ∧
        ((s.dev.needDepot.depotFree = false ∨ s.dev.dep.jobs ≠ []) →
          does (.lifFlush tok) s (commanded s.dev .dep tok 0x04 0x00 fun d =>
            ({ d with lif := { d.lif with due := true } } : Dev).needDepot.queueTx .lifetime)))) ∧
    (takes s.dev .lif tok → s.dev.benchOpen = false →
      does (.clrK tok) s (commanded s.dev .lif tok 0x01 0x11 id) ∧ does (.clrPump tok) s (commanded s.dev .lif tok 0x02 0x11 id)) ∧
    (takes s.dev .lif tok → s.dev.benchOpen = true →
      (∃ d', exec (.clrK tok) s = .next { s with dev := d' } ∧
        d'.cmds.lif = { kept := some tok, held := none, result := word (place tok.toNat 16) } ∧
        ∀ k : K,
          (bit s.dev.lif.cmdarg k.val = true → d'.lif.inc.k.get k = {} ∧ d'.lif.total.k.get k = {} ∧
            (d'.coil.get k).learned = 0 ∧ (d'.coil.get k).tL = 0 ∧ (d'.coil.get k).phase = (s.dev.coil.get k).phase ∧
            d'.lim.wear100.getLsbD k.val = false) ∧
          (bit s.dev.lif.cmdarg k.val = false → d'.lif.inc.k.get k = s.dev.lif.inc.k.get k ∧
            d'.lif.total.k.get k = s.dev.lif.total.k.get k ∧ d'.coil.get k = s.dev.coil.get k ∧
            d'.lim.wear100.getLsbD k.val = s.dev.lim.wear100.getLsbD k.val)) ∧
      does (.clrPump tok) s (commanded s.dev .lif tok 0x02 0x00 fun d => { d with lif := { d.lif with
        inc := { d.lif.inc with pump := .replicate 5 0 }, total := { d.lif.total with pump := .replicate 5 0 }
        undo := d.lif.undo.map fun (u : FlushUndo) => { u with
          inc := { u.inc with pump := .replicate 5 0 }, total := { u.total with pump := .replicate 5 0 } } } }))

/-- R82, R89, R506 to R508, R515 to R518, R529, R534 and R535. EVENT_LOG_WRITE starts the depot and writes the buffer
under the next numbers, at most 64 entries in a second, or waits for its turn: an entry goes to its slot and no other
byte of CS1 changes, but where it begins a sector, which is erased first, and the event log state is renewed. A
transaction that starts is the first of the waiting ones in R507's order, with the writes that wait for it and DEP_CFG
taken over, at 50 MHz where 100 MHz is selected without DQS; one that ends frees the depot, or with PER stopped waits
with the carried count; a failed one puts a log sector out of use, or leaves the lifetime copy torn and due again. The
model's own readings: when the depot is written (notes/assumptions/49.md); a failed lifetime write
(notes/assumptions/50.md). -/
def Obligations.DepotTransactions : Prop :=
  ∀ s : State,
    ((s.dev.evt.logBuf = [] ∨ (s.dev.sup.doms.dep = false ∧ s.dev.mayStart = false)) → does .eventLogWrite s s.dev) ∧
    (s.dev.evt.logBuf ≠ [] → (s.dev.sup.doms.dep = true ∨ s.dev.mayStart = true) →
      (s.dev.needDepot.depotFree = false ∨ s.dev.dep.jobs ≠ []) →
      does .eventLogWrite s (s.dev.needDepot.queueTx .log)) ∧
    (∀ sec done n, s.dev.evt.logBuf ≠ [] → s.dev.needDepot.depotFree = true → s.dev.dep.jobs = [] →
      sec = s.dev.sup.rtc.toNat / 32768 → done = (if s.dev.evt.logSec = sec then s.dev.evt.logDone else 0) →
      n = min (64 - done) s.dev.evt.logBuf.length →
      ∃ d', exec .eventLogWrite s = .next { s with dev := d' } ∧ DepotTx.log ∈ d'.dep.waiting ∧
        s.dev.dep.logSeq + n ≤ d'.dep.logSeq ∧ d'.evt.logSec = sec ∧ d'.evt.logDone = done + n ∧
        (s.dev.dep.pinned.length + n ≤ 16384 → d'.evt.logBuf = s.dev.evt.logBuf.drop n) ∧
        d'.dep.logState.value = some (d'.dep.logSeq, d'.dep.unpin)) ∧
    (∀ x n, s.dev.needDepot.depotFree = true → s.dev.dep.jobs = [] → s.dev.evt.logBuf = [x] →
      (s.dev.evt.logSec ≠ s.dev.sup.rtc.toNat / 32768 ∨ s.dev.evt.logDone < 64) → n = s.dev.dep.logSeq + 1 →
      logSector n ∉ s.dev.dep.badSectors → (n % 128 = 0 → ∀ k ∈ s.dev.dep.pinned, logSector k ≠ logSector n) →
      ∃ d', exec .eventLogWrite s = .next { s with dev := d' } ∧ d'.dep.logSeq = n ∧ (s.dev.dep.pinned.length < 16384 → d'.evt.logBuf = []) ∧
        keepsOutside 0xFF s.dev.dep.cs1 d'.dep.cs1 [(logAddr n, if n % 128 = 0 then 4096 else 32)] ∧
        (Mem.wf 0xFF s.dev.dep.cs1 = true → d'.cs1 (logAddr n) 32 = logBytes n x.entry x.logOnly 0) ∧
        ((x.entry.pinEligible = false ∨ n ≤ s.dev.dep.unpin) → d'.dep.pinned = s.dev.dep.pinned) ∧
        (x.entry.pinEligible = true → s.dev.dep.unpin < n → s.dev.dep.pinned.length < 16384 →
          d'.dep.pinned = s.dev.dep.pinned ++ [n]) ∧
        (x.entry.pinEligible = true → s.dev.dep.unpin < n → 16384 ≤ s.dev.dep.pinned.length →
          d'.dep.pinned = s.dev.dep.pinned.drop 1 ++ [n] ∧ d'.dep.pinOvf = true ∧ fired 63 d')) ∧
    (s.dev.depotFree = false → does .depotTransactionStart s s.dev) ∧
    (∀ d, s.dev.depotFree = true → (s.dev.lgr.depotErr = true ∨ s.dev.lgr.staging = []) → s.dev.lgr.committing = false →
      d = { s.dev with dep := { s.dev.dep with
        inForce := if s.dev.depBad then s.dev.dep.cfg ||| 0x000001 else s.dev.dep.cfg } } →
      (s.dev.dep.waiting = [] → does .depotTransactionStart s d) ∧
      (s.dev.dep.waiting ≠ [] → ∃ t d', t ∈ s.dev.dep.waiting ∧ (∀ u ∈ s.dev.dep.waiting, t.rank ≤ u.rank) ∧
        exec .depotTransactionStart s = .next { s with dev := d' } ∧ d'.dep.busy = some t ∧
        d'.dep.flushing = decide (t = .lifetime) ∧ d'.dep.inForce = d.dep.inForce ∧ t ∉ d'.dep.waiting ∧
        (t = .header → ∀ a bs, s.dev.dep.jobs = [.bytes true a bs] → d'.dep.jobs = [] ∧
          d'.dep.cs0 = (s.dev.setCs0 a bs).dep.cs0 ∧ d'.dep.cs1 = s.dev.dep.cs1) ∧
        (s.dev.dep.jobs = [] → s.dev.evt.logBuf = [] → s.dev.lif.due = false →
          d' = { d with dep := { d.dep with
            busy := some t, waiting := s.dev.dep.waiting.filter (fun x => decide (x ≠ t))
            flushing := decide (t = .lifetime) } }))) ∧
    (∀ ok, s.dev.sup.doms.per = false → does (.depotTransactionEnd ok) s { s.dev with dep := { s.dev.dep with
      doneCount := s.dev.dep.doneCount.send
      heldEnds := if s.dev.dep.doneCount.fits then s.dev.dep.heldEnds ++ [ok] else s.dev.dep.heldEnds } }) ∧
    (∀ ok, s.dev.sup.doms.per = true →
      (s.dev.dep.busy = none ∨ s.dev.dep.busy = some .commit ∨ s.dev.dep.busy = some .window) →
      does (.depotTransactionEnd ok) s { s.dev with dep := { s.dev.dep with
        doneCount := s.dev.dep.doneCount.send.consumed } }) ∧
    (∀ t d1, s.dev.sup.doms.per = true → s.dev.dep.busy = some t → t ≠ .commit → t ≠ .window →
      d1 = { s.dev with
        dep := { s.dev.dep with busy := none, flushing := false, doneCount := s.dev.dep.doneCount.send.consumed }
        lif := { s.dev.lif with
          undo := if t = .lifetime ∧ DepotTx.lifetime ∉ s.dev.dep.waiting then none else s.dev.lif.undo } } →
      does (.depotTransactionEnd true) s d1 ∧
      (t ≠ .log → t ≠ .lifetime → does (.depotTransactionEnd false) s d1) ∧
      (t = .log → ∃ d', exec (.depotTransactionEnd false) s = .next { s with dev := d' } ∧ d'.dep.busy = none ∧
        d'.dep.logBad = true ∧ d'.dep.badSectors = s.dev.dep.badSectors ++ [logSector s.dev.dep.logSeq] ∧
        d'.dep.err1 = satInc 4095 s.dev.dep.err1 ∧ d'.dep.cs1 = s.dev.dep.cs1 ∧ fired 63 d') ∧
      (t = .lifetime → ∃ d', exec (.depotTransactionEnd false) s = .next { s with dev := d' } ∧ d'.dep.busy = none ∧
        d'.dep.err1 = satInc 4095 s.dev.dep.err1 ∧ d'.lif.due = true ∧ d'.lif.copy = (!s.dev.lif.copy) ∧
        (∀ i, i < 1024 → Mem.read 0xFF d'.dep.cs1 (lifeAddr s.dev.lif.copy + i) = 0xFF) ∧
        keepsOutside 0xFF s.dev.dep.cs1 d'.dep.cs1 [(lifeAddr s.dev.lif.copy, 1024)] ∧
        d'.lif.total = s.dev.lif.total ∧ fired 63 d'))


/-! ### Clock domains -/

/-- R57, R58, R63, R82, R84, R86 and R221: a domain starts outside Watch with the clocks of muster running, with its
PLL, delivers the access that pends on it, PER takes every occurrence that has waited for it, and MCLK starts settling;
elsewhere nothing happens. DEP and EVO stop in Run when nothing is in flight, waits, crosses or is requested, nor a
commit at a power failure needs them, PLL B with DEP; no other domain stops between uses. The model's own readings:
when a domain starts and stops (notes/assumptions/11.md). -/
def Obligations.DomainsStartAndStop : Prop :=
  ∀ (s : State) (x : Domain),
    ((s.dev.mayStart = false ∨ s.dev.sup.doms.runs x = true) → does (.domainStarted x) s s.dev) ∧
    (s.dev.mayStart = true → s.dev.sup.doms.runs x = false →
      ∃ d', exec (.domainStarted x) s = .next { s with dev := d' } ∧ d'.sup.doms = s.dev.sup.doms.set x true ∧
        d'.sup.doms.runs x = true ∧ (x = .dep → d'.sup.pllB = true) ∧ (x ≠ .dep → d'.sup.pllA = true) ∧
        (x = .mod → d'.sen.settling = true) ∧ (x ≠ .mod → x ≠ .per → d'.sen = s.dev.sen) ∧
        (x = .per → d'.chn.heldFrames = [] ∧ d'.chn.heldBreaks = [] ∧ d'.dep.heldEnds = [] ∧ d'.sen.held = none ∧
          d'.chn.doneCount = s.dev.chn.doneCount.consumed ∧ d'.chn.ringCount = s.dev.chn.ringCount.consumed ∧
          d'.dep.doneCount = s.dev.dep.doneCount.consumed) ∧
        (∀ a, s.dev.hst.access = some a → s.dev.accessNeeds a = some x → d'.hst = { s.dev.hst with delivered := true }) ∧
        (∀ a, s.dev.hst.access = some a → s.dev.accessNeeds a ≠ some x → d'.hst = s.dev.hst) ∧
        (s.dev.hst.access = none → d'.hst = s.dev.hst)) ∧
    ((s.dev.alive = false ∨ s.dev.inRun = false) → does (.domainStop x) s s.dev) ∧
    (x ≠ .dep → x ≠ .evo → does (.domainStop x) s s.dev) ∧
    ((s.dev.dep.busy.isSome = true ∨ s.dev.dep.waiting ≠ [] ∨ s.dev.lgr.committing = true ∨
        s.dev.sup.commit.isSome = true ∨ s.dev.dep.jobs ≠ [] ∨
        s.dev.dep.doneCount.idle = false ∨ bit s.dev.sup.domreq 3 = true) →
      does (.domainStop .dep) s s.dev) ∧
    (∀ a, s.dev.hst.access = some a → s.dev.accessNeeds a = some .dep → does (.domainStop .dep) s s.dev) ∧
    ((s.dev.chn.tags ≠ [] ∨ s.dev.chn.waiting ≠ [] ∨ s.dev.chn.doneCount.idle = false ∨
        s.dev.chn.ringCount.idle = false ∨ bit s.dev.sup.domreq 4 = true) → does (.domainStop .evo) s s.dev) ∧
    (s.dev.alive = true → s.dev.inRun = true → s.dev.dep.busy = none → s.dev.dep.waiting = [] →
      s.dev.lgr.committing = false → s.dev.sup.commit = none → s.dev.dep.jobs = [] →
      s.dev.dep.doneCount.idle = true → bit s.dev.sup.domreq 3 = false →
      (∀ a, s.dev.hst.access = some a → s.dev.accessNeeds a ≠ some .dep) →
      does (.domainStop .dep) s { s.dev with sup := { s.dev.sup with
        doms := s.dev.sup.doms.set .dep false, pllB := false } }) ∧
    (s.dev.alive = true → s.dev.inRun = true → s.dev.chn.tags = [] → s.dev.chn.waiting = [] →
      s.dev.chn.doneCount.idle = true → s.dev.chn.ringCount.idle = true → bit s.dev.sup.domreq 4 = false →
      does (.domainStop .evo) s { s.dev with sup := { s.dev.sup with doms := s.dev.sup.doms.set .evo false } })
end

