-- ==== Sys2Proof/Laws/Depot.lean ====
section
/-! SUPPORT. The two-copy areas and the addressed memories of the depot. -/
namespace Sys2Proof.Laws

open Sys2Proof.Machine

/-- A two-copy area in use reads what was last written (R510). -/
theorem copies_put_value {α : Type} (c : Copies α) (v : α) : (c.put v).value = some v := by
  rcases c with ⟨a, b⟩
  rcases a with _ | ⟨ga, va⟩ <;> rcases b with _ | ⟨gb, vb⟩
  · rfl
  · have h : gb ≤ gb + 1 := by omega
    simp [Copies.put, Copies.value, Copies.newest, h]
  · have h : ¬ ga + 1 ≤ ga := by omega
    simp [Copies.put, Copies.value, Copies.newest, h]
  · by_cases h : ga ≤ gb
    · by_cases g : gb ≤ ga
      · have : gb ≤ ga + 1 := by omega
        simp [Copies.put, Copies.value, Copies.newest, h, g, this]
      · have : gb ≤ gb + 1 := by omega
        simp [Copies.put, Copies.value, Copies.newest, h, g, this]
    · have g : gb ≤ ga := by omega
      have : ¬ ga + 1 ≤ ga := by omega
      simp [Copies.put, Copies.value, Copies.newest, h, g, this]

/-! ### Addressed memory -/

theorem above_mono {lo hi : Nat} (h : lo ≤ hi) (m : Mem) (hm : Mem.above hi m = true) : Mem.above lo m = true := by
  simp only [Mem.above, List.all_eq_true, decide_eq_true_eq] at *
  intro c hc
  have := hm c hc
  omega

/-- A byte reads as what was last written to its address. -/
theorem read_write_self (dflt : Byte) (m : Mem) (a : Nat) (v : Byte) (hm : Mem.wf dflt m = true) :
    Mem.read dflt (Mem.write dflt m a v) a = v := by
  induction m with
  | nil =>
    unfold Mem.write
    split
    · rename_i h; simp [Mem.read, h]
    · simp [Mem.read]
  | cons c m ih =>
    obtain ⟨k, b⟩ := c
    have habove : ∀ lo (m : Mem), Mem.above lo m = true → ∀ x, x ≤ lo → Mem.read dflt m x = dflt := by
      intro lo m
      induction m with
      | nil => intros; rfl
      | cons e m ihm =>
        intro h x hx
        simp only [Mem.above, List.all_cons, Bool.and_eq_true, decide_eq_true_eq] at h
        have : e.1 ≠ x := by omega
        obtain ⟨e1, e2⟩ := e
        simp only [Mem.read, if_neg this]
        exact ihm h.2 x hx
    simp only [Mem.wf, Bool.and_eq_true, decide_eq_true_eq] at hm
    unfold Mem.write
    split
    · rename_i hlt
      split
      · rename_i hv
        subst hv
        have : k ≠ a := by omega
        simp only [Mem.read, if_neg this]
        exact habove k m hm.1.2 a (by omega)
      · simp [Mem.read]
    · split
      · rename_i heq
        subst heq
        split
        · rename_i hv
          subst hv
          exact habove _ m hm.1.2 _ (Nat.le_refl _)
        · simp [Mem.read]
      · rename_i h1 h2
        have : k ≠ a := fun h => h2 h.symm
        simp only [Mem.read, if_neg this]
        exact ih hm.2

/-- A write leaves every other address as it was. -/
theorem read_write_ne (dflt : Byte) (m : Mem) {a x : Nat} (v : Byte) (h : x ≠ a) :
    Mem.read dflt (Mem.write dflt m a v) x = Mem.read dflt m x := by
  have ha : a ≠ x := fun e => h e.symm
  induction m with
  | nil =>
    unfold Mem.write
    split
    · rfl
    · simp [Mem.read, ha]
  | cons c m ih =>
    obtain ⟨k, b⟩ := c
    unfold Mem.write
    split
    · split
      · rfl
      · simp [Mem.read, ha]
    · split
      · rename_i heq
        subst heq
        split
        · simp [Mem.read, ha]
        · simp [Mem.read, ha]
      · simp only [Mem.read]
        rw [ih]

theorem above_write {lo : Nat} (dflt : Byte) (m : Mem) (a : Nat) (v : Byte) (hlo : lo < a)
    (hm : Mem.above lo m = true) : Mem.above lo (Mem.write dflt m a v) = true := by
  induction m with
  | nil =>
    unfold Mem.write
    split
    · rfl
    · simp [Mem.above, hlo]
  | cons c m ih =>
    obtain ⟨k, b⟩ := c
    have hm' := hm
    simp only [Mem.above, List.all_cons, Bool.and_eq_true, decide_eq_true_eq] at hm'
    unfold Mem.write
    split
    · split
      · exact hm
      · simp only [Mem.above, List.all_cons, Bool.and_eq_true, decide_eq_true_eq]
        exact ⟨hlo, hm'⟩
    · split
      · split
        · exact hm'.2
        · simp only [Mem.above, List.all_cons, Bool.and_eq_true, decide_eq_true_eq]
          exact ⟨hlo, hm'.2⟩
      · have := ih hm'.2
        simp only [Mem.above, List.all_cons, Bool.and_eq_true, decide_eq_true_eq] at this ⊢
        exact ⟨hm'.1, this⟩

/-- A write keeps the canonical form. -/
theorem write_wf (dflt : Byte) (m : Mem) (a : Nat) (v : Byte) (hm : Mem.wf dflt m = true) :
    Mem.wf dflt (Mem.write dflt m a v) = true := by
  induction m with
  | nil =>
    unfold Mem.write
    split
    · rfl
    · rename_i h; simp [Mem.wf, Mem.above, h]
  | cons c m ih =>
    obtain ⟨k, b⟩ := c
    have hm' := hm
    simp only [Mem.wf, Bool.and_eq_true, decide_eq_true_eq] at hm'
    unfold Mem.write
    split
    · rename_i hlt
      split
      · exact hm
      · rename_i hv
        have h1 : Mem.above a ((k, b) :: m) = true := by
          simp only [Mem.above, List.all_cons, Bool.and_eq_true, decide_eq_true_eq]
          exact ⟨hlt, above_mono (by omega) m hm'.1.2⟩
        have h2 : decide (v ≠ dflt) = true := by simp [hv]
        show (decide (v ≠ dflt) && Mem.above a ((k, b) :: m) && Mem.wf dflt ((k, b) :: m)) = true
        rw [h1, h2, hm]
        rfl
    · split
      · rename_i heq
        split
        · exact hm'.2
        · rename_i hv
          have h1 : Mem.above a m = true := by rw [heq]; exact hm'.1.2
          have h2 : decide (v ≠ dflt) = true := by simp [hv]
          show (decide (v ≠ dflt) && Mem.above a m && Mem.wf dflt m) = true
          rw [h1, h2, hm'.2]
          rfl
      · rename_i h1 h2
        have h3 : Mem.above k (Mem.write dflt m a v) = true := above_write dflt m a v (by omega) hm'.1.2
        have h4 : decide (b ≠ dflt) = true := by simp [hm'.1.1]
        show (decide (b ≠ dflt) && Mem.above k (Mem.write dflt m a v) && Mem.wf dflt (Mem.write dflt m a v)) = true
        rw [h3, h4, ih hm'.2]
        rfl

/-- So does a write of several bytes. -/
theorem writeBytes_wf (dflt : Byte) (bs : List Byte) (m : Mem) (a : Nat) (hm : Mem.wf dflt m = true) :
    Mem.wf dflt (Mem.writeBytes dflt m a bs) = true := by
  induction bs generalizing m a with
  | nil => exact hm
  | cons b bs ih => exact ih _ _ (write_wf dflt m a b hm)

theorem above_filter {lo : Nat} (p : Host.Cell → Bool) (m : Mem) (hm : Mem.above lo m = true) :
    Mem.above lo (m.filter p) = true := by
  simp only [Mem.above, List.all_eq_true, decide_eq_true_eq] at *
  intro c hc
  exact hm c (List.mem_filter.mp hc).1

/-- So does an erase. -/
theorem erase_wf (dflt : Byte) (m : Mem) (a n : Nat) (hm : Mem.wf dflt m = true) :
    Mem.wf dflt (Mem.erase m a n) = true := by
  unfold Mem.erase
  induction m with
  | nil => rfl
  | cons c m ih =>
    obtain ⟨k, b⟩ := c
    simp only [Mem.wf, Bool.and_eq_true, decide_eq_true_eq] at hm
    rw [List.filter_cons]
    split
    · have h1 := above_filter (fun c => decide (c.1 < a ∨ a + n ≤ c.1)) m hm.1.2
      have h2 : decide (b ≠ dflt) = true := by simp [hm.1.1]
      simp only [Mem.wf, h1, h2, ih hm.2, Bool.and_self]
    · exact ih hm.2

end Sys2Proof.Laws
end

