-- ==== Sys2Proof/Laws/Events.lean ====
section
/-! SUPPORT. The frame of the event operations: what fires an event changes the bookkeeping of events and nothing else,
and sets its bit. -/
namespace Sys2Proof.Laws

open Sys2Proof.Machine Sys2Proof.Safety

theorem eventsOnly_refl (d : Dev) : eventsOnly d d := ⟨rfl, by simp⟩

theorem stat_kept_trans {a b c : BitVec 64} (h₁ : a &&& ~~~b = 0) (h₂ : b &&& ~~~c = 0) : a &&& ~~~c = 0 := by
  apply BitVec.eq_of_getLsbD_eq
  intro i hi
  have e₁ := congrArg (·.getLsbD i) h₁
  have e₂ := congrArg (·.getLsbD i) h₂
  simp [hi] at e₁ e₂ ⊢
  intro ha
  exact e₂ (e₁ ha)

theorem eventsOnly_trans {a b c : Dev} (h₁ : eventsOnly a b) (h₂ : eventsOnly b c) : eventsOnly a c := by
  obtain ⟨e₁, s₁⟩ := h₁
  obtain ⟨e₂, s₂⟩ := h₂
  refine ⟨?_, stat_kept_trans s₁ s₂⟩
  rw [e₂, e₁]

/-- A change of the event block, the dispatch watermark and the shedding counts alone. -/
theorem eventsOnly_mk (d : Dev) (stat : BitVec 64) (queue : List Entry) (logBuf : List LogEntry) (shed : Nat)
    (noticed : Bool) (wm : Watermark) (wmovf : Word) (c1 c2 c3 c4 : Nat) (ovf : Word)
    (h : d.evt.stat &&& ~~~stat = 0) :
    eventsOnly d { d with
      evt := { d.evt with stat := stat, queue := queue, logBuf := logBuf, shed := shed, noticed := noticed }
      hst := { d.hst with evqwm := wm, wmovf := wmovf }
      dep := { d.dep with coalesced := c1, diag := c2, txref := c3, hostq := c4, ovf := ovf } } := ⟨rfl, h⟩

theorem countShed_eventsOnly (d : Dev) (w : Fin 4) : eventsOnly d (d.countShed w) := by
  unfold Dev.countShed
  split <;> exact ⟨rfl, by simp⟩

theorem logEntry_eventsOnly (d : Dev) (e : Entry) (b : Bool) : eventsOnly d (d.logEntry e b) := ⟨rfl, by simp [Dev.logEntry]⟩

theorem restage_eventsOnly (d : Dev) : eventsOnly d d.restage := ⟨rfl, by simp [Dev.restage]⟩

theorem wmSaturated_eventsOnly (d : Dev) (q : Nat) (b : Bool) : eventsOnly d (d.wmSaturated q b) :=
  ⟨rfl, by simp [Dev.wmSaturated]⟩

theorem setEvt_eventsOnly (d : Dev) (src : Nat) : eventsOnly d (d.setEvt src) := by
  refine ⟨rfl, ?_⟩
  apply BitVec.eq_of_getLsbD_eq
  intro i hi
  simp [Dev.setEvt, hi]
  intro ha hb
  simp [ha] at hb

theorem placeEntry_eventsOnly (d : Dev) (e : Entry) : eventsOnly d (d.placeEntry e).1 := by
  unfold Dev.placeEntry
  split
  · rename_i q _
    have h₁ : eventsOnly d ({ d with evt := { d.evt with queue := q } } : Dev) := ⟨rfl, by simp⟩
    have h₂ := eventsOnly_trans h₁ (countShed_eventsOnly _ 0)
    dsimp only
    split
    · exact h₂
    · exact eventsOnly_trans h₂ (logEntry_eventsOnly _ _ _)
  · split
    · exact countShed_eventsOnly d 1
    · split
      · exact eventsOnly_trans (countShed_eventsOnly d 3) (logEntry_eventsOnly _ _ _)
      · dsimp only
        refine eventsOnly_trans ?_ (restage_eventsOnly _)
        refine eventsOnly_trans ?_ (wmSaturated_eventsOnly _ _ _)
        refine eventsOnly_trans ?_ (logEntry_eventsOnly _ _ _)
        exact ⟨rfl, by simp⟩

theorem placeWithCrossing_eventsOnly (d : Dev) (e : Entry) : eventsOnly d (d.placeWithCrossing e).1 := by
  have h := placeEntry_eventsOnly d e
  unfold Dev.placeWithCrossing
  split <;> rename_i heq <;> rw [heq] at h
  · exact h
  · exact h
  · exact eventsOnly_trans h (eventsOnly_trans (setEvt_eventsOnly _ _) (placeEntry_eventsOnly _ _))

theorem shedNotice_eventsOnly (d : Dev) (b : Bool) : eventsOnly d (d.shedNotice b) := by
  unfold Dev.shedNotice
  split
  · dsimp only
    refine eventsOnly_trans ?_ (placeWithCrossing_eventsOnly _ _)
    refine eventsOnly_trans ?_ (setEvt_eventsOnly _ _)
    exact ⟨rfl, by simp⟩
  · exact eventsOnly_refl d

/-- Firing an event changes only the bookkeeping of events. -/
theorem fire_eventsOnly (d : Dev) (e : Entry) : eventsOnly d (d.fire e) :=
  eventsOnly_trans (setEvt_eventsOnly d e.src)
    (eventsOnly_trans (placeWithCrossing_eventsOnly _ e) (shedNotice_eventsOnly _ _))

theorem event_eventsOnly (d : Dev) (src sub cls inst ep : Nat) (data : Word) :
    eventsOnly d (d.event src sub cls inst ep data) := fire_eventsOnly d _

theorem notice_eventsOnly (d : Dev) (src sub inst : Nat) : eventsOnly d (d.notice src sub inst) := fire_eventsOnly d _

theorem fired_of_eventsOnly {src : Nat} {a b : Dev} (h : eventsOnly a b) (hf : fired src a) : fired src b := by
  have hi : src < 64 := by
    refine Nat.lt_of_not_le fun hc => ?_
    unfold fired at hf
    rw [BitVec.getLsbD_of_ge _ _ hc] at hf
    cases hf
  have e : (a.evt.stat &&& ~~~b.evt.stat).getLsbD src = (0 : BitVec 64).getLsbD src := by rw [h.2]
  unfold fired at hf ⊢
  rw [BitVec.getLsbD_and, BitVec.getLsbD_not, hf, decide_eq_true hi, Bool.true_and, Bool.true_and] at e
  simpa using e

theorem setEvt_fired (d : Dev) (src : Nat) (h : src < 64) : fired src (d.setEvt src) := by
  show (d.evt.stat ||| BitVec.ofNat 64 (2 ^ src)).getLsbD src = true
  rw [BitVec.getLsbD_or, BitVec.getLsbD_ofNat, Nat.testBit_two_pow_self, decide_eq_true h]
  exact Bool.or_true _

/-- The bit of an event that fires is set. -/
theorem fire_fired (d : Dev) (e : Entry) (h : e.src < 64) : fired e.src (d.fire e) :=
  fired_of_eventsOnly (eventsOnly_trans (placeWithCrossing_eventsOnly _ e) (shedNotice_eventsOnly _ _))
    (setEvt_fired d e.src h)

theorem event_fired (d : Dev) (src sub cls inst ep : Nat) (data : Word) (h : src < 64) :
    fired src (d.event src sub cls inst ep data) := fire_fired d _ h

theorem notice_fired (d : Dev) (src sub inst : Nat) (h : src < 64) : fired src (d.notice src sub inst) := fire_fired d _ h

/-- A crossing of a watermark outside the dispatch queue fires source 62 and changes nothing else. -/
theorem queueCrossed_eventsOnly (d : Dev) (q level : Nat) (c s : Bool) : eventsOnly d (d.queueCrossed q level c s) := by
  unfold Dev.queueCrossed
  dsimp only
  split
  · exact eventsOnly_trans (wmSaturated_eventsOnly _ _ _) (fire_eventsOnly _ _)
  · exact wmSaturated_eventsOnly _ _ _

end Sys2Proof.Laws
end

