-- ==== Sys2Proof/Laws/EventFrames.lean ====
section
/-! SUPPORT. The same frame page by page, as rewriting rules: what an event leaves unchanged. -/
namespace Sys2Proof.Laws

open Sys2Proof.Machine Sys2Proof.Safety

/-! ### Two devices that differ only in the bookkeeping of events -/

theorem eventsOnly_cmds {a b : Dev} (h : eventsOnly a b) : b.cmds = a.cmds := by rw [h.1]
theorem eventsOnly_sup {a b : Dev} (h : eventsOnly a b) : b.sup = a.sup := by rw [h.1]
theorem eventsOnly_sys {a b : Dev} (h : eventsOnly a b) : b.sys = a.sys := by rw [h.1]
theorem eventsOnly_mode {a b : Dev} (h : eventsOnly a b) : b.mode = a.mode := by rw [h.1]
theorem eventsOnly_seq {a b : Dev} (h : eventsOnly a b) : b.seq = a.seq := by rw [h.1]
theorem eventsOnly_coil {a b : Dev} (h : eventsOnly a b) : b.coil = a.coil := by rw [h.1]
theorem eventsOnly_eng {a b : Dev} (h : eventsOnly a b) : b.eng = a.eng := by rw [h.1]
theorem eventsOnly_insp {a b : Dev} (h : eventsOnly a b) : b.insp = a.insp := by rw [h.1]
theorem eventsOnly_chn {a b : Dev} (h : eventsOnly a b) : b.chn = a.chn := by rw [h.1]
theorem eventsOnly_sen {a b : Dev} (h : eventsOnly a b) : b.sen = a.sen := by rw [h.1]
theorem eventsOnly_est {a b : Dev} (h : eventsOnly a b) : b.est = a.est := by rw [h.1]
theorem eventsOnly_lim {a b : Dev} (h : eventsOnly a b) : b.lim = a.lim := by rw [h.1]
theorem eventsOnly_pwr {a b : Dev} (h : eventsOnly a b) : b.pwr = a.pwr := by rw [h.1]
theorem eventsOnly_saf {a b : Dev} (h : eventsOnly a b) : b.saf = a.saf := by rw [h.1]
theorem eventsOnly_tol {a b : Dev} (h : eventsOnly a b) : b.tol = a.tol := by rw [h.1]
theorem eventsOnly_lgr {a b : Dev} (h : eventsOnly a b) : b.lgr = a.lgr := by rw [h.1]
theorem eventsOnly_can0 {a b : Dev} (h : eventsOnly a b) : b.can0 = a.can0 := by rw [h.1]
theorem eventsOnly_can1 {a b : Dev} (h : eventsOnly a b) : b.can1 = a.can1 := by rw [h.1]
theorem eventsOnly_wakeDet {a b : Dev} (h : eventsOnly a b) : b.wakeDet = a.wakeDet := by rw [h.1]
theorem eventsOnly_inh {a b : Dev} (h : eventsOnly a b) : b.inh = a.inh := by rw [h.1]
theorem eventsOnly_lif {a b : Dev} (h : eventsOnly a b) : b.lif = a.lif := by rw [h.1]
theorem eventsOnly_man {a b : Dev} (h : eventsOnly a b) : b.man = a.man := by rw [h.1]
theorem eventsOnly_free {a b : Dev} (h : eventsOnly a b) : b.free = a.free := by rw [h.1]
theorem eventsOnly_hst_frame {a b : Dev} (h : eventsOnly a b) : b.hst.frame = a.hst.frame := by rw [h.1]
theorem eventsOnly_hst_resp {a b : Dev} (h : eventsOnly a b) : b.hst.resp = a.hst.resp := by rw [h.1]
theorem eventsOnly_hst_access {a b : Dev} (h : eventsOnly a b) : b.hst.access = a.hst.access := by rw [h.1]
theorem eventsOnly_hst_delivered {a b : Dev} (h : eventsOnly a b) : b.hst.delivered = a.hst.delivered := by rw [h.1]
theorem eventsOnly_hst_accessFrame {a b : Dev} (h : eventsOnly a b) : b.hst.accessFrame = a.hst.accessFrame := by rw [h.1]
theorem eventsOnly_hst_fetch {a b : Dev} (h : eventsOnly a b) : b.hst.fetch = a.hst.fetch := by rw [h.1]
theorem eventsOnly_hst_lasterr {a b : Dev} (h : eventsOnly a b) : b.hst.lasterr = a.hst.lasterr := by rw [h.1]
theorem eventsOnly_hst_errCrc {a b : Dev} (h : eventsOnly a b) : b.hst.errCrc = a.hst.errCrc := by rw [h.1]
theorem eventsOnly_hst_errOther {a b : Dev} (h : eventsOnly a b) : b.hst.errOther = a.hst.errOther := by rw [h.1]
theorem eventsOnly_hst_ovf {a b : Dev} (h : eventsOnly a b) : b.hst.ovf = a.hst.ovf := by rw [h.1]
theorem eventsOnly_hst_cmdarg {a b : Dev} (h : eventsOnly a b) : b.hst.cmdarg = a.hst.cmdarg := by rw [h.1]
theorem eventsOnly_hst_evqcfg {a b : Dev} (h : eventsOnly a b) : b.hst.evqcfg = a.hst.evqcfg := by rw [h.1]
theorem eventsOnly_hst_winSel {a b : Dev} (h : eventsOnly a b) : b.hst.winSel = a.hst.winSel := by rw [h.1]
theorem eventsOnly_hst_winAddr {a b : Dev} (h : eventsOnly a b) : b.hst.winAddr = a.hst.winAddr := by rw [h.1]
theorem eventsOnly_hst_captured {a b : Dev} (h : eventsOnly a b) : b.hst.captured = a.hst.captured := by rw [h.1]
theorem eventsOnly_hst_cfginc {a b : Dev} (h : eventsOnly a b) : b.hst.cfginc = a.hst.cfginc := by rw [h.1]
theorem eventsOnly_dep_cs0Ok {a b : Dev} (h : eventsOnly a b) : b.dep.cs0Ok = a.dep.cs0Ok := by rw [h.1]
theorem eventsOnly_dep_cs1Ok {a b : Dev} (h : eventsOnly a b) : b.dep.cs1Ok = a.dep.cs1Ok := by rw [h.1]
theorem eventsOnly_dep_quad {a b : Dev} (h : eventsOnly a b) : b.dep.quad = a.dep.quad := by rw [h.1]
theorem eventsOnly_dep_pinOvf {a b : Dev} (h : eventsOnly a b) : b.dep.pinOvf = a.dep.pinOvf := by rw [h.1]
theorem eventsOnly_dep_logBad {a b : Dev} (h : eventsOnly a b) : b.dep.logBad = a.dep.logBad := by rw [h.1]
theorem eventsOnly_dep_flushing {a b : Dev} (h : eventsOnly a b) : b.dep.flushing = a.dep.flushing := by rw [h.1]
theorem eventsOnly_dep_cfg {a b : Dev} (h : eventsOnly a b) : b.dep.cfg = a.dep.cfg := by rw [h.1]
theorem eventsOnly_dep_id0 {a b : Dev} (h : eventsOnly a b) : b.dep.id0 = a.dep.id0 := by rw [h.1]
theorem eventsOnly_dep_id1 {a b : Dev} (h : eventsOnly a b) : b.dep.id1 = a.dep.id1 := by rw [h.1]
theorem eventsOnly_dep_argHi {a b : Dev} (h : eventsOnly a b) : b.dep.argHi = a.dep.argHi := by rw [h.1]
theorem eventsOnly_dep_argLo {a b : Dev} (h : eventsOnly a b) : b.dep.argLo = a.dep.argLo := by rw [h.1]
theorem eventsOnly_dep_logSeq {a b : Dev} (h : eventsOnly a b) : b.dep.logSeq = a.dep.logSeq := by rw [h.1]
theorem eventsOnly_dep_unpin {a b : Dev} (h : eventsOnly a b) : b.dep.unpin = a.dep.unpin := by rw [h.1]
theorem eventsOnly_dep_pinned {a b : Dev} (h : eventsOnly a b) : b.dep.pinned = a.dep.pinned := by rw [h.1]
theorem eventsOnly_dep_badSectors {a b : Dev} (h : eventsOnly a b) : b.dep.badSectors = a.dep.badSectors := by rw [h.1]
theorem eventsOnly_dep_err0 {a b : Dev} (h : eventsOnly a b) : b.dep.err0 = a.dep.err0 := by rw [h.1]
theorem eventsOnly_dep_err1 {a b : Dev} (h : eventsOnly a b) : b.dep.err1 = a.dep.err1 := by rw [h.1]
theorem eventsOnly_dep_tagwm {a b : Dev} (h : eventsOnly a b) : b.dep.tagwm = a.dep.tagwm := by rw [h.1]
theorem eventsOnly_dep_stgwm {a b : Dev} (h : eventsOnly a b) : b.dep.stgwm = a.dep.stgwm := by rw [h.1]
theorem eventsOnly_dep_histwm {a b : Dev} (h : eventsOnly a b) : b.dep.histwm = a.dep.histwm := by rw [h.1]
theorem eventsOnly_dep_wmcfg {a b : Dev} (h : eventsOnly a b) : b.dep.wmcfg = a.dep.wmcfg := by rw [h.1]
theorem eventsOnly_dep_busy {a b : Dev} (h : eventsOnly a b) : b.dep.busy = a.dep.busy := by rw [h.1]
theorem eventsOnly_dep_waiting {a b : Dev} (h : eventsOnly a b) : b.dep.waiting = a.dep.waiting := by rw [h.1]
theorem eventsOnly_dep_cs0 {a b : Dev} (h : eventsOnly a b) : b.dep.cs0 = a.dep.cs0 := by rw [h.1]
theorem eventsOnly_dep_cs1 {a b : Dev} (h : eventsOnly a b) : b.dep.cs1 = a.dep.cs1 := by rw [h.1]
theorem eventsOnly_dep_energy {a b : Dev} (h : eventsOnly a b) : b.dep.energy = a.dep.energy := by rw [h.1]
theorem eventsOnly_dep_coul {a b : Dev} (h : eventsOnly a b) : b.dep.coul = a.dep.coul := by rw [h.1]
theorem eventsOnly_dep_pack {a b : Dev} (h : eventsOnly a b) : b.dep.pack = a.dep.pack := by rw [h.1]
theorem eventsOnly_dep_soc {a b : Dev} (h : eventsOnly a b) : b.dep.soc = a.dep.soc := by rw [h.1]
theorem eventsOnly_dep_counters {a b : Dev} (h : eventsOnly a b) : b.dep.counters = a.dep.counters := by rw [h.1]
theorem eventsOnly_dep_history {a b : Dev} (h : eventsOnly a b) : b.dep.history = a.dep.history := by rw [h.1]
theorem eventsOnly_dep_histGen {a b : Dev} (h : eventsOnly a b) : b.dep.histGen = a.dep.histGen := by rw [h.1]
theorem eventsOnly_dep_histCopy {a b : Dev} (h : eventsOnly a b) : b.dep.histCopy = a.dep.histCopy := by rw [h.1]
theorem eventsOnly_dep_logState {a b : Dev} (h : eventsOnly a b) : b.dep.logState = a.dep.logState := by rw [h.1]
theorem eventsOnly_dep_rest {a b : Dev} (h : eventsOnly a b) : b.dep.rest = a.dep.rest := by rw [h.1]
theorem eventsOnly_dep_jobs {a b : Dev} (h : eventsOnly a b) : b.dep.jobs = a.dep.jobs := by rw [h.1]
theorem eventsOnly_dep_deepOk {a b : Dev} (h : eventsOnly a b) : b.dep.deepOk = a.dep.deepOk := by rw [h.1]
theorem eventsOnly_dep_deepDown {a b : Dev} (h : eventsOnly a b) : b.dep.deepDown = a.dep.deepDown := by rw [h.1]
theorem eventsOnly_dep_inForce {a b : Dev} (h : eventsOnly a b) : b.dep.inForce = a.dep.inForce := by rw [h.1]
theorem eventsOnly_dep_doneCount {a b : Dev} (h : eventsOnly a b) : b.dep.doneCount = a.dep.doneCount := by rw [h.1]
theorem eventsOnly_dep_heldEnds {a b : Dev} (h : eventsOnly a b) : b.dep.heldEnds = a.dep.heldEnds := by rw [h.1]
theorem eventsOnly_evt_mask {a b : Dev} (h : eventsOnly a b) : b.evt.mask = a.evt.mask := by rw [h.1]
theorem eventsOnly_evt_logSec {a b : Dev} (h : eventsOnly a b) : b.evt.logSec = a.evt.logSec := by rw [h.1]
theorem eventsOnly_evt_logDone {a b : Dev} (h : eventsOnly a b) : b.evt.logDone = a.evt.logDone := by rw [h.1]
theorem eventsOnly_evt_episode {a b : Dev} (h : eventsOnly a b) : b.evt.episode = a.evt.episode := by rw [h.1]
theorem eventsOnly_evt_irqWatch {a b : Dev} (h : eventsOnly a b) : b.evt.irqWatch = a.evt.irqWatch := by rw [h.1]

/-! ### An event -/

@[simp] theorem event_cmds (d : Dev) (src sub cls inst ep : Nat) (data : Word) :
    (d.event src sub cls inst ep data).cmds = d.cmds := eventsOnly_cmds (event_eventsOnly ..)
@[simp] theorem event_sup (d : Dev) (src sub cls inst ep : Nat) (data : Word) :
    (d.event src sub cls inst ep data).sup = d.sup := eventsOnly_sup (event_eventsOnly ..)
@[simp] theorem event_sys (d : Dev) (src sub cls inst ep : Nat) (data : Word) :
    (d.event src sub cls inst ep data).sys = d.sys := eventsOnly_sys (event_eventsOnly ..)
@[simp] theorem event_mode (d : Dev) (src sub cls inst ep : Nat) (data : Word) :
    (d.event src sub cls inst ep data).mode = d.mode := eventsOnly_mode (event_eventsOnly ..)
@[simp] theorem event_seq (d : Dev) (src sub cls inst ep : Nat) (data : Word) :
    (d.event src sub cls inst ep data).seq = d.seq := eventsOnly_seq (event_eventsOnly ..)
@[simp] theorem event_coil (d : Dev) (src sub cls inst ep : Nat) (data : Word) :
    (d.event src sub cls inst ep data).coil = d.coil := eventsOnly_coil (event_eventsOnly ..)
@[simp] theorem event_eng (d : Dev) (src sub cls inst ep : Nat) (data : Word) :
    (d.event src sub cls inst ep data).eng = d.eng := eventsOnly_eng (event_eventsOnly ..)
@[simp] theorem event_insp (d : Dev) (src sub cls inst ep : Nat) (data : Word) :
    (d.event src sub cls inst ep data).insp = d.insp := eventsOnly_insp (event_eventsOnly ..)
@[simp] theorem event_chn (d : Dev) (src sub cls inst ep : Nat) (data : Word) :
    (d.event src sub cls inst ep data).chn = d.chn := eventsOnly_chn (event_eventsOnly ..)
@[simp] theorem event_sen (d : Dev) (src sub cls inst ep : Nat) (data : Word) :
    (d.event src sub cls inst ep data).sen = d.sen := eventsOnly_sen (event_eventsOnly ..)
@[simp] theorem event_est (d : Dev) (src sub cls inst ep : Nat) (data : Word) :
    (d.event src sub cls inst ep data).est = d.est := eventsOnly_est (event_eventsOnly ..)
@[simp] theorem event_lim (d : Dev) (src sub cls inst ep : Nat) (data : Word) :
    (d.event src sub cls inst ep data).lim = d.lim := eventsOnly_lim (event_eventsOnly ..)
@[simp] theorem event_pwr (d : Dev) (src sub cls inst ep : Nat) (data : Word) :
    (d.event src sub cls inst ep data).pwr = d.pwr := eventsOnly_pwr (event_eventsOnly ..)
@[simp] theorem event_saf (d : Dev) (src sub cls inst ep : Nat) (data : Word) :
    (d.event src sub cls inst ep data).saf = d.saf := eventsOnly_saf (event_eventsOnly ..)
@[simp] theorem event_tol (d : Dev) (src sub cls inst ep : Nat) (data : Word) :
    (d.event src sub cls inst ep data).tol = d.tol := eventsOnly_tol (event_eventsOnly ..)
@[simp] theorem event_lgr (d : Dev) (src sub cls inst ep : Nat) (data : Word) :
    (d.event src sub cls inst ep data).lgr = d.lgr := eventsOnly_lgr (event_eventsOnly ..)
@[simp] theorem event_can0 (d : Dev) (src sub cls inst ep : Nat) (data : Word) :
    (d.event src sub cls inst ep data).can0 = d.can0 := eventsOnly_can0 (event_eventsOnly ..)
@[simp] theorem event_can1 (d : Dev) (src sub cls inst ep : Nat) (data : Word) :
    (d.event src sub cls inst ep data).can1 = d.can1 := eventsOnly_can1 (event_eventsOnly ..)
@[simp] theorem event_wakeDet (d : Dev) (src sub cls inst ep : Nat) (data : Word) :
    (d.event src sub cls inst ep data).wakeDet = d.wakeDet := eventsOnly_wakeDet (event_eventsOnly ..)
@[simp] theorem event_inh (d : Dev) (src sub cls inst ep : Nat) (data : Word) :
    (d.event src sub cls inst ep data).inh = d.inh := eventsOnly_inh (event_eventsOnly ..)
@[simp] theorem event_lif (d : Dev) (src sub cls inst ep : Nat) (data : Word) :
    (d.event src sub cls inst ep data).lif = d.lif := eventsOnly_lif (event_eventsOnly ..)
@[simp] theorem event_man (d : Dev) (src sub cls inst ep : Nat) (data : Word) :
    (d.event src sub cls inst ep data).man = d.man := eventsOnly_man (event_eventsOnly ..)
@[simp] theorem event_free (d : Dev) (src sub cls inst ep : Nat) (data : Word) :
    (d.event src sub cls inst ep data).free = d.free := eventsOnly_free (event_eventsOnly ..)
@[simp] theorem event_hst_frame (d : Dev) (src sub cls inst ep : Nat) (data : Word) :
    (d.event src sub cls inst ep data).hst.frame = d.hst.frame := eventsOnly_hst_frame (event_eventsOnly ..)
@[simp] theorem event_hst_resp (d : Dev) (src sub cls inst ep : Nat) (data : Word) :
    (d.event src sub cls inst ep data).hst.resp = d.hst.resp := eventsOnly_hst_resp (event_eventsOnly ..)
@[simp] theorem event_hst_access (d : Dev) (src sub cls inst ep : Nat) (data : Word) :
    (d.event src sub cls inst ep data).hst.access = d.hst.access := eventsOnly_hst_access (event_eventsOnly ..)
@[simp] theorem event_hst_delivered (d : Dev) (src sub cls inst ep : Nat) (data : Word) :
    (d.event src sub cls inst ep data).hst.delivered = d.hst.delivered := eventsOnly_hst_delivered (event_eventsOnly ..)
@[simp] theorem event_hst_accessFrame (d : Dev) (src sub cls inst ep : Nat) (data : Word) :
    (d.event src sub cls inst ep data).hst.accessFrame = d.hst.accessFrame := eventsOnly_hst_accessFrame (event_eventsOnly ..)
@[simp] theorem event_hst_fetch (d : Dev) (src sub cls inst ep : Nat) (data : Word) :
    (d.event src sub cls inst ep data).hst.fetch = d.hst.fetch := eventsOnly_hst_fetch (event_eventsOnly ..)
@[simp] theorem event_hst_lasterr (d : Dev) (src sub cls inst ep : Nat) (data : Word) :
    (d.event src sub cls inst ep data).hst.lasterr = d.hst.lasterr := eventsOnly_hst_lasterr (event_eventsOnly ..)
@[simp] theorem event_hst_errCrc (d : Dev) (src sub cls inst ep : Nat) (data : Word) :
    (d.event src sub cls inst ep data).hst.errCrc = d.hst.errCrc := eventsOnly_hst_errCrc (event_eventsOnly ..)
@[simp] theorem event_hst_errOther (d : Dev) (src sub cls inst ep : Nat) (data : Word) :
    (d.event src sub cls inst ep data).hst.errOther = d.hst.errOther := eventsOnly_hst_errOther (event_eventsOnly ..)
@[simp] theorem event_hst_ovf (d : Dev) (src sub cls inst ep : Nat) (data : Word) :
    (d.event src sub cls inst ep data).hst.ovf = d.hst.ovf := eventsOnly_hst_ovf (event_eventsOnly ..)
@[simp] theorem event_hst_cmdarg (d : Dev) (src sub cls inst ep : Nat) (data : Word) :
    (d.event src sub cls inst ep data).hst.cmdarg = d.hst.cmdarg := eventsOnly_hst_cmdarg (event_eventsOnly ..)
@[simp] theorem event_hst_evqcfg (d : Dev) (src sub cls inst ep : Nat) (data : Word) :
    (d.event src sub cls inst ep data).hst.evqcfg = d.hst.evqcfg := eventsOnly_hst_evqcfg (event_eventsOnly ..)
@[simp] theorem event_hst_winSel (d : Dev) (src sub cls inst ep : Nat) (data : Word) :
    (d.event src sub cls inst ep data).hst.winSel = d.hst.winSel := eventsOnly_hst_winSel (event_eventsOnly ..)
@[simp] theorem event_hst_winAddr (d : Dev) (src sub cls inst ep : Nat) (data : Word) :
    (d.event src sub cls inst ep data).hst.winAddr = d.hst.winAddr := eventsOnly_hst_winAddr (event_eventsOnly ..)
@[simp] theorem event_hst_captured (d : Dev) (src sub cls inst ep : Nat) (data : Word) :
    (d.event src sub cls inst ep data).hst.captured = d.hst.captured := eventsOnly_hst_captured (event_eventsOnly ..)
@[simp] theorem event_hst_cfginc (d : Dev) (src sub cls inst ep : Nat) (data : Word) :
    (d.event src sub cls inst ep data).hst.cfginc = d.hst.cfginc := eventsOnly_hst_cfginc (event_eventsOnly ..)
@[simp] theorem event_dep_cs0Ok (d : Dev) (src sub cls inst ep : Nat) (data : Word) :
    (d.event src sub cls inst ep data).dep.cs0Ok = d.dep.cs0Ok := eventsOnly_dep_cs0Ok (event_eventsOnly ..)
@[simp] theorem event_dep_cs1Ok (d : Dev) (src sub cls inst ep : Nat) (data : Word) :
    (d.event src sub cls inst ep data).dep.cs1Ok = d.dep.cs1Ok := eventsOnly_dep_cs1Ok (event_eventsOnly ..)
@[simp] theorem event_dep_quad (d : Dev) (src sub cls inst ep : Nat) (data : Word) :
    (d.event src sub cls inst ep data).dep.quad = d.dep.quad := eventsOnly_dep_quad (event_eventsOnly ..)
@[simp] theorem event_dep_pinOvf (d : Dev) (src sub cls inst ep : Nat) (data : Word) :
    (d.event src sub cls inst ep data).dep.pinOvf = d.dep.pinOvf := eventsOnly_dep_pinOvf (event_eventsOnly ..)
@[simp] theorem event_dep_logBad (d : Dev) (src sub cls inst ep : Nat) (data : Word) :
    (d.event src sub cls inst ep data).dep.logBad = d.dep.logBad := eventsOnly_dep_logBad (event_eventsOnly ..)
@[simp] theorem event_dep_flushing (d : Dev) (src sub cls inst ep : Nat) (data : Word) :
    (d.event src sub cls inst ep data).dep.flushing = d.dep.flushing := eventsOnly_dep_flushing (event_eventsOnly ..)
@[simp] theorem event_dep_cfg (d : Dev) (src sub cls inst ep : Nat) (data : Word) :
    (d.event src sub cls inst ep data).dep.cfg = d.dep.cfg := eventsOnly_dep_cfg (event_eventsOnly ..)
@[simp] theorem event_dep_id0 (d : Dev) (src sub cls inst ep : Nat) (data : Word) :
    (d.event src sub cls inst ep data).dep.id0 = d.dep.id0 := eventsOnly_dep_id0 (event_eventsOnly ..)
@[simp] theorem event_dep_id1 (d : Dev) (src sub cls inst ep : Nat) (data : Word) :
    (d.event src sub cls inst ep data).dep.id1 = d.dep.id1 := eventsOnly_dep_id1 (event_eventsOnly ..)
@[simp] theorem event_dep_argHi (d : Dev) (src sub cls inst ep : Nat) (data : Word) :
    (d.event src sub cls inst ep data).dep.argHi = d.dep.argHi := eventsOnly_dep_argHi (event_eventsOnly ..)
@[simp] theorem event_dep_argLo (d : Dev) (src sub cls inst ep : Nat) (data : Word) :
    (d.event src sub cls inst ep data).dep.argLo = d.dep.argLo := eventsOnly_dep_argLo (event_eventsOnly ..)
@[simp] theorem event_dep_logSeq (d : Dev) (src sub cls inst ep : Nat) (data : Word) :
    (d.event src sub cls inst ep data).dep.logSeq = d.dep.logSeq := eventsOnly_dep_logSeq (event_eventsOnly ..)
@[simp] theorem event_dep_unpin (d : Dev) (src sub cls inst ep : Nat) (data : Word) :
    (d.event src sub cls inst ep data).dep.unpin = d.dep.unpin := eventsOnly_dep_unpin (event_eventsOnly ..)
@[simp] theorem event_dep_pinned (d : Dev) (src sub cls inst ep : Nat) (data : Word) :
    (d.event src sub cls inst ep data).dep.pinned = d.dep.pinned := eventsOnly_dep_pinned (event_eventsOnly ..)
@[simp] theorem event_dep_badSectors (d : Dev) (src sub cls inst ep : Nat) (data : Word) :
    (d.event src sub cls inst ep data).dep.badSectors = d.dep.badSectors := eventsOnly_dep_badSectors (event_eventsOnly ..)
@[simp] theorem event_dep_err0 (d : Dev) (src sub cls inst ep : Nat) (data : Word) :
    (d.event src sub cls inst ep data).dep.err0 = d.dep.err0 := eventsOnly_dep_err0 (event_eventsOnly ..)
@[simp] theorem event_dep_err1 (d : Dev) (src sub cls inst ep : Nat) (data : Word) :
    (d.event src sub cls inst ep data).dep.err1 = d.dep.err1 := eventsOnly_dep_err1 (event_eventsOnly ..)
@[simp] theorem event_dep_tagwm (d : Dev) (src sub cls inst ep : Nat) (data : Word) :
    (d.event src sub cls inst ep data).dep.tagwm = d.dep.tagwm := eventsOnly_dep_tagwm (event_eventsOnly ..)
@[simp] theorem event_dep_stgwm (d : Dev) (src sub cls inst ep : Nat) (data : Word) :
    (d.event src sub cls inst ep data).dep.stgwm = d.dep.stgwm := eventsOnly_dep_stgwm (event_eventsOnly ..)
@[simp] theorem event_dep_histwm (d : Dev) (src sub cls inst ep : Nat) (data : Word) :
    (d.event src sub cls inst ep data).dep.histwm = d.dep.histwm := eventsOnly_dep_histwm (event_eventsOnly ..)
@[simp] theorem event_dep_wmcfg (d : Dev) (src sub cls inst ep : Nat) (data : Word) :
    (d.event src sub cls inst ep data).dep.wmcfg = d.dep.wmcfg := eventsOnly_dep_wmcfg (event_eventsOnly ..)
@[simp] theorem event_dep_busy (d : Dev) (src sub cls inst ep : Nat) (data : Word) :
    (d.event src sub cls inst ep data).dep.busy = d.dep.busy := eventsOnly_dep_busy (event_eventsOnly ..)
@[simp] theorem event_dep_waiting (d : Dev) (src sub cls inst ep : Nat) (data : Word) :
    (d.event src sub cls inst ep data).dep.waiting = d.dep.waiting := eventsOnly_dep_waiting (event_eventsOnly ..)
@[simp] theorem event_dep_cs0 (d : Dev) (src sub cls inst ep : Nat) (data : Word) :
    (d.event src sub cls inst ep data).dep.cs0 = d.dep.cs0 := eventsOnly_dep_cs0 (event_eventsOnly ..)
@[simp] theorem event_dep_cs1 (d : Dev) (src sub cls inst ep : Nat) (data : Word) :
    (d.event src sub cls inst ep data).dep.cs1 = d.dep.cs1 := eventsOnly_dep_cs1 (event_eventsOnly ..)
@[simp] theorem event_dep_energy (d : Dev) (src sub cls inst ep : Nat) (data : Word) :
    (d.event src sub cls inst ep data).dep.energy = d.dep.energy := eventsOnly_dep_energy (event_eventsOnly ..)
@[simp] theorem event_dep_coul (d : Dev) (src sub cls inst ep : Nat) (data : Word) :
    (d.event src sub cls inst ep data).dep.coul = d.dep.coul := eventsOnly_dep_coul (event_eventsOnly ..)
@[simp] theorem event_dep_pack (d : Dev) (src sub cls inst ep : Nat) (data : Word) :
    (d.event src sub cls inst ep data).dep.pack = d.dep.pack := eventsOnly_dep_pack (event_eventsOnly ..)
@[simp] theorem event_dep_soc (d : Dev) (src sub cls inst ep : Nat) (data : Word) :
    (d.event src sub cls inst ep data).dep.soc = d.dep.soc := eventsOnly_dep_soc (event_eventsOnly ..)
@[simp] theorem event_dep_counters (d : Dev) (src sub cls inst ep : Nat) (data : Word) :
    (d.event src sub cls inst ep data).dep.counters = d.dep.counters := eventsOnly_dep_counters (event_eventsOnly ..)
@[simp] theorem event_dep_history (d : Dev) (src sub cls inst ep : Nat) (data : Word) :
    (d.event src sub cls inst ep data).dep.history = d.dep.history := eventsOnly_dep_history (event_eventsOnly ..)
@[simp] theorem event_dep_histGen (d : Dev) (src sub cls inst ep : Nat) (data : Word) :
    (d.event src sub cls inst ep data).dep.histGen = d.dep.histGen := eventsOnly_dep_histGen (event_eventsOnly ..)
@[simp] theorem event_dep_histCopy (d : Dev) (src sub cls inst ep : Nat) (data : Word) :
    (d.event src sub cls inst ep data).dep.histCopy = d.dep.histCopy := eventsOnly_dep_histCopy (event_eventsOnly ..)
@[simp] theorem event_dep_logState (d : Dev) (src sub cls inst ep : Nat) (data : Word) :
    (d.event src sub cls inst ep data).dep.logState = d.dep.logState := eventsOnly_dep_logState (event_eventsOnly ..)
@[simp] theorem event_dep_rest (d : Dev) (src sub cls inst ep : Nat) (data : Word) :
    (d.event src sub cls inst ep data).dep.rest = d.dep.rest := eventsOnly_dep_rest (event_eventsOnly ..)
@[simp] theorem event_dep_jobs (d : Dev) (src sub cls inst ep : Nat) (data : Word) :
    (d.event src sub cls inst ep data).dep.jobs = d.dep.jobs := eventsOnly_dep_jobs (event_eventsOnly ..)
@[simp] theorem event_dep_deepOk (d : Dev) (src sub cls inst ep : Nat) (data : Word) :
    (d.event src sub cls inst ep data).dep.deepOk = d.dep.deepOk := eventsOnly_dep_deepOk (event_eventsOnly ..)
@[simp] theorem event_dep_deepDown (d : Dev) (src sub cls inst ep : Nat) (data : Word) :
    (d.event src sub cls inst ep data).dep.deepDown = d.dep.deepDown := eventsOnly_dep_deepDown (event_eventsOnly ..)
@[simp] theorem event_dep_inForce (d : Dev) (src sub cls inst ep : Nat) (data : Word) :
    (d.event src sub cls inst ep data).dep.inForce = d.dep.inForce := eventsOnly_dep_inForce (event_eventsOnly ..)
@[simp] theorem event_dep_doneCount (d : Dev) (src sub cls inst ep : Nat) (data : Word) :
    (d.event src sub cls inst ep data).dep.doneCount = d.dep.doneCount := eventsOnly_dep_doneCount (event_eventsOnly ..)
@[simp] theorem event_dep_heldEnds (d : Dev) (src sub cls inst ep : Nat) (data : Word) :
    (d.event src sub cls inst ep data).dep.heldEnds = d.dep.heldEnds := eventsOnly_dep_heldEnds (event_eventsOnly ..)
@[simp] theorem event_evt_mask (d : Dev) (src sub cls inst ep : Nat) (data : Word) :
    (d.event src sub cls inst ep data).evt.mask = d.evt.mask := eventsOnly_evt_mask (event_eventsOnly ..)
@[simp] theorem event_evt_logSec (d : Dev) (src sub cls inst ep : Nat) (data : Word) :
    (d.event src sub cls inst ep data).evt.logSec = d.evt.logSec := eventsOnly_evt_logSec (event_eventsOnly ..)
@[simp] theorem event_evt_logDone (d : Dev) (src sub cls inst ep : Nat) (data : Word) :
    (d.event src sub cls inst ep data).evt.logDone = d.evt.logDone := eventsOnly_evt_logDone (event_eventsOnly ..)
@[simp] theorem event_evt_episode (d : Dev) (src sub cls inst ep : Nat) (data : Word) :
    (d.event src sub cls inst ep data).evt.episode = d.evt.episode := eventsOnly_evt_episode (event_eventsOnly ..)
@[simp] theorem event_evt_irqWatch (d : Dev) (src sub cls inst ep : Nat) (data : Word) :
    (d.event src sub cls inst ep data).evt.irqWatch = d.evt.irqWatch := eventsOnly_evt_irqWatch (event_eventsOnly ..)

/-! ### A notice -/

@[simp] theorem notice_cmds (d : Dev) (src sub inst : Nat) : (d.notice src sub inst).cmds = d.cmds :=
  eventsOnly_cmds (notice_eventsOnly ..)
@[simp] theorem notice_sup (d : Dev) (src sub inst : Nat) : (d.notice src sub inst).sup = d.sup :=
  eventsOnly_sup (notice_eventsOnly ..)
@[simp] theorem notice_sys (d : Dev) (src sub inst : Nat) : (d.notice src sub inst).sys = d.sys :=
  eventsOnly_sys (notice_eventsOnly ..)
@[simp] theorem notice_mode (d : Dev) (src sub inst : Nat) : (d.notice src sub inst).mode = d.mode :=
  eventsOnly_mode (notice_eventsOnly ..)
@[simp] theorem notice_seq (d : Dev) (src sub inst : Nat) : (d.notice src sub inst).seq = d.seq :=
  eventsOnly_seq (notice_eventsOnly ..)
@[simp] theorem notice_coil (d : Dev) (src sub inst : Nat) : (d.notice src sub inst).coil = d.coil :=
  eventsOnly_coil (notice_eventsOnly ..)
@[simp] theorem notice_eng (d : Dev) (src sub inst : Nat) : (d.notice src sub inst).eng = d.eng :=
  eventsOnly_eng (notice_eventsOnly ..)
@[simp] theorem notice_insp (d : Dev) (src sub inst : Nat) : (d.notice src sub inst).insp = d.insp :=
  eventsOnly_insp (notice_eventsOnly ..)
@[simp] theorem notice_chn (d : Dev) (src sub inst : Nat) : (d.notice src sub inst).chn = d.chn :=
  eventsOnly_chn (notice_eventsOnly ..)
@[simp] theorem notice_sen (d : Dev) (src sub inst : Nat) : (d.notice src sub inst).sen = d.sen :=
  eventsOnly_sen (notice_eventsOnly ..)
@[simp] theorem notice_est (d : Dev) (src sub inst : Nat) : (d.notice src sub inst).est = d.est :=
  eventsOnly_est (notice_eventsOnly ..)
@[simp] theorem notice_lim (d : Dev) (src sub inst : Nat) : (d.notice src sub inst).lim = d.lim :=
  eventsOnly_lim (notice_eventsOnly ..)
@[simp] theorem notice_pwr (d : Dev) (src sub inst : Nat) : (d.notice src sub inst).pwr = d.pwr :=
  eventsOnly_pwr (notice_eventsOnly ..)
@[simp] theorem notice_saf (d : Dev) (src sub inst : Nat) : (d.notice src sub inst).saf = d.saf :=
  eventsOnly_saf (notice_eventsOnly ..)
@[simp] theorem notice_tol (d : Dev) (src sub inst : Nat) : (d.notice src sub inst).tol = d.tol :=
  eventsOnly_tol (notice_eventsOnly ..)
@[simp] theorem notice_lgr (d : Dev) (src sub inst : Nat) : (d.notice src sub inst).lgr = d.lgr :=
  eventsOnly_lgr (notice_eventsOnly ..)
@[simp] theorem notice_can0 (d : Dev) (src sub inst : Nat) : (d.notice src sub inst).can0 = d.can0 :=
  eventsOnly_can0 (notice_eventsOnly ..)
@[simp] theorem notice_can1 (d : Dev) (src sub inst : Nat) : (d.notice src sub inst).can1 = d.can1 :=
  eventsOnly_can1 (notice_eventsOnly ..)
@[simp] theorem notice_wakeDet (d : Dev) (src sub inst : Nat) : (d.notice src sub inst).wakeDet = d.wakeDet :=
  eventsOnly_wakeDet (notice_eventsOnly ..)
@[simp] theorem notice_inh (d : Dev) (src sub inst : Nat) : (d.notice src sub inst).inh = d.inh :=
  eventsOnly_inh (notice_eventsOnly ..)
@[simp] theorem notice_lif (d : Dev) (src sub inst : Nat) : (d.notice src sub inst).lif = d.lif :=
  eventsOnly_lif (notice_eventsOnly ..)
@[simp] theorem notice_man (d : Dev) (src sub inst : Nat) : (d.notice src sub inst).man = d.man :=
  eventsOnly_man (notice_eventsOnly ..)
@[simp] theorem notice_free (d : Dev) (src sub inst : Nat) : (d.notice src sub inst).free = d.free :=
  eventsOnly_free (notice_eventsOnly ..)
@[simp] theorem notice_hst_frame (d : Dev) (src sub inst : Nat) : (d.notice src sub inst).hst.frame = d.hst.frame :=
  eventsOnly_hst_frame (notice_eventsOnly ..)
@[simp] theorem notice_hst_resp (d : Dev) (src sub inst : Nat) : (d.notice src sub inst).hst.resp = d.hst.resp :=
  eventsOnly_hst_resp (notice_eventsOnly ..)
@[simp] theorem notice_hst_access (d : Dev) (src sub inst : Nat) : (d.notice src sub inst).hst.access = d.hst.access :=
  eventsOnly_hst_access (notice_eventsOnly ..)
@[simp] theorem notice_hst_delivered (d : Dev) (src sub inst : Nat) : (d.notice src sub inst).hst.delivered = d.hst.delivered :=
  eventsOnly_hst_delivered (notice_eventsOnly ..)
@[simp] theorem notice_hst_accessFrame (d : Dev) (src sub inst : Nat) : (d.notice src sub inst).hst.accessFrame = d.hst.accessFrame :=
  eventsOnly_hst_accessFrame (notice_eventsOnly ..)
@[simp] theorem notice_hst_fetch (d : Dev) (src sub inst : Nat) : (d.notice src sub inst).hst.fetch = d.hst.fetch :=
  eventsOnly_hst_fetch (notice_eventsOnly ..)
@[simp] theorem notice_hst_lasterr (d : Dev) (src sub inst : Nat) : (d.notice src sub inst).hst.lasterr = d.hst.lasterr :=
  eventsOnly_hst_lasterr (notice_eventsOnly ..)
@[simp] theorem notice_hst_errCrc (d : Dev) (src sub inst : Nat) : (d.notice src sub inst).hst.errCrc = d.hst.errCrc :=
  eventsOnly_hst_errCrc (notice_eventsOnly ..)
@[simp] theorem notice_hst_errOther (d : Dev) (src sub inst : Nat) : (d.notice src sub inst).hst.errOther = d.hst.errOther :=
  eventsOnly_hst_errOther (notice_eventsOnly ..)
@[simp] theorem notice_hst_ovf (d : Dev) (src sub inst : Nat) : (d.notice src sub inst).hst.ovf = d.hst.ovf :=
  eventsOnly_hst_ovf (notice_eventsOnly ..)
@[simp] theorem notice_hst_cmdarg (d : Dev) (src sub inst : Nat) : (d.notice src sub inst).hst.cmdarg = d.hst.cmdarg :=
  eventsOnly_hst_cmdarg (notice_eventsOnly ..)
@[simp] theorem notice_hst_evqcfg (d : Dev) (src sub inst : Nat) : (d.notice src sub inst).hst.evqcfg = d.hst.evqcfg :=
  eventsOnly_hst_evqcfg (notice_eventsOnly ..)
@[simp] theorem notice_hst_winSel (d : Dev) (src sub inst : Nat) : (d.notice src sub inst).hst.winSel = d.hst.winSel :=
  eventsOnly_hst_winSel (notice_eventsOnly ..)
@[simp] theorem notice_hst_winAddr (d : Dev) (src sub inst : Nat) : (d.notice src sub inst).hst.winAddr = d.hst.winAddr :=
  eventsOnly_hst_winAddr (notice_eventsOnly ..)
@[simp] theorem notice_hst_captured (d : Dev) (src sub inst : Nat) : (d.notice src sub inst).hst.captured = d.hst.captured :=
  eventsOnly_hst_captured (notice_eventsOnly ..)
@[simp] theorem notice_hst_cfginc (d : Dev) (src sub inst : Nat) : (d.notice src sub inst).hst.cfginc = d.hst.cfginc :=
  eventsOnly_hst_cfginc (notice_eventsOnly ..)
@[simp] theorem notice_dep_cs0Ok (d : Dev) (src sub inst : Nat) : (d.notice src sub inst).dep.cs0Ok = d.dep.cs0Ok :=
  eventsOnly_dep_cs0Ok (notice_eventsOnly ..)
@[simp] theorem notice_dep_cs1Ok (d : Dev) (src sub inst : Nat) : (d.notice src sub inst).dep.cs1Ok = d.dep.cs1Ok :=
  eventsOnly_dep_cs1Ok (notice_eventsOnly ..)
@[simp] theorem notice_dep_quad (d : Dev) (src sub inst : Nat) : (d.notice src sub inst).dep.quad = d.dep.quad :=
  eventsOnly_dep_quad (notice_eventsOnly ..)
@[simp] theorem notice_dep_pinOvf (d : Dev) (src sub inst : Nat) : (d.notice src sub inst).dep.pinOvf = d.dep.pinOvf :=
  eventsOnly_dep_pinOvf (notice_eventsOnly ..)
@[simp] theorem notice_dep_logBad (d : Dev) (src sub inst : Nat) : (d.notice src sub inst).dep.logBad = d.dep.logBad :=
  eventsOnly_dep_logBad (notice_eventsOnly ..)
@[simp] theorem notice_dep_flushing (d : Dev) (src sub inst : Nat) : (d.notice src sub inst).dep.flushing = d.dep.flushing :=
  eventsOnly_dep_flushing (notice_eventsOnly ..)
@[simp] theorem notice_dep_cfg (d : Dev) (src sub inst : Nat) : (d.notice src sub inst).dep.cfg = d.dep.cfg :=
  eventsOnly_dep_cfg (notice_eventsOnly ..)
@[simp] theorem notice_dep_id0 (d : Dev) (src sub inst : Nat) : (d.notice src sub inst).dep.id0 = d.dep.id0 :=
  eventsOnly_dep_id0 (notice_eventsOnly ..)
@[simp] theorem notice_dep_id1 (d : Dev) (src sub inst : Nat) : (d.notice src sub inst).dep.id1 = d.dep.id1 :=
  eventsOnly_dep_id1 (notice_eventsOnly ..)
@[simp] theorem notice_dep_argHi (d : Dev) (src sub inst : Nat) : (d.notice src sub inst).dep.argHi = d.dep.argHi :=
  eventsOnly_dep_argHi (notice_eventsOnly ..)
@[simp] theorem notice_dep_argLo (d : Dev) (src sub inst : Nat) : (d.notice src sub inst).dep.argLo = d.dep.argLo :=
  eventsOnly_dep_argLo (notice_eventsOnly ..)
@[simp] theorem notice_dep_logSeq (d : Dev) (src sub inst : Nat) : (d.notice src sub inst).dep.logSeq = d.dep.logSeq :=
  eventsOnly_dep_logSeq (notice_eventsOnly ..)
@[simp] theorem notice_dep_unpin (d : Dev) (src sub inst : Nat) : (d.notice src sub inst).dep.unpin = d.dep.unpin :=
  eventsOnly_dep_unpin (notice_eventsOnly ..)
@[simp] theorem notice_dep_pinned (d : Dev) (src sub inst : Nat) : (d.notice src sub inst).dep.pinned = d.dep.pinned :=
  eventsOnly_dep_pinned (notice_eventsOnly ..)
@[simp] theorem notice_dep_badSectors (d : Dev) (src sub inst : Nat) : (d.notice src sub inst).dep.badSectors = d.dep.badSectors :=
  eventsOnly_dep_badSectors (notice_eventsOnly ..)
@[simp] theorem notice_dep_err0 (d : Dev) (src sub inst : Nat) : (d.notice src sub inst).dep.err0 = d.dep.err0 :=
  eventsOnly_dep_err0 (notice_eventsOnly ..)
@[simp] theorem notice_dep_err1 (d : Dev) (src sub inst : Nat) : (d.notice src sub inst).dep.err1 = d.dep.err1 :=
  eventsOnly_dep_err1 (notice_eventsOnly ..)
@[simp] theorem notice_dep_tagwm (d : Dev) (src sub inst : Nat) : (d.notice src sub inst).dep.tagwm = d.dep.tagwm :=
  eventsOnly_dep_tagwm (notice_eventsOnly ..)
@[simp] theorem notice_dep_stgwm (d : Dev) (src sub inst : Nat) : (d.notice src sub inst).dep.stgwm = d.dep.stgwm :=
  eventsOnly_dep_stgwm (notice_eventsOnly ..)
@[simp] theorem notice_dep_histwm (d : Dev) (src sub inst : Nat) : (d.notice src sub inst).dep.histwm = d.dep.histwm :=
  eventsOnly_dep_histwm (notice_eventsOnly ..)
@[simp] theorem notice_dep_wmcfg (d : Dev) (src sub inst : Nat) : (d.notice src sub inst).dep.wmcfg = d.dep.wmcfg :=
  eventsOnly_dep_wmcfg (notice_eventsOnly ..)
@[simp] theorem notice_dep_busy (d : Dev) (src sub inst : Nat) : (d.notice src sub inst).dep.busy = d.dep.busy :=
  eventsOnly_dep_busy (notice_eventsOnly ..)
@[simp] theorem notice_dep_waiting (d : Dev) (src sub inst : Nat) : (d.notice src sub inst).dep.waiting = d.dep.waiting :=
  eventsOnly_dep_waiting (notice_eventsOnly ..)
@[simp] theorem notice_dep_cs0 (d : Dev) (src sub inst : Nat) : (d.notice src sub inst).dep.cs0 = d.dep.cs0 :=
  eventsOnly_dep_cs0 (notice_eventsOnly ..)
@[simp] theorem notice_dep_cs1 (d : Dev) (src sub inst : Nat) : (d.notice src sub inst).dep.cs1 = d.dep.cs1 :=
  eventsOnly_dep_cs1 (notice_eventsOnly ..)
@[simp] theorem notice_dep_energy (d : Dev) (src sub inst : Nat) : (d.notice src sub inst).dep.energy = d.dep.energy :=
  eventsOnly_dep_energy (notice_eventsOnly ..)
@[simp] theorem notice_dep_coul (d : Dev) (src sub inst : Nat) : (d.notice src sub inst).dep.coul = d.dep.coul :=
  eventsOnly_dep_coul (notice_eventsOnly ..)
@[simp] theorem notice_dep_pack (d : Dev) (src sub inst : Nat) : (d.notice src sub inst).dep.pack = d.dep.pack :=
  eventsOnly_dep_pack (notice_eventsOnly ..)
@[simp] theorem notice_dep_soc (d : Dev) (src sub inst : Nat) : (d.notice src sub inst).dep.soc = d.dep.soc :=
  eventsOnly_dep_soc (notice_eventsOnly ..)
@[simp] theorem notice_dep_counters (d : Dev) (src sub inst : Nat) : (d.notice src sub inst).dep.counters = d.dep.counters :=
  eventsOnly_dep_counters (notice_eventsOnly ..)
@[simp] theorem notice_dep_history (d : Dev) (src sub inst : Nat) : (d.notice src sub inst).dep.history = d.dep.history :=
  eventsOnly_dep_history (notice_eventsOnly ..)
@[simp] theorem notice_dep_histGen (d : Dev) (src sub inst : Nat) : (d.notice src sub inst).dep.histGen = d.dep.histGen :=
  eventsOnly_dep_histGen (notice_eventsOnly ..)
@[simp] theorem notice_dep_histCopy (d : Dev) (src sub inst : Nat) : (d.notice src sub inst).dep.histCopy = d.dep.histCopy :=
  eventsOnly_dep_histCopy (notice_eventsOnly ..)
@[simp] theorem notice_dep_logState (d : Dev) (src sub inst : Nat) : (d.notice src sub inst).dep.logState = d.dep.logState :=
  eventsOnly_dep_logState (notice_eventsOnly ..)
@[simp] theorem notice_dep_rest (d : Dev) (src sub inst : Nat) : (d.notice src sub inst).dep.rest = d.dep.rest :=
  eventsOnly_dep_rest (notice_eventsOnly ..)
@[simp] theorem notice_dep_jobs (d : Dev) (src sub inst : Nat) : (d.notice src sub inst).dep.jobs = d.dep.jobs :=
  eventsOnly_dep_jobs (notice_eventsOnly ..)
@[simp] theorem notice_dep_deepOk (d : Dev) (src sub inst : Nat) : (d.notice src sub inst).dep.deepOk = d.dep.deepOk :=
  eventsOnly_dep_deepOk (notice_eventsOnly ..)
@[simp] theorem notice_dep_deepDown (d : Dev) (src sub inst : Nat) : (d.notice src sub inst).dep.deepDown = d.dep.deepDown :=
  eventsOnly_dep_deepDown (notice_eventsOnly ..)
@[simp] theorem notice_dep_inForce (d : Dev) (src sub inst : Nat) : (d.notice src sub inst).dep.inForce = d.dep.inForce :=
  eventsOnly_dep_inForce (notice_eventsOnly ..)
@[simp] theorem notice_dep_doneCount (d : Dev) (src sub inst : Nat) : (d.notice src sub inst).dep.doneCount = d.dep.doneCount :=
  eventsOnly_dep_doneCount (notice_eventsOnly ..)
@[simp] theorem notice_dep_heldEnds (d : Dev) (src sub inst : Nat) : (d.notice src sub inst).dep.heldEnds = d.dep.heldEnds :=
  eventsOnly_dep_heldEnds (notice_eventsOnly ..)
@[simp] theorem notice_evt_mask (d : Dev) (src sub inst : Nat) : (d.notice src sub inst).evt.mask = d.evt.mask :=
  eventsOnly_evt_mask (notice_eventsOnly ..)
@[simp] theorem notice_evt_logSec (d : Dev) (src sub inst : Nat) : (d.notice src sub inst).evt.logSec = d.evt.logSec :=
  eventsOnly_evt_logSec (notice_eventsOnly ..)
@[simp] theorem notice_evt_logDone (d : Dev) (src sub inst : Nat) : (d.notice src sub inst).evt.logDone = d.evt.logDone :=
  eventsOnly_evt_logDone (notice_eventsOnly ..)
@[simp] theorem notice_evt_episode (d : Dev) (src sub inst : Nat) : (d.notice src sub inst).evt.episode = d.evt.episode :=
  eventsOnly_evt_episode (notice_eventsOnly ..)
@[simp] theorem notice_evt_irqWatch (d : Dev) (src sub inst : Nat) : (d.notice src sub inst).evt.irqWatch = d.evt.irqWatch :=
  eventsOnly_evt_irqWatch (notice_eventsOnly ..)

end Sys2Proof.Laws
end

