-- ==== Sys2Proof/Laws/Commands.lean ====
section
/-! SUPPORT. What a host command does, said once: where it is taken, dropped, refused or repeated (R85, R476, R482, R483,
R502). -/
namespace Sys2Proof.Laws

open Sys2Proof.Machine Sys2Proof.Safety

theorem cmds_get_put (c : Cmds) (r : CmdReg) (v : CmdState) : (c.put r v).get r = v := by cases r <;> rfl

theorem cmds_put_put (c : Cmds) (r : CmdReg) (v w : CmdState) : (c.put r v).put r w = c.put r w := by cases r <;> rfl

/-! ### Result codes as numbers -/

@[simp] theorem rDone_eq : rDone = 0x00 := rfl
@[simp] theorem rStarted_eq : rStarted = 0x01 := rfl
@[simp] theorem rMode_eq : rMode = 0x10 := rfl
@[simp] theorem rState_eq : rState = 0x11 := rfl
@[simp] theorem rCondition_eq : rCondition = 0x12 := rfl
@[simp] theorem rCause_eq : rCause = 0x13 := rfl
@[simp] theorem rPending_eq : rPending = 0x14 := rfl
@[simp] theorem rFull_eq : rFull = 0x15 := rfl
@[simp] theorem rUnknown_eq : rUnknown = 0x1F := rfl

/-! ### Frames -/

/-- A command frame that its register takes hands it over with the accepted frame. -/
theorem commandFrame_takes {d : Dev} {r : CmdReg} {tok : Byte} (h : takes d r tok) (code op : Nat) (take : Dev → Dev) :
    d.commandFrame r tok code op take = take (accepted d tok code) := by
  obtain ⟨ha, hacc, hheld, -, hrun⟩ := h
  have h1 : (d.numberFrame.cmds.get r).refuses tok ≠ true := by
    simp [Dev.numberFrame, CmdState.refuses, hheld]
  have h2 : d.numberFrame.hst.access.isSome ≠ true := by simp [Dev.numberFrame, hacc]
  unfold Dev.commandFrame
  rw [if_neg (by simp [ha])]
  dsimp only
  rw [if_neg h1, if_neg h2, if_neg (by rw [Bool.not_eq_true', Bool.not_eq_false]; exact hrun)]
  rfl

/-- A command register that takes a command executes it on the device with the accepted frame. -/
theorem hostCommand_takes {d : Dev} {r : CmdReg} {tok : Byte} (h : takes d r tok) (code : Nat) (body : Dev → Executed) :
    d.hostCommand r tok code body =
      (body (accepted d tok code)).1.finish r tok (body (accepted d tok code)).2 := by
  rw [Dev.hostCommand, commandFrame_takes h]
  have hheld : ((accepted d tok code).cmds.get r).held = none := h.2.2.1
  have hkept : ((accepted d tok code).cmds.get r).kept ≠ some tok := h.2.2.2.1
  simp [Dev.executeNow, hheld, hkept]

/-- An executed command writes its token and result, and keeps the token. -/
theorem finish_some (d : Dev) (r : CmdReg) (tok : Byte) (v : Nat) :
    d.finish r tok (some v) = executed d r tok v := by
  simp [Dev.finish, executed]

/-- A register that takes a command whose body gives a result. -/
theorem hostCommand_result {d : Dev} {r : CmdReg} {tok : Byte} (h : takes d r tok) (code : Nat) {body : Dev → Executed}
    {d' : Dev} {v : Nat} (hb : body (accepted d tok code) = (d', some v)) :
    d.hostCommand r tok code body = executed d' r tok v := by
  rw [hostCommand_takes h, hb]
  rfl

/-- Writing a result over the bookkeeping of events. -/
theorem executed_eventsOnly {a b : Dev} (h : eventsOnly a b) (r : CmdReg) (tok : Byte) (v : Nat) :
    eventsOnly (executed a r tok v) (executed b r tok v) := by
  obtain ⟨e, s⟩ := h
  refine ⟨?_, s⟩
  rw [e]
  rfl

/-- A command whose effect is exactly a device. -/
theorem endsIn_of_eq {c : Instr} {s : State} {d : Dev} (h : exec c s = .next { s with dev := d }) : endsIn c s d :=
  ⟨d, h, eventsOnly_refl d⟩

/-- A host command that its register takes: what its body gives, with the result written. -/
theorem endsIn_command {c : Instr} {s : State} {r : CmdReg} {tok : Byte} {code v : Nat} {body : Dev → Executed}
    {f : Dev → Dev} (hc : exec c s = s.effect fun d => d.hostCommand r tok code body) (ht : takes s.dev r tok)
    {d' : Dev} (hb : body (accepted s.dev tok code) = (d', some v)) (hf : eventsOnly (f (accepted s.dev tok code)) d') :
    endsIn c s (commanded s.dev r tok code v f) := by
  refine ⟨executed d' r tok v, ?_, executed_eventsOnly hf r tok v⟩
  rw [hc, State.effect, hostCommand_result ht code hb]

/-- The same where the body fires an event. -/
theorem endsFiring_command {c : Instr} {s : State} {r : CmdReg} {tok : Byte} {code v src : Nat} {body : Dev → Executed}
    {f : Dev → Dev} (hc : exec c s = s.effect fun d => d.hostCommand r tok code body) (ht : takes s.dev r tok)
    {d' : Dev} (hb : body (accepted s.dev tok code) = (d', some v)) (hf : eventsOnly (f (accepted s.dev tok code)) d')
    (hs : fired src d') : endsFiring c s src (commanded s.dev r tok code v f) := by
  refine ⟨executed d' r tok v, ?_, executed_eventsOnly hf r tok v, hs⟩
  rw [hc, State.effect, hostCommand_result ht code hb]

/-- A repeated token has no further effect than its response (R482). -/
theorem executeNow_repeat (d : Dev) (r : CmdReg) (tok : Byte) (body : Dev → Executed)
    (h : (d.cmds.get r).kept = some tok) : d.executeNow r tok body = d := by simp [Dev.executeNow, h]

/-- Without supply or in reset a command frame has no effect (R502). -/
theorem hostCommand_dead (d : Dev) (r : CmdReg) (tok : Byte) (code : Nat) (body : Dev → Executed)
    (h : d.alive = false) : d.hostCommand r tok code body = d := by simp [Dev.hostCommand, Dev.commandFrame, h]

end Sys2Proof.Laws
end

