-- ==== Sys2Proof/Laws/Records.lean ====
section
/-! SUPPORT. The frame of the operations on records: freezing, sealing and accounting of records change the toll, the
ledger, the depot, the counters and the bookkeeping of events, and no other page. -/
namespace Sys2Proof.Laws

open Sys2Proof.Machine Sys2Proof.Safety

/-- `b` has the pages of `a` but for toll, ledger, depot, lifetime counts, events, host port and free counter. -/
structure KeepsCore (a b : Dev) : Prop where
  cmds : b.cmds = a.cmds
  sup : b.sup = a.sup
  sys : b.sys = a.sys
  mode : b.mode = a.mode
  seq : b.seq = a.seq
  coil : b.coil = a.coil
  eng : b.eng = a.eng
  insp : b.insp = a.insp
  chn : b.chn = a.chn
  sen : b.sen = a.sen
  est : b.est = a.est
  lim : b.lim = a.lim
  pwr : b.pwr = a.pwr
  saf : b.saf = a.saf
  can0 : b.can0 = a.can0
  can1 : b.can1 = a.can1
  wakeDet : b.wakeDet = a.wakeDet
  inh : b.inh = a.inh
  man : b.man = a.man

theorem KeepsCore.refl (a : Dev) : KeepsCore a a := by constructor <;> rfl

theorem KeepsCore.trans {a b c : Dev} (h : KeepsCore a b) (g : KeepsCore b c) : KeepsCore a c where
  cmds := g.cmds.trans h.cmds
  sup := g.sup.trans h.sup
  sys := g.sys.trans h.sys
  mode := g.mode.trans h.mode
  seq := g.seq.trans h.seq
  coil := g.coil.trans h.coil
  eng := g.eng.trans h.eng
  insp := g.insp.trans h.insp
  chn := g.chn.trans h.chn
  sen := g.sen.trans h.sen
  est := g.est.trans h.est
  lim := g.lim.trans h.lim
  pwr := g.pwr.trans h.pwr
  saf := g.saf.trans h.saf
  can0 := g.can0.trans h.can0
  can1 := g.can1.trans h.can1
  wakeDet := g.wakeDet.trans h.wakeDet
  inh := g.inh.trans h.inh
  man := g.man.trans h.man

theorem KeepsCore.events {a b : Dev} (h : eventsOnly a b) : KeepsCore a b where
  cmds := eventsOnly_cmds h
  sup := eventsOnly_sup h
  sys := eventsOnly_sys h
  mode := eventsOnly_mode h
  seq := eventsOnly_seq h
  coil := eventsOnly_coil h
  eng := eventsOnly_eng h
  insp := eventsOnly_insp h
  chn := eventsOnly_chn h
  sen := eventsOnly_sen h
  est := eventsOnly_est h
  lim := eventsOnly_lim h
  pwr := eventsOnly_pwr h
  saf := eventsOnly_saf h
  can0 := eventsOnly_can0 h
  can1 := eventsOnly_can1 h
  wakeDet := eventsOnly_wakeDet h
  inh := eventsOnly_inh h
  man := eventsOnly_man h

theorem keepsCore_notice (d : Dev) (src sub inst : Nat) : KeepsCore d (d.notice src sub inst) :=
  .events (notice_eventsOnly ..)

theorem keepsCore_event (d : Dev) (src sub cls inst ep : Nat) (data : Word) :
    KeepsCore d (d.event src sub cls inst ep data) := .events (event_eventsOnly ..)

theorem keepsCore_queueCrossed (d : Dev) (q level : Nat) (c s : Bool) : KeepsCore d (d.queueCrossed q level c s) :=
  .events (queueCrossed_eventsOnly ..)

theorem keepsCore_countDevice (d : Dev) (i : Fin 22) : KeepsCore d (d.countDevice i) := by constructor <;> rfl

theorem keepsCore_lowPoint (d : Dev) (n : Nat) (i : Fin 3) : KeepsCore d (d.lowPoint n i) := by
  unfold Dev.lowPoint
  dsimp only
  split
  · exact .trans (by constructor <;> rfl) (keepsCore_event ..)
  · split
    · constructor <;> rfl
    · exact .refl d

theorem keepsCore_lowCheck (d : Dev) (n : Nat) : KeepsCore d (d.lowCheck n) :=
  ((keepsCore_lowPoint ..).trans (keepsCore_lowPoint ..)).trans (keepsCore_lowPoint ..)

theorem keepsCore_freeze (d : Dev) (t disp : Nat) (area : List Byte) : KeepsCore d (d.freeze t disp area) := by
  unfold Dev.freeze
  exact .trans (.trans (by constructor <;> rfl) (keepsCore_queueCrossed ..)) (keepsCore_lowCheck ..)

theorem keepsCore_freezeAudit (d : Dev) (k : Nat) (rest : List Byte) : KeepsCore d (d.freezeAudit k rest) :=
  keepsCore_freeze ..

/-! ### Operations that may start the depot -/

/-- As `KeepsCore`, but for the running domains and PLL B: the depot may have been started (R89). -/
def KeepsRecords (a b : Dev) : Prop := ∃ x y, KeepsCore { a with sup := { a.sup with doms := x, pllB := y } } b

theorem KeepsCore.records {a b : Dev} (h : KeepsCore a b) : KeepsRecords a b := ⟨a.sup.doms, a.sup.pllB, h⟩

theorem KeepsCore.put {a b : Dev} (h : KeepsCore a b) (x : Sup) : KeepsCore { a with sup := x } { b with sup := x } :=
  { h with sup := rfl }

theorem KeepsRecords.trans {a b c : Dev} (h : KeepsRecords a b) (g : KeepsRecords b c) : KeepsRecords a c := by
  obtain ⟨_, _, h⟩ := h
  obtain ⟨x, y, g⟩ := g
  refine ⟨x, y, ?_⟩
  have k := (h.put { b.sup with doms := x, pllB := y }).trans g
  rw [h.sup] at k
  exact k

theorem keepsRecords_needDepot (d : Dev) : KeepsRecords d d.needDepot := by
  unfold Dev.needDepot
  split
  · exact ⟨_, _, .refl _⟩
  · exact (KeepsCore.refl d).records

theorem keepsRecords_drainAudits (n : Nat) (d : Dev) : KeepsRecords d (Dev.drainAudits n d) := by
  induction n generalizing d with
  | zero => exact (KeepsCore.refl d).records
  | succ n ih =>
    unfold Dev.drainAudits
    split
    · exact (KeepsCore.refl d).records
    · rename_i kind area rest _
      refine .trans (b := if d.inRun then d.needDepot else d) ?_ ?_
      · split
        · exact keepsRecords_needDepot d
        · exact (KeepsCore.refl d).records
      · generalize (if d.inRun then d.needDepot else d) = e
        dsimp only
        split
        · have k : KeepsCore e { e with lgr := { e.lgr with waitingAudit := rest } } := by constructor <;> rfl
          exact (k.trans (keepsCore_freezeAudit ..)).records.trans (ih _)
        · exact (KeepsCore.refl e).records

theorem keepsRecords_dueAudit (d : Dev) (k : Nat) (area : List Byte) : KeepsRecords d (d.dueAudit k area) := by
  unfold Dev.dueAudit
  have h : KeepsCore d { d with lgr := { d.lgr with waitingAudit := d.lgr.waitingAudit ++ [(k, area)] } } := by
    constructor <;> rfl
  dsimp only
  split
  · exact h.records
  · exact h.records.trans (keepsRecords_drainAudits ..)

theorem keepsRecords_sealAudit (d : Dev) (k : Nat) : KeepsRecords d (d.sealAudit k) := keepsRecords_dueAudit ..

/-! ### Session records -/

theorem keepsCore_setSession (d : Dev) (x : Session) : KeepsCore d (d.setSession x) := by
  unfold Dev.setSession
  split
  · exact .refl d
  · exact .trans (by constructor <;> rfl) (keepsCore_notice ..)

theorem keepsCore_markSession (d : Dev) (n : Nat) : KeepsCore d (d.markSession n) := by constructor <;> rfl

theorem keepsCore_freezeSession (d : Dev) (t : Nat) : KeepsCore d (d.freezeSession t) :=
  .trans (by constructor <;> rfl) (keepsCore_freeze ..)

theorem keepsCore_freezeDue (d : Dev) (r : TollRecord) : KeepsCore d (d.freezeDue r) := by
  unfold Dev.freezeDue
  split
  · exact .trans (by constructor <;> rfl) (keepsCore_freezeSession ..)
  · exact keepsCore_freezeSession ..
  · exact .trans (keepsCore_markSession ..) (keepsCore_freezeSession ..)
  · exact .trans (.trans (keepsCore_markSession ..) (keepsCore_markSession ..)) (keepsCore_freezeSession ..)
  · exact .trans (.trans (keepsCore_freezeSession ..) (by constructor <;> rfl)) (keepsCore_setSession ..)

theorem keepsCore_drainDue (n : Nat) (d : Dev) : KeepsCore d (Dev.drainDue n d) := by
  induction n generalizing d with
  | zero => exact .refl d
  | succ n ih =>
    unfold Dev.drainDue
    split
    · exact .refl d
    · split
      · exact .trans (.trans (by constructor <;> rfl) (keepsCore_freezeDue ..)) (ih _)
      · exact .refl d

theorem keepsCore_sealDue (d : Dev) (r : TollRecord) : KeepsCore d (d.sealDue r) := by constructor <;> rfl

theorem keepsRecords_drainRecords (d : Dev) : KeepsRecords d d.drainRecords :=
  (keepsCore_drainDue ..).records.trans (keepsRecords_drainAudits ..)

theorem keepsCore_suspendSession (d : Dev) : KeepsCore d d.suspendSession := by
  unfold Dev.suspendSession
  split
  · exact .trans (by constructor <;> rfl) (keepsCore_setSession ..)
  · exact .trans (by constructor <;> rfl) (keepsCore_setSession ..)
  · split
    · exact .trans (by constructor <;> rfl) (keepsCore_setSession ..)
    · exact keepsCore_setSession ..
  · exact .refl d

theorem keepsCore_tollK4Open (d : Dev) : KeepsCore d d.tollK4Open := by
  unfold Dev.tollK4Open
  refine .trans (b := { d with tol := { d.tol with following := false } }) (by constructor <;> rfl) ?_
  dsimp only
  split
  · exact keepsCore_sealDue ..
  · split
    · exact .trans (by constructor <;> rfl) (keepsCore_sealDue ..)
    · exact .refl _
  · split
    · exact .trans (by constructor <;> rfl) (keepsCore_setSession ..)
    · exact keepsCore_setSession ..
  · exact .refl _

theorem keepsCore_tollK4Closed (d : Dev) : KeepsCore d d.tollK4Closed := by
  unfold Dev.tollK4Closed
  split
  · exact .refl d
  · refine .trans (b := d.restartInterim) (by constructor <;> rfl) ?_
    generalize d.restartInterim = d
    dsimp only
    split
    · exact .trans (.trans (by constructor <;> rfl) (keepsCore_setSession ..)) (keepsCore_sealDue ..)
    · exact .trans (.trans (.trans (by constructor <;> rfl) (keepsCore_countDevice ..)) (keepsCore_setSession ..))
        (keepsCore_sealDue ..)

end Sys2Proof.Laws
end

