-- ==== Sys2Proof/Laws/Frame.lean ====
section
/-! SUPPORT. Composing frames: which parts of the device a chain of operations may change. -/
namespace Sys2Proof.Laws

open Sys2Proof.Machine Sys2Proof.Safety

theorem same_refl (p : Page) (a : Dev) : same p a a := by
  cases p <;> first | rfl | exact ⟨rfl, rfl⟩ | exact ⟨rfl, rfl, rfl, rfl, rfl, rfl, rfl⟩

theorem same_trans {p : Page} {a b c : Dev} (h : same p a b) (g : same p b c) : same p a c := by
  cases p <;> simp only [same] at h g ⊢
  case sup => rw [g, h]
  case hst => rw [g, h]
  case evt => rw [g, h]
  case dep => rw [g, h]
  case mem => exact ⟨g.1.trans h.1, g.2.trans h.2⟩
  case copies =>
    exact ⟨g.1.trans h.1, g.2.1.trans h.2.1, g.2.2.1.trans h.2.2.1, g.2.2.2.1.trans h.2.2.2.1,
      g.2.2.2.2.1.trans h.2.2.2.2.1, g.2.2.2.2.2.1.trans h.2.2.2.2.2.1, g.2.2.2.2.2.2.trans h.2.2.2.2.2.2⟩
  all_goals exact g.trans h

theorem keeps_refl {ps : List Page} {a : Dev} : Keeps ps a a := fun p => .inr (same_refl p a)

theorem keeps_trans {ps : List Page} {a b c : Dev} (h : Keeps ps a b) (g : Keeps ps b c) : Keeps ps a c := fun p =>
  (h p).elim .inl fun x => (g p).imp id (same_trans x)

/-- A device on the way. -/
theorem keeps_through {ps : List Page} {a b c : Dev} (h : Keeps ps a b) (k : Keeps ps a b → Keeps ps a c) : Keeps ps a c := k h

/-- The parts in the first list are in the second. -/
def within (qs ps : List Page) : Bool := qs.all fun q => ps.contains q

theorem keeps_mono {ps qs : List Page} {a b : Dev} (h : Keeps qs a b) (i : within qs ps = true) : Keeps ps a b := fun p =>
  (h p).imp (fun m => by simpa using List.all_eq_true.mp i p m) id

/-- An operation that keeps its parts, after a chain that keeps the others. -/
theorem keeps_via {ps qs : List Page} {a b c : Dev} (g : Keeps qs b c) (i : within qs ps = true) (h : Keeps ps a b) :
    Keeps ps a c := keeps_trans h (keeps_mono g i)

theorem keeps_ite {ps : List Page} {a b c : Dev} {p : Prop} [Decidable p] (h : p → Keeps ps a b) (g : ¬p → Keeps ps a c) :
    Keeps ps a (if p then b else c) := by
  split
  · exact h ‹_›
  · exact g ‹_›

theorem keeps_ite_fst {ps : List Page} {α : Type} {a : Dev} {b c : Dev × α} {p : Prop} [Decidable p]
    (h : p → Keeps ps a b.1) (g : ¬p → Keeps ps a c.1) : Keeps ps a (if p then b else c).1 := by
  split
  · exact h ‹_›
  · exact g ‹_›

theorem keeps_pair {ps : List Page} {α : Type} {a b : Dev} {x : α} (h : Keeps ps a b) : Keeps ps a (b, x).1 := h

/-- Replaced fields, after a chain: each part is among those that change, or is the same. -/
theorem keeps_set {ps : List Page} {a b c : Dev} (h : Keeps ps a b) (i : ∀ p, within [p] ps = true ∨ same p b c) :
    Keeps ps a c := keeps_trans h fun p => (i p).imp (fun w => by simpa [within] using w) id

theorem keeps_fst {ps : List Page} {α : Type} {a b : Dev} {x : α} {e : Dev × α} (h : Keeps ps a e.1) (g : e = (b, x)) :
    Keeps ps a b := by rw [g] at h; exact h

theorem keeps_foldl {ps : List Page} {α : Type} {f : Dev → α → Dev} {l : List α} {a b : Dev} (i : Keeps ps a b)
    (h : ∀ d x, Keeps ps d (f d x)) : Keeps ps a (l.foldl f b) := by
  induction l generalizing b with
  | nil => exact i
  | cons x l ih => exact ih (keeps_trans i (h b x))

/-- The bookkeeping of events belongs to no part. -/
theorem keeps_eventsOnly {ps : List Page} {a b : Dev} (h : eventsOnly a b) : Keeps ps a b := fun p => .inr (by
  obtain ⟨e, -⟩ := h
  cases p <;> simp only [same]
  case mem => exact ⟨by rw [e], by rw [e]⟩
  case copies => exact ⟨by rw [e], by rw [e], by rw [e], by rw [e], by rw [e], by rw [e], by rw [e]⟩
  all_goals rw [e])

theorem keeps_foldl_fst {ps : List Page} {α β : Type} {f : Dev × β → α → Dev × β} {l : List α} {a : Dev} {b : Dev × β}
    (i : Keeps ps a b.1) (h : ∀ x y, Keeps ps x.1 (f x y).1) : Keeps ps a (l.foldl f b).1 := by
  induction l generalizing b with
  | nil => exact i
  | cons x l ih => exact ih (keeps_trans i (h b x))

theorem keeps_repeat {ps : List Page} {f : Dev → Dev} {n : Nat} {a b : Dev} (i : Keeps ps a b) (h : ∀ d, Keeps ps d (f d)) :
    Keeps ps a (Nat.repeat f n b) := by
  induction n with
  | zero => exact i
  | succ n ih => exact keeps_trans ih (h _)

/-- What an access returns in its device. -/
theorem keeps_performed {ps : List Page} {a b : Dev} {e : Nat} {v : Word} (h : Keeps ps a b) :
    Keeps ps a (Performed.mk b e v).dev := h

theorem keeps_ite_dev {ps : List Page} {a : Dev} {b c : Performed} {p : Prop} [Decidable p]
    (h : p → Keeps ps a b.dev) (g : ¬p → Keeps ps a c.dev) : Keeps ps a (if p then b else c).dev := by
  split
  · exact h ‹_›
  · exact g ‹_›

/-- A write that is not refused changes only the named parts. -/
def KeepsOk (ps : List Page) (a : Dev) : Written → Prop
  | .ok b => Keeps ps a b
  | .error _ => True

theorem keepsOk_ok {ps : List Page} {a b : Dev} (h : Keeps ps a b) : KeepsOk ps a (.ok b) := h

theorem keepsOk_error {ps : List Page} {a : Dev} {e : Nat} : KeepsOk ps a (.error e) := trivial

theorem keepsOk_mono {ps qs : List Page} {a : Dev} {e : Written} (h : KeepsOk qs a e) (i : within qs ps = true) :
    KeepsOk ps a e := by
  cases e with
  | ok b => exact keeps_mono h i
  | error _ => trivial

theorem keepsOk_ite {ps : List Page} {a : Dev} {b c : Written} {p : Prop} [Decidable p]
    (h : p → KeepsOk ps a b) (g : ¬p → KeepsOk ps a c) : KeepsOk ps a (if p then b else c) := by
  split
  · exact h ‹_›
  · exact g ‹_›

theorem keepsOk_store {ps : List Page} {a d : Dev} {old data rw rwl : Word} {ok : Bool} {set : Word → Dev}
    (h : ∀ w, Keeps ps a (set w)) : KeepsOk ps a (d.store old data rw rwl ok set) := by
  unfold Dev.store
  exact keepsOk_ite (fun _ => trivial) fun _ => keepsOk_ite (fun _ => trivial) fun _ => h _

theorem keeps_of_ok {ps : List Page} {a b : Dev} {e : Written} (h : KeepsOk ps a e) (g : e = .ok b) : Keeps ps a b := by
  subst g; exact h

theorem keeps_finish (d : Dev) (r : CmdReg) (tok : Byte) (res : Option Nat) : Keeps [.cmds] d (d.finish r tok res) := by
  unfold Dev.finish
  split
  · exact keeps_refl
  · exact keeps_set keeps_refl fun p => by
      cases p <;> first | exact .inl rfl | exact .inr rfl | exact .inr ⟨rfl, rfl⟩ | exact .inr ⟨rfl, rfl, rfl, rfl, rfl, rfl, rfl⟩

theorem keeps_executeNow {ps : List Page} {a b : Dev} {r : CmdReg} {tok : Byte} {body : Dev → Executed}
    (w : within [.cmds] ps = true) (i : Keeps ps a b) (h : ∀ d, Keeps ps d (body d).1) :
    Keeps ps a (b.executeNow r tok body) := by
  unfold Dev.executeNow
  exact keeps_ite (fun _ => i) fun _ => keeps_via (keeps_finish _ _ _ _) w (keeps_trans i (h b))

/-- The answer of the host port. -/
theorem keeps_hst {d : Dev} {h : Hst} : Keeps [.hst] d { d with hst := h } := keeps_set keeps_refl fun p => by
  cases p <;> first | exact .inl rfl | exact .inr rfl | exact .inr ⟨rfl, rfl⟩ | exact .inr ⟨rfl, rfl, rfl, rfl, rfl, rfl, rfl⟩

theorem keeps_commandFrame {ps : List Page} {a b : Dev} {r : CmdReg} {tok : Byte} {code op : Nat} {take : Dev → Dev}
    (w : within [.hst] ps = true) (i : Keeps ps a b) (h : ∀ d, Keeps ps d (take d)) :
    Keeps ps a (b.commandFrame r tok code op take) := by
  have rf : ∀ (d : Dev) (e o x : Nat), Keeps ps a d → Keeps ps a (d.refuseFrame e o x) := fun d e o x k =>
    keeps_via keeps_hst w (keeps_via keeps_hst w k)
  have n : Keeps ps a b.numberFrame := keeps_via keeps_hst w i
  have m : Keeps ps a { b.numberFrame with hst := { b.numberFrame.hst with fetch := none } } := keeps_via keeps_hst w n
  unfold Dev.commandFrame
  refine keeps_ite (fun _ => i) fun _ => keeps_ite (fun _ => rf _ _ _ _ n) fun _ => keeps_ite (fun _ => rf _ _ _ _ n) fun _ => ?_
  refine keeps_ite (fun _ => ?_) fun _ => ?_
  · exact keeps_via keeps_hst w (keeps_via keeps_hst w m)
  · exact keeps_trans (keeps_via keeps_hst w m) (h _)

theorem keeps_hostCommand {ps : List Page} {a b : Dev} {r : CmdReg} {tok : Byte} {code : Nat} {body : Dev → Executed}
    (w : within [.cmds, .hst] ps = true) (i : Keeps ps a b) (h : ∀ d, Keeps ps d (body d).1) :
    Keeps ps a (b.hostCommand r tok code body) := by
  have w1 : within [.hst] ps = true := by simp only [within, List.all_cons, Bool.and_eq_true] at w ⊢; exact ⟨w.2.1, rfl⟩
  have w2 : within [.cmds] ps = true := by simp only [within, List.all_cons, Bool.and_eq_true] at w ⊢; exact ⟨w.1, rfl⟩
  exact keeps_commandFrame w1 i fun d => keeps_executeNow w2 keeps_refl h

theorem keeps_ip {ps : List Page} {a b : Dev} {op : Nat} {addr data : Word} {crc : Byte} {run : Dev → IpResult}
    (w : within [.insp] ps = true) (i : Keeps ps a b) (h : ∀ d, Keeps ps d (run d).1) :
    Keeps ps a (b.ip op addr data crc run) := by
  have r : ∀ (d : Dev) (x : Option (BitVec 3 × Word)), Keeps [.insp] d (d.ipRespond x) := fun d x =>
    keeps_set keeps_refl fun p => by
      cases p <;> first | exact .inl rfl | exact .inr rfl | exact .inr ⟨rfl, rfl⟩ | exact .inr ⟨rfl, rfl, rfl, rfl, rfl, rfl, rfl⟩
  unfold Dev.ip
  exact keeps_ite (fun _ => keeps_via (r _ _) w i) fun _ => keeps_ite (fun _ => keeps_via (r _ _) w i) fun _ =>
    keeps_via (r _ _) w (keeps_trans i (h b))

theorem effect_keeps {ps : List Page} {s : State} {f : Dev → Dev} (h : ∀ d, Keeps ps d (f d)) :
    ∃ d', s.effect f = .next { s with dev := d' } ∧ Keeps ps s.dev d' := ⟨_, rfl, h _⟩

theorem keeps_fire (d : Dev) (e : Entry) : Keeps [] d (d.fire e) := keeps_eventsOnly (fire_eventsOnly d e)

theorem keeps_event (d : Dev) (src sub cls inst ep : Nat) (data : Word) : Keeps [] d (d.event src sub cls inst ep data) :=
  keeps_eventsOnly (event_eventsOnly d src sub cls inst ep data)

theorem keeps_notice (d : Dev) (src sub inst : Nat) : Keeps [] d (d.notice src sub inst) :=
  keeps_eventsOnly (notice_eventsOnly d src sub inst)

theorem keeps_queueCrossed (d : Dev) (q level : Nat) (c s : Bool) : Keeps [] d (d.queueCrossed q level c s) :=
  keeps_eventsOnly (queueCrossed_eventsOnly d q level c s)

end Sys2Proof.Laws
end

