-- ==== Sys2Proof/Laws/KeepsOps.lean ====
section
/-! SUPPORT. Which parts of the device each operation of Ops, Flags, Records, Frames, Coils, Reaction, Commands, Modes may change, each said once. -/
namespace Sys2Proof.Laws

open Sys2Proof.Machine Sys2Proof.Safety

theorem keeps_setCs0 (d : Dev) (a : Nat) (bs : List Byte) :
    Keeps [.mem] d (d.setCs0 a bs) := by
  unfold Dev.setCs0
  exact keeps_set keeps_refl fun p => by cases p <;> first | exact .inl rfl | exact .inr rfl | exact .inr ⟨rfl, rfl⟩ | exact .inr ⟨rfl, rfl, rfl, rfl, rfl, rfl, rfl⟩

theorem keeps_setCs1 (d : Dev) (a : Nat) (bs : List Byte) :
    Keeps [.mem] d (d.setCs1 a bs) := by
  unfold Dev.setCs1
  exact keeps_set keeps_refl fun p => by cases p <;> first | exact .inl rfl | exact .inr rfl | exact .inr ⟨rfl, rfl⟩ | exact .inr ⟨rfl, rfl, rfl, rfl, rfl, rfl, rfl⟩

theorem keeps_eraseCs1 (d : Dev) (a : Nat) (n : Nat) :
    Keeps [.mem] d (d.eraseCs1 a n) := by
  unfold Dev.eraseCs1
  exact keeps_set keeps_refl fun p => by cases p <;> first | exact .inl rfl | exact .inr rfl | exact .inr ⟨rfl, rfl⟩ | exact .inr ⟨rfl, rfl, rfl, rfl, rfl, rfl, rfl⟩

theorem keeps_tick (d : Dev) :
    Keeps [] d (d.tick) := by
  unfold Dev.tick
  exact keeps_set keeps_refl fun p => by cases p <;> first | exact .inl rfl | exact .inr rfl | exact .inr ⟨rfl, rfl⟩ | exact .inr ⟨rfl, rfl, rfl, rfl, rfl, rfl, rfl⟩

theorem keeps_restage (d : Dev) :
    Keeps [] d (d.restage) := by
  unfold Dev.restage
  extract_lets s1 b2
  clear_value s1
  exact keeps_set keeps_refl fun p => by cases p <;> first | exact .inl rfl | exact .inr rfl | exact .inr ⟨rfl, rfl⟩ | exact .inr ⟨rfl, rfl, rfl, rfl, rfl, rfl, rfl⟩

theorem keeps_countShed (d : Dev) (which : Fin 4) :
    Keeps [] d (d.countShed which) := by
  unfold Dev.countShed
  extract_lets dp1 ovf2
  clear_value ovf2
  split
  · exact keeps_set keeps_refl fun p => by cases p <;> first | exact .inl rfl | exact .inr rfl | exact .inr ⟨rfl, rfl⟩ | exact .inr ⟨rfl, rfl, rfl, rfl, rfl, rfl, rfl⟩
  · exact keeps_set keeps_refl fun p => by cases p <;> first | exact .inl rfl | exact .inr rfl | exact .inr ⟨rfl, rfl⟩ | exact .inr ⟨rfl, rfl, rfl, rfl, rfl, rfl, rfl⟩
  · exact keeps_set keeps_refl fun p => by cases p <;> first | exact .inl rfl | exact .inr rfl | exact .inr ⟨rfl, rfl⟩ | exact .inr ⟨rfl, rfl, rfl, rfl, rfl, rfl, rfl⟩
  · exact keeps_set keeps_refl fun p => by cases p <;> first | exact .inl rfl | exact .inr rfl | exact .inr ⟨rfl, rfl⟩ | exact .inr ⟨rfl, rfl, rfl, rfl, rfl, rfl, rfl⟩

theorem keeps_logEntry (d : Dev) (e : Entry) (logOnly : Bool) :
    Keeps [] d (d.logEntry e logOnly) := by
  unfold Dev.logEntry
  exact keeps_set keeps_refl fun p => by cases p <;> first | exact .inl rfl | exact .inr rfl | exact .inr ⟨rfl, rfl⟩ | exact .inr ⟨rfl, rfl, rfl, rfl, rfl, rfl, rfl⟩

theorem keeps_wmSaturated (d : Dev) (q : Nat) (b : Bool) :
    Keeps [] d (d.wmSaturated q b) := by
  unfold Dev.wmSaturated
  exact keeps_set keeps_refl fun p => by cases p <;> first | exact .inl rfl | exact .inr rfl | exact .inr ⟨rfl, rfl⟩ | exact .inr ⟨rfl, rfl, rfl, rfl, rfl, rfl, rfl⟩

theorem keeps_placeEntry (d : Dev) (e : Entry) :
    Keeps [] d (d.placeEntry e).1 := by
  unfold Dev.placeEntry
  split
  · extract_lets b1 d2
    refine keeps_through (b := d2) ?_ fun hd2 => ?_
    · unfold d2
      refine keeps_via (keeps_countShed _ _) rfl ?_
      exact keeps_set keeps_refl fun p => by cases p <;> first | exact .inl rfl | exact .inr rfl | exact .inr ⟨rfl, rfl⟩ | exact .inr ⟨rfl, rfl, rfl, rfl, rfl, rfl, rfl⟩
    clear_value d2
    refine keeps_pair ?_
    refine keeps_ite (fun _ => ?_) fun _ => ?_
    · exact hd2
    · refine keeps_via (keeps_logEntry _ _ _) rfl ?_
      exact hd2
  · refine keeps_ite_fst (fun _ => ?_) fun _ => ?_
    · refine keeps_pair ?_
      exact keeps_mono (keeps_countShed _ _) rfl
    · refine keeps_ite_fst (fun _ => ?_) fun _ => ?_
      · refine keeps_pair ?_
        refine keeps_via (keeps_logEntry _ _ _) rfl ?_
        exact keeps_mono (keeps_countShed _ _) rfl
      · extract_lets n3 r4 b5 b6 d7
        clear_value r4
        refine keeps_through (b := d7) ?_ fun hd7 => ?_
        · unfold d7
          exact keeps_set keeps_refl fun p => by cases p <;> first | exact .inl rfl | exact .inr rfl | exact .inr ⟨rfl, rfl⟩ | exact .inr ⟨rfl, rfl, rfl, rfl, rfl, rfl, rfl⟩
        clear_value d7
        refine keeps_pair ?_
        refine keeps_via (keeps_restage _) rfl ?_
        refine keeps_via (keeps_wmSaturated _ _ _) rfl ?_
        refine keeps_via (keeps_logEntry _ _ _) rfl ?_
        exact hd7

theorem keeps_setEvt (d : Dev) (src : Nat) :
    Keeps [] d (d.setEvt src) := by
  unfold Dev.setEvt
  exact keeps_set keeps_refl fun p => by cases p <;> first | exact .inl rfl | exact .inr rfl | exact .inr ⟨rfl, rfl⟩ | exact .inr ⟨rfl, rfl, rfl, rfl, rfl, rfl, rfl⟩

theorem keeps_placeWithCrossing (d : Dev) (e : Entry) :
    Keeps [] d (d.placeWithCrossing e).1 := by
  unfold Dev.placeWithCrossing
  split
  · rename_i r1 r2 r3
    refine keeps_through (b := r2) (keeps_fst ?_ r3) fun kr3 => ?_
    · exact keeps_mono (keeps_placeEntry _ _) rfl
    refine keeps_pair ?_
    exact kr3
  · rename_i r4 r5 r6
    refine keeps_through (b := r5) (keeps_fst ?_ r6) fun kr6 => ?_
    · exact keeps_mono (keeps_placeEntry _ _) rfl
    refine keeps_pair ?_
    exact kr6
  · rename_i r7 r8 r9
    refine keeps_through (b := r8) (keeps_fst ?_ r9) fun kr9 => ?_
    · exact keeps_mono (keeps_placeEntry _ _) rfl
    extract_lets r10
    refine keeps_through (b := r10.1) ?_ fun hr10 => ?_
    · unfold r10
      refine keeps_via (keeps_placeEntry _ _) rfl ?_
      refine keeps_via (keeps_setEvt _ _) rfl ?_
      exact kr9
    clear_value r10
    refine keeps_pair ?_
    exact hr10

theorem keeps_shedNotice (d : Dev) (shed : Bool) :
    Keeps [] d (d.shedNotice shed) := by
  unfold Dev.shedNotice
  refine keeps_ite (fun _ => ?_) fun _ => ?_
  · extract_lets b1 d2 b3
    refine keeps_through (b := d2) ?_ fun hd2 => ?_
    · unfold d2
      exact keeps_set keeps_refl fun p => by cases p <;> first | exact .inl rfl | exact .inr rfl | exact .inr ⟨rfl, rfl⟩ | exact .inr ⟨rfl, rfl, rfl, rfl, rfl, rfl, rfl⟩
    clear_value d2
    clear_value b3
    refine keeps_via (keeps_placeWithCrossing _ _) rfl ?_
    refine keeps_via (keeps_setEvt _ _) rfl ?_
    exact hd2
  · exact keeps_refl

theorem keeps_noticeIn (d : Dev) (src : Nat) (sub : Nat) (inst : Nat) (episode : Nat) :
    Keeps [] d (d.noticeIn src sub inst episode) := by
  unfold Dev.noticeIn
  exact keeps_mono (keeps_event _ _ _ _ _ _ _) rfl

theorem keeps_newEpisode (d : Dev) :
    Keeps [.evt] d (d.newEpisode).1 := by
  unfold Dev.newEpisode
  extract_lets e1 b2
  refine keeps_pair ?_
  exact keeps_set keeps_refl fun p => by cases p <;> first | exact .inl rfl | exact .inr rfl | exact .inr ⟨rfl, rfl⟩ | exact .inr ⟨rfl, rfl, rfl, rfl, rfl, rfl, rfl⟩

theorem keeps_countDevice (d : Dev) (i : Fin 22) :
    Keeps [.lif] d (d.countDevice i) := by
  unfold Dev.countDevice
  extract_lets n1 b2
  clear_value n1
  exact keeps_set keeps_refl fun p => by cases p <;> first | exact .inl rfl | exact .inr rfl | exact .inr ⟨rfl, rfl⟩ | exact .inr ⟨rfl, rfl, rfl, rfl, rfl, rfl, rfl⟩

theorem keeps_collect (d : Dev) (f : LifeBlocks → LifeBlocks) :
    Keeps [.dep, .lif] d (d.collect f) := by
  unfold Dev.collect
  extract_lets inc1 lines2 high3 r4 due5 b6 b7 d8
  clear_value inc1
  clear_value lines2
  clear_value high3
  clear_value r4
  clear_value due5
  refine keeps_through (b := d8) ?_ fun hd8 => ?_
  · unfold d8
    exact keeps_set keeps_refl fun p => by cases p <;> first | exact .inl rfl | exact .inr rfl | exact .inr ⟨rfl, rfl⟩ | exact .inr ⟨rfl, rfl, rfl, rfl, rfl, rfl, rfl⟩
  clear_value d8
  refine keeps_via (keeps_queueCrossed _ _ _ _ _) rfl ?_
  exact hd8

theorem keeps_countK (d : Dev) (k : K) (f : KBlock → KBlock) :
    Keeps [.dep, .lif] d (d.countK k f) := by
  unfold Dev.countK
  exact keeps_mono (keeps_collect _ _) rfl

theorem keeps_countPump (d : Dev) (i : Fin 5) :
    Keeps [.dep, .lif] d (d.countPump i) := by
  unfold Dev.countPump
  exact keeps_mono (keeps_collect _ _) rfl

theorem keeps_needDepot (d : Dev) :
    Keeps [.doms] d (d.needDepot) := by
  unfold Dev.needDepot
  refine keeps_ite (fun _ => ?_) fun _ => ?_
  · exact keeps_set keeps_refl fun p => by cases p <;> first | exact .inl rfl | exact .inr rfl | exact .inr ⟨rfl, rfl⟩ | exact .inr ⟨rfl, rfl, rfl, rfl, rfl, rfl, rfl⟩
  · exact keeps_refl

theorem keeps_needEvo (d : Dev) :
    Keeps [.doms] d (d.needEvo) := by
  unfold Dev.needEvo
  refine keeps_ite (fun _ => ?_) fun _ => ?_
  · exact keeps_set keeps_refl fun p => by cases p <;> first | exact .inl rfl | exact .inr rfl | exact .inr ⟨rfl, rfl⟩ | exact .inr ⟨rfl, rfl, rfl, rfl, rfl, rfl, rfl⟩
  · exact keeps_refl

theorem keeps_pwmBoundary (d : Dev) :
    Keeps [.pwr] d (d.pwmBoundary) := by
  unfold Dev.pwmBoundary
  exact keeps_set keeps_refl fun p => by cases p <;> first | exact .inl rfl | exact .inr rfl | exact .inr ⟨rfl, rfl⟩ | exact .inr ⟨rfl, rfl, rfl, rfl, rfl, rfl, rfl⟩

theorem keeps_lowPoint (d : Dev) (before : Nat) (i : Fin 3) :
    Keeps [.lgr] d (d.lowPoint before i) := by
  unfold Dev.lowPoint
  extract_lets free1 bit2 b3
  clear_value bit2
  refine keeps_ite (fun _ => ?_) fun _ => ?_
  · refine keeps_via (keeps_event _ _ _ _ _ _ _) rfl ?_
    exact keeps_set keeps_refl fun p => by cases p <;> first | exact .inl rfl | exact .inr rfl | exact .inr ⟨rfl, rfl⟩ | exact .inr ⟨rfl, rfl, rfl, rfl, rfl, rfl, rfl⟩
  · refine keeps_ite (fun _ => ?_) fun _ => ?_
    · exact keeps_set keeps_refl fun p => by cases p <;> first | exact .inl rfl | exact .inr rfl | exact .inr ⟨rfl, rfl⟩ | exact .inr ⟨rfl, rfl, rfl, rfl, rfl, rfl, rfl⟩
    · exact keeps_refl

theorem keeps_lowCheck (d : Dev) (before : Nat) :
    Keeps [.lgr] d (d.lowCheck before) := by
  unfold Dev.lowCheck
  refine keeps_via (keeps_lowPoint _ _ _) rfl ?_
  refine keeps_via (keeps_lowPoint _ _ _) rfl ?_
  exact keeps_mono (keeps_lowPoint _ _ _) rfl

theorem keeps_doJob (d : Dev) (x1 : DepotJob) :
    Keeps [.dep, .mem, .copies] d (d.doJob x1) := by
  unfold Dev.doJob
  split
  · exact keeps_mono (keeps_setCs0 _ _ _) rfl
  · exact keeps_set keeps_refl fun p => by cases p <;> first | exact .inl rfl | exact .inr rfl | exact .inr ⟨rfl, rfl⟩ | exact .inr ⟨rfl, rfl, rfl, rfl, rfl, rfl, rfl⟩
  · exact keeps_set keeps_refl fun p => by cases p <;> first | exact .inl rfl | exact .inr rfl | exact .inr ⟨rfl, rfl⟩ | exact .inr ⟨rfl, rfl, rfl, rfl, rfl, rfl, rfl⟩
  · exact keeps_set keeps_refl fun p => by cases p <;> first | exact .inl rfl | exact .inr rfl | exact .inr ⟨rfl, rfl⟩ | exact .inr ⟨rfl, rfl, rfl, rfl, rfl, rfl, rfl⟩
  · exact keeps_mono (keeps_eraseCs1 _ _ _) rfl

theorem keeps_queueTx (d : Dev) (t : DepotTx) :
    Keeps [.doms, .dep] d (d.queueTx t) := by
  unfold Dev.queueTx
  extract_lets d1 b2
  refine keeps_through (b := d1) ?_ fun hd1 => ?_
  · unfold d1
    exact keeps_mono (keeps_needDepot _) rfl
  clear_value d1
  refine keeps_ite (fun _ => ?_) fun _ => ?_
  · exact hd1
  · refine keeps_set (b := d1) ?_ fun p => by cases p <;> first | exact .inl rfl | exact .inr rfl | exact .inr ⟨rfl, rfl⟩ | exact .inr ⟨rfl, rfl, rfl, rfl, rfl, rfl, rfl⟩
    exact hd1

theorem keeps_depotWrite (d : Dev) (j : DepotJob) :
    Keeps [.doms, .dep, .mem, .copies] d (d.depotWrite j) := by
  unfold Dev.depotWrite
  extract_lets d1 b2
  refine keeps_through (b := d1) ?_ fun hd1 => ?_
  · unfold d1
    exact keeps_mono (keeps_queueTx _ _) rfl
  clear_value d1
  refine keeps_ite (fun _ => ?_) fun _ => ?_
  · refine keeps_via (keeps_doJob _ _) rfl ?_
    exact hd1
  · refine keeps_set (b := d1) ?_ fun p => by cases p <;> first | exact .inl rfl | exact .inr rfl | exact .inr ⟨rfl, rfl⟩ | exact .inr ⟨rfl, rfl, rfl, rfl, rfl, rfl, rfl⟩
    exact hd1

theorem keeps_writeHeader (d : Dev) (next : Nat) :
    Keeps [.lgr, .mem] d (d.writeHeader next) := by
  unfold Dev.writeHeader
  extract_lets gen1 b2 d3
  clear_value gen1
  refine keeps_through (b := d3) ?_ fun hd3 => ?_
  · unfold d3
    exact keeps_set keeps_refl fun p => by cases p <;> first | exact .inl rfl | exact .inr rfl | exact .inr ⟨rfl, rfl⟩ | exact .inr ⟨rfl, rfl, rfl, rfl, rfl, rfl, rfl⟩
  clear_value d3
  refine keeps_via (keeps_setCs0 _ _ _) rfl ?_
  exact hd3

theorem keeps_queueHeader (d : Dev) (next : Nat) :
    Keeps [.doms, .lgr, .dep, .mem, .copies] d (d.queueHeader next) := by
  unfold Dev.queueHeader
  extract_lets gen1 b2 d3
  clear_value gen1
  refine keeps_through (b := d3) ?_ fun hd3 => ?_
  · unfold d3
    exact keeps_set keeps_refl fun p => by cases p <;> first | exact .inl rfl | exact .inr rfl | exact .inr ⟨rfl, rfl⟩ | exact .inr ⟨rfl, rfl, rfl, rfl, rfl, rfl, rfl⟩
  clear_value d3
  refine keeps_via (keeps_depotWrite _ _) rfl ?_
  exact hd3

theorem keeps_writeSealed (d : Dev) :
    Keeps [.doms, .tol, .dep, .mem, .copies] d (d.writeSealed) := by
  unfold Dev.writeSealed
  extract_lets b1 d2
  refine keeps_through (b := d2) ?_ fun hd2 => ?_
  · unfold d2
    exact keeps_set keeps_refl fun p => by cases p <;> first | exact .inl rfl | exact .inr rfl | exact .inr ⟨rfl, rfl⟩ | exact .inr ⟨rfl, rfl, rfl, rfl, rfl, rfl, rfl⟩
  clear_value d2
  refine keeps_via (keeps_depotWrite _ _) rfl ?_
  exact hd2

theorem keeps_freeze (d : Dev) (typ : Nat) (disp : Nat) (area : List Byte) :
    Keeps [.tol, .lgr, .dep] d (d.freeze typ disp area) := by
  unfold Dev.freeze
  extract_lets before1 level2 body3 r4 b5 lgr6 b7 tol8 b9 d10
  clear_value body3
  clear_value r4
  clear_value lgr6
  clear_value tol8
  refine keeps_through (b := d10) ?_ fun hd10 => ?_
  · unfold d10
    exact keeps_set keeps_refl fun p => by cases p <;> first | exact .inl rfl | exact .inr rfl | exact .inr ⟨rfl, rfl⟩ | exact .inr ⟨rfl, rfl, rfl, rfl, rfl, rfl, rfl⟩
  clear_value d10
  refine keeps_via (keeps_lowCheck _ _) rfl ?_
  refine keeps_via (keeps_queueCrossed _ _ _ _ _) rfl ?_
  exact hd10

theorem keeps_freezeAudit (d : Dev) (kind : Nat) (rest : List Byte) :
    Keeps [.tol, .lgr, .dep] d (d.freezeAudit kind rest) := by
  unfold Dev.freezeAudit
  exact keeps_mono (keeps_freeze _ _ _ _) rfl

theorem keeps_drainAudits (x0 : Nat) (x1 : Dev) :
    Keeps [.doms, .tol, .lgr, .dep] x1 (Dev.drainAudits x0 x1) := by
  induction x0 generalizing x1
  · unfold Dev.drainAudits
    exact keeps_refl
  · rename_i x0 ih
    unfold Dev.drainAudits
    split
    · exact keeps_refl
    · extract_lets d1 b2
      refine keeps_through (b := d1) ?_ fun hd1 => ?_
      · unfold d1
        refine keeps_ite (fun _ => ?_) fun _ => ?_
        · exact keeps_mono (keeps_needDepot _) rfl
        · exact keeps_refl
      clear_value d1
      refine keeps_ite (fun _ => ?_) fun _ => ?_
      · refine keeps_trans ?_ (ih _)
        refine keeps_via (keeps_freezeAudit _ _ _) rfl ?_
        refine keeps_set (b := d1) ?_ fun p => by cases p <;> first | exact .inl rfl | exact .inr rfl | exact .inr ⟨rfl, rfl⟩ | exact .inr ⟨rfl, rfl, rfl, rfl, rfl, rfl, rfl⟩
        exact hd1
      · exact hd1

theorem keeps_dueAudit (d : Dev) (kind : Nat) (area : List Byte) :
    Keeps [.doms, .tol, .lgr, .dep] d (d.dueAudit kind area) := by
  unfold Dev.dueAudit
  extract_lets b1 d2
  refine keeps_through (b := d2) ?_ fun hd2 => ?_
  · unfold d2
    exact keeps_set keeps_refl fun p => by cases p <;> first | exact .inl rfl | exact .inr rfl | exact .inr ⟨rfl, rfl⟩ | exact .inr ⟨rfl, rfl, rfl, rfl, rfl, rfl, rfl⟩
  clear_value d2
  refine keeps_ite (fun _ => ?_) fun _ => ?_
  · exact hd2
  · refine keeps_via (keeps_drainAudits _ _) rfl ?_
    exact hd2

theorem keeps_sealAudit (d : Dev) (kind : Nat) :
    Keeps [.doms, .tol, .lgr, .dep] d (d.sealAudit kind) := by
  unfold Dev.sealAudit
  exact keeps_mono (keeps_dueAudit _ _ _) rfl

theorem keeps_setSession (d : Dev) (s : Session) :
    Keeps [.tol] d (d.setSession s) := by
  unfold Dev.setSession
  refine keeps_ite (fun _ => ?_) fun _ => ?_
  · exact keeps_refl
  · refine keeps_via (keeps_notice _ _ _ _) rfl ?_
    exact keeps_set keeps_refl fun p => by cases p <;> first | exact .inl rfl | exact .inr rfl | exact .inr ⟨rfl, rfl⟩ | exact .inr ⟨rfl, rfl, rfl, rfl, rfl, rfl, rfl⟩

theorem keeps_markSession (d : Dev) (n : Nat) :
    Keeps [.tol] d (d.markSession n) := by
  unfold Dev.markSession
  exact keeps_set keeps_refl fun p => by cases p <;> first | exact .inl rfl | exact .inr rfl | exact .inr ⟨rfl, rfl⟩ | exact .inr ⟨rfl, rfl, rfl, rfl, rfl, rfl, rfl⟩

theorem keeps_freezeSession (d : Dev) (typ : Nat) :
    Keeps [.tol, .lgr, .dep] d (d.freezeSession typ) := by
  unfold Dev.freezeSession
  extract_lets b1 d2
  refine keeps_through (b := d2) ?_ fun hd2 => ?_
  · unfold d2
    exact keeps_set keeps_refl fun p => by cases p <;> first | exact .inl rfl | exact .inr rfl | exact .inr ⟨rfl, rfl⟩ | exact .inr ⟨rfl, rfl, rfl, rfl, rfl, rfl, rfl⟩
  clear_value d2
  refine keeps_via (keeps_freeze _ _ _ _) rfl ?_
  exact hd2

theorem keeps_freezeDue (d : Dev) (x1 : TollRecord) :
    Keeps [.tol, .lgr, .dep] d (d.freezeDue x1) := by
  unfold Dev.freezeDue
  split
  · refine keeps_via (keeps_freezeSession _ _) rfl ?_
    exact keeps_set keeps_refl fun p => by cases p <;> first | exact .inl rfl | exact .inr rfl | exact .inr ⟨rfl, rfl⟩ | exact .inr ⟨rfl, rfl, rfl, rfl, rfl, rfl, rfl⟩
  · exact keeps_mono (keeps_freezeSession _ _) rfl
  · refine keeps_via (keeps_freezeSession _ _) rfl ?_
    exact keeps_mono (keeps_markSession _ _) rfl
  · refine keeps_via (keeps_freezeSession _ _) rfl ?_
    refine keeps_via (keeps_markSession _ _) rfl ?_
    exact keeps_mono (keeps_markSession _ _) rfl
  · extract_lets d1 b2
    refine keeps_through (b := d1) ?_ fun hd1 => ?_
    · unfold d1
      exact keeps_mono (keeps_freezeSession _ _) rfl
    clear_value d1
    refine keeps_via (keeps_setSession _ _) rfl ?_
    refine keeps_set (b := d1) ?_ fun p => by cases p <;> first | exact .inl rfl | exact .inr rfl | exact .inr ⟨rfl, rfl⟩ | exact .inr ⟨rfl, rfl, rfl, rfl, rfl, rfl, rfl⟩
    exact hd1

theorem keeps_drainDue (x0 : Nat) (x1 : Dev) :
    Keeps [.tol, .lgr, .dep] x1 (Dev.drainDue x0 x1) := by
  induction x0 generalizing x1
  · unfold Dev.drainDue
    exact keeps_refl
  · rename_i x0 ih
    unfold Dev.drainDue
    split
    · exact keeps_refl
    · refine keeps_ite (fun _ => ?_) fun _ => ?_
      · refine keeps_trans ?_ (ih _)
        refine keeps_via (keeps_freezeDue _ _) rfl ?_
        exact keeps_set keeps_refl fun p => by cases p <;> first | exact .inl rfl | exact .inr rfl | exact .inr ⟨rfl, rfl⟩ | exact .inr ⟨rfl, rfl, rfl, rfl, rfl, rfl, rfl⟩
      · exact keeps_refl

theorem keeps_sealDue (d : Dev) (r : TollRecord) :
    Keeps [.tol] d (d.sealDue r) := by
  unfold Dev.sealDue
  extract_lets due1 b2
  clear_value due1
  exact keeps_set keeps_refl fun p => by cases p <;> first | exact .inl rfl | exact .inr rfl | exact .inr ⟨rfl, rfl⟩ | exact .inr ⟨rfl, rfl, rfl, rfl, rfl, rfl, rfl⟩

theorem keeps_drainRecords (d : Dev) :
    Keeps [.doms, .tol, .lgr, .dep] d (d.drainRecords) := by
  unfold Dev.drainRecords
  extract_lets d1
  refine keeps_through (b := d1) ?_ fun hd1 => ?_
  · unfold d1
    exact keeps_mono (keeps_drainDue _ _) rfl
  clear_value d1
  refine keeps_via (keeps_drainAudits _ _) rfl ?_
  exact hd1

theorem keeps_suspendSession (d : Dev) :
    Keeps [.tol] d (d.suspendSession) := by
  unfold Dev.suspendSession
  split
  · refine keeps_via (keeps_setSession _ _) rfl ?_
    exact keeps_set keeps_refl fun p => by cases p <;> first | exact .inl rfl | exact .inr rfl | exact .inr ⟨rfl, rfl⟩ | exact .inr ⟨rfl, rfl, rfl, rfl, rfl, rfl, rfl⟩
  · refine keeps_via (keeps_setSession _ _) rfl ?_
    exact keeps_set keeps_refl fun p => by cases p <;> first | exact .inl rfl | exact .inr rfl | exact .inr ⟨rfl, rfl⟩ | exact .inr ⟨rfl, rfl, rfl, rfl, rfl, rfl, rfl⟩
  · refine keeps_ite (fun _ => ?_) fun _ => ?_
    · refine keeps_via (keeps_setSession _ _) rfl ?_
      exact keeps_set keeps_refl fun p => by cases p <;> first | exact .inl rfl | exact .inr rfl | exact .inr ⟨rfl, rfl⟩ | exact .inr ⟨rfl, rfl, rfl, rfl, rfl, rfl, rfl⟩
    · exact keeps_mono (keeps_setSession _ _) rfl
  · exact keeps_refl

theorem keeps_tollK4Open (d : Dev) :
    Keeps [.tol] d (d.tollK4Open) := by
  unfold Dev.tollK4Open
  extract_lets b1 d2 b3
  refine keeps_through (b := d2) ?_ fun hd2 => ?_
  · unfold d2
    exact keeps_set keeps_refl fun p => by cases p <;> first | exact .inl rfl | exact .inr rfl | exact .inr ⟨rfl, rfl⟩ | exact .inr ⟨rfl, rfl, rfl, rfl, rfl, rfl, rfl⟩
  clear_value d2
  split
  · refine keeps_via (keeps_sealDue _ _) rfl ?_
    exact hd2
  · refine keeps_ite (fun _ => ?_) fun _ => ?_
    · refine keeps_via (keeps_sealDue _ _) rfl ?_
      refine keeps_set (b := d2) ?_ fun p => by cases p <;> first | exact .inl rfl | exact .inr rfl | exact .inr ⟨rfl, rfl⟩ | exact .inr ⟨rfl, rfl, rfl, rfl, rfl, rfl, rfl⟩
      exact hd2
    · exact hd2
  · refine keeps_ite (fun _ => ?_) fun _ => ?_
    · refine keeps_via (keeps_setSession _ _) rfl ?_
      refine keeps_set (b := d2) ?_ fun p => by cases p <;> first | exact .inl rfl | exact .inr rfl | exact .inr ⟨rfl, rfl⟩ | exact .inr ⟨rfl, rfl, rfl, rfl, rfl, rfl, rfl⟩
      exact hd2
    · refine keeps_via (keeps_setSession _ _) rfl ?_
      exact hd2
  · exact hd2

theorem keeps_restartInterim (d : Dev) :
    Keeps [.tol] d (d.restartInterim) := by
  unfold Dev.restartInterim
  exact keeps_set keeps_refl fun p => by cases p <;> first | exact .inl rfl | exact .inr rfl | exact .inr ⟨rfl, rfl⟩ | exact .inr ⟨rfl, rfl, rfl, rfl, rfl, rfl, rfl⟩

theorem keeps_tollK4Closed (d : Dev) :
    Keeps [.tol, .lif] d (d.tollK4Closed) := by
  unfold Dev.tollK4Closed
  refine keeps_ite (fun _ => ?_) fun _ => ?_
  · exact keeps_refl
  · extract_lets d1 b2 d3
    refine keeps_through (b := d1) ?_ fun hd1 => ?_
    · unfold d1
      exact keeps_mono (keeps_restartInterim _) rfl
    clear_value d1
    refine keeps_through (b := d3) ?_ fun hd3 => ?_
    · unfold d3
      refine keeps_set (b := d1) ?_ fun p => by cases p <;> first | exact .inl rfl | exact .inr rfl | exact .inr ⟨rfl, rfl⟩ | exact .inr ⟨rfl, rfl, rfl, rfl, rfl, rfl, rfl⟩
      exact hd1
    clear_value d3
    refine keeps_ite (fun _ => ?_) fun _ => ?_
    · refine keeps_via (keeps_sealDue _ _) rfl ?_
      refine keeps_via (keeps_setSession _ _) rfl ?_
      refine keeps_set (b := d1) ?_ fun p => by cases p <;> first | exact .inl rfl | exact .inr rfl | exact .inr ⟨rfl, rfl⟩ | exact .inr ⟨rfl, rfl, rfl, rfl, rfl, rfl, rfl⟩
      exact hd1
    · refine keeps_via (keeps_sealDue _ _) rfl ?_
      refine keeps_via (keeps_setSession _ _) rfl ?_
      refine keeps_via (keeps_countDevice _ _) rfl ?_
      exact hd3

theorem keeps_setCan (d : Dev) (x1 : Ch) (x2 : Can) :
    Keeps [.can0, .can1] d (d.setCan x1 x2) := by
  unfold Dev.setCan
  split
  · exact keeps_set keeps_refl fun p => by cases p <;> first | exact .inl rfl | exact .inr rfl | exact .inr ⟨rfl, rfl⟩ | exact .inr ⟨rfl, rfl, rfl, rfl, rfl, rfl, rfl⟩
  · exact keeps_set keeps_refl fun p => by cases p <;> first | exact .inl rfl | exact .inr rfl | exact .inr ⟨rfl, rfl⟩ | exact .inr ⟨rfl, rfl, rfl, rfl, rfl, rfl, rfl⟩

theorem keeps_publishOn (d : Dev) (f : OwnFrame) (ch : Ch) :
    Keeps [.can0, .can1] d (d.publishOn f ch) := by
  unfold Dev.publishOn
  extract_lets c1
  clear_value c1
  refine keeps_ite (fun _ => ?_) fun _ => ?_
  · exact keeps_mono (keeps_setCan _ _ _) rfl
  · exact keeps_refl

theorem keeps_publish (d : Dev) (f : OwnFrame) :
    Keeps [.can0, .can1] d (d.publish f) := by
  unfold Dev.publish
  refine keeps_via (keeps_publishOn _ _ _) rfl ?_
  exact keeps_mono (keeps_publishOn _ _ _) rfl

theorem keeps_publishLimits (d : Dev) :
    Keeps [.can0, .can1] d (d.publishLimits) := by
  unfold Dev.publishLimits
  refine keeps_ite (fun _ => ?_) fun _ => ?_
  · refine keeps_via (keeps_publish _ _) rfl ?_
    exact keeps_mono (keeps_publish _ _) rfl
  · exact keeps_refl

theorem keeps_withdrawStep (d : Dev) :
    Keeps [.est, .can0, .can1] d (d.withdrawStep) := by
  unfold Dev.withdrawStep
  refine keeps_ite (fun _ => ?_) fun _ => ?_
  · refine keeps_via (keeps_publish _ _) rfl ?_
    exact keeps_set keeps_refl fun p => by cases p <;> first | exact .inl rfl | exact .inr rfl | exact .inr ⟨rfl, rfl⟩ | exact .inr ⟨rfl, rfl, rfl, rfl, rfl, rfl, rfl⟩
  · exact keeps_refl

theorem keeps_zeroCheck (d : Dev) :
    Keeps [.lim, .can0, .can1] d (d.zeroCheck) := by
  unfold Dev.zeroCheck
  refine keeps_ite (fun _ => ?_) fun _ => ?_
  · extract_lets b1 d2
    refine keeps_through (b := d2) ?_ fun hd2 => ?_
    · unfold d2
      exact keeps_set keeps_refl fun p => by cases p <;> first | exact .inl rfl | exact .inr rfl | exact .inr ⟨rfl, rfl⟩ | exact .inr ⟨rfl, rfl, rfl, rfl, rfl, rfl, rfl⟩
    clear_value d2
    refine keeps_via (keeps_notice _ _ _ _) rfl ?_
    refine keeps_via (keeps_publishLimits _) rfl ?_
    exact hd2
  · exact keeps_refl

theorem keeps_setCoil (d : Dev) (k : K) (f : Coil → Coil) :
    Keeps [.coil] d (d.setCoil k f) := by
  unfold Dev.setCoil
  exact keeps_set keeps_refl fun p => by cases p <;> first | exact .inl rfl | exact .inr rfl | exact .inr ⟨rfl, rfl⟩ | exact .inr ⟨rfl, rfl, rfl, rfl, rfl, rfl, rfl⟩

theorem keeps_capture (d : Dev) :
    Keeps [.seq] d (d.capture) := by
  unfold Dev.capture
  exact keeps_set keeps_refl fun p => by cases p <;> first | exact .inl rfl | exact .inr rfl | exact .inr ⟨rfl, rfl⟩ | exact .inr ⟨rfl, rfl, rfl, rfl, rfl, rfl, rfl⟩

theorem keeps_pullIn (d : Dev) (k : K) :
    Keeps [.coil] d (d.pullIn k) := by
  unfold Dev.pullIn
  exact keeps_mono (keeps_setCoil _ _ _) rfl

theorem keeps_stopChecks (d : Dev) :
    Keeps [.coil] d (d.stopChecks) := by
  unfold Dev.stopChecks
  exact keeps_set keeps_refl fun p => by cases p <;> first | exact .inl rfl | exact .inr rfl | exact .inr ⟨rfl, rfl⟩ | exact .inr ⟨rfl, rfl, rfl, rfl, rfl, rfl, rfl⟩

theorem keeps_release (d : Dev) (k : K) :
    Keeps [.coil] d (d.release k) := by
  unfold Dev.release
  extract_lets c1 fast2
  clear_value c1
  clear_value fast2
  refine keeps_ite (fun _ => ?_) fun _ => ?_
  · exact keeps_refl
  · refine keeps_via (keeps_setCoil _ _ _) rfl ?_
    exact keeps_mono (keeps_stopChecks _) rfl

theorem keeps_dueReleases (d : Dev) :
    Keeps [.coil] d (d.dueReleases) := by
  unfold Dev.dueReleases
  refine keeps_foldl ?_ fun d1 x2 => ?_
  · exact keeps_refl
  · refine keeps_ite (fun _ => ?_) fun _ => ?_
    · refine keeps_via (keeps_release _ _) rfl ?_
      exact keeps_mono (keeps_setCoil _ _ _) rfl
    · exact keeps_refl

theorem keeps_highSideOff (d : Dev) (k : K) :
    Keeps [.coil] d (d.highSideOff k) := by
  unfold Dev.highSideOff
  exact keeps_mono (keeps_setCoil _ _ _) rfl

theorem keeps_coilsOff (d : Dev) :
    Keeps [.coil] d (d.coilsOff) := by
  unfold Dev.coilsOff
  exact keeps_set keeps_refl fun p => by cases p <;> first | exact .inl rfl | exact .inr rfl | exact .inr ⟨rfl, rfl⟩ | exact .inr ⟨rfl, rfl, rfl, rfl, rfl, rfl, rfl⟩

theorem keeps_accountAs (d : Dev) (k : K) (load : Bool) (breakI : Nat) (i2t : Rat) :
    Keeps [.coil, .lim, .dep, .lif] d (d.accountAs k load breakI i2t) := by
  unfold Dev.accountAs
  extract_lets d1 amps2 b3 d4 d5
  refine keeps_through (b := d1) ?_ fun hd1 => ?_
  · unfold d1
    exact keeps_mono (keeps_countK _ _ _) rfl
  clear_value d1
  clear_value amps2
  refine keeps_through (b := d4) ?_ fun hd4 => ?_
  · unfold d4
    refine keeps_set (b := d1) ?_ fun p => by cases p <;> first | exact .inl rfl | exact .inr rfl | exact .inr ⟨rfl, rfl⟩ | exact .inr ⟨rfl, rfl, rfl, rfl, rfl, rfl, rfl⟩
    exact hd1
  clear_value d4
  refine keeps_through (b := d5) ?_ fun hd5 => ?_
  · unfold d5
    refine keeps_via (keeps_setCoil _ _ _) rfl ?_
    exact hd4
  clear_value d5
  refine keeps_ite (fun _ => ?_) fun _ => ?_
  · refine keeps_via (keeps_notice _ _ _ _) rfl ?_
    exact hd5
  · exact hd5

theorem keeps_accountOpening (d : Dev) (k : K) :
    Keeps [.coil, .lim, .dep, .lif] d (d.accountOpening k) := by
  unfold Dev.accountOpening
  extract_lets c1
  clear_value c1
  exact keeps_mono (keeps_accountAs _ _ _ _ _) rfl

theorem keeps_endRelease (d : Dev) (k : K) (unverified : Bool) (stuck : Bool) :
    Keeps [.coil] d (d.endRelease k unverified stuck) := by
  unfold Dev.endRelease
  exact keeps_mono (keeps_setCoil _ _ _) rfl

theorem keeps_moveDrover (d : Dev) (s : Drover) (code : Nat) :
    Keeps [.stamp, .seq] d (d.moveDrover s code) := by
  unfold Dev.moveDrover
  refine keeps_ite (fun _ => ?_) fun _ => ?_
  · exact keeps_refl
  · extract_lets stamp1 b2 d3 b4
    refine keeps_through (b := d3) ?_ fun hd3 => ?_
    · unfold d3
      refine keeps_ite (fun _ => ?_) fun _ => ?_
      · exact keeps_set keeps_refl fun p => by cases p <;> first | exact .inl rfl | exact .inr rfl | exact .inr ⟨rfl, rfl⟩ | exact .inr ⟨rfl, rfl, rfl, rfl, rfl, rfl, rfl⟩
      · exact keeps_refl
    clear_value d3
    refine keeps_via (keeps_notice _ _ _ _) rfl ?_
    refine keeps_set (b := d3) ?_ fun p => by cases p <;> first | exact .inl rfl | exact .inr rfl | exact .inr ⟨rfl, rfl⟩ | exact .inr ⟨rfl, rfl, rfl, rfl, rfl, rfl, rfl⟩
    exact hd3

theorem keeps_setDrover (d : Dev) (s : Drover) :
    Keeps [.stamp, .seq] d (d.setDrover s) := by
  unfold Dev.setDrover
  exact keeps_mono (keeps_moveDrover _ _ _) rfl

theorem keeps_seqIdle (d : Dev) :
    Keeps [.seq] d (d.seqIdle) := by
  unfold Dev.seqIdle
  exact keeps_set keeps_refl fun p => by cases p <;> first | exact .inl rfl | exact .inr rfl | exact .inr ⟨rfl, rfl⟩ | exact .inr ⟨rfl, rfl, rfl, rfl, rfl, rfl, rfl⟩

theorem keeps_countAbort (d : Dev) :
    Keeps [.seq] d (d.countAbort) := by
  unfold Dev.countAbort
  refine keeps_ite (fun _ => ?_) fun _ => ?_
  · extract_lets all1 last2 b3
    clear_value all1
    clear_value last2
    exact keeps_set keeps_refl fun p => by cases p <;> first | exact .inl rfl | exact .inr rfl | exact .inr ⟨rfl, rfl⟩ | exact .inr ⟨rfl, rfl, rfl, rfl, rfl, rfl, rfl⟩
  · exact keeps_refl

theorem keeps_abortPrecharge (d : Dev) (code : Nat) :
    Keeps [.stamp, .seq, .coil, .pwr] d (d.abortPrecharge code) := by
  unfold Dev.abortPrecharge
  extract_lets d1 d2 b3 d4 b5 b6 d7
  refine keeps_through (b := d1) ?_ fun hd1 => ?_
  · unfold d1
    exact keeps_mono (keeps_countAbort _) rfl
  clear_value d1
  refine keeps_through (b := d2) ?_ fun hd2 => ?_
  · unfold d2
    refine keeps_via (keeps_release _ _) rfl ?_
    refine keeps_via (keeps_release _ _) rfl ?_
    refine keeps_via (keeps_release _ _) rfl ?_
    exact hd1
  clear_value d2
  refine keeps_through (b := d4) ?_ fun hd4 => ?_
  · unfold d4
    refine keeps_ite (fun _ => ?_) fun _ => ?_
    · exact hd2
    · refine keeps_set (b := d2) ?_ fun p => by cases p <;> first | exact .inl rfl | exact .inr rfl | exact .inr ⟨rfl, rfl⟩ | exact .inr ⟨rfl, rfl, rfl, rfl, rfl, rfl, rfl⟩
      exact hd2
  clear_value d4
  refine keeps_through (b := b5) ?_ fun hb5 => ?_
  · unfold b5
    refine keeps_via (keeps_seqIdle _) rfl ?_
    exact hd4
  clear_value b5
  refine keeps_through (b := d7) ?_ fun hd7 => ?_
  · unfold d7
    refine keeps_set (b := b5) ?_ fun p => by cases p <;> first | exact .inl rfl | exact .inr rfl | exact .inr ⟨rfl, rfl⟩ | exact .inr ⟨rfl, rfl, rfl, rfl, rfl, rfl, rfl⟩
    exact hb5
  clear_value d7
  refine keeps_via (keeps_moveDrover _ _ _) rfl ?_
  exact hd7

theorem keeps_enterBreaking (d : Dev) :
    Keeps [.stamp, .seq, .coil, .lim, .tol, .can0, .can1] d (d.enterBreaking) := by
  unfold Dev.enterBreaking
  extract_lets d1 b2 d3
  refine keeps_through (b := d1) ?_ fun hd1 => ?_
  · unfold d1
    refine keeps_via (keeps_stopChecks _) rfl ?_
    refine keeps_via (keeps_seqIdle _) rfl ?_
    exact keeps_mono (keeps_capture _) rfl
  clear_value d1
  refine keeps_through (b := d3) ?_ fun hd3 => ?_
  · unfold d3
    refine keeps_set (b := d1) ?_ fun p => by cases p <;> first | exact .inl rfl | exact .inr rfl | exact .inr ⟨rfl, rfl⟩ | exact .inr ⟨rfl, rfl, rfl, rfl, rfl, rfl, rfl⟩
    exact hd1
  clear_value d3
  refine keeps_via (keeps_zeroCheck _) rfl ?_
  refine keeps_via (keeps_suspendSession _) rfl ?_
  refine keeps_via (keeps_dueReleases _) rfl ?_
  refine keeps_via (keeps_setDrover _ _) rfl ?_
  exact hd3

theorem keeps_releaseNext (x0 : Nat) (x1 : Dev) :
    Keeps [.stamp, .seq, .coil, .pwr, .tol] x1 (Dev.releaseNext x0 x1) := by
  induction x0 generalizing x1
  · unfold Dev.releaseNext
    exact keeps_refl
  · rename_i x0 ih
    unfold Dev.releaseNext
    split
    · refine keeps_ite (fun _ => ?_) fun _ => ?_
      · extract_lets b1 b2 d3
        refine keeps_through (b := b1) ?_ fun hb1 => ?_
        · unfold b1
          exact keeps_mono (keeps_seqIdle _) rfl
        clear_value b1
        refine keeps_through (b := d3) ?_ fun hd3 => ?_
        · unfold d3
          refine keeps_set (b := b1) ?_ fun p => by cases p <;> first | exact .inl rfl | exact .inr rfl | exact .inr ⟨rfl, rfl⟩ | exact .inr ⟨rfl, rfl, rfl, rfl, rfl, rfl, rfl⟩
          exact hb1
        clear_value d3
        refine keeps_via (keeps_setDrover _ _) rfl ?_
        exact hd3
      · refine keeps_ite (fun _ => ?_) fun _ => ?_
        · refine keeps_ite (fun _ => ?_) fun _ => ?_
          · extract_lets d4 b5
            refine keeps_through (b := d4) ?_ fun hd4 => ?_
            · unfold d4
              exact keeps_mono (keeps_seqIdle _) rfl
            clear_value d4
            refine keeps_set (b := d4) ?_ fun p => by cases p <;> first | exact .inl rfl | exact .inr rfl | exact .inr ⟨rfl, rfl⟩ | exact .inr ⟨rfl, rfl, rfl, rfl, rfl, rfl, rfl⟩
            exact hd4
          · refine keeps_via (keeps_setDrover _ _) rfl ?_
            exact keeps_mono (keeps_seqIdle _) rfl
        · exact keeps_refl
    · refine keeps_ite (fun _ => ?_) fun _ => ?_
      · extract_lets b6 d7
        refine keeps_through (b := d7) ?_ fun hd7 => ?_
        · unfold d7
          exact keeps_set keeps_refl fun p => by cases p <;> first | exact .inl rfl | exact .inr rfl | exact .inr ⟨rfl, rfl⟩ | exact .inr ⟨rfl, rfl, rfl, rfl, rfl, rfl, rfl⟩
        clear_value d7
        refine keeps_trans ?_ (ih _)
        refine keeps_ite (fun _ => ?_) fun _ => ?_
        · refine keeps_via (keeps_tollK4Open _) rfl ?_
          exact hd7
        · exact hd7
      · exact keeps_mono (keeps_release _ _) rfl

theorem keeps_startOpenings (d : Dev) :
    Keeps [.stamp, .seq, .coil, .pwr, .tol] d (d.startOpenings) := by
  unfold Dev.startOpenings
  refine keeps_via (keeps_releaseNext _ _) rfl ?_
  exact keeps_set keeps_refl fun p => by cases p <;> first | exact .inl rfl | exact .inr rfl | exact .inr ⟨rfl, rfl⟩ | exact .inr ⟨rfl, rfl, rfl, rfl, rfl, rfl, rfl⟩

theorem keeps_startSessionEnd (d : Dev) :
    Keeps [.stamp, .seq, .coil, .pwr, .tol] d (d.startSessionEnd) := by
  unfold Dev.startSessionEnd
  refine keeps_via (keeps_releaseNext _ _) rfl ?_
  exact keeps_set keeps_refl fun p => by cases p <;> first | exact .inl rfl | exact .inr rfl | exact .inr ⟨rfl, rfl⟩ | exact .inr ⟨rfl, rfl, rfl, rfl, rfl, rfl, rfl⟩

theorem keeps_withdraw (d : Dev) :
    Keeps [.saf] d (d.withdraw) := by
  unfold Dev.withdraw
  refine keeps_ite (fun _ => ?_) fun _ => ?_
  · refine keeps_via (keeps_notice _ _ _ _) rfl ?_
    exact keeps_set keeps_refl fun p => by cases p <;> first | exact .inl rfl | exact .inr rfl | exact .inr ⟨rfl, rfl⟩ | exact .inr ⟨rfl, rfl, rfl, rfl, rfl, rfl, rfl⟩
  · exact keeps_refl

theorem keeps_setLatch (d : Dev) (src : LatchSource) :
    Keeps [.coil, .pwr, .saf] d (d.setLatch src) := by
  unfold Dev.setLatch
  extract_lets first1 b2 d3 d4 b5 d6 d7
  refine keeps_through (b := d3) ?_ fun hd3 => ?_
  · unfold d3
    exact keeps_set keeps_refl fun p => by cases p <;> first | exact .inl rfl | exact .inr rfl | exact .inr ⟨rfl, rfl⟩ | exact .inr ⟨rfl, rfl, rfl, rfl, rfl, rfl, rfl⟩
  clear_value d3
  refine keeps_through (b := d4) ?_ fun hd4 => ?_
  · unfold d4
    refine keeps_via (keeps_coilsOff _) rfl ?_
    exact hd3
  clear_value d4
  refine keeps_through (b := d6) ?_ fun hd6 => ?_
  · unfold d6
    refine keeps_set (b := d4) ?_ fun p => by cases p <;> first | exact .inl rfl | exact .inr rfl | exact .inr ⟨rfl, rfl⟩ | exact .inr ⟨rfl, rfl, rfl, rfl, rfl, rfl, rfl⟩
    exact hd4
  clear_value d6
  refine keeps_through (b := d7) ?_ fun hd7 => ?_
  · unfold d7
    refine keeps_via (keeps_withdraw _) rfl ?_
    exact hd6
  clear_value d7
  refine keeps_ite (fun _ => ?_) fun _ => ?_
  · refine keeps_via (keeps_notice _ _ _ _) rfl ?_
    exact hd7
  · exact hd7

theorem keeps_enterLockout (d : Dev) (cause : Byte) (episode : Nat) :
    Keeps [.stamp, .mode, .seq, .lif] d (d.enterLockout cause episode) := by
  unfold Dev.enterLockout
  refine keeps_ite (fun _ => ?_) fun _ => ?_
  · extract_lets takes1 b2
    exact keeps_set keeps_refl fun p => by cases p <;> first | exact .inl rfl | exact .inr rfl | exact .inr ⟨rfl, rfl⟩ | exact .inr ⟨rfl, rfl, rfl, rfl, rfl, rfl, rfl⟩
  · extract_lets keep3 entry4 b5 b6 d7 d8
    clear_value keep3
    clear_value entry4
    refine keeps_through (b := b5) ?_ fun hb5 => ?_
    · unfold b5
      exact keeps_mono (keeps_seqIdle _) rfl
    clear_value b5
    refine keeps_through (b := d7) ?_ fun hd7 => ?_
    · unfold d7
      refine keeps_set (b := b5) ?_ fun p => by cases p <;> first | exact .inl rfl | exact .inr rfl | exact .inr ⟨rfl, rfl⟩ | exact .inr ⟨rfl, rfl, rfl, rfl, rfl, rfl, rfl⟩
      exact hb5
    clear_value d7
    refine keeps_through (b := d8) ?_ fun hd8 => ?_
    · unfold d8
      refine keeps_via (keeps_setDrover _ _) rfl ?_
      exact hd7
    clear_value d8
    refine keeps_ite (fun _ => ?_) fun _ => ?_
    · refine keeps_via (keeps_event _ _ _ _ _ _ _) rfl ?_
      refine keeps_via (keeps_countDevice _ _) rfl ?_
      exact hd8
    · exact hd8

theorem keeps_captureOpening (d : Dev) :
    Keeps [.seq] d (d.captureOpening) := by
  unfold Dev.captureOpening
  split
  · exact keeps_mono (keeps_capture _) rfl
  · exact keeps_mono (keeps_capture _) rfl
  · refine keeps_ite (fun _ => ?_) fun _ => ?_
    · exact keeps_refl
    · exact keeps_mono (keeps_capture _) rfl
  · exact keeps_refl

theorem keeps_openNow (d : Dev) (src : LatchSource) (lock : Option Byte) (episode : Nat) :
    Keeps [.stamp, .mode, .seq, .coil, .lim, .pwr, .saf, .tol, .can0, .can1, .lif] d (d.openNow src lock episode) := by
  unfold Dev.openNow
  extract_lets d1 b2 b3 d4 d5 d6 d7
  refine keeps_through (b := d1) ?_ fun hd1 => ?_
  · unfold d1
    refine keeps_ite (fun _ => ?_) fun _ => ?_
    · exact keeps_mono (keeps_countAbort _) rfl
    · exact keeps_mono (keeps_captureOpening _) rfl
  clear_value d1
  refine keeps_through (b := b2) ?_ fun hb2 => ?_
  · unfold b2
    refine keeps_via (keeps_setLatch _ _) rfl ?_
    exact hd1
  clear_value b2
  refine keeps_through (b := d4) ?_ fun hd4 => ?_
  · unfold d4
    refine keeps_set (b := b2) ?_ fun p => by cases p <;> first | exact .inl rfl | exact .inr rfl | exact .inr ⟨rfl, rfl⟩ | exact .inr ⟨rfl, rfl, rfl, rfl, rfl, rfl, rfl⟩
    exact hb2
  clear_value d4
  refine keeps_through (b := d5) ?_ fun hd5 => ?_
  · unfold d5
    refine keeps_via (keeps_suspendSession _) rfl ?_
    exact hd4
  clear_value d5
  refine keeps_through (b := d6) ?_ fun hd6 => ?_
  · unfold d6
    refine keeps_ite (fun _ => ?_) fun _ => ?_
    · refine keeps_via (keeps_tollK4Open _) rfl ?_
      exact hd5
    · exact hd5
  clear_value d6
  refine keeps_through (b := d7) ?_ fun hd7 => ?_
  · unfold d7
    split
    · refine keeps_via (keeps_enterLockout _ _ _) rfl ?_
      exact hd6
    · refine keeps_ite (fun _ => ?_) fun _ => ?_
      · refine keeps_via (keeps_setDrover _ _) rfl ?_
        refine keeps_via (keeps_seqIdle _) rfl ?_
        exact hd6
      · exact hd6
  clear_value d7
  refine keeps_via (keeps_zeroCheck _) rfl ?_
  exact hd7

theorem keeps_faultEpisode (d : Dev) (f : Nat) (inst : Nat) (given : Option Nat) :
    Keeps [.evt] d (d.faultEpisode f inst given).1 := by
  unfold Dev.faultEpisode
  extract_lets fresh1
  clear_value fresh1
  split
  · refine keeps_pair ?_
    exact keeps_refl
  · refine keeps_pair ?_
    exact keeps_mono (keeps_newEpisode _) rfl

theorem keeps_classCReact (d : Dev) :
    Keeps [.stamp, .seq, .coil, .lim, .pwr, .tol, .can0, .can1] d (d.classCReact) := by
  unfold Dev.classCReact
  split
  · refine keeps_via (keeps_zeroCheck _) rfl ?_
    exact keeps_mono (keeps_abortPrecharge _ _) rfl
  · exact keeps_mono (keeps_enterBreaking _) rfl
  · exact keeps_mono (keeps_enterBreaking _) rfl
  · refine keeps_ite (fun _ => ?_) fun _ => ?_
    · refine keeps_via (keeps_zeroCheck _) rfl ?_
      exact keeps_mono (keeps_setDrover _ _) rfl
    · exact keeps_mono (keeps_enterBreaking _) rfl
  · exact keeps_mono (keeps_zeroCheck _) rfl

theorem keeps_raise (d : Dev) (f : Nat) (latch : LatchSource) (cause : Byte) (src : Nat) (sub : Nat) (inst : Nat) (given : Option Nat) :
    Keeps [.stamp, .mode, .seq, .coil, .lim, .pwr, .saf, .tol, .can0, .can1, .evt, .lif] d (d.raise f latch cause src sub inst given) := by
  unfold Dev.raise
  extract_lets cls1 already2 r3 ep4 fresh5 d6 bit7 b8 d9 data10 d11 severe12 d13 d14 d15 b16 d17
  clear_value cls1
  clear_value already2
  refine keeps_through (b := r3.1) ?_ fun hr3 => ?_
  · unfold r3
    exact keeps_mono (keeps_faultEpisode _ _ _ _) rfl
  clear_value r3
  clear_value ep4
  clear_value fresh5
  refine keeps_through (b := d6) ?_ fun hd6 => ?_
  · unfold d6
    exact hr3
  clear_value d6
  clear_value bit7
  clear_value b8
  refine keeps_through (b := d9) ?_ fun hd9 => ?_
  · unfold d9
    refine keeps_set (b := d6) ?_ fun p => by cases p <;> first | exact .inl rfl | exact .inr rfl | exact .inr ⟨rfl, rfl⟩ | exact .inr ⟨rfl, rfl, rfl, rfl, rfl, rfl, rfl⟩
    exact hd6
  clear_value d9
  clear_value data10
  refine keeps_through (b := d11) ?_ fun hd11 => ?_
  · unfold d11
    refine keeps_ite (fun _ => ?_) fun _ => ?_
    · exact hd9
    · refine keeps_via (keeps_event _ _ _ _ _ _ _) rfl ?_
      exact hd9
  clear_value d11
  clear_value severe12
  refine keeps_through (b := d13) ?_ fun hd13 => ?_
  · unfold d13
    refine keeps_ite (fun _ => ?_) fun _ => ?_
    · refine keeps_via (keeps_event _ _ _ _ _ _ _) rfl ?_
      exact hd11
    · exact hd11
  clear_value d13
  refine keeps_through (b := d14) ?_ fun hd14 => ?_
  · unfold d14
    refine keeps_ite (fun _ => ?_) fun _ => ?_
    · refine keeps_via (keeps_event _ _ _ _ _ _ _) rfl ?_
      exact hd13
    · exact hd13
  clear_value d14
  refine keeps_through (b := d15) ?_ fun hd15 => ?_
  · unfold d15
    refine keeps_ite (fun _ => ?_) fun _ => ?_
    · refine keeps_via (keeps_countDevice _ _) rfl ?_
      exact hd14
    · exact hd14
  clear_value d15
  refine keeps_through (b := d17) ?_ fun hd17 => ?_
  · unfold d17
    refine keeps_ite (fun _ => ?_) fun _ => ?_
    · refine keeps_set (b := d15) ?_ fun p => by cases p <;> first | exact .inl rfl | exact .inr rfl | exact .inr ⟨rfl, rfl⟩ | exact .inr ⟨rfl, rfl, rfl, rfl, rfl, rfl, rfl⟩
      exact hd15
    · exact hd15
  clear_value d17
  split
  · exact hd14
  · exact hd14
  · refine keeps_ite (fun _ => ?_) fun _ => ?_
    · exact hd14
    · refine keeps_via (keeps_classCReact _) rfl ?_
      exact hd14
  · refine keeps_via (keeps_openNow _ _ _ _) rfl ?_
    exact hd17

theorem keeps_fault (d : Dev) (f : Nat) (src : Nat) (sub : Nat) (inst : Nat) :
    Keeps [.stamp, .mode, .seq, .coil, .lim, .pwr, .saf, .tol, .can0, .can1, .evt, .lif] d (d.fault f src sub inst) := by
  unfold Dev.fault
  exact keeps_mono (keeps_raise _ _ _ _ _ _ _ _) rfl

theorem keeps_lockFault (d : Dev) (f : Nat) (cause : Byte) (src : Nat) (inst : Nat) :
    Keeps [.stamp, .mode, .seq, .coil, .lim, .pwr, .saf, .tol, .can0, .can1, .evt, .lif] d (d.lockFault f cause src inst) := by
  unfold Dev.lockFault
  exact keeps_mono (keeps_raise _ _ _ _ _ _ _ _) rfl

theorem keeps_episodeEvent (d : Dev) (f : Nat) (src : Nat) (sub : Nat) (inst : Nat) (cls : Nat) (data : Word) :
    Keeps [.lim, .evt] d (d.episodeEvent f src sub inst cls data) := by
  unfold Dev.episodeEvent
  extract_lets r1 d2 d3
  refine keeps_through (b := r1.1) ?_ fun hr1 => ?_
  · unfold r1
    exact keeps_mono (keeps_faultEpisode _ _ _ _) rfl
  clear_value r1
  refine keeps_through (b := d2) ?_ fun hd2 => ?_
  · unfold d2
    exact hr1
  clear_value d2
  refine keeps_through (b := d3) ?_ fun hd3 => ?_
  · unfold d3
    refine keeps_set (b := d2) ?_ fun p => by cases p <;> first | exact .inl rfl | exact .inr rfl | exact .inr ⟨rfl, rfl⟩ | exact .inr ⟨rfl, rfl, rfl, rfl, rfl, rfl, rfl⟩
    exact hd2
  clear_value d3
  refine keeps_via (keeps_event _ _ _ _ _ _ _) rfl ?_
  exact hd3

theorem keeps_faultEvent (d : Dev) (f : Nat) (src : Nat) (sub : Nat) (inst : Nat) :
    Keeps [.lim, .evt] d (d.faultEvent f src sub inst) := by
  unfold Dev.faultEvent
  exact keeps_mono (keeps_episodeEvent _ _ _ _ _ _ _) rfl

theorem keeps_faultGone (d : Dev) (f : Nat) :
    Keeps [.lim] d (d.faultGone f) := by
  unfold Dev.faultGone
  refine keeps_ite (fun _ => ?_) fun _ => ?_
  · extract_lets bit1 b2 d3
    clear_value bit1
    refine keeps_through (b := d3) ?_ fun hd3 => ?_
    · unfold d3
      exact keeps_set keeps_refl fun p => by cases p <;> first | exact .inl rfl | exact .inr rfl | exact .inr ⟨rfl, rfl⟩ | exact .inr ⟨rfl, rfl, rfl, rfl, rfl, rfl, rfl⟩
    -- noclear d3
    refine keeps_ite (fun _ => ?_) fun _ => ?_
    · refine keeps_via (keeps_noticeIn _ _ _ _ _) rfl ?_
      exact hd3
    · exact hd3
  · exact keeps_refl

theorem keeps_faultWhen (d : Dev) (b : Bool) (f : Nat) (src : Nat) (sub : Nat) (inst : Nat) :
    Keeps [.stamp, .mode, .seq, .coil, .lim, .pwr, .saf, .tol, .can0, .can1, .evt, .lif] d (d.faultWhen b f src sub inst) := by
  unfold Dev.faultWhen
  refine keeps_ite (fun _ => ?_) fun _ => ?_
  · refine keeps_ite (fun _ => ?_) fun _ => ?_
    · exact keeps_refl
    · exact keeps_mono (keeps_fault _ _ _ _ _) rfl
  · exact keeps_mono (keeps_faultGone _ _) rfl

theorem keeps_unlatch (d : Dev) (which : BitVec 39) :
    Keeps [.lim] d (d.unlatch which) := by
  unfold Dev.unlatch
  exact keeps_set keeps_refl fun p => by cases p <;> first | exact .inl rfl | exact .inr rfl | exact .inr ⟨rfl, rfl⟩ | exact .inr ⟨rfl, rfl, rfl, rfl, rfl, rfl, rfl⟩

theorem keeps_engineInput (d : Dev) :
    Keeps [.saf] d (d.engineInput) := by
  unfold Dev.engineInput
  extract_lets own1 b2
  clear_value own1
  exact keeps_set keeps_refl fun p => by cases p <;> first | exact .inl rfl | exact .inr rfl | exact .inr ⟨rfl, rfl⟩ | exact .inr ⟨rfl, rfl, rfl, rfl, rfl, rfl, rfl⟩

theorem keeps_tryClearLatch (d : Dev) :
    Keeps [.pwr, .saf] d (d.tryClearLatch) := by
  unfold Dev.tryClearLatch
  extract_lets d1 b2 b3
  refine keeps_through (b := d1) ?_ fun hd1 => ?_
  · unfold d1
    exact keeps_mono (keeps_engineInput _) rfl
  clear_value d1
  refine keeps_ite (fun _ => ?_) fun _ => ?_
  · refine keeps_set (b := d1) ?_ fun p => by cases p <;> first | exact .inl rfl | exact .inr rfl | exact .inr ⟨rfl, rfl⟩ | exact .inr ⟨rfl, rfl, rfl, rfl, rfl, rfl, rfl⟩
    exact hd1
  · exact hd1

theorem keeps_wearCheck (d : Dev) (k : K) (bit : Nat) (v : Rat) :
    Keeps [.stamp, .mode, .seq, .coil, .lim, .pwr, .saf, .tol, .can0, .can1, .evt, .lif] d (d.wearCheck k bit v) := by
  unfold Dev.wearCheck
  extract_lets b1 d2 b3 d4 b5
  refine keeps_through (b := d2) ?_ fun hd2 => ?_
  · unfold d2
    refine keeps_ite (fun _ => ?_) fun _ => ?_
    · exact keeps_set keeps_refl fun p => by cases p <;> first | exact .inl rfl | exact .inr rfl | exact .inr ⟨rfl, rfl⟩ | exact .inr ⟨rfl, rfl, rfl, rfl, rfl, rfl, rfl⟩
    · exact keeps_refl
  clear_value d2
  refine keeps_through (b := d4) ?_ fun hd4 => ?_
  · unfold d4
    refine keeps_ite (fun _ => ?_) fun _ => ?_
    · refine keeps_via (keeps_notice _ _ _ _) rfl ?_
      refine keeps_set (b := d2) ?_ fun p => by cases p <;> first | exact .inl rfl | exact .inr rfl | exact .inr ⟨rfl, rfl⟩ | exact .inr ⟨rfl, rfl, rfl, rfl, rfl, rfl, rfl⟩
      exact hd2
    · exact hd2
  clear_value d4
  refine keeps_ite (fun _ => ?_) fun _ => ?_
  · refine keeps_via (keeps_fault _ _ _ _ _) rfl ?_
    refine keeps_set (b := d4) ?_ fun p => by cases p <;> first | exact .inl rfl | exact .inr rfl | exact .inr ⟨rfl, rfl⟩ | exact .inr ⟨rfl, rfl, rfl, rfl, rfl, rfl, rfl⟩
    exact hd4
  · exact hd4

theorem keeps_openingJudged (d : Dev) (k : K) :
    Keeps [.stamp, .seq, .coil, .pwr, .tol] d (d.openingJudged k) := by
  unfold Dev.openingJudged
  refine keeps_ite (fun _ => ?_) fun _ => ?_
  · refine keeps_via (keeps_releaseNext _ _) rfl ?_
    exact keeps_set keeps_refl fun p => by cases p <;> first | exact .inl rfl | exact .inr rfl | exact .inr ⟨rfl, rfl⟩ | exact .inr ⟨rfl, rfl, rfl, rfl, rfl, rfl, rfl⟩
  · exact keeps_refl

theorem keeps_prechargeReleased (d : Dev) (k : K) :
    Keeps [.stamp, .seq] d (d.prechargeReleased k) := by
  unfold Dev.prechargeReleased
  refine keeps_ite (fun _ => ?_) fun _ => ?_
  · refine keeps_via (keeps_setDrover _ _) rfl ?_
    exact keeps_mono (keeps_seqIdle _) rfl
  · exact keeps_refl

theorem keeps_judge (d : Dev) (k : K) (v : Verdict) :
    Keeps [.stamp, .mode, .seq, .coil, .lim, .pwr, .saf, .tol, .can0, .can1, .evt, .dep, .lif] d (d.judge k v) := by
  unfold Dev.judge
  extract_lets c1 was2 d3 d4 d5 d6 d7
  clear_value c1
  refine keeps_through (b := d3) ?_ fun hd3 => ?_
  · unfold d3
    refine keeps_ite (fun _ => ?_) fun _ => ?_
    · exact keeps_mono (keeps_setCoil _ _ _) rfl
    · exact keeps_refl
  clear_value d3
  refine keeps_through (b := d4) ?_ fun hd4 => ?_
  · unfold d4
    refine keeps_ite (fun _ => ?_) fun _ => ?_
    · refine keeps_via (keeps_accountOpening _ _) rfl ?_
      exact hd3
    · exact hd3
  clear_value d4
  refine keeps_through (b := d5) ?_ fun hd5 => ?_
  · unfold d5
    refine keeps_via (keeps_endRelease _ _ _ _) rfl ?_
    exact hd4
  clear_value d5
  refine keeps_through (b := d6) ?_ fun hd6 => ?_
  · unfold d6
    refine keeps_ite (fun _ => ?_) fun _ => ?_
    · refine keeps_via (keeps_wearCheck _ _ _ _) rfl ?_
      exact hd5
    · exact hd5
  clear_value d6
  refine keeps_through (b := d7) ?_ fun hd7 => ?_
  · unfold d7
    refine keeps_ite (fun _ => ?_) fun _ => ?_
    · refine keeps_via (keeps_tollK4Open _) rfl ?_
      exact hd6
    · exact hd6
  clear_value d7
  split
  · refine keeps_via (keeps_openingJudged _ _) rfl ?_
    refine keeps_via (keeps_prechargeReleased _ _) rfl ?_
    exact hd7
  · refine keeps_via (keeps_openingJudged _ _) rfl ?_
    refine keeps_via (keeps_prechargeReleased _ _) rfl ?_
    exact hd7
  · refine keeps_via (keeps_lockFault _ _ _ _ _) rfl ?_
    refine keeps_via (keeps_endRelease _ _ _ _) rfl ?_
    exact hd3
  · refine keeps_via (keeps_lockFault _ _ _ _ _) rfl ?_
    refine keeps_via (keeps_endRelease _ _ _ _) rfl ?_
    exact hd3

theorem keeps_judgeAtFrame (d : Dev) (k : K) :
    Keeps [.stamp, .mode, .seq, .coil, .lim, .pwr, .saf, .tol, .can0, .can1, .evt, .dep, .lif] d (d.judgeAtFrame k) := by
  unfold Dev.judgeAtFrame
  extract_lets c1
  clear_value c1
  refine keeps_ite (fun _ => ?_) fun _ => ?_
  · exact keeps_refl
  · refine keeps_ite (fun _ => ?_) fun _ => ?_
    · exact keeps_refl
    · refine keeps_ite (fun _ => ?_) fun _ => ?_
      · exact keeps_mono (keeps_judge _ _ _) rfl
      · refine keeps_ite (fun _ => ?_) fun _ => ?_
        · refine keeps_ite (fun _ => ?_) fun _ => ?_
          · exact keeps_refl
          · exact keeps_mono (keeps_judge _ _ _) rfl
        · exact keeps_mono (keeps_judge _ _ _) rfl

theorem keeps_judgeAtTimeout (d : Dev) (k : K) :
    Keeps [.stamp, .mode, .seq, .coil, .lim, .pwr, .saf, .tol, .can0, .can1, .evt, .dep, .lif] d (d.judgeAtTimeout k) := by
  unfold Dev.judgeAtTimeout
  extract_lets c1
  clear_value c1
  refine keeps_ite (fun _ => ?_) fun _ => ?_
  · exact keeps_refl
  · refine keeps_ite (fun _ => ?_) fun _ => ?_
    · exact keeps_mono (keeps_judge _ _ _) rfl
    · refine keeps_ite (fun _ => ?_) fun _ => ?_
      · exact keeps_mono (keeps_judge _ _ _) rfl
      · refine keeps_ite (fun _ => ?_) fun _ => ?_
        · exact keeps_mono (keeps_judge _ _ _) rfl
        · refine keeps_ite (fun _ => ?_) fun _ => ?_
          · exact keeps_mono (keeps_judge _ _ _) rfl
          · exact keeps_mono (keeps_judge _ _ _) rfl

theorem keeps_cfgCheck (d : Dev) :
    Keeps [.hst] d (d.cfgCheck) := by
  unfold Dev.cfgCheck
  extract_lets now1 rise2 b3 d4
  clear_value rise2
  refine keeps_through (b := d4) ?_ fun hd4 => ?_
  · unfold d4
    exact keeps_set keeps_refl fun p => by cases p <;> first | exact .inl rfl | exact .inr rfl | exact .inr ⟨rfl, rfl⟩ | exact .inr ⟨rfl, rfl, rfl, rfl, rfl, rfl, rfl⟩
  clear_value d4
  refine keeps_foldl ?_ fun d5 x6 => ?_
  · exact hd4
  · refine keeps_ite (fun _ => ?_) fun _ => ?_
    · exact keeps_mono (keeps_notice _ _ _ _) rfl
    · exact keeps_refl

theorem keeps_frameError (d : Dev) (code : Nat) (frame : BitVec 4) (opcode : Nat) (addr : Nat) :
    Keeps [.hst] d (d.frameError code frame opcode addr) := by
  unfold Dev.frameError
  extract_lets h1 crc2 last3
  clear_value crc2
  exact keeps_set keeps_refl fun p => by cases p <;> first | exact .inl rfl | exact .inr rfl | exact .inr ⟨rfl, rfl⟩ | exact .inr ⟨rfl, rfl, rfl, rfl, rfl, rfl, rfl⟩

theorem keeps_numberFrame (d : Dev) :
    Keeps [.hst] d (d.numberFrame) := by
  unfold Dev.numberFrame
  exact keeps_set keeps_refl fun p => by cases p <;> first | exact .inl rfl | exact .inr rfl | exact .inr ⟨rfl, rfl⟩ | exact .inr ⟨rfl, rfl, rfl, rfl, rfl, rfl, rfl⟩

theorem keeps_respond (d : Dev) (err : BitVec 3) (busy : Bool) (ab : BitVec 2) (data : Word) :
    Keeps [.hst] d (d.respond err busy ab data) := by
  unfold Dev.respond
  exact keeps_set keeps_refl fun p => by cases p <;> first | exact .inl rfl | exact .inr rfl | exact .inr ⟨rfl, rfl⟩ | exact .inr ⟨rfl, rfl, rfl, rfl, rfl, rfl, rfl⟩

theorem keeps_respondBusy (d : Dev) :
    Keeps [.hst] d (d.respondBusy) := by
  unfold Dev.respondBusy
  exact keeps_set keeps_refl fun p => by cases p <;> first | exact .inl rfl | exact .inr rfl | exact .inr ⟨rfl, rfl⟩ | exact .inr ⟨rfl, rfl, rfl, rfl, rfl, rfl, rfl⟩

theorem keeps_refuseFrame (d : Dev) (err : Nat) (opcode : Nat) (addr : Nat) :
    Keeps [.hst] d (d.refuseFrame err opcode addr) := by
  unfold Dev.refuseFrame
  refine keeps_via (keeps_respond _ _ _ _ _) rfl ?_
  exact keeps_mono (keeps_frameError _ _ _ _ _) rfl

theorem keeps_drained (d : Dev) (code : Option Nat) :
    Keeps [.doms, .tol, .lgr, .dep] d (d.drained code).1 := by
  unfold Dev.drained
  refine keeps_pair ?_
  exact keeps_mono (keeps_drainRecords _) rfl

theorem keeps_startWatch (d : Dev) :
    Keeps [.mode] d (d.startWatch) := by
  unfold Dev.startWatch
  exact keeps_set keeps_refl fun p => by cases p <;> first | exact .inl rfl | exact .inr rfl | exact .inr ⟨rfl, rfl⟩ | exact .inr ⟨rfl, rfl, rfl, rfl, rfl, rfl, rfl⟩

theorem keeps_bodyWatch (d : Dev) :
    Keeps [.mode] d (bodyWatch d).1 := by
  unfold bodyWatch
  refine keeps_ite_fst (fun _ => ?_) fun _ => ?_
  · refine keeps_pair ?_
    exact keeps_refl
  · refine keeps_ite_fst (fun _ => ?_) fun _ => ?_
    · refine keeps_pair ?_
      exact keeps_refl
    · refine keeps_ite_fst (fun _ => ?_) fun _ => ?_
      · refine keeps_pair ?_
        exact keeps_refl
      · refine keeps_ite_fst (fun _ => ?_) fun _ => ?_
        · refine keeps_pair ?_
          exact keeps_refl
        · refine keeps_pair ?_
          exact keeps_mono (keeps_startWatch _) rfl

theorem keeps_bodyBenchEnter (d : Dev) :
    Keeps [.mode] d (bodyBenchEnter d).1 := by
  unfold bodyBenchEnter
  refine keeps_ite_fst (fun _ => ?_) fun _ => ?_
  · refine keeps_pair ?_
    exact keeps_refl
  · refine keeps_ite_fst (fun _ => ?_) fun _ => ?_
    · refine keeps_pair ?_
      exact keeps_refl
    · refine keeps_ite_fst (fun _ => ?_) fun _ => ?_
      · refine keeps_pair ?_
        exact keeps_refl
      · refine keeps_ite_fst (fun _ => ?_) fun _ => ?_
        · refine keeps_pair ?_
          exact keeps_refl
        · refine keeps_pair ?_
          refine keeps_via (keeps_notice _ _ _ _) rfl ?_
          exact keeps_set keeps_refl fun p => by cases p <;> first | exact .inl rfl | exact .inr rfl | exact .inr ⟨rfl, rfl⟩ | exact .inr ⟨rfl, rfl, rfl, rfl, rfl, rfl, rfl⟩

theorem keeps_bodyBenchExit (d : Dev) :
    Keeps [.mode] d (bodyBenchExit d).1 := by
  unfold bodyBenchExit
  refine keeps_ite_fst (fun _ => ?_) fun _ => ?_
  · refine keeps_pair ?_
    exact keeps_refl
  · refine keeps_ite_fst (fun _ => ?_) fun _ => ?_
    · refine keeps_pair ?_
      exact keeps_refl
    · refine keeps_ite_fst (fun _ => ?_) fun _ => ?_
      · refine keeps_pair ?_
        exact keeps_refl
      · refine keeps_ite_fst (fun _ => ?_) fun _ => ?_
        · refine keeps_pair ?_
          exact keeps_refl
        · refine keeps_pair ?_
          refine keeps_via (keeps_notice _ _ _ _) rfl ?_
          exact keeps_set keeps_refl fun p => by cases p <;> first | exact .inl rfl | exact .inr rfl | exact .inr ⟨rfl, rfl⟩ | exact .inr ⟨rfl, rfl, rfl, rfl, rfl, rfl, rfl⟩

theorem keeps_acknowledgeLock (d : Dev) :
    Keeps [.stamp, .mode, .seq, .coil, .lim, .pwr, .saf, .tol] d (d.acknowledgeLock) := by
  unfold Dev.acknowledgeLock
  extract_lets d1 ended2 d3 k44 b5 d6 d7
  refine keeps_through (b := d1) ?_ fun hd1 => ?_
  · unfold d1
    refine keeps_ite (fun _ => ?_) fun _ => ?_
    · exact keeps_mono (keeps_faultGone _ _) rfl
    · exact keeps_refl
  clear_value d1
  clear_value ended2
  refine keeps_through (b := d3) ?_ fun hd3 => ?_
  · unfold d3
    refine keeps_via (keeps_unlatch _ _) rfl ?_
    exact hd1
  clear_value d3
  refine keeps_through (b := d6) ?_ fun hd6 => ?_
  · unfold d6
    refine keeps_set (b := d3) ?_ fun p => by cases p <;> first | exact .inl rfl | exact .inr rfl | exact .inr ⟨rfl, rfl⟩ | exact .inr ⟨rfl, rfl, rfl, rfl, rfl, rfl, rfl⟩
    exact hd3
  clear_value d6
  refine keeps_through (b := d7) ?_ fun hd7 => ?_
  · unfold d7
    refine keeps_ite (fun _ => ?_) fun _ => ?_
    · refine keeps_via (keeps_tollK4Open _) rfl ?_
      exact hd6
    · exact hd6
  clear_value d7
  refine keeps_via (keeps_notice _ _ _ _) rfl ?_
  refine keeps_via (keeps_tryClearLatch _) rfl ?_
  refine keeps_via (keeps_setDrover _ _) rfl ?_
  exact hd7

theorem keeps_bodyLockAck (d : Dev) :
    Keeps [.stamp, .mode, .seq, .coil, .lim, .pwr, .saf, .tol] d (bodyLockAck d).1 := by
  unfold bodyLockAck
  refine keeps_ite_fst (fun _ => ?_) fun _ => ?_
  · refine keeps_pair ?_
    exact keeps_refl
  · refine keeps_ite_fst (fun _ => ?_) fun _ => ?_
    · refine keeps_pair ?_
      exact keeps_refl
    · refine keeps_ite_fst (fun _ => ?_) fun _ => ?_
      · refine keeps_pair ?_
        exact keeps_refl
      · refine keeps_pair ?_
        exact keeps_mono (keeps_acknowledgeLock _) rfl

theorem keeps_bodyClose (d : Dev) :
    Keeps [.stamp, .seq, .coil] d (bodyClose d).1 := by
  unfold bodyClose
  refine keeps_ite_fst (fun _ => ?_) fun _ => ?_
  · refine keeps_pair ?_
    exact keeps_refl
  · refine keeps_ite_fst (fun _ => ?_) fun _ => ?_
    · refine keeps_pair ?_
      exact keeps_refl
    · refine keeps_ite_fst (fun _ => ?_) fun _ => ?_
      · refine keeps_pair ?_
        exact keeps_refl
      · extract_lets d1 b2 d3
        refine keeps_through (b := d1) ?_ fun hd1 => ?_
        · unfold d1
          refine keeps_via (keeps_capture _) rfl ?_
          exact keeps_mono (keeps_seqIdle _) rfl
        clear_value d1
        refine keeps_through (b := d3) ?_ fun hd3 => ?_
        · unfold d3
          refine keeps_set (b := d1) ?_ fun p => by cases p <;> first | exact .inl rfl | exact .inr rfl | exact .inr ⟨rfl, rfl⟩ | exact .inr ⟨rfl, rfl, rfl, rfl, rfl, rfl, rfl⟩
          exact hd1
        clear_value d3
        refine keeps_pair ?_
        refine keeps_via (keeps_pullIn _ _) rfl ?_
        refine keeps_via (keeps_setDrover _ _) rfl ?_
        exact hd3

theorem keeps_bodyOpen (d : Dev) :
    Keeps [.stamp, .seq, .coil, .lim, .pwr, .tol, .can0, .can1] d (bodyOpen d).1 := by
  unfold bodyOpen
  refine keeps_ite_fst (fun _ => ?_) fun _ => ?_
  · refine keeps_pair ?_
    exact keeps_refl
  · split
    · refine keeps_pair ?_
      exact keeps_refl
    · refine keeps_pair ?_
      exact keeps_refl
    · refine keeps_pair ?_
      exact keeps_refl
    · refine keeps_pair ?_
      refine keeps_via (keeps_zeroCheck _) rfl ?_
      exact keeps_mono (keeps_abortPrecharge _ _) rfl
    · refine keeps_pair ?_
      exact keeps_mono (keeps_enterBreaking _) rfl
    · refine keeps_pair ?_
      exact keeps_mono (keeps_enterBreaking _) rfl
    · refine keeps_pair ?_
      exact keeps_refl

theorem keeps_bodyHold (d : Dev) :
    Keeps [.stamp, .seq] d (bodyHold d).1 := by
  unfold bodyHold
  refine keeps_ite_fst (fun _ => ?_) fun _ => ?_
  · refine keeps_pair ?_
    exact keeps_refl
  · split
    · refine keeps_pair ?_
      refine keeps_via (keeps_setDrover _ _) rfl ?_
      exact keeps_set keeps_refl fun p => by cases p <;> first | exact .inl rfl | exact .inr rfl | exact .inr ⟨rfl, rfl⟩ | exact .inr ⟨rfl, rfl, rfl, rfl, rfl, rfl, rfl⟩
    · refine keeps_pair ?_
      refine keeps_via (keeps_setDrover _ _) rfl ?_
      exact keeps_set keeps_refl fun p => by cases p <;> first | exact .inl rfl | exact .inr rfl | exact .inr ⟨rfl, rfl⟩ | exact .inr ⟨rfl, rfl, rfl, rfl, rfl, rfl, rfl⟩
    · refine keeps_pair ?_
      refine keeps_via (keeps_setDrover _ _) rfl ?_
      exact keeps_set keeps_refl fun p => by cases p <;> first | exact .inl rfl | exact .inr rfl | exact .inr ⟨rfl, rfl⟩ | exact .inr ⟨rfl, rfl, rfl, rfl, rfl, rfl, rfl⟩
    · refine keeps_pair ?_
      exact keeps_refl
    · refine keeps_pair ?_
      exact keeps_refl

theorem keeps_dueSessionEnd (d : Dev) :
    Keeps [.stamp, .seq, .coil, .pwr, .tol] d (d.dueSessionEnd) := by
  unfold Dev.dueSessionEnd
  refine keeps_ite (fun _ => ?_) fun _ => ?_
  · exact keeps_mono (keeps_startSessionEnd _) rfl
  · exact keeps_refl

theorem keeps_leaveHold (d : Dev) :
    Keeps [.stamp, .seq, .coil, .pwr, .tol, .hst] d (d.leaveHold) := by
  unfold Dev.leaveHold
  refine keeps_via (keeps_dueSessionEnd _) rfl ?_
  refine keeps_via (keeps_dueReleases _) rfl ?_
  refine keeps_via (keeps_cfgCheck _) rfl ?_
  exact keeps_mono (keeps_setDrover _ _) rfl

theorem keeps_bodyRelease (d : Dev) :
    Keeps [.stamp, .seq, .coil, .pwr, .tol, .hst] d (bodyRelease d).1 := by
  unfold bodyRelease
  refine keeps_ite_fst (fun _ => ?_) fun _ => ?_
  · refine keeps_pair ?_
    exact keeps_refl
  · refine keeps_ite_fst (fun _ => ?_) fun _ => ?_
    · refine keeps_pair ?_
      exact keeps_mono (keeps_leaveHold _) rfl
    · refine keeps_pair ?_
      exact keeps_refl

theorem keeps_releaseExpired (d : Dev) :
    Keeps [.cmds] d (d.releaseExpired) := by
  unfold Dev.releaseExpired
  split
  · refine keeps_ite (fun _ => ?_) fun _ => ?_
    · exact keeps_mono (keeps_finish _ _ _ _) rfl
    · exact keeps_refl
  · exact keeps_refl

theorem keeps_holdExpires (d : Dev) :
    Keeps [.cmds, .stamp, .seq, .coil, .pwr, .tol, .hst] d (d.holdExpires) := by
  unfold Dev.holdExpires
  refine keeps_ite (fun _ => ?_) fun _ => ?_
  · refine keeps_via (keeps_releaseExpired _) rfl ?_
    refine keeps_via (keeps_notice _ _ _ _) rfl ?_
    exact keeps_mono (keeps_leaveHold _) rfl
  · exact keeps_refl

end Sys2Proof.Laws
end

