-- ==== Sys2Proof/Laws/KeepsContactor.lean ====
section
/-! SUPPORT. Which parts of the device each operation of Contactor, Power, Guards, Sensing may change, each said once. -/
namespace Sys2Proof.Laws

open Sys2Proof.Machine Sys2Proof.Safety

theorem keeps_startK1 (d : Dev) :
    Keeps [.seq, .coil] d (d.startK1) := by
  unfold Dev.startK1
  refine keeps_via (keeps_pullIn _ _) rfl ?_
  exact keeps_set keeps_refl fun p => by cases p <;> first | exact .inl rfl | exact .inr rfl | exact .inr ⟨rfl, rfl⟩ | exact .inr ⟨rfl, rfl, rfl, rfl, rfl, rfl, rfl⟩

theorem keeps_startK3 (d : Dev) :
    Keeps [.stamp, .seq, .coil, .pwr] d (d.startK3) := by
  unfold Dev.startK3
  refine keeps_ite (fun _ => ?_) fun _ => ?_
  · exact keeps_mono (keeps_abortPrecharge _ _) rfl
  · extract_lets vp1 v02 judged3 b4
    clear_value vp1
    clear_value v02
    clear_value judged3
    refine keeps_via (keeps_pullIn _ _) rfl ?_
    exact keeps_set keeps_refl fun p => by cases p <;> first | exact .inl rfl | exact .inr rfl | exact .inr ⟨rfl, rfl⟩ | exact .inr ⟨rfl, rfl, rfl, rfl, rfl, rfl, rfl⟩

theorem keeps_closingConfirmed (d : Dev) (k : K) :
    Keeps [.stamp, .seq, .coil, .pwr, .tol, .lif] d (d.closingConfirmed k) := by
  unfold Dev.closingConfirmed
  refine keeps_ite (fun _ => ?_) fun _ => ?_
  · refine keeps_ite (fun _ => ?_) fun _ => ?_
    · exact keeps_mono (keeps_startK3 _) rfl
    · refine keeps_ite (fun _ => ?_) fun _ => ?_
      · exact keeps_mono (keeps_startK1 _) rfl
      · refine keeps_ite (fun _ => ?_) fun _ => ?_
        · exact keeps_set keeps_refl fun p => by cases p <;> first | exact .inl rfl | exact .inr rfl | exact .inr ⟨rfl, rfl⟩ | exact .inr ⟨rfl, rfl, rfl, rfl, rfl, rfl, rfl⟩
        · exact keeps_refl
  · refine keeps_ite (fun _ => ?_) fun _ => ?_
    · extract_lets b1 d2
      refine keeps_through (b := d2) ?_ fun hd2 => ?_
      · unfold d2
        refine keeps_ite (fun _ => ?_) fun _ => ?_
        · exact keeps_set keeps_refl fun p => by cases p <;> first | exact .inl rfl | exact .inr rfl | exact .inr ⟨rfl, rfl⟩ | exact .inr ⟨rfl, rfl, rfl, rfl, rfl, rfl, rfl⟩
        · exact keeps_mono (keeps_setDrover _ _) rfl
      clear_value d2
      refine keeps_via (keeps_tollK4Closed _) rfl ?_
      exact hd2
    · exact keeps_refl

theorem keeps_feedbackFails (d : Dev) (k : K) (frozen : Bool) :
    Keeps [.stamp, .mode, .seq, .coil, .lim, .pwr, .saf, .tol, .can0, .can1, .evt, .lif] d (d.feedbackFails k frozen) := by
  unfold Dev.feedbackFails
  refine keeps_ite (fun _ => ?_) fun _ => ?_
  · exact keeps_mono (keeps_setCoil _ _ _) rfl
  · extract_lets d1
    refine keeps_through (b := d1) ?_ fun hd1 => ?_
    · unfold d1
      exact keeps_mono (keeps_setCoil _ _ _) rfl
    clear_value d1
    refine keeps_via (keeps_fault _ _ _ _ _) rfl ?_
    exact hd1

theorem keeps_confirmClosing (d : Dev) (k : K) (ma : Int) :
    Keeps [.stamp, .seq, .coil, .pwr, .tol, .dep, .lif] d (d.confirmClosing k ma) := by
  unfold Dev.confirmClosing
  extract_lets d1 d2
  refine keeps_through (b := d1) ?_ fun hd1 => ?_
  · unfold d1
    exact keeps_mono (keeps_setCoil _ _ _) rfl
  clear_value d1
  refine keeps_through (b := d2) ?_ fun hd2 => ?_
  · unfold d2
    refine keeps_via (keeps_countK _ _ _) rfl ?_
    exact hd1
  clear_value d2
  refine keeps_via (keeps_closingConfirmed _ _) rfl ?_
  exact hd2

theorem keeps_weldWindowEnds (d : Dev) :
    Keeps [.seq] d (d.weldWindowEnds) := by
  unfold Dev.weldWindowEnds
  exact keeps_set keeps_refl fun p => by cases p <;> first | exact .inl rfl | exact .inr rfl | exact .inr ⟨rfl, rfl⟩ | exact .inr ⟨rfl, rfl, rfl, rfl, rfl, rfl, rfl⟩

theorem keeps_coilSample (d : Dev) (k : K) (code : BitVec 12) (ma : Int) :
    Keeps [.stamp, .mode, .seq, .coil, .lim, .pwr, .saf, .tol, .can0, .can1, .evt, .dep, .lif] d (d.coilSample k code ma) := by
  unfold Dev.coilSample
  extract_lets confirm1 c2 dips3 d4 d5 d6
  clear_value confirm1
  clear_value c2
  clear_value dips3
  refine keeps_through (b := d4) ?_ fun hd4 => ?_
  · unfold d4
    exact keeps_mono (keeps_setCoil _ _ _) rfl
  clear_value d4
  refine keeps_through (b := d5) ?_ fun hd5 => ?_
  · unfold d5
    refine keeps_ite (fun _ => ?_) fun _ => ?_
    · refine keeps_via (keeps_weldWindowEnds _) rfl ?_
      exact hd4
    · exact hd4
  clear_value d5
  refine keeps_through (b := d6) ?_ fun hd6 => ?_
  · unfold d6
    refine keeps_ite (fun _ => ?_) fun _ => ?_
    · refine keeps_via (keeps_confirmClosing _ _ _) rfl ?_
      exact hd5
    · exact hd5
  clear_value d6
  refine keeps_ite (fun _ => ?_) fun _ => ?_
  · refine keeps_via (keeps_feedbackFails _ _ _) rfl ?_
    exact hd6
  · exact hd6

theorem keeps_releaseDue (d : Dev) (k : K) :
    Keeps [.coil] d (d.releaseDue k) := by
  unfold Dev.releaseDue
  refine keeps_ite (fun _ => ?_) fun _ => ?_
  · exact keeps_mono (keeps_setCoil _ _ _) rfl
  · exact keeps_mono (keeps_release _ _) rfl

theorem keeps_closingTimeout (d : Dev) (k : K) :
    Keeps [.stamp, .mode, .seq, .coil, .lim, .pwr, .saf, .tol, .can0, .can1, .evt, .lif] d (d.closingTimeout k) := by
  unfold Dev.closingTimeout
  extract_lets c1 d2
  clear_value c1
  refine keeps_through (b := d2) ?_ fun hd2 => ?_
  · unfold d2
    exact keeps_mono (keeps_releaseDue _ _) rfl
  clear_value d2
  refine keeps_ite (fun _ => ?_) fun _ => ?_
  · exact keeps_refl
  · refine keeps_ite (fun _ => ?_) fun _ => ?_
    · exact keeps_mono (keeps_lockFault _ _ _ _ _) rfl
    · refine keeps_ite (fun _ => ?_) fun _ => ?_
      · exact keeps_mono (keeps_abortPrecharge _ _) rfl
      · refine keeps_ite (fun _ => ?_) fun _ => ?_
        · refine keeps_ite (fun _ => ?_) fun _ => ?_
          · refine keeps_via (keeps_tollK4Open _) rfl ?_
            exact hd2
          · exact hd2
        · exact keeps_mono (keeps_releaseDue _ _) rfl

theorem keeps_pullInEnd (d : Dev) (k : K) :
    Keeps [.coil] d (d.pullInEnd k) := by
  unfold Dev.pullInEnd
  refine keeps_ite (fun _ => ?_) fun _ => ?_
  · exact keeps_mono (keeps_setCoil _ _ _) rfl
  · refine keeps_ite (fun _ => ?_) fun _ => ?_
    · exact keeps_mono (keeps_setCoil _ _ _) rfl
    · exact keeps_refl

theorem keeps_bounceWindowEnd (d : Dev) (k : K) :
    Keeps [.stamp, .mode, .seq, .coil, .lim, .pwr, .saf, .tol, .can0, .can1, .evt, .lif] d (d.bounceWindowEnd k) := by
  unfold Dev.bounceWindowEnd
  extract_lets c1 t2 b3 d4 full5 b6 d7 s8 d9
  clear_value c1
  clear_value t2
  clear_value b3
  refine keeps_through (b := d4) ?_ fun hd4 => ?_
  · unfold d4
    exact keeps_mono (keeps_setCoil _ _ _) rfl
  clear_value d4
  clear_value full5
  refine keeps_through (b := d7) ?_ fun hd7 => ?_
  · unfold d7
    refine keeps_set (b := d4) ?_ fun p => by cases p <;> first | exact .inl rfl | exact .inr rfl | exact .inr ⟨rfl, rfl⟩ | exact .inr ⟨rfl, rfl, rfl, rfl, rfl, rfl, rfl⟩
    exact hd4
  clear_value d7
  clear_value s8
  refine keeps_through (b := d9) ?_ fun hd9 => ?_
  · unfold d9
    refine keeps_via (keeps_setCoil _ _ _) rfl ?_
    exact hd7
  clear_value d9
  refine keeps_ite (fun _ => ?_) fun _ => ?_
  · exact keeps_refl
  · refine keeps_ite (fun _ => ?_) fun _ => ?_
    · refine keeps_via (keeps_wearCheck _ _ _ _) rfl ?_
      exact hd9
    · exact keeps_mono (keeps_setCoil _ _ _) rfl

theorem keeps_k3ReleaseDelay (d : Dev) :
    Keeps [.coil] d (d.k3ReleaseDelay) := by
  unfold Dev.k3ReleaseDelay
  refine keeps_ite (fun _ => ?_) fun _ => ?_
  · exact keeps_mono (keeps_release _ _) rfl
  · exact keeps_refl

theorem keeps_retryWindowEnd (d : Dev) :
    Keeps [.seq] d (d.retryWindowEnd) := by
  unfold Dev.retryWindowEnd
  exact keeps_set keeps_refl fun p => by cases p <;> first | exact .inl rfl | exact .inr rfl | exact .inr ⟨rfl, rfl⟩ | exact .inr ⟨rfl, rfl, rfl, rfl, rfl, rfl, rfl⟩

theorem keeps_graceExpires (d : Dev) :
    Keeps [.stamp, .seq, .coil, .pwr, .tol] d (d.graceExpires) := by
  unfold Dev.graceExpires
  refine keeps_ite (fun _ => ?_) fun _ => ?_
  · exact keeps_refl
  · refine keeps_ite (fun _ => ?_) fun _ => ?_
    · exact keeps_mono (keeps_startOpenings _) rfl
    · refine keeps_ite (fun _ => ?_) fun _ => ?_
      · exact keeps_mono (keeps_startSessionEnd _) rfl
      · refine keeps_ite (fun _ => ?_) fun _ => ?_
        · exact keeps_set keeps_refl fun p => by cases p <;> first | exact .inl rfl | exact .inr rfl | exact .inr ⟨rfl, rfl⟩ | exact .inr ⟨rfl, rfl, rfl, rfl, rfl, rfl, rfl⟩
        · exact keeps_refl

theorem keeps_highSideTimeout (d : Dev) (k : K) :
    Keeps [.coil] d (d.highSideTimeout k) := by
  unfold Dev.highSideTimeout
  extract_lets c1
  clear_value c1
  refine keeps_ite (fun _ => ?_) fun _ => ?_
  · exact keeps_mono (keeps_highSideOff _ _) rfl
  · exact keeps_refl

theorem keeps_liveProof (d : Dev) (k : K) (n : ProofNode) :
    Keeps [.stamp, .mode, .seq, .coil, .lim, .pwr, .saf, .tol, .can0, .can1, .evt, .lif] d (d.liveProof k n) := by
  unfold Dev.liveProof
  extract_lets c1 low2 moved3 d4 b5 d6 d7
  clear_value moved3
  refine keeps_through (b := d4) ?_ fun hd4 => ?_
  · unfold d4
    exact keeps_mono (keeps_setCoil _ _ _) rfl
  -- noclear d4
  refine keeps_through (b := d6) ?_ fun hd6 => ?_
  · unfold d6
    refine keeps_set (b := d4) ?_ fun p => by cases p <;> first | exact .inl rfl | exact .inr rfl | exact .inr ⟨rfl, rfl⟩ | exact .inr ⟨rfl, rfl, rfl, rfl, rfl, rfl, rfl⟩
    exact hd4
  -- noclear d6
  refine keeps_through (b := d7) ?_ fun hd7 => ?_
  · unfold d7
    refine keeps_set (b := d4) ?_ fun p => by cases p <;> first | exact .inl rfl | exact .inr rfl | exact .inr ⟨rfl, rfl⟩ | exact .inr ⟨rfl, rfl, rfl, rfl, rfl, rfl, rfl⟩
    exact hd4
  clear_value d7
  refine keeps_ite (fun _ => ?_) fun _ => ?_
  · exact keeps_refl
  · refine keeps_ite (fun _ => ?_) fun _ => ?_
    · refine keeps_ite (fun _ => ?_) fun _ => ?_
      · refine keeps_via (keeps_faultGone _ _) rfl ?_
        exact hd6
      · exact hd6
    · refine keeps_via (keeps_fault _ _ _ _ _) rfl ?_
      exact hd7

theorem keeps_feedbackCheck (d : Dev) (k : K) :
    Keeps [.coil] d (d.feedbackCheck k) := by
  unfold Dev.feedbackCheck
  refine keeps_ite (fun _ => ?_) fun _ => ?_
  · exact keeps_mono (keeps_setCoil _ _ _) rfl
  · exact keeps_refl

theorem keeps_feedbackCheckEnd (d : Dev) (k : K) :
    Keeps [.stamp, .mode, .seq, .coil, .lim, .pwr, .saf, .tol, .can0, .can1, .evt, .lif] d (d.feedbackCheckEnd k) := by
  unfold Dev.feedbackCheckEnd
  extract_lets c1 d2
  clear_value c1
  refine keeps_through (b := d2) ?_ fun hd2 => ?_
  · unfold d2
    exact keeps_mono (keeps_setCoil _ _ _) rfl
  clear_value d2
  refine keeps_ite (fun _ => ?_) fun _ => ?_
  · exact keeps_refl
  · refine keeps_ite (fun _ => ?_) fun _ => ?_
    · exact keeps_mono (keeps_setCoil _ _ _) rfl
    · refine keeps_ite (fun _ => ?_) fun _ => ?_
      · exact keeps_mono (keeps_setCoil _ _ _) rfl
      · refine keeps_ite (fun _ => ?_) fun _ => ?_
        · refine keeps_via (keeps_feedbackFails _ _ _) rfl ?_
          exact hd2
        · exact hd2

theorem keeps_openLoopExpires (d : Dev) (k : K) :
    Keeps [.coil] d (d.openLoopExpires k) := by
  unfold Dev.openLoopExpires
  refine keeps_ite (fun _ => ?_) fun _ => ?_
  · exact keeps_refl
  · exact keeps_mono (keeps_releaseDue _ _) rfl

theorem keeps_feedbackRestored (d : Dev) (k : K) :
    Keeps [.coil, .lim] d (d.feedbackRestored k) := by
  unfold Dev.feedbackRestored
  extract_lets c1 d2
  clear_value c1
  refine keeps_through (b := d2) ?_ fun hd2 => ?_
  · unfold d2
    exact keeps_mono (keeps_setCoil _ _ _) rfl
  clear_value d2
  refine keeps_ite (fun _ => ?_) fun _ => ?_
  · refine keeps_ite (fun _ => ?_) fun _ => ?_
    · exact hd2
    · refine keeps_via (keeps_faultGone _ _) rfl ?_
      exact hd2
  · exact keeps_refl

theorem keeps_rappUpdate (d : Dev) (k : K) :
    Keeps [.coil] d (d.rappUpdate k) := by
  unfold Dev.rappUpdate
  extract_lets c1 r2
  clear_value c1
  clear_value r2
  refine keeps_ite (fun _ => ?_) fun _ => ?_
  · exact keeps_mono (keeps_setCoil _ _ _) rfl
  · exact keeps_refl

theorem keeps_coilFrame (d : Dev) (keep : Kept) (k : K) :
    Keeps [.stamp, .mode, .seq, .coil, .lim, .pwr, .saf, .tol, .can0, .can1, .evt, .lif] d (d.coilFrame keep k) := by
  unfold Dev.coilFrame
  extract_lets amps1 rail2 strong3 d4 d5 n6
  clear_value amps1
  clear_value strong3
  refine keeps_through (b := d4) ?_ fun hd4 => ?_
  · unfold d4
    exact keeps_mono (keeps_setCoil _ _ _) rfl
  clear_value d4
  refine keeps_through (b := d5) ?_ fun hd5 => ?_
  · unfold d5
    refine keeps_ite (fun _ => ?_) fun _ => ?_
    · refine keeps_via (keeps_feedbackFails _ _ _) rfl ?_
      exact hd4
    · exact hd4
  clear_value d5
  clear_value n6
  refine keeps_via (keeps_setCoil _ _ _) rfl ?_
  exact hd5

theorem keeps_releaseFrame (d : Dev) (k : K) :
    Keeps [.stamp, .mode, .seq, .coil, .lim, .pwr, .saf, .tol, .can0, .can1, .evt, .dep, .lif] d (d.releaseFrame k) := by
  unfold Dev.releaseFrame
  extract_lets d1
  refine keeps_through (b := d1) ?_ fun hd1 => ?_
  · unfold d1
    refine keeps_ite (fun _ => ?_) fun _ => ?_
    · exact keeps_mono (keeps_setCoil _ _ _) rfl
    · exact keeps_refl
  clear_value d1
  refine keeps_via (keeps_judgeAtFrame _ _) rfl ?_
  exact hd1

theorem keeps_superviseFrame (d : Dev) :
    Keeps [.stamp, .mode, .seq, .coil, .lim, .pwr, .saf, .tol, .can0, .can1, .evt, .lif] d (d.superviseFrame) := by
  unfold Dev.superviseFrame
  extract_lets vl1 b2 d3 rise4 check5 b6 d7 b8
  refine keeps_through (b := d3) ?_ fun hd3 => ?_
  · unfold d3
    exact keeps_set keeps_refl fun p => by cases p <;> first | exact .inl rfl | exact .inr rfl | exact .inr ⟨rfl, rfl⟩ | exact .inr ⟨rfl, rfl, rfl, rfl, rfl, rfl, rfl⟩
  -- noclear d3
  clear_value rise4
  refine keeps_through (b := d7) ?_ fun hd7 => ?_
  · unfold d7
    refine keeps_ite (fun _ => ?_) fun _ => ?_
    · refine keeps_set (b := d3) ?_ fun p => by cases p <;> first | exact .inl rfl | exact .inr rfl | exact .inr ⟨rfl, rfl⟩ | exact .inr ⟨rfl, rfl, rfl, rfl, rfl, rfl, rfl⟩
      exact hd3
    · exact hd3
  clear_value d7
  refine keeps_ite (fun _ => ?_) fun _ => ?_
  · refine keeps_via (keeps_lockFault _ _ _ _ _) rfl ?_
    refine keeps_set (b := d3) ?_ fun p => by cases p <;> first | exact .inl rfl | exact .inr rfl | exact .inr ⟨rfl, rfl⟩ | exact .inr ⟨rfl, rfl, rfl, rfl, rfl, rfl, rfl⟩
    exact hd3
  · refine keeps_ite (fun _ => ?_) fun _ => ?_
    · refine keeps_via (keeps_abortPrecharge _ _) rfl ?_
      exact hd3
    · refine keeps_ite (fun _ => ?_) fun _ => ?_
      · refine keeps_via (keeps_startK1 _) rfl ?_
        refine keeps_set (b := d7) ?_ fun p => by cases p <;> first | exact .inl rfl | exact .inr rfl | exact .inr ⟨rfl, rfl⟩ | exact .inr ⟨rfl, rfl, rfl, rfl, rfl, rfl, rfl⟩
        exact hd7
      · exact hd7

theorem keeps_linkFrame (d : Dev) :
    Keeps [.stamp, .seq, .coil, .pwr] d (d.linkFrame) := by
  unfold Dev.linkFrame
  extract_lets b1 d2 check3
  refine keeps_through (b := d2) ?_ fun hd2 => ?_
  · unfold d2
    exact keeps_set keeps_refl fun p => by cases p <;> first | exact .inl rfl | exact .inr rfl | exact .inr ⟨rfl, rfl⟩ | exact .inr ⟨rfl, rfl, rfl, rfl, rfl, rfl, rfl⟩
  clear_value d2
  clear_value check3
  refine keeps_ite (fun _ => ?_) fun _ => ?_
  · exact hd2
  · refine keeps_via (keeps_abortPrecharge _ _) rfl ?_
    exact hd2

theorem keeps_droverFrame (d : Dev) :
    Keeps [.stamp, .mode, .seq, .coil, .lim, .pwr, .saf, .tol, .can0, .can1, .evt, .lif] d (d.droverFrame) := by
  unfold Dev.droverFrame
  split
  · refine keeps_ite (fun _ => ?_) fun _ => ?_
    · exact keeps_mono (keeps_abortPrecharge _ _) rfl
    · refine keeps_ite (fun _ => ?_) fun _ => ?_
      · exact keeps_mono (keeps_superviseFrame _) rfl
      · refine keeps_ite (fun _ => ?_) fun _ => ?_
        · exact keeps_mono (keeps_linkFrame _) rfl
        · exact keeps_refl
  · refine keeps_ite (fun _ => ?_) fun _ => ?_
    · exact keeps_mono (keeps_startOpenings _) rfl
    · exact keeps_refl
  · refine keeps_ite (fun _ => ?_) fun _ => ?_
    · exact keeps_mono (keeps_startSessionEnd _) rfl
    · exact keeps_refl

theorem keeps_endDiag (d : Dev) :
    Keeps [.pwr] d (d.endDiag) := by
  unfold Dev.endDiag
  exact keeps_set keeps_refl fun p => by cases p <;> first | exact .inl rfl | exact .inr rfl | exact .inr ⟨rfl, rfl⟩ | exact .inr ⟨rfl, rfl, rfl, rfl, rfl, rfl, rfl⟩

theorem keeps_countTrip (d : Dev) :
    Keeps [.pwr] d (d.countTrip) := by
  unfold Dev.countTrip
  extract_lets full1 first2 b3 d4
  clear_value full1
  clear_value first2
  refine keeps_through (b := d4) ?_ fun hd4 => ?_
  · unfold d4
    exact keeps_set keeps_refl fun p => by cases p <;> first | exact .inl rfl | exact .inr rfl | exact .inr ⟨rfl, rfl⟩ | exact .inr ⟨rfl, rfl, rfl, rfl, rfl, rfl, rfl⟩
  clear_value d4
  refine keeps_ite (fun _ => ?_) fun _ => ?_
  · refine keeps_via (keeps_notice _ _ _ _) rfl ?_
    exact hd4
  · exact hd4

theorem keeps_powerTrip (d : Dev) (cause : Nat) (place : Nat) :
    Keeps [.stamp, .mode, .seq, .coil, .lim, .pwr, .saf, .tol, .can0, .can1, .evt, .lif] d (d.powerTrip cause place) := by
  unfold Dev.powerTrip
  extract_lets again1 given2 b3 d4 d5 b6
  clear_value again1
  clear_value given2
  refine keeps_through (b := d4) ?_ fun hd4 => ?_
  · unfold d4
    refine keeps_ite (fun _ => ?_) fun _ => ?_
    · exact keeps_mono (keeps_countTrip _) rfl
    · exact keeps_set keeps_refl fun p => by cases p <;> first | exact .inl rfl | exact .inr rfl | exact .inr ⟨rfl, rfl⟩ | exact .inr ⟨rfl, rfl, rfl, rfl, rfl, rfl, rfl⟩
  clear_value d4
  refine keeps_through (b := d5) ?_ fun hd5 => ?_
  · unfold d5
    refine keeps_via (keeps_raise _ _ _ _ _ _ _ _) rfl ?_
    exact hd4
  clear_value d5
  refine keeps_set (b := d5) ?_ fun p => by cases p <;> first | exact .inl rfl | exact .inr rfl | exact .inr ⟨rfl, rfl⟩ | exact .inr ⟨rfl, rfl, rfl, rfl, rfl, rfl, rfl⟩
  exact hd5

theorem keeps_protectionTrip (d : Dev) (cause : Nat) (m : Monitored) :
    Keeps [.stamp, .mode, .seq, .coil, .lim, .pwr, .saf, .tol, .can0, .can1, .evt, .lif] d (d.protectionTrip cause m) := by
  unfold Dev.protectionTrip
  refine keeps_ite (fun _ => ?_) fun _ => ?_
  · exact keeps_refl
  · extract_lets d1 b2 d3
    refine keeps_through (b := d1) ?_ fun hd1 => ?_
    · unfold d1
      exact keeps_mono (keeps_endDiag _) rfl
    clear_value d1
    refine keeps_through (b := d3) ?_ fun hd3 => ?_
    · unfold d3
      refine keeps_set (b := d1) ?_ fun p => by cases p <;> first | exact .inl rfl | exact .inr rfl | exact .inr ⟨rfl, rfl⟩ | exact .inr ⟨rfl, rfl, rfl, rfl, rfl, rfl, rfl⟩
      exact hd1
    clear_value d3
    refine keeps_via (keeps_powerTrip _ _ _) rfl ?_
    exact hd3

theorem keeps_endTrips (d : Dev) :
    Keeps [.pwr] d (d.endTrips) := by
  unfold Dev.endTrips
  exact keeps_set keeps_refl fun p => by cases p <;> first | exact .inl rfl | exact .inr rfl | exact .inr ⟨rfl, rfl⟩ | exact .inr ⟨rfl, rfl, rfl, rfl, rfl, rfl, rfl⟩

theorem keeps_softStep2 (d : Dev) :
    Keeps [.pwr] d (d.softStep2) := by
  unfold Dev.softStep2
  refine keeps_ite (fun _ => ?_) fun _ => ?_
  · exact keeps_set keeps_refl fun p => by cases p <;> first | exact .inl rfl | exact .inr rfl | exact .inr ⟨rfl, rfl⟩ | exact .inr ⟨rfl, rfl, rfl, rfl, rfl, rfl, rfl⟩
  · exact keeps_refl

theorem keeps_clear28 (d : Dev) :
    Keeps [.lim, .pwr, .saf] d (d.clear28) := by
  unfold Dev.clear28
  extract_lets bit1 b2 d3 ep4 b5 d6
  clear_value bit1
  refine keeps_through (b := d3) ?_ fun hd3 => ?_
  · unfold d3
    exact keeps_set keeps_refl fun p => by cases p <;> first | exact .inl rfl | exact .inr rfl | exact .inr ⟨rfl, rfl⟩ | exact .inr ⟨rfl, rfl, rfl, rfl, rfl, rfl, rfl⟩
  clear_value d3
  clear_value ep4
  refine keeps_through (b := d6) ?_ fun hd6 => ?_
  · unfold d6
    refine keeps_set (b := d3) ?_ fun p => by cases p <;> first | exact .inl rfl | exact .inr rfl | exact .inr ⟨rfl, rfl⟩ | exact .inr ⟨rfl, rfl, rfl, rfl, rfl, rfl, rfl⟩
    exact hd3
  clear_value d6
  refine keeps_via (keeps_tryClearLatch _) rfl ?_
  refine keeps_via (keeps_noticeIn _ _ _ _ _) rfl ?_
  exact hd6

theorem keeps_bodyPwrClr (d : Dev) :
    Keeps [.lim, .pwr, .saf] d (bodyPwrClr d).1 := by
  unfold bodyPwrClr
  refine keeps_ite_fst (fun _ => ?_) fun _ => ?_
  · refine keeps_pair ?_
    exact keeps_refl
  · refine keeps_ite_fst (fun _ => ?_) fun _ => ?_
    · refine keeps_pair ?_
      exact keeps_refl
    · refine keeps_pair ?_
      exact keeps_mono (keeps_clear28 _) rfl

theorem keeps_railFrame (d : Dev) (vcoils : Nat) (vcp : Nat) (vdrv : Nat) :
    Keeps [.pwr] d (d.railFrame vcoils vcp vdrv) := by
  unfold Dev.railFrame
  extract_lets b1 b2 d3 b4
  refine keeps_through (b := b1) ?_ fun hb1 => ?_
  · unfold b1
    exact keeps_mono (keeps_pwmBoundary _) rfl
  clear_value b1
  refine keeps_through (b := d3) ?_ fun hd3 => ?_
  · unfold d3
    refine keeps_set (b := b1) ?_ fun p => by cases p <;> first | exact .inl rfl | exact .inr rfl | exact .inr ⟨rfl, rfl⟩ | exact .inr ⟨rfl, rfl, rfl, rfl, rfl, rfl, rfl⟩
    exact hb1
  clear_value d3
  refine keeps_set (b := d3) ?_ fun p => by cases p <;> first | exact .inl rfl | exact .inr rfl | exact .inr ⟨rfl, rfl⟩ | exact .inr ⟨rfl, rfl, rfl, rfl, rfl, rfl, rfl⟩
  exact hd3

theorem keeps_drvEnFalls (d : Dev) :
    Keeps [.pwr] d (d.drvEnFalls) := by
  unfold Dev.drvEnFalls
  exact keeps_set keeps_refl fun p => by cases p <;> first | exact .inl rfl | exact .inr rfl | exact .inr ⟨rfl, rfl⟩ | exact .inr ⟨rfl, rfl, rfl, rfl, rfl, rfl, rfl⟩

theorem keeps_clear28When (d : Dev) (q : Bool) :
    Keeps [.lim, .pwr, .saf] d (d.clear28When q) := by
  unfold Dev.clear28When
  refine keeps_ite (fun _ => ?_) fun _ => ?_
  · exact keeps_mono (keeps_clear28 _) rfl
  · exact keeps_refl

theorem keeps_drvEnRises (d : Dev) (lowNs : Nat) :
    Keeps [.stamp, .mode, .seq, .coil, .lim, .pwr, .saf, .tol, .can0, .can1, .evt, .lif] d (d.drvEnRises lowNs) := by
  unfold Dev.drvEnRises
  extract_lets unseen1 d2 q3 d4 b5 d6
  clear_value unseen1
  refine keeps_through (b := d2) ?_ fun hd2 => ?_
  · unfold d2
    refine keeps_ite (fun _ => ?_) fun _ => ?_
    · exact keeps_mono (keeps_protectionTrip _ _ _) rfl
    · exact keeps_refl
  clear_value d2
  clear_value q3
  refine keeps_through (b := d4) ?_ fun hd4 => ?_
  · unfold d4
    refine keeps_via (keeps_tick _) rfl ?_
    exact hd2
  clear_value d4
  refine keeps_through (b := d6) ?_ fun hd6 => ?_
  · unfold d6
    refine keeps_set (b := d4) ?_ fun p => by cases p <;> first | exact .inl rfl | exact .inr rfl | exact .inr ⟨rfl, rfl⟩ | exact .inr ⟨rfl, rfl, rfl, rfl, rfl, rfl, rfl⟩
    exact hd4
  clear_value d6
  refine keeps_via (keeps_clear28When _ _) rfl ?_
  exact hd6

theorem keeps_dumpTurnsOn (d : Dev) :
    Keeps [.pwr] d (d.dumpTurnsOn) := by
  unfold Dev.dumpTurnsOn
  refine keeps_ite (fun _ => ?_) fun _ => ?_
  · exact keeps_refl
  · extract_lets b1 d2
    refine keeps_through (b := d2) ?_ fun hd2 => ?_
    · unfold d2
      exact keeps_set keeps_refl fun p => by cases p <;> first | exact .inl rfl | exact .inr rfl | exact .inr ⟨rfl, rfl⟩ | exact .inr ⟨rfl, rfl, rfl, rfl, rfl, rfl, rfl⟩
    clear_value d2
    refine keeps_ite (fun _ => ?_) fun _ => ?_
    · refine keeps_via (keeps_notice _ _ _ _) rfl ?_
      exact hd2
    · exact hd2

theorem keeps_dumpTurnsOff (d : Dev) :
    Keeps [.pwr] d (d.dumpTurnsOff) := by
  unfold Dev.dumpTurnsOff
  exact keeps_set keeps_refl fun p => by cases p <;> first | exact .inl rfl | exact .inr rfl | exact .inr ⟨rfl, rfl⟩ | exact .inr ⟨rfl, rfl, rfl, rfl, rfl, rfl, rfl⟩

theorem keeps_dumpTimesOut (d : Dev) :
    Keeps [.stamp, .mode, .seq, .coil, .lim, .pwr, .saf, .tol, .can0, .can1, .evt, .lif] d (d.dumpTimesOut) := by
  unfold Dev.dumpTimesOut
  refine keeps_ite (fun _ => ?_) fun _ => ?_
  · exact keeps_refl
  · extract_lets b1 d2
    refine keeps_through (b := d2) ?_ fun hd2 => ?_
    · unfold d2
      exact keeps_set keeps_refl fun p => by cases p <;> first | exact .inl rfl | exact .inr rfl | exact .inr ⟨rfl, rfl⟩ | exact .inr ⟨rfl, rfl, rfl, rfl, rfl, rfl, rfl⟩
    clear_value d2
    refine keeps_ite (fun _ => ?_) fun _ => ?_
    · refine keeps_via (keeps_powerTrip _ _ _) rfl ?_
      refine keeps_via (keeps_endDiag _) rfl ?_
      exact hd2
    · exact hd2

theorem keeps_dumpRearms (d : Dev) :
    Keeps [.pwr] d (d.dumpRearms) := by
  unfold Dev.dumpRearms
  exact keeps_set keeps_refl fun p => by cases p <;> first | exact .inl rfl | exact .inr rfl | exact .inr ⟨rfl, rfl⟩ | exact .inr ⟨rfl, rfl, rfl, rfl, rfl, rfl, rfl⟩

theorem keeps_dumpSwitchFails (d : Dev) :
    Keeps [.stamp, .mode, .seq, .coil, .lim, .pwr, .saf, .tol, .can0, .can1, .evt, .lif] d (d.dumpSwitchFails) := by
  unfold Dev.dumpSwitchFails
  extract_lets b1 d2
  refine keeps_through (b := d2) ?_ fun hd2 => ?_
  · unfold d2
    exact keeps_set keeps_refl fun p => by cases p <;> first | exact .inl rfl | exact .inr rfl | exact .inr ⟨rfl, rfl⟩ | exact .inr ⟨rfl, rfl, rfl, rfl, rfl, rfl, rfl⟩
  clear_value d2
  refine keeps_ite (fun _ => ?_) fun _ => ?_
  · refine keeps_via (keeps_faultGone _ _) rfl ?_
    refine keeps_via (keeps_raise _ _ _ _ _ _ _ _) rfl ?_
    refine keeps_via (keeps_endDiag _) rfl ?_
    exact hd2
  · exact hd2

theorem keeps_takeVerdict (d : Dev) (p : Nat) (n : DiagNodes) :
    Keeps [.pwr] d (d.takeVerdict p n) := by
  unfold Dev.takeVerdict
  extract_lets r1 before2 code3 on4 b5 b6
  clear_value r1
  clear_value before2
  clear_value code3
  refine keeps_through (b := b5) ?_ fun hb5 => ?_
  · unfold b5
    exact keeps_mono (keeps_tick _) rfl
  clear_value b5
  refine keeps_set (b := b5) ?_ fun p => by cases p <;> first | exact .inl rfl | exact .inr rfl | exact .inr ⟨rfl, rfl⟩ | exact .inr ⟨rfl, rfl, rfl, rfl, rfl, rfl, rfl⟩
  exact hb5

theorem keeps_startDiag (d : Dev) :
    Keeps [.pwr] d (d.startDiag) := by
  unfold Dev.startDiag
  exact keeps_set keeps_refl fun p => by cases p <;> first | exact .inl rfl | exact .inr rfl | exact .inr ⟨rfl, rfl⟩ | exact .inr ⟨rfl, rfl, rfl, rfl, rfl, rfl, rfl⟩

theorem keeps_diagPhaseEnds (d : Dev) (n : DiagNodes) :
    Keeps [.pwr] d (d.diagPhaseEnds n) := by
  unfold Dev.diagPhaseEnds
  split
  · exact keeps_refl
  · extract_lets d1 b2
    refine keeps_through (b := d1) ?_ fun hd1 => ?_
    · unfold d1
      exact keeps_mono (keeps_takeVerdict _ _ _) rfl
    clear_value d1
    refine keeps_ite (fun _ => ?_) fun _ => ?_
    · refine keeps_set (b := d1) ?_ fun p => by cases p <;> first | exact .inl rfl | exact .inr rfl | exact .inr ⟨rfl, rfl⟩ | exact .inr ⟨rfl, rfl, rfl, rfl, rfl, rfl, rfl⟩
      exact hd1
    · refine keeps_set (b := d1) ?_ fun p => by cases p <;> first | exact .inl rfl | exact .inr rfl | exact .inr ⟨rfl, rfl⟩ | exact .inr ⟨rfl, rfl, rfl, rfl, rfl, rfl, rfl⟩
      exact hd1

theorem keeps_selfTest (d : Dev) (fails : BitVec 23) :
    Keeps [.pwr] d (d.selfTest fails) := by
  unfold Dev.selfTest
  extract_lets failed1 pass2 b3 d4 d5 all6 b7
  clear_value failed1
  clear_value pass2
  refine keeps_through (b := d4) ?_ fun hd4 => ?_
  · unfold d4
    exact keeps_set keeps_refl fun p => by cases p <;> first | exact .inl rfl | exact .inr rfl | exact .inr ⟨rfl, rfl⟩ | exact .inr ⟨rfl, rfl, rfl, rfl, rfl, rfl, rfl⟩
  clear_value d4
  refine keeps_through (b := d5) ?_ fun hd5 => ?_
  · unfold d5
    refine keeps_via (keeps_notice _ _ _ _) rfl ?_
    exact hd4
  clear_value d5
  clear_value all6
  refine keeps_ite (fun _ => ?_) fun _ => ?_
  · refine keeps_via (keeps_notice _ _ _ _) rfl ?_
    refine keeps_set (b := d5) ?_ fun p => by cases p <;> first | exact .inl rfl | exact .inr rfl | exact .inr ⟨rfl, rfl⟩ | exact .inr ⟨rfl, rfl, rfl, rfl, rfl, rfl, rfl⟩
    exact hd5
  · refine keeps_set (b := d5) ?_ fun p => by cases p <;> first | exact .inl rfl | exact .inr rfl | exact .inr ⟨rfl, rfl⟩ | exact .inr ⟨rfl, rfl, rfl, rfl, rfl, rfl, rfl⟩
    exact hd5

theorem keeps_runDiagnostics (d : Dev) (i : DiagInputs) :
    Keeps [.pwr] d (d.runDiagnostics i) := by
  unfold Dev.runDiagnostics
  extract_lets d1 nodes2
  refine keeps_through (b := d1) ?_ fun hd1 => ?_
  · unfold d1
    exact keeps_mono (keeps_startDiag _) rfl
  clear_value d1
  clear_value nodes2
  refine keeps_via (keeps_selfTest _ _) rfl ?_
  refine keeps_foldl ?_ fun d3 x4 => ?_
  · exact hd1
  · exact keeps_mono (keeps_diagPhaseEnds _ _) rfl

theorem keeps_bodyDiag (d : Dev) :
    Keeps [.pwr] d (bodyDiag d).1 := by
  unfold bodyDiag
  refine keeps_ite_fst (fun _ => ?_) fun _ => ?_
  · refine keeps_pair ?_
    exact keeps_refl
  · refine keeps_ite_fst (fun _ => ?_) fun _ => ?_
    · refine keeps_pair ?_
      exact keeps_refl
    · refine keeps_ite_fst (fun _ => ?_) fun _ => ?_
      · refine keeps_pair ?_
        exact keeps_refl
      · refine keeps_pair ?_
        exact keeps_mono (keeps_startDiag _) rfl

theorem keeps_bodyCtst (d : Dev) :
    Keeps [.pwr] d (bodyCtst d).1 := by
  unfold bodyCtst
  refine keeps_ite_fst (fun _ => ?_) fun _ => ?_
  · refine keeps_pair ?_
    exact keeps_refl
  · refine keeps_ite_fst (fun _ => ?_) fun _ => ?_
    · refine keeps_pair ?_
      exact keeps_refl
    · refine keeps_ite_fst (fun _ => ?_) fun _ => ?_
      · refine keeps_pair ?_
        exact keeps_refl
      · refine keeps_pair ?_
        exact keeps_set keeps_refl fun p => by cases p <;> first | exact .inl rfl | exact .inr rfl | exact .inr ⟨rfl, rfl⟩ | exact .inr ⟨rfl, rfl, rfl, rfl, rfl, rfl, rfl⟩

theorem keeps_countConflict (d : Dev) :
    Keeps [.pwr, .dep, .lif] d (d.countConflict) := by
  unfold Dev.countConflict
  extract_lets full1 first2 report3 b4 d5 d6 d7
  clear_value full1
  clear_value first2
  refine keeps_through (b := d5) ?_ fun hd5 => ?_
  · unfold d5
    exact keeps_set keeps_refl fun p => by cases p <;> first | exact .inl rfl | exact .inr rfl | exact .inr ⟨rfl, rfl⟩ | exact .inr ⟨rfl, rfl, rfl, rfl, rfl, rfl, rfl⟩
  clear_value d5
  refine keeps_through (b := d6) ?_ fun hd6 => ?_
  · unfold d6
    refine keeps_via (keeps_countPump _ _) rfl ?_
    exact hd5
  clear_value d6
  refine keeps_through (b := d7) ?_ fun hd7 => ?_
  · unfold d7
    refine keeps_ite (fun _ => ?_) fun _ => ?_
    · refine keeps_via (keeps_notice _ _ _ _) rfl ?_
      exact hd6
    · exact hd6
  clear_value d7
  refine keeps_ite (fun _ => ?_) fun _ => ?_
  · refine keeps_via (keeps_notice _ _ _ _) rfl ?_
    exact hd7
  · exact hd7

theorem keeps_extEdge (d : Dev) (levels : BitVec 4) :
    Keeps [.pwr, .dep, .lif] d (d.extEdge levels) := by
  unfold Dev.extEdge
  extract_lets before1 b2 d3 d4
  refine keeps_through (b := d3) ?_ fun hd3 => ?_
  · unfold d3
    exact keeps_set keeps_refl fun p => by cases p <;> first | exact .inl rfl | exact .inr rfl | exact .inr ⟨rfl, rfl⟩ | exact .inr ⟨rfl, rfl, rfl, rfl, rfl, rfl, rfl⟩
  clear_value d3
  refine keeps_through (b := d4) ?_ fun hd4 => ?_
  · unfold d4
    refine keeps_ite (fun _ => ?_) fun _ => ?_
    · refine keeps_via (keeps_countConflict _) rfl ?_
      exact hd3
    · exact hd3
  clear_value d4
  refine keeps_ite (fun _ => ?_) fun _ => ?_
  · exact hd3
  · refine keeps_ite (fun _ => ?_) fun _ => ?_
    · refine keeps_via (keeps_countConflict _) rfl ?_
      exact hd4
    · exact hd4

theorem keeps_extRevoke (d : Dev) :
    Keeps [.pwr, .dep, .lif] d (d.extRevoke) := by
  unfold Dev.extRevoke
  refine keeps_ite (fun _ => ?_) fun _ => ?_
  · exact keeps_refl
  · extract_lets b1 d2
    refine keeps_through (b := d2) ?_ fun hd2 => ?_
    · unfold d2
      exact keeps_set keeps_refl fun p => by cases p <;> first | exact .inl rfl | exact .inr rfl | exact .inr ⟨rfl, rfl⟩ | exact .inr ⟨rfl, rfl, rfl, rfl, rfl, rfl, rfl⟩
    clear_value d2
    refine keeps_via (keeps_notice _ _ _ _) rfl ?_
    refine keeps_via (keeps_countPump _ _) rfl ?_
    exact hd2

theorem keeps_tach (d : Dev) (period : Nat) :
    Keeps [.pwr] d (d.tach period) := by
  unfold Dev.tach
  extract_lets rpm1 b2
  clear_value rpm1
  exact keeps_set keeps_refl fun p => by cases p <;> first | exact .inl rfl | exact .inr rfl | exact .inr ⟨rfl, rfl⟩ | exact .inr ⟨rfl, rfl, rfl, rfl, rfl, rfl, rfl⟩

theorem keeps_tachFails (d : Dev) (frozen : Bool) :
    Keeps [.stamp, .mode, .seq, .coil, .lim, .pwr, .saf, .tol, .can0, .can1, .evt, .dep, .lif] d (d.tachFails frozen) := by
  unfold Dev.tachFails
  refine keeps_ite (fun _ => ?_) fun _ => ?_
  · exact keeps_refl
  · extract_lets b1 d2
    refine keeps_through (b := d2) ?_ fun hd2 => ?_
    · unfold d2
      exact keeps_set keeps_refl fun p => by cases p <;> first | exact .inl rfl | exact .inr rfl | exact .inr ⟨rfl, rfl⟩ | exact .inr ⟨rfl, rfl, rfl, rfl, rfl, rfl, rfl⟩
    clear_value d2
    refine keeps_via (keeps_fault _ _ _ _ _) rfl ?_
    refine keeps_via (keeps_countPump _ _) rfl ?_
    exact hd2

theorem keeps_tachRecovers (d : Dev) :
    Keeps [.lim, .pwr] d (d.tachRecovers) := by
  unfold Dev.tachRecovers
  refine keeps_via (keeps_faultGone _ _) rfl ?_
  exact keeps_set keeps_refl fun p => by cases p <;> first | exact .inl rfl | exact .inr rfl | exact .inr ⟨rfl, rfl⟩ | exact .inr ⟨rfl, rfl, rfl, rfl, rfl, rfl, rfl⟩

theorem keeps_cycleLimit (d : Dev) (level : Nat) :
    Keeps [.pwr] d (d.cycleLimit level) := by
  unfold Dev.cycleLimit
  refine keeps_ite (fun _ => ?_) fun _ => ?_
  · exact keeps_refl
  · extract_lets full1 first2 b3 d4
    clear_value full1
    clear_value first2
    refine keeps_through (b := d4) ?_ fun hd4 => ?_
    · unfold d4
      exact keeps_set keeps_refl fun p => by cases p <;> first | exact .inl rfl | exact .inr rfl | exact .inr ⟨rfl, rfl⟩ | exact .inr ⟨rfl, rfl, rfl, rfl, rfl, rfl, rfl⟩
    clear_value d4
    refine keeps_ite (fun _ => ?_) fun _ => ?_
    · refine keeps_via (keeps_notice _ _ _ _) rfl ?_
      exact hd4
    · exact hd4

theorem keeps_countPumpStart (d : Dev) (stood : Bool) :
    Keeps [.dep, .lif] d (d.countPumpStart stood) := by
  unfold Dev.countPumpStart
  refine keeps_ite (fun _ => ?_) fun _ => ?_
  · exact keeps_mono (keeps_countPump _ _) rfl
  · exact keeps_refl

theorem keeps_pumpLoop (d : Dev) :
    Keeps [.pwr, .dep, .lif] d (d.pumpLoop) := by
  unfold Dev.pumpLoop
  split
  · exact keeps_refl
  · refine keeps_ite (fun _ => ?_) fun _ => ?_
    · exact keeps_refl
    · extract_lets off1 floor2 table3 set4 pi5 duty6 start7 b8 d9
      clear_value off1
      clear_value floor2
      clear_value table3
      clear_value set4
      clear_value pi5
      clear_value duty6
      clear_value start7
      refine keeps_through (b := d9) ?_ fun hd9 => ?_
      · unfold d9
        exact keeps_set keeps_refl fun p => by cases p <;> first | exact .inl rfl | exact .inr rfl | exact .inr ⟨rfl, rfl⟩ | exact .inr ⟨rfl, rfl, rfl, rfl, rfl, rfl, rfl⟩
      clear_value d9
      refine keeps_via (keeps_countPumpStart _ _) rfl ?_
      exact hd9

theorem keeps_edgeMeasured (d : Dev) (ch : DriveChannel) (turnOn : Bool) (ns : Option Nat) :
    Keeps [.pwr] d (d.edgeMeasured ch turnOn ns) := by
  unfold Dev.edgeMeasured
  extract_lets i1 w2 b3
  clear_value w2
  refine keeps_ite (fun _ => ?_) fun _ => ?_
  · exact keeps_refl
  · refine keeps_ite (fun _ => ?_) fun _ => ?_
    · exact keeps_set keeps_refl fun p => by cases p <;> first | exact .inl rfl | exact .inr rfl | exact .inr ⟨rfl, rfl⟩ | exact .inr ⟨rfl, rfl, rfl, rfl, rfl, rfl, rfl⟩
    · exact keeps_set keeps_refl fun p => by cases p <;> first | exact .inl rfl | exact .inr rfl | exact .inr ⟨rfl, rfl⟩ | exact .inr ⟨rfl, rfl, rfl, rfl, rfl, rfl, rfl⟩

theorem keeps_permissionCheck (d : Dev) :
    Keeps [.saf] d (d.permissionCheck) := by
  unfold Dev.permissionCheck
  refine keeps_ite (fun _ => ?_) fun _ => ?_
  · exact keeps_refl
  · exact keeps_mono (keeps_withdraw _) rfl

theorem keeps_accrueProof (d : Dev) (g : Fin 4) :
    Keeps [.saf] d (d.accrueProof g) := by
  unfold Dev.accrueProof
  extract_lets before1 seen2 b3 d4 p5 p6 p7 b8 d9
  clear_value before1
  clear_value seen2
  refine keeps_through (b := d4) ?_ fun hd4 => ?_
  · unfold d4
    exact keeps_set keeps_refl fun p => by cases p <;> first | exact .inl rfl | exact .inr rfl | exact .inr ⟨rfl, rfl⟩ | exact .inr ⟨rfl, rfl, rfl, rfl, rfl, rfl, rfl⟩
  clear_value d4
  clear_value p6
  clear_value p7
  refine keeps_through (b := d9) ?_ fun hd9 => ?_
  · unfold d9
    refine keeps_set (b := d4) ?_ fun p => by cases p <;> first | exact .inl rfl | exact .inr rfl | exact .inr ⟨rfl, rfl⟩ | exact .inr ⟨rfl, rfl, rfl, rfl, rfl, rfl, rfl⟩
    exact hd4
  clear_value d9
  refine keeps_ite (fun _ => ?_) fun _ => ?_
  · exact hd4
  · refine keeps_ite (fun _ => ?_) fun _ => ?_
    · refine keeps_via (keeps_notice _ _ _ _) rfl ?_
      exact hd9
    · exact hd9

theorem keeps_countOpening (d : Dev) :
    Keeps [.saf] d (d.countOpening) := by
  unfold Dev.countOpening
  exact keeps_set keeps_refl fun p => by cases p <;> first | exact .inl rfl | exact .inr rfl | exact .inr ⟨rfl, rfl⟩ | exact .inr ⟨rfl, rfl, rfl, rfl, rfl, rfl, rfl⟩

theorem keeps_countDiscrepancy (d : Dev) :
    Keeps [.saf] d (d.countDiscrepancy) := by
  unfold Dev.countDiscrepancy
  exact keeps_set keeps_refl fun p => by cases p <;> first | exact .inl rfl | exact .inr rfl | exact .inr ⟨rfl, rfl⟩ | exact .inr ⟨rfl, rfl, rfl, rfl, rfl, rfl, rfl⟩

theorem keeps_guardOpens (d : Dev) (g : Fin 4) :
    Keeps [.stamp, .mode, .seq, .coil, .lim, .pwr, .saf, .tol, .can0, .can1, .evt, .lif] d (d.guardOpens g) := by
  unfold Dev.guardOpens
  refine keeps_ite (fun _ => ?_) fun _ => ?_
  · extract_lets d1 b2 d3 d4 b5
    refine keeps_through (b := d1) ?_ fun hd1 => ?_
    · unfold d1
      refine keeps_via (keeps_countDevice _ _) rfl ?_
      exact keeps_mono (keeps_countOpening _) rfl
    clear_value d1
    refine keeps_through (b := d3) ?_ fun hd3 => ?_
    · unfold d3
      refine keeps_set (b := d1) ?_ fun p => by cases p <;> first | exact .inl rfl | exact .inr rfl | exact .inr ⟨rfl, rfl⟩ | exact .inr ⟨rfl, rfl, rfl, rfl, rfl, rfl, rfl⟩
      exact hd1
    clear_value d3
    refine keeps_through (b := d4) ?_ fun hd4 => ?_
    · unfold d4
      refine keeps_via (keeps_raise _ _ _ _ _ _ _ _) rfl ?_
      exact hd3
    clear_value d4
    refine keeps_set (b := d4) ?_ fun p => by cases p <;> first | exact .inl rfl | exact .inr rfl | exact .inr ⟨rfl, rfl⟩ | exact .inr ⟨rfl, rfl, rfl, rfl, rfl, rfl, rfl⟩
    exact hd4
  · extract_lets ep6 d7 b8
    refine keeps_through (b := d7) ?_ fun hd7 => ?_
    · unfold d7
      refine keeps_via (keeps_noticeIn _ _ _ _ _) rfl ?_
      exact keeps_mono (keeps_withdraw _) rfl
    clear_value d7
    refine keeps_set (b := d7) ?_ fun p => by cases p <;> first | exact .inl rfl | exact .inr rfl | exact .inr ⟨rfl, rfl⟩ | exact .inr ⟨rfl, rfl, rfl, rfl, rfl, rfl, rfl⟩
    exact hd7

theorem keeps_guardCloses (d : Dev) (g : Fin 4) :
    Keeps [.lim, .saf] d (d.guardCloses g) := by
  unfold Dev.guardCloses
  extract_lets b1 d2
  refine keeps_through (b := d2) ?_ fun hd2 => ?_
  · unfold d2
    exact keeps_set keeps_refl fun p => by cases p <;> first | exact .inl rfl | exact .inr rfl | exact .inr ⟨rfl, rfl⟩ | exact .inr ⟨rfl, rfl, rfl, rfl, rfl, rfl, rfl⟩
  -- noclear d2
  refine keeps_ite (fun _ => ?_) fun _ => ?_
  · refine keeps_via (keeps_faultGone _ _) rfl ?_
    exact hd2
  · exact hd2

theorem keeps_guardAgrees (d : Dev) (g : Fin 4) :
    Keeps [.lim, .saf] d (d.guardAgrees g) := by
  unfold Dev.guardAgrees
  extract_lets b1 d2
  refine keeps_through (b := d2) ?_ fun hd2 => ?_
  · unfold d2
    exact keeps_set keeps_refl fun p => by cases p <;> first | exact .inl rfl | exact .inr rfl | exact .inr ⟨rfl, rfl⟩ | exact .inr ⟨rfl, rfl, rfl, rfl, rfl, rfl, rfl⟩
  -- noclear d2
  refine keeps_ite (fun _ => ?_) fun _ => ?_
  · refine keeps_via (keeps_faultGone _ _) rfl ?_
    exact hd2
  · exact hd2

theorem keeps_releaseGtst (d : Dev) (g : Fin 4) :
    Keeps [.saf] d (d.releaseGtst g) := by
  unfold Dev.releaseGtst
  refine keeps_ite (fun _ => ?_) fun _ => ?_
  · exact keeps_set keeps_refl fun p => by cases p <;> first | exact .inl rfl | exact .inr rfl | exact .inr ⟨rfl, rfl⟩ | exact .inr ⟨rfl, rfl, rfl, rfl, rfl, rfl, rfl⟩
  · exact keeps_refl

theorem keeps_judgeGuard (d : Dev) (g : Fin 4) (wasClosed : Bool) :
    Keeps [.stamp, .mode, .seq, .coil, .lim, .pwr, .saf, .tol, .can0, .can1, .evt, .lif] d (d.judgeGuard g wasClosed) := by
  unfold Dev.judgeGuard
  refine keeps_ite (fun _ => ?_) fun _ => ?_
  · exact keeps_refl
  · extract_lets d1 d2 d3
    refine keeps_through (b := d1) ?_ fun hd1 => ?_
    · unfold d1
      exact keeps_mono (keeps_releaseGtst _ _) rfl
    clear_value d1
    refine keeps_through (b := d2) ?_ fun hd2 => ?_
    · unfold d2
      refine keeps_ite (fun _ => ?_) fun _ => ?_
      · refine keeps_via (keeps_guardAgrees _ _) rfl ?_
        exact hd1
      · exact hd1
    clear_value d2
    refine keeps_through (b := d3) ?_ fun hd3 => ?_
    · unfold d3
      refine keeps_via (keeps_accrueProof _ _) rfl ?_
      exact hd2
    clear_value d3
    refine keeps_ite (fun _ => ?_) fun _ => ?_
    · refine keeps_via (keeps_guardCloses _ _) rfl ?_
      exact hd3
    · refine keeps_ite (fun _ => ?_) fun _ => ?_
      · refine keeps_via (keeps_guardOpens _ _) rfl ?_
        exact hd3
      · refine keeps_via (keeps_permissionCheck _) rfl ?_
        exact hd3

theorem keeps_guardChannel (d : Dev) (ch : Fin 8) (level : Bool) :
    Keeps [.stamp, .mode, .seq, .coil, .lim, .pwr, .saf, .tol, .can0, .can1, .evt, .lif] d (d.guardChannel ch level) := by
  unfold Dev.guardChannel
  extract_lets g1 wasClosed2 b3 d4
  clear_value wasClosed2
  refine keeps_through (b := d4) ?_ fun hd4 => ?_
  · unfold d4
    exact keeps_set keeps_refl fun p => by cases p <;> first | exact .inl rfl | exact .inr rfl | exact .inr ⟨rfl, rfl⟩ | exact .inr ⟨rfl, rfl, rfl, rfl, rfl, rfl, rfl⟩
  clear_value d4
  refine keeps_ite (fun _ => ?_) fun _ => ?_
  · refine keeps_via (keeps_judgeGuard _ _ _) rfl ?_
    exact hd4
  · exact hd4

theorem keeps_guardDisagrees (d : Dev) (g : Fin 4) :
    Keeps [.stamp, .mode, .seq, .coil, .lim, .pwr, .saf, .tol, .can0, .can1, .evt, .lif] d (d.guardDisagrees g) := by
  unfold Dev.guardDisagrees
  refine keeps_ite (fun _ => ?_) fun _ => ?_
  · exact keeps_refl
  · refine keeps_ite (fun _ => ?_) fun _ => ?_
    · exact keeps_set keeps_refl fun p => by cases p <;> first | exact .inl rfl | exact .inr rfl | exact .inr ⟨rfl, rfl⟩ | exact .inr ⟨rfl, rfl, rfl, rfl, rfl, rfl, rfl⟩
    · refine keeps_ite (fun _ => ?_) fun _ => ?_
      · extract_lets d1 b2 d3
        refine keeps_through (b := d1) ?_ fun hd1 => ?_
        · unfold d1
          exact keeps_mono (keeps_countDiscrepancy _) rfl
        clear_value d1
        refine keeps_through (b := d3) ?_ fun hd3 => ?_
        · unfold d3
          refine keeps_set (b := d1) ?_ fun p => by cases p <;> first | exact .inl rfl | exact .inr rfl | exact .inr ⟨rfl, rfl⟩ | exact .inr ⟨rfl, rfl, rfl, rfl, rfl, rfl, rfl⟩
          exact hd1
        clear_value d3
        refine keeps_via (keeps_raise _ _ _ _ _ _ _ _) rfl ?_
        exact hd3
      · exact keeps_refl

theorem keeps_startGuardTest (d : Dev) (g : Fin 4) :
    Keeps [.saf] d (d.startGuardTest g) := by
  unfold Dev.startGuardTest
  refine keeps_via (keeps_permissionCheck _) rfl ?_
  refine keeps_via (keeps_releaseGtst _ _) rfl ?_
  exact keeps_set keeps_refl fun p => by cases p <;> first | exact .inl rfl | exact .inr rfl | exact .inr ⟨rfl, rfl⟩ | exact .inr ⟨rfl, rfl, rfl, rfl, rfl, rfl, rfl⟩

theorem keeps_bodyGtest (g : Fin 4) (d : Dev) :
    Keeps [.saf] d (bodyGtest g d).1 := by
  unfold bodyGtest
  refine keeps_ite_fst (fun _ => ?_) fun _ => ?_
  · refine keeps_pair ?_
    exact keeps_refl
  · refine keeps_ite_fst (fun _ => ?_) fun _ => ?_
    · refine keeps_pair ?_
      exact keeps_refl
    · refine keeps_ite_fst (fun _ => ?_) fun _ => ?_
      · refine keeps_pair ?_
        exact keeps_refl
      · refine keeps_ite_fst (fun _ => ?_) fun _ => ?_
        · refine keeps_pair ?_
          exact keeps_refl
        · refine keeps_ite_fst (fun _ => ?_) fun _ => ?_
          · refine keeps_pair ?_
            exact keeps_refl
          · refine keeps_pair ?_
            exact keeps_mono (keeps_startGuardTest _ _) rfl

theorem keeps_guardVerdict (d : Dev) (g : Fin 4) (opened : Bool) (closed : Bool) :
    Keeps [.saf] d (d.guardVerdict g opened closed) := by
  unfold Dev.guardVerdict
  refine keeps_ite (fun _ => ?_) fun _ => ?_
  · exact keeps_refl
  · extract_lets b1 d2 set3 b4
    refine keeps_through (b := d2) ?_ fun hd2 => ?_
    · unfold d2
      exact keeps_set keeps_refl fun p => by cases p <;> first | exact .inl rfl | exact .inr rfl | exact .inr ⟨rfl, rfl⟩ | exact .inr ⟨rfl, rfl, rfl, rfl, rfl, rfl, rfl⟩
    clear_value d2
    clear_value set3
    refine keeps_ite (fun _ => ?_) fun _ => ?_
    · refine keeps_via (keeps_notice _ _ _ _) rfl ?_
      refine keeps_set (b := d2) ?_ fun p => by cases p <;> first | exact .inl rfl | exact .inr rfl | exact .inr ⟨rfl, rfl⟩ | exact .inr ⟨rfl, rfl, rfl, rfl, rfl, rfl, rfl⟩
      exact hd2
    · refine keeps_via (keeps_notice _ _ _ _) rfl ?_
      refine keeps_set (b := d2) ?_ fun p => by cases p <;> first | exact .inl rfl | exact .inr rfl | exact .inr ⟨rfl, rfl⟩ | exact .inr ⟨rfl, rfl, rfl, rfl, rfl, rfl, rfl⟩
      exact hd2

theorem keeps_guardRetest (d : Dev) (g : Fin 4) :
    Keeps [.saf] d (d.guardRetest g) := by
  unfold Dev.guardRetest
  refine keeps_ite (fun _ => ?_) fun _ => ?_
  · exact keeps_mono (keeps_startGuardTest _ _) rfl
  · exact keeps_refl

theorem keeps_refreshMissed (d : Dev) :
    Keeps [.saf] d (d.refreshMissed) := by
  unfold Dev.refreshMissed
  refine keeps_via (keeps_permissionCheck _) rfl ?_
  exact keeps_set keeps_refl fun p => by cases p <;> first | exact .inl rfl | exact .inr rfl | exact .inr ⟨rfl, rfl⟩ | exact .inr ⟨rfl, rfl, rfl, rfl, rfl, rfl, rfl⟩

theorem keeps_refreshPermission (d : Dev) :
    Keeps [.saf] d (d.refreshPermission) := by
  unfold Dev.refreshPermission
  extract_lets b1 d2 b3
  refine keeps_through (b := d2) ?_ fun hd2 => ?_
  · unfold d2
    exact keeps_set keeps_refl fun p => by cases p <;> first | exact .inl rfl | exact .inr rfl | exact .inr ⟨rfl, rfl⟩ | exact .inr ⟨rfl, rfl, rfl, rfl, rfl, rfl, rfl⟩
  clear_value d2
  refine keeps_ite (fun _ => ?_) fun _ => ?_
  · refine keeps_via (keeps_withdraw _) rfl ?_
    exact hd2
  · refine keeps_ite (fun _ => ?_) fun _ => ?_
    · exact hd2
    · refine keeps_via (keeps_notice _ _ _ _) rfl ?_
      refine keeps_set (b := d2) ?_ fun p => by cases p <;> first | exact .inl rfl | exact .inr rfl | exact .inr ⟨rfl, rfl⟩ | exact .inr ⟨rfl, rfl, rfl, rfl, rfl, rfl, rfl⟩
      exact hd2

theorem keeps_oweImpulses (d : Dev) (mJ : Nat) :
    Keeps [.tol] d (d.oweImpulses mJ) := by
  unfold Dev.oweImpulses
  extract_lets res1 owed2 excess3 b4 d5
  clear_value res1
  clear_value owed2
  clear_value excess3
  refine keeps_through (b := d5) ?_ fun hd5 => ?_
  · unfold d5
    exact keeps_set keeps_refl fun p => by cases p <;> first | exact .inl rfl | exact .inr rfl | exact .inr ⟨rfl, rfl⟩ | exact .inr ⟨rfl, rfl, rfl, rfl, rfl, rfl, rfl⟩
  clear_value d5
  refine keeps_ite (fun _ => ?_) fun _ => ?_
  · refine keeps_via (keeps_markSession _ _) rfl ?_
    exact hd5
  · exact hd5

theorem keeps_accumulate (d : Dev) (pc : Int) :
    Keeps [.tol] d (d.accumulate pc) := by
  unfold Dev.accumulate
  extract_lets k1 re2 ri3 de4 di5 f6 b7 d8
  clear_value re2
  clear_value ri3
  clear_value de4
  clear_value di5
  refine keeps_through (b := d8) ?_ fun hd8 => ?_
  · unfold d8
    exact keeps_set keeps_refl fun p => by cases p <;> first | exact .inl rfl | exact .inr rfl | exact .inr ⟨rfl, rfl⟩ | exact .inr ⟨rfl, rfl, rfl, rfl, rfl, rfl, rfl⟩
  clear_value d8
  refine keeps_via (keeps_oweImpulses _ _) rfl ?_
  exact hd8

theorem keeps_tollSet (d : Dev) (v : Int) (i : Int) :
    Keeps [.tol] d (d.tollSet v i) := by
  unfold Dev.tollSet
  refine keeps_ite (fun _ => ?_) fun _ => ?_
  · exact keeps_mono (keeps_accumulate _ _) rfl
  · refine keeps_ite (fun _ => ?_) fun _ => ?_
    · exact keeps_set keeps_refl fun p => by cases p <;> first | exact .inl rfl | exact .inr rfl | exact .inr ⟨rfl, rfl⟩ | exact .inr ⟨rfl, rfl, rfl, rfl, rfl, rfl, rfl⟩
    · exact keeps_refl

theorem keeps_addValue (d : Dev) (n : Fin 6) (v : Int) :
    Keeps [.sen] d (d.addValue n v) := by
  unfold Dev.addValue
  refine keeps_ite (fun _ => ?_) fun _ => ?_
  · exact keeps_set keeps_refl fun p => by cases p <;> first | exact .inl rfl | exact .inr rfl | exact .inr ⟨rfl, rfl⟩ | exact .inr ⟨rfl, rfl, rfl, rfl, rfl, rfl, rfl⟩
  · exact keeps_refl

theorem keeps_dropSet (d : Dev) :
    Keeps [.sen, .lim, .evt] d (d.dropSet) := by
  unfold Dev.dropSet
  extract_lets full1 first2 b3 d4 d5
  clear_value full1
  clear_value first2
  refine keeps_through (b := d4) ?_ fun hd4 => ?_
  · unfold d4
    exact keeps_set keeps_refl fun p => by cases p <;> first | exact .inl rfl | exact .inr rfl | exact .inr ⟨rfl, rfl⟩ | exact .inr ⟨rfl, rfl, rfl, rfl, rfl, rfl, rfl⟩
  clear_value d4
  refine keeps_through (b := d5) ?_ fun hd5 => ?_
  · unfold d5
    refine keeps_via (keeps_faultEvent _ _ _ _ _) rfl ?_
    exact hd4
  clear_value d5
  refine keeps_ite (fun _ => ?_) fun _ => ?_
  · refine keeps_via (keeps_notice _ _ _ _) rfl ?_
    exact hd5
  · exact hd5

theorem keeps_startSettling (d : Dev) :
    Keeps [.sen] d (d.startSettling) := by
  unfold Dev.startSettling
  exact keeps_set keeps_refl fun p => by cases p <;> first | exact .inl rfl | exact .inr rfl | exact .inr ⟨rfl, rfl⟩ | exact .inr ⟨rfl, rfl, rfl, rfl, rfl, rfl, rfl⟩

theorem keeps_useSet (d : Dev) (codes : Vector (BitVec 24) 6) :
    Keeps [.sen, .tol] d (d.useSet codes) := by
  unfold Dev.useSet
  refine keeps_ite (fun _ => ?_) fun _ => ?_
  · exact keeps_mono (keeps_tollSet _ _ _) rfl
  · extract_lets e1 v42 v53 b4 d5 d6
    clear_value e1
    clear_value v42
    clear_value v53
    refine keeps_through (b := d5) ?_ fun hd5 => ?_
    · unfold d5
      exact keeps_set keeps_refl fun p => by cases p <;> first | exact .inl rfl | exact .inr rfl | exact .inr ⟨rfl, rfl⟩ | exact .inr ⟨rfl, rfl, rfl, rfl, rfl, rfl, rfl⟩
    clear_value d5
    refine keeps_through (b := d6) ?_ fun hd6 => ?_
    · unfold d6
      refine keeps_foldl ?_ fun d7 x8 => ?_
      · exact hd5
      · exact keeps_mono (keeps_addValue _ _ _) rfl
    clear_value d6
    refine keeps_via (keeps_tollSet _ _ _) rfl ?_
    exact hd6

theorem keeps_takeSet (d : Dev) (codes : Vector (BitVec 24) 6) (unacknowledged : Bool) :
    Keeps [.sen, .lim, .tol, .evt] d (d.takeSet codes unacknowledged) := by
  unfold Dev.takeSet
  refine keeps_ite (fun _ => ?_) fun _ => ?_
  · exact keeps_refl
  · extract_lets b1 d2
    refine keeps_through (b := d2) ?_ fun hd2 => ?_
    · unfold d2
      refine keeps_ite (fun _ => ?_) fun _ => ?_
      · exact keeps_mono (keeps_dropSet _) rfl
      · refine keeps_ite (fun _ => ?_) fun _ => ?_
        · exact keeps_mono (keeps_useSet _ _) rfl
        · exact keeps_set keeps_refl fun p => by cases p <;> first | exact .inl rfl | exact .inr rfl | exact .inr ⟨rfl, rfl⟩ | exact .inr ⟨rfl, rfl, rfl, rfl, rfl, rfl, rfl⟩
    clear_value d2
    refine keeps_ite (fun _ => ?_) fun _ => ?_
    · exact hd2
    · refine keeps_via (keeps_startSettling _) rfl ?_
      exact hd2

theorem keeps_restartPlausibility (d : Dev) (n : Fin 6) :
    Keeps [.sen] d (d.restartPlausibility n) := by
  unfold Dev.restartPlausibility
  split
  · refine keeps_ite (fun _ => ?_) fun _ => ?_
    · exact keeps_set keeps_refl fun p => by cases p <;> first | exact .inl rfl | exact .inr rfl | exact .inr ⟨rfl, rfl⟩ | exact .inr ⟨rfl, rfl, rfl, rfl, rfl, rfl, rfl⟩
    · exact keeps_refl
  · exact keeps_refl

theorem keeps_detection (d : Dev) (n : Fin 6) (src : Nat) :
    Keeps [.sen, .lim, .evt] d (d.detection n src) := by
  unfold Dev.detection
  extract_lets full1 first2 b3 d4 d5 d6
  clear_value full1
  clear_value first2
  refine keeps_through (b := d4) ?_ fun hd4 => ?_
  · unfold d4
    exact keeps_set keeps_refl fun p => by cases p <;> first | exact .inl rfl | exact .inr rfl | exact .inr ⟨rfl, rfl⟩ | exact .inr ⟨rfl, rfl, rfl, rfl, rfl, rfl, rfl⟩
  -- noclear d4
  refine keeps_through (b := d5) ?_ fun hd5 => ?_
  · unfold d5
    refine keeps_ite (fun _ => ?_) fun _ => ?_
    · refine keeps_via (keeps_episodeEvent _ _ _ _ _ _ _) rfl ?_
      exact hd4
    · refine keeps_via (keeps_faultEvent _ _ _ _ _) rfl ?_
      exact hd4
  clear_value d5
  refine keeps_through (b := d6) ?_ fun hd6 => ?_
  · unfold d6
    refine keeps_via (keeps_restartPlausibility _ _) rfl ?_
    exact hd5
  clear_value d6
  refine keeps_ite (fun _ => ?_) fun _ => ?_
  · refine keeps_via (keeps_notice _ _ _ _) rfl ?_
    exact hd6
  · exact hd6

theorem keeps_inputLost (d : Dev) (n : Fin 6) :
    Keeps [.sen, .lim, .evt] d (d.inputLost n) := by
  unfold Dev.inputLost
  refine keeps_ite (fun _ => ?_) fun _ => ?_
  · refine keeps_via (keeps_detection _ _ _) rfl ?_
    exact keeps_set keeps_refl fun p => by cases p <;> first | exact .inl rfl | exact .inr rfl | exact .inr ⟨rfl, rfl⟩ | exact .inr ⟨rfl, rfl, rfl, rfl, rfl, rfl, rfl⟩
  · exact keeps_refl

theorem keeps_inputActive (d : Dev) (n : Fin 6) :
    Keeps [.sen] d (d.inputActive n) := by
  unfold Dev.inputActive
  refine keeps_ite (fun _ => ?_) fun _ => ?_
  · refine keeps_via (keeps_restartPlausibility _ _) rfl ?_
    exact keeps_set keeps_refl fun p => by cases p <;> first | exact .inl rfl | exact .inr rfl | exact .inr ⟨rfl, rfl⟩ | exact .inr ⟨rfl, rfl, rfl, rfl, rfl, rfl, rfl⟩
  · exact keeps_refl

theorem keeps_inputFrozen (d : Dev) (n : Fin 6) :
    Keeps [.sen, .lim, .evt] d (d.inputFrozen n) := by
  unfold Dev.inputFrozen
  refine keeps_ite (fun _ => ?_) fun _ => ?_
  · refine keeps_via (keeps_detection _ _ _) rfl ?_
    exact keeps_set keeps_refl fun p => by cases p <;> first | exact .inl rfl | exact .inr rfl | exact .inr ⟨rfl, rfl⟩ | exact .inr ⟨rfl, rfl, rfl, rfl, rfl, rfl, rfl⟩
  · exact keeps_refl

theorem keeps_inputUnfrozen (d : Dev) (n : Fin 6) :
    Keeps [.sen] d (d.inputUnfrozen n) := by
  unfold Dev.inputUnfrozen
  refine keeps_ite (fun _ => ?_) fun _ => ?_
  · refine keeps_via (keeps_restartPlausibility _ _) rfl ?_
    exact keeps_set keeps_refl fun p => by cases p <;> first | exact .inl rfl | exact .inr rfl | exact .inr ⟨rfl, rfl⟩ | exact .inr ⟨rfl, rfl, rfl, rfl, rfl, rfl, rfl⟩
  · exact keeps_refl

theorem keeps_settlingEnd (d : Dev) :
    Keeps [.sen] d (d.settlingEnd) := by
  unfold Dev.settlingEnd
  refine keeps_ite (fun _ => ?_) fun _ => ?_
  · exact keeps_set keeps_refl fun p => by cases p <;> first | exact .inl rfl | exact .inr rfl | exact .inr ⟨rfl, rfl⟩ | exact .inr ⟨rfl, rfl, rfl, rfl, rfl, rfl, rfl⟩
  · exact keeps_refl

theorem keeps_sarConversion (d : Dev) (code : BitVec 12) :
    Keeps [.sen] d (d.sarConversion code) := by
  unfold Dev.sarConversion
  refine keeps_ite (fun _ => ?_) fun _ => ?_
  · exact keeps_refl
  · extract_lets s1 s2
    clear_value s2
    exact keeps_set keeps_refl fun p => by cases p <;> first | exact .inl rfl | exact .inr rfl | exact .inr ⟨rfl, rfl⟩ | exact .inr ⟨rfl, rfl, rfl, rfl, rfl, rfl, rfl⟩

theorem keeps_ntcFrame (d : Dev) (keep : Kept) (i : Fin 4) :
    Keeps [.stamp, .mode, .seq, .coil, .sen, .lim, .pwr, .saf, .tol, .can0, .can1, .evt, .lif] d (d.ntcFrame keep i) := by
  unfold Dev.ntcFrame
  extract_lets n1 b2 v3 was4 d5
  clear_value n1
  clear_value v3
  clear_value was4
  refine keeps_through (b := d5) ?_ fun hd5 => ?_
  · unfold d5
    exact keeps_set keeps_refl fun p => by cases p <;> first | exact .inl rfl | exact .inr rfl | exact .inr ⟨rfl, rfl⟩ | exact .inr ⟨rfl, rfl, rfl, rfl, rfl, rfl, rfl⟩
  clear_value d5
  refine keeps_ite (fun _ => ?_) fun _ => ?_
  · exact keeps_refl
  · refine keeps_ite (fun _ => ?_) fun _ => ?_
    · exact keeps_set keeps_refl fun p => by cases p <;> first | exact .inl rfl | exact .inr rfl | exact .inr ⟨rfl, rfl⟩ | exact .inr ⟨rfl, rfl, rfl, rfl, rfl, rfl, rfl⟩
    · refine keeps_ite (fun _ => ?_) fun _ => ?_
      · refine keeps_via (keeps_fault _ _ _ _ _) rfl ?_
        exact hd5
      · refine keeps_ite (fun _ => ?_) fun _ => ?_
        · exact hd5
        · refine keeps_via (keeps_faultGone _ _) rfl ?_
          exact hd5

theorem keeps_ainFrame (d : Dev) (keep : Kept) :
    Keeps [.sen] d (d.ainFrame keep) := by
  unfold Dev.ainFrame
  exact keeps_set keeps_refl fun p => by cases p <;> first | exact .inl rfl | exact .inr rfl | exact .inr ⟨rfl, rfl⟩ | exact .inr ⟨rfl, rfl, rfl, rfl, rfl, rfl, rfl⟩

theorem keeps_meansFrame (d : Dev) (keep : Kept) :
    Keeps [.sen] d (d.meansFrame keep) := by
  unfold Dev.meansFrame
  exact keeps_set keeps_refl fun p => by cases p <;> first | exact .inl rfl | exact .inr rfl | exact .inr ⟨rfl, rfl⟩ | exact .inr ⟨rfl, rfl, rfl, rfl, rfl, rfl, rfl⟩

theorem keeps_hallFrame (d : Dev) :
    Keeps [.sen] d (d.hallFrame) := by
  unfold Dev.hallFrame
  extract_lets x1 b2
  clear_value x1
  exact keeps_set keeps_refl fun p => by cases p <;> first | exact .inl rfl | exact .inr rfl | exact .inr ⟨rfl, rfl⟩ | exact .inr ⟨rfl, rfl, rfl, rfl, rfl, rfl, rfl⟩

theorem keeps_plausibility (d : Dev) (x : Fin 3) (against : Bool) :
    Keeps [.sen, .lim, .evt] d (d.plausibility x against) := by
  unfold Dev.plausibility
  extract_lets bad1 good2 was3 now4 b5 d6
  clear_value bad1
  clear_value good2
  clear_value was3
  clear_value now4
  refine keeps_through (b := d6) ?_ fun hd6 => ?_
  · unfold d6
    exact keeps_set keeps_refl fun p => by cases p <;> first | exact .inl rfl | exact .inr rfl | exact .inr ⟨rfl, rfl⟩ | exact .inr ⟨rfl, rfl, rfl, rfl, rfl, rfl, rfl⟩
  clear_value d6
  refine keeps_ite (fun _ => ?_) fun _ => ?_
  · refine keeps_via (keeps_faultEvent _ _ _ _ _) rfl ?_
    exact hd6
  · exact hd6

theorem keeps_packFrame (d : Dev) :
    Keeps [.seq, .sen, .lim, .evt] d (d.packFrame) := by
  unfold Dev.packFrame
  extract_lets c1 b2 d3 b4 d5 d6
  refine keeps_through (b := d3) ?_ fun hd3 => ?_
  · unfold d3
    exact keeps_set keeps_refl fun p => by cases p <;> first | exact .inl rfl | exact .inr rfl | exact .inr ⟨rfl, rfl⟩ | exact .inr ⟨rfl, rfl, rfl, rfl, rfl, rfl, rfl⟩
  clear_value d3
  refine keeps_through (b := d5) ?_ fun hd5 => ?_
  · unfold d5
    refine keeps_ite (fun _ => ?_) fun _ => ?_
    · exact hd3
    · refine keeps_set (b := d3) ?_ fun p => by cases p <;> first | exact .inl rfl | exact .inr rfl | exact .inr ⟨rfl, rfl⟩ | exact .inr ⟨rfl, rfl, rfl, rfl, rfl, rfl, rfl⟩
      exact hd3
  clear_value d5
  refine keeps_through (b := d6) ?_ fun hd6 => ?_
  · unfold d6
    refine keeps_ite (fun _ => ?_) fun _ => ?_
    · exact hd5
    · refine keeps_foldl ?_ fun d7 x8 => ?_
      · exact hd5
      · exact keeps_mono (keeps_plausibility _ _ _) rfl
  clear_value d6
  refine keeps_ite (fun _ => ?_) fun _ => ?_
  · refine keeps_via (keeps_faultEvent _ _ _ _ _) rfl ?_
    exact hd6
  · exact hd6

theorem keeps_sensingFaults (d : Dev) :
    Keeps [.stamp, .mode, .seq, .coil, .sen, .lim, .pwr, .saf, .tol, .can0, .can1, .evt, .lif] d (d.sensingFaults) := by
  unfold Dev.sensingFaults
  extract_lets bad1 pre2 d3 d4 d5 d6 d7 d8 b9
  clear_value bad1
  clear_value pre2
  refine keeps_through (b := d3) ?_ fun hd3 => ?_
  · unfold d3
    exact keeps_mono (keeps_faultWhen _ _ _ _ _ _) rfl
  clear_value d3
  refine keeps_through (b := d4) ?_ fun hd4 => ?_
  · unfold d4
    refine keeps_ite (fun _ => ?_) fun _ => ?_
    · exact hd3
    · refine keeps_via (keeps_faultWhen _ _ _ _ _ _) rfl ?_
      exact hd3
  clear_value d4
  refine keeps_through (b := d5) ?_ fun hd5 => ?_
  · unfold d5
    refine keeps_via (keeps_faultWhen _ _ _ _ _ _) rfl ?_
    exact hd4
  clear_value d5
  refine keeps_through (b := d6) ?_ fun hd6 => ?_
  · unfold d6
    refine keeps_via (keeps_faultWhen _ _ _ _ _ _) rfl ?_
    exact hd5
  clear_value d6
  refine keeps_through (b := d7) ?_ fun hd7 => ?_
  · unfold d7
    refine keeps_via (keeps_faultWhen _ _ _ _ _ _) rfl ?_
    exact hd6
  clear_value d7
  refine keeps_through (b := d8) ?_ fun hd8 => ?_
  · unfold d8
    refine keeps_via (keeps_faultWhen _ _ _ _ _ _) rfl ?_
    exact hd7
  clear_value d8
  refine keeps_set (b := d8) ?_ fun p => by cases p <;> first | exact .inl rfl | exact .inr rfl | exact .inr ⟨rfl, rfl⟩ | exact .inr ⟨rfl, rfl, rfl, rfl, rfl, rfl, rfl⟩
  exact hd8

theorem keeps_sensingFrame (d : Dev) (keep : Kept) :
    Keeps [.stamp, .mode, .seq, .coil, .sen, .lim, .pwr, .saf, .tol, .can0, .can1, .evt, .lif] d (d.sensingFrame keep) := by
  unfold Dev.sensingFrame
  extract_lets d1 d2
  refine keeps_through (b := d1) ?_ fun hd1 => ?_
  · unfold d1
    refine keeps_via (keeps_ainFrame _ _) rfl ?_
    exact keeps_mono (keeps_meansFrame _ _) rfl
  clear_value d1
  refine keeps_through (b := d2) ?_ fun hd2 => ?_
  · unfold d2
    refine keeps_foldl ?_ fun d3 x4 => ?_
    · exact hd1
    · exact keeps_mono (keeps_ntcFrame _ _ _) rfl
  clear_value d2
  refine keeps_via (keeps_packFrame _) rfl ?_
  refine keeps_via (keeps_hallFrame _) rfl ?_
  exact hd2

end Sys2Proof.Laws
end

