-- ==== Sys2Proof/Laws/KeepsTolling.lean ====
section
/-! SUPPORT. Which parts of the device each operation of Tolling, Ledger, Can, Cells, Estimate, Limits may change, each said once. -/
namespace Sys2Proof.Laws

open Sys2Proof.Machine Sys2Proof.Safety

theorem keeps_refuseSession (d : Dev) (reason : Nat) (code : Nat) :
    Keeps [.tol] d (d.refuseSession reason code).1 := by
  unfold Dev.refuseSession
  refine keeps_pair ?_
  exact keeps_set keeps_refl fun p => by cases p <;> first | exact .inl rfl | exact .inr rfl | exact .inr ⟨rfl, rfl⟩ | exact .inr ⟨rfl, rfl, rfl, rfl, rfl, rfl, rfl⟩

theorem keeps_openSession (d : Dev) (want : Session) :
    Keeps [.coil, .tol] d (d.openSession want).1 := by
  unfold Dev.openSession
  refine keeps_ite_fst (fun _ => ?_) fun _ => ?_
  · exact keeps_mono (keeps_refuseSession _ _ _) rfl
  · refine keeps_ite_fst (fun _ => ?_) fun _ => ?_
    · exact keeps_mono (keeps_refuseSession _ _ _) rfl
    · refine keeps_ite_fst (fun _ => ?_) fun _ => ?_
      · exact keeps_mono (keeps_refuseSession _ _ _) rfl
      · refine keeps_ite_fst (fun _ => ?_) fun _ => ?_
        · exact keeps_mono (keeps_refuseSession _ _ _) rfl
        · refine keeps_ite_fst (fun _ => ?_) fun _ => ?_
          · exact keeps_mono (keeps_refuseSession _ _ _) rfl
          · refine keeps_ite_fst (fun _ => ?_) fun _ => ?_
            · exact keeps_mono (keeps_refuseSession _ _ _) rfl
            · refine keeps_ite_fst (fun _ => ?_) fun _ => ?_
              · exact keeps_mono (keeps_refuseSession _ _ _) rfl
              · refine keeps_ite_fst (fun _ => ?_) fun _ => ?_
                · exact keeps_mono (keeps_refuseSession _ _ _) rfl
                · refine keeps_ite_fst (fun _ => ?_) fun _ => ?_
                  · exact keeps_mono (keeps_refuseSession _ _ _) rfl
                  · refine keeps_ite_fst (fun _ => ?_) fun _ => ?_
                    · exact keeps_mono (keeps_refuseSession _ _ _) rfl
                    · refine keeps_ite_fst (fun _ => ?_) fun _ => ?_
                      · exact keeps_mono (keeps_refuseSession _ _ _) rfl
                      · extract_lets resuming1 b2 d3
                        clear_value resuming1
                        refine keeps_through (b := d3) ?_ fun hd3 => ?_
                        · unfold d3
                          exact keeps_set keeps_refl fun p => by cases p <;> first | exact .inl rfl | exact .inr rfl | exact .inr ⟨rfl, rfl⟩ | exact .inr ⟨rfl, rfl, rfl, rfl, rfl, rfl, rfl⟩
                        clear_value d3
                        refine keeps_pair ?_
                        refine keeps_via (keeps_pullIn _ _) rfl ?_
                        refine keeps_via (keeps_setSession _ _) rfl ?_
                        exact hd3

theorem keeps_bodySessionOpen (d : Dev) :
    Keeps [.coil, .est, .tol, .can0, .can1] d (bodySessionOpen d).1 := by
  unfold bodySessionOpen
  refine keeps_via (keeps_openSession _ _) rfl ?_
  exact keeps_mono (keeps_withdrawStep _) rfl

theorem keeps_bodyResume (d : Dev) :
    Keeps [.coil, .tol] d (bodyResume d).1 := by
  unfold bodyResume
  exact keeps_mono (keeps_openSession _ _) rfl

theorem keeps_closeActive (d : Dev) :
    Keeps [.seq, .tol, .can0, .can1] d (d.closeActive) := by
  unfold Dev.closeActive
  extract_lets d1 b2 d3
  refine keeps_through (b := d1) ?_ fun hd1 => ?_
  · unfold d1
    exact keeps_mono (keeps_capture _) rfl
  clear_value d1
  refine keeps_through (b := d3) ?_ fun hd3 => ?_
  · unfold d3
    refine keeps_set (b := d1) ?_ fun p => by cases p <;> first | exact .inl rfl | exact .inr rfl | exact .inr ⟨rfl, rfl⟩ | exact .inr ⟨rfl, rfl, rfl, rfl, rfl, rfl, rfl⟩
    exact hd1
  clear_value d3
  refine keeps_via (keeps_publish _ _) rfl ?_
  refine keeps_via (keeps_setSession _ _) rfl ?_
  exact hd3

theorem keeps_closeSuspended (d : Dev) :
    Keeps [.tol] d (d.closeSuspended) := by
  unfold Dev.closeSuspended
  extract_lets waits1 b2 d3 d4 d5
  refine keeps_through (b := d3) ?_ fun hd3 => ?_
  · unfold d3
    exact keeps_set keeps_refl fun p => by cases p <;> first | exact .inl rfl | exact .inr rfl | exact .inr ⟨rfl, rfl⟩ | exact .inr ⟨rfl, rfl, rfl, rfl, rfl, rfl, rfl⟩
  -- noclear d3
  refine keeps_through (b := d4) ?_ fun hd4 => ?_
  · unfold d4
    refine keeps_ite (fun _ => ?_) fun _ => ?_
    · refine keeps_via (keeps_sealDue _ _) rfl ?_
      exact hd3
    · exact hd3
  -- noclear d4
  refine keeps_through (b := d5) ?_ fun hd5 => ?_
  · unfold d5
    refine keeps_via (keeps_sealDue _ _) rfl ?_
    exact hd4
  -- noclear d5
  refine keeps_ite (fun _ => ?_) fun _ => ?_
  · exact hd5
  · refine keeps_via (keeps_setSession _ _) rfl ?_
    exact hd5

theorem keeps_closeOpening (d : Dev) :
    Keeps [.coil, .tol] d (d.closeOpening) := by
  unfold Dev.closeOpening
  refine keeps_via (keeps_tollK4Open _) rfl ?_
  exact keeps_mono (keeps_release _ _) rfl

theorem keeps_bodySessionClose (d : Dev) :
    Keeps [.seq, .coil, .tol, .can0, .can1] d (bodySessionClose d).1 := by
  unfold bodySessionClose
  refine keeps_ite_fst (fun _ => ?_) fun _ => ?_
  · refine keeps_pair ?_
    exact keeps_refl
  · split
    · refine keeps_pair ?_
      exact keeps_refl
    · refine keeps_pair ?_
      exact keeps_mono (keeps_closeOpening _) rfl
    · refine keeps_pair ?_
      exact keeps_mono (keeps_closeActive _) rfl
    · refine keeps_pair ?_
      exact keeps_refl
    · refine keeps_pair ?_
      exact keeps_mono (keeps_closeSuspended _) rfl

theorem keeps_bodySnapshot (d : Dev) :
    Keeps [.doms, .tol, .lgr, .dep] d (bodySnapshot d).1 := by
  unfold bodySnapshot
  refine keeps_ite_fst (fun _ => ?_) fun _ => ?_
  · refine keeps_pair ?_
    exact keeps_refl
  · extract_lets d1
    refine keeps_through (b := d1) ?_ fun hd1 => ?_
    · unfold d1
      exact keeps_mono (keeps_drainRecords _) rfl
    clear_value d1
    refine keeps_ite_fst (fun _ => ?_) fun _ => ?_
    · refine keeps_pair ?_
      exact hd1
    · refine keeps_pair ?_
      refine keeps_via (keeps_freeze _ _ _ _) rfl ?_
      exact hd1

theorem keeps_interimDue (d : Dev) :
    Keeps [.tol] d (d.interimDue) := by
  unfold Dev.interimDue
  refine keeps_ite (fun _ => ?_) fun _ => ?_
  · refine keeps_via (keeps_sealDue _ _) rfl ?_
    exact keeps_set keeps_refl fun p => by cases p <;> first | exact .inl rfl | exact .inr rfl | exact .inr ⟨rfl, rfl⟩ | exact .inr ⟨rfl, rfl, rfl, rfl, rfl, rfl, rfl⟩
  · exact keeps_refl

theorem keeps_meterFrame (d : Dev) :
    Keeps [.tol, .can0, .can1] d (d.meterFrame) := by
  unfold Dev.meterFrame
  extract_lets input1 staging2 any3 low4 starts5 b6 d7 d8
  clear_value input1
  clear_value staging2
  clear_value any3
  clear_value low4
  clear_value starts5
  refine keeps_through (b := d7) ?_ fun hd7 => ?_
  · unfold d7
    exact keeps_set keeps_refl fun p => by cases p <;> first | exact .inl rfl | exact .inr rfl | exact .inr ⟨rfl, rfl⟩ | exact .inr ⟨rfl, rfl, rfl, rfl, rfl, rfl, rfl⟩
  clear_value d7
  refine keeps_through (b := d8) ?_ fun hd8 => ?_
  · unfold d8
    refine keeps_ite (fun _ => ?_) fun _ => ?_
    · refine keeps_via (keeps_markSession _ _) rfl ?_
      exact hd7
    · exact hd7
  clear_value d8
  refine keeps_ite (fun _ => ?_) fun _ => ?_
  · refine keeps_via (keeps_publish _ _) rfl ?_
    refine keeps_via (keeps_notice _ _ _ _) rfl ?_
    exact hd8
  · exact hd8

theorem keeps_meterStopEnds (d : Dev) :
    Keeps [.tol, .can0, .can1] d (d.meterStopEnds) := by
  unfold Dev.meterStopEnds
  refine keeps_ite (fun _ => ?_) fun _ => ?_
  · refine keeps_via (keeps_publish _ _) rfl ?_
    refine keeps_via (keeps_notice _ _ _ _) rfl ?_
    refine keeps_via (keeps_markSession _ _) rfl ?_
    exact keeps_set keeps_refl fun p => by cases p <;> first | exact .inl rfl | exact .inr rfl | exact .inr ⟨rfl, rfl⟩ | exact .inr ⟨rfl, rfl, rfl, rfl, rfl, rfl, rfl⟩
  · exact keeps_refl

theorem keeps_impulse (d : Dev) :
    Keeps [.tol] d (d.impulse) := by
  unfold Dev.impulse
  refine keeps_ite (fun _ => ?_) fun _ => ?_
  · exact keeps_set keeps_refl fun p => by cases p <;> first | exact .inl rfl | exact .inr rfl | exact .inr ⟨rfl, rfl⟩ | exact .inr ⟨rfl, rfl, rfl, rfl, rfl, rfl, rfl⟩
  · exact keeps_refl

theorem keeps_closeSeal (d : Dev) :
    Keeps [.doms, .tol, .lgr, .dep] d (d.closeSeal) := by
  unfold Dev.closeSeal
  refine keeps_ite (fun _ => ?_) fun _ => ?_
  · refine keeps_via (keeps_sealAudit _ _) rfl ?_
    refine keeps_via (keeps_notice _ _ _ _) rfl ?_
    exact keeps_set keeps_refl fun p => by cases p <;> first | exact .inl rfl | exact .inr rfl | exact .inr ⟨rfl, rfl⟩ | exact .inr ⟨rfl, rfl, rfl, rfl, rfl, rfl, rfl⟩
  · exact keeps_refl

theorem keeps_bodyCalOpen (d : Dev) :
    Keeps [.doms, .tol, .lgr, .dep] d (bodyCalOpen d).1 := by
  unfold bodyCalOpen
  refine keeps_ite_fst (fun _ => ?_) fun _ => ?_
  · refine keeps_pair ?_
    exact keeps_refl
  · refine keeps_ite_fst (fun _ => ?_) fun _ => ?_
    · refine keeps_pair ?_
      exact keeps_refl
    · refine keeps_ite_fst (fun _ => ?_) fun _ => ?_
      · refine keeps_pair ?_
        exact keeps_refl
      · refine keeps_pair ?_
        refine keeps_via (keeps_sealAudit _ _) rfl ?_
        refine keeps_via (keeps_notice _ _ _ _) rfl ?_
        exact keeps_set keeps_refl fun p => by cases p <;> first | exact .inl rfl | exact .inr rfl | exact .inr ⟨rfl, rfl⟩ | exact .inr ⟨rfl, rfl, rfl, rfl, rfl, rfl, rfl⟩

theorem keeps_bodyCalClose (d : Dev) :
    Keeps [.doms, .tol, .lgr, .dep] d (bodyCalClose d).1 := by
  unfold bodyCalClose
  refine keeps_pair ?_
  exact keeps_mono (keeps_closeSeal _) rfl

theorem keeps_enclosureOpens (d : Dev) :
    Keeps [.doms, .tol, .lgr, .dep] d (d.enclosureOpens) := by
  unfold Dev.enclosureOpens
  extract_lets session1 b2 d3 d4 b5
  clear_value session1
  refine keeps_through (b := d3) ?_ fun hd3 => ?_
  · unfold d3
    exact keeps_set keeps_refl fun p => by cases p <;> first | exact .inl rfl | exact .inr rfl | exact .inr ⟨rfl, rfl⟩ | exact .inr ⟨rfl, rfl, rfl, rfl, rfl, rfl, rfl⟩
  clear_value d3
  refine keeps_through (b := d4) ?_ fun hd4 => ?_
  · unfold d4
    refine keeps_ite (fun _ => ?_) fun _ => ?_
    · refine keeps_via (keeps_notice _ _ _ _) rfl ?_
      exact hd3
    · exact hd3
  clear_value d4
  refine keeps_ite (fun _ => ?_) fun _ => ?_
  · refine keeps_via (keeps_sealAudit _ _) rfl ?_
    exact hd4
  · refine keeps_set (b := d4) ?_ fun p => by cases p <;> first | exact .inl rfl | exact .inr rfl | exact .inr ⟨rfl, rfl⟩ | exact .inr ⟨rfl, rfl, rfl, rfl, rfl, rfl, rfl⟩
    exact hd4

theorem keeps_enclosureCloses (d : Dev) :
    Keeps [.doms, .tol, .lgr, .dep] d (d.enclosureCloses) := by
  unfold Dev.enclosureCloses
  extract_lets b1 d2 d3
  refine keeps_through (b := d2) ?_ fun hd2 => ?_
  · unfold d2
    exact keeps_set keeps_refl fun p => by cases p <;> first | exact .inl rfl | exact .inr rfl | exact .inr ⟨rfl, rfl⟩ | exact .inr ⟨rfl, rfl, rfl, rfl, rfl, rfl, rfl⟩
  clear_value d2
  refine keeps_through (b := d3) ?_ fun hd3 => ?_
  · unfold d3
    refine keeps_ite (fun _ => ?_) fun _ => ?_
    · refine keeps_via (keeps_notice _ _ _ _) rfl ?_
      exact hd2
    · exact hd2
  clear_value d3
  refine keeps_via (keeps_closeSeal _) rfl ?_
  exact hd3

theorem keeps_enclosureChange (d : Dev) (seal0 : Bool) (seal1 : Bool) :
    Keeps [.doms, .tol, .lgr, .dep] d (d.enclosureChange seal0 seal1) := by
  unfold Dev.enclosureChange
  extract_lets was1 now2 b3 d4 b5
  refine keeps_through (b := d4) ?_ fun hd4 => ?_
  · unfold d4
    exact keeps_set keeps_refl fun p => by cases p <;> first | exact .inl rfl | exact .inr rfl | exact .inr ⟨rfl, rfl⟩ | exact .inr ⟨rfl, rfl, rfl, rfl, rfl, rfl, rfl⟩
  clear_value d4
  refine keeps_ite (fun _ => ?_) fun _ => ?_
  · refine keeps_set (b := d4) ?_ fun p => by cases p <;> first | exact .inl rfl | exact .inr rfl | exact .inr ⟨rfl, rfl⟩ | exact .inr ⟨rfl, rfl, rfl, rfl, rfl, rfl, rfl⟩
    exact hd4
  · refine keeps_ite (fun _ => ?_) fun _ => ?_
    · refine keeps_via (keeps_enclosureOpens _) rfl ?_
      exact hd4
    · refine keeps_ite (fun _ => ?_) fun _ => ?_
      · refine keeps_via (keeps_enclosureCloses _) rfl ?_
        exact hd4
      · exact hd4

theorem keeps_changeSealed (d : Dev) (addr : Nat) (old : Word) (new : Word) (set : Toll → Toll) :
    Keeps [.doms, .tol, .lgr, .dep, .mem, .copies] d (d.changeSealed addr old new set) := by
  unfold Dev.changeSealed
  extract_lets b1 d2
  clear_value b1
  refine keeps_through (b := d2) ?_ fun hd2 => ?_
  · unfold d2
    exact keeps_set keeps_refl fun p => by cases p <;> first | exact .inl rfl | exact .inr rfl | exact .inr ⟨rfl, rfl⟩ | exact .inr ⟨rfl, rfl, rfl, rfl, rfl, rfl, rfl⟩
  clear_value d2
  refine keeps_via (keeps_dueAudit _ _ _) rfl ?_
  refine keeps_via (keeps_writeSealed _) rfl ?_
  exact hd2

theorem keeps_recordSigned (d : Dev) :
    Keeps [.lgr] d (d.recordSigned) := by
  unfold Dev.recordSigned
  split
  · exact keeps_refl
  · exact keeps_set keeps_refl fun p => by cases p <;> first | exact .inl rfl | exact .inr rfl | exact .inr ⟨rfl, rfl⟩ | exact .inr ⟨rfl, rfl, rfl, rfl, rfl, rfl, rfl⟩

theorem keeps_startCommit (d : Dev) :
    Keeps [.doms, .lgr, .dep, .mem] d (d.startCommit) := by
  unfold Dev.startCommit
  split
  · exact keeps_refl
  · refine keeps_ite (fun _ => ?_) fun _ => ?_
    · exact keeps_refl
    · extract_lets d1 d2 b3 b4
      refine keeps_through (b := d1) ?_ fun hd1 => ?_
      · unfold d1
        exact keeps_mono (keeps_needDepot _) rfl
      clear_value d1
      refine keeps_through (b := d2) ?_ fun hd2 => ?_
      · unfold d2
        refine keeps_via (keeps_setCs0 _ _ _) rfl ?_
        refine keeps_via (keeps_setCs0 _ _ _) rfl ?_
        exact hd1
      clear_value d2
      refine keeps_ite (fun _ => ?_) fun _ => ?_
      · refine keeps_set (b := d2) ?_ fun p => by cases p <;> first | exact .inl rfl | exact .inr rfl | exact .inr ⟨rfl, rfl⟩ | exact .inr ⟨rfl, rfl, rfl, rfl, rfl, rfl, rfl⟩
        exact hd2
      · exact hd1

theorem keeps_ledgerCommit (d : Dev) :
    Keeps [.doms, .lgr, .dep, .mem] d (d.ledgerCommit) := by
  unfold Dev.ledgerCommit
  refine keeps_ite (fun _ => ?_) fun _ => ?_
  · exact keeps_refl
  · exact keeps_mono (keeps_startCommit _) rfl

theorem keeps_commitRetry (d : Dev) :
    Keeps [.doms, .lgr, .dep, .mem] d (d.commitRetry) := by
  unfold Dev.commitRetry
  refine keeps_ite (fun _ => ?_) fun _ => ?_
  · exact keeps_mono (keeps_startCommit _) rfl
  · exact keeps_refl

theorem keeps_countCs0Error (d : Dev) :
    Keeps [.dep] d (d.countCs0Error) := by
  unfold Dev.countCs0Error
  exact keeps_set keeps_refl fun p => by cases p <;> first | exact .inl rfl | exact .inr rfl | exact .inr ⟨rfl, rfl⟩ | exact .inr ⟨rfl, rfl, rfl, rfl, rfl, rfl, rfl⟩

theorem keeps_endCommit (d : Dev) :
    Keeps [.lgr, .dep] d (d.endCommit) := by
  unfold Dev.endCommit
  exact keeps_set keeps_refl fun p => by cases p <;> first | exact .inl rfl | exact .inr rfl | exact .inr ⟨rfl, rfl⟩ | exact .inr ⟨rfl, rfl, rfl, rfl, rfl, rfl, rfl⟩

theorem keeps_commitDone (d : Dev) (r : Sealed) (rest : List Sealed) :
    Keeps [.lgr, .dep, .mem] d (d.commitDone r rest) := by
  unfold Dev.commitDone
  extract_lets d1 b2 d3
  refine keeps_through (b := d1) ?_ fun hd1 => ?_
  · unfold d1
    exact keeps_mono (keeps_setCs0 _ _ _) rfl
  clear_value d1
  refine keeps_through (b := d3) ?_ fun hd3 => ?_
  · unfold d3
    refine keeps_set (b := d1) ?_ fun p => by cases p <;> first | exact .inl rfl | exact .inr rfl | exact .inr ⟨rfl, rfl⟩ | exact .inr ⟨rfl, rfl, rfl, rfl, rfl, rfl, rfl⟩
    exact hd1
  clear_value d3
  refine keeps_via (keeps_notice _ _ _ _) rfl ?_
  refine keeps_via (keeps_endCommit _) rfl ?_
  refine keeps_via (keeps_writeHeader _ _) rfl ?_
  exact hd3

theorem keeps_ledgerCommitEnd (d : Dev) (first : Bool) (second : Bool) :
    Keeps [.lgr, .dep, .mem] d (d.ledgerCommitEnd first second) := by
  unfold Dev.ledgerCommitEnd
  refine keeps_ite (fun _ => ?_) fun _ => ?_
  · exact keeps_refl
  · split
    · exact keeps_mono (keeps_endCommit _) rfl
    · extract_lets d1 d2 b3 d4
      refine keeps_through (b := d1) ?_ fun hd1 => ?_
      · unfold d1
        refine keeps_ite (fun _ => ?_) fun _ => ?_
        · exact keeps_refl
        · exact keeps_mono (keeps_countCs0Error _) rfl
      clear_value d1
      refine keeps_through (b := d2) ?_ fun hd2 => ?_
      · unfold d2
        refine keeps_via (keeps_endCommit _) rfl ?_
        refine keeps_via (keeps_countCs0Error _) rfl ?_
        exact hd1
      clear_value d2
      refine keeps_through (b := d4) ?_ fun hd4 => ?_
      · unfold d4
        refine keeps_set (b := d2) ?_ fun p => by cases p <;> first | exact .inl rfl | exact .inr rfl | exact .inr ⟨rfl, rfl⟩ | exact .inr ⟨rfl, rfl, rfl, rfl, rfl, rfl, rfl⟩
        exact hd2
      clear_value d4
      refine keeps_ite (fun _ => ?_) fun _ => ?_
      · refine keeps_via (keeps_commitDone _ _ _) rfl ?_
        exact hd1
      · refine keeps_via (keeps_notice _ _ _ _) rfl ?_
        exact hd4

theorem keeps_applyAck (d : Dev) (v : Nat) :
    Keeps [.doms, .lgr, .dep, .mem, .copies] d (d.applyAck v) := by
  unfold Dev.applyAck
  extract_lets before1 b2 d3
  refine keeps_through (b := d3) ?_ fun hd3 => ?_
  · unfold d3
    exact keeps_set keeps_refl fun p => by cases p <;> first | exact .inl rfl | exact .inr rfl | exact .inr ⟨rfl, rfl⟩ | exact .inr ⟨rfl, rfl, rfl, rfl, rfl, rfl, rfl⟩
  clear_value d3
  refine keeps_via (keeps_lowCheck _ _) rfl ?_
  refine keeps_via (keeps_queueHeader _ _) rfl ?_
  exact hd3

theorem keeps_bodyAck (d : Dev) :
    Keeps [.doms, .lgr, .dep, .mem, .copies] d (bodyAck d).1 := by
  unfold bodyAck
  extract_lets v1 b2
  refine keeps_ite_fst (fun _ => ?_) fun _ => ?_
  · refine keeps_pair ?_
    exact keeps_refl
  · refine keeps_ite_fst (fun _ => ?_) fun _ => ?_
    · refine keeps_pair ?_
      exact keeps_refl
    · refine keeps_ite_fst (fun _ => ?_) fun _ => ?_
      · refine keeps_pair ?_
        exact keeps_set keeps_refl fun p => by cases p <;> first | exact .inl rfl | exact .inr rfl | exact .inr ⟨rfl, rfl⟩ | exact .inr ⟨rfl, rfl, rfl, rfl, rfl, rfl, rfl⟩
      · refine keeps_pair ?_
        exact keeps_mono (keeps_applyAck _ _) rfl

theorem keeps_ackFrame (d : Dev) :
    Keeps [.doms, .lgr, .dep, .mem, .copies] d (d.ackFrame) := by
  unfold Dev.ackFrame
  split
  · refine keeps_ite (fun _ => ?_) fun _ => ?_
    · exact keeps_refl
    · exact keeps_mono (keeps_applyAck _ _) rfl
  · exact keeps_refl

theorem keeps_judgeRecord (d : Dev) (n : Nat) (verified : Bool) :
    Keeps [.lgr] d (d.judgeRecord n verified) := by
  unfold Dev.judgeRecord
  refine keeps_ite (fun _ => ?_) fun _ => ?_
  · exact keeps_refl
  · extract_lets newest1 b2 d3 b4 d5
    clear_value newest1
    refine keeps_through (b := d3) ?_ fun hd3 => ?_
    · unfold d3
      exact keeps_set keeps_refl fun p => by cases p <;> first | exact .inl rfl | exact .inr rfl | exact .inr ⟨rfl, rfl⟩ | exact .inr ⟨rfl, rfl, rfl, rfl, rfl, rfl, rfl⟩
    clear_value d3
    refine keeps_through (b := d5) ?_ fun hd5 => ?_
    · unfold d5
      refine keeps_ite (fun _ => ?_) fun _ => ?_
      · refine keeps_set (b := d3) ?_ fun p => by cases p <;> first | exact .inl rfl | exact .inr rfl | exact .inr ⟨rfl, rfl⟩ | exact .inr ⟨rfl, rfl, rfl, rfl, rfl, rfl, rfl⟩
        exact hd3
      · refine keeps_set (b := d3) ?_ fun p => by cases p <;> first | exact .inl rfl | exact .inr rfl | exact .inr ⟨rfl, rfl⟩ | exact .inr ⟨rfl, rfl, rfl, rfl, rfl, rfl, rfl⟩
        exact hd3
    clear_value d5
    refine keeps_via (keeps_notice _ _ _ _) rfl ?_
    exact hd5

theorem keeps_checkSlot (d : Dev) (n : Nat) :
    Keeps [.lgr] d (d.checkSlot n) := by
  unfold Dev.checkSlot
  extract_lets b1
  clear_value b1
  refine keeps_ite (fun _ => ?_) fun _ => ?_
  · exact keeps_refl
  · exact keeps_mono (keeps_judgeRecord _ _ _) rfl

theorem keeps_recordCheck (d : Dev) :
    Keeps [.doms, .lgr] d (d.recordCheck) := by
  unfold Dev.recordCheck
  refine keeps_ite (fun _ => ?_) fun _ => ?_
  · exact keeps_refl
  · extract_lets d1 n2 b3
    refine keeps_through (b := d1) ?_ fun hd1 => ?_
    · unfold d1
      exact keeps_mono (keeps_needDepot _) rfl
    clear_value d1
    clear_value n2
    refine keeps_ite (fun _ => ?_) fun _ => ?_
    · refine keeps_via (keeps_checkSlot _ _) rfl ?_
      refine keeps_set (b := d1) ?_ fun p => by cases p <;> first | exact .inl rfl | exact .inr rfl | exact .inr ⟨rfl, rfl⟩ | exact .inr ⟨rfl, rfl, rfl, rfl, rfl, rfl, rfl⟩
      exact hd1
    · exact hd1

theorem keeps_reseal (d : Dev) (h : Nat) (found : Byte) (cause : Nat) :
    Keeps [.sys, .lgr, .mem] d (d.reseal h found cause) := by
  unfold Dev.reseal
  extract_lets b1 d2 b3 b4 d5
  clear_value b1
  refine keeps_through (b := d2) ?_ fun hd2 => ?_
  · unfold d2
    exact keeps_mono (keeps_setCs0 _ _ _) rfl
  clear_value d2
  refine keeps_through (b := d5) ?_ fun hd5 => ?_
  · unfold d5
    refine keeps_set (b := d2) ?_ fun p => by cases p <;> first | exact .inl rfl | exact .inr rfl | exact .inr ⟨rfl, rfl⟩ | exact .inr ⟨rfl, rfl, rfl, rfl, rfl, rfl, rfl⟩
    exact hd2
  clear_value d5
  refine keeps_via (keeps_writeHeader _ _) rfl ?_
  exact hd5

theorem keeps_findCorrupt (d : Dev) :
    Keeps [.sys] d (d.findCorrupt) := by
  unfold Dev.findCorrupt
  refine keeps_ite (fun _ => ?_) fun _ => ?_
  · exact keeps_set keeps_refl fun p => by cases p <;> first | exact .inl rfl | exact .inr rfl | exact .inr ⟨rfl, rfl⟩ | exact .inr ⟨rfl, rfl, rfl, rfl, rfl, rfl, rfl⟩
  · exact keeps_refl

theorem keeps_acceptSlot (d : Dev) (h : Nat) :
    Keeps [.lgr, .mem] d (d.acceptSlot h) := by
  unfold Dev.acceptSlot
  refine keeps_via (keeps_writeHeader _ _) rfl ?_
  exact keeps_set keeps_refl fun p => by cases p <;> first | exact .inl rfl | exact .inr rfl | exact .inr ⟨rfl, rfl⟩ | exact .inr ⟨rfl, rfl, rfl, rfl, rfl, rfl, rfl⟩

theorem keeps_examine (x0 : Nat) (x1 : Nat) (x2 : Dev) :
    Keeps [.sys, .lgr, .mem] x2 (Dev.examine x0 x1 x2).1 := by
  induction x0 generalizing x1 x2
  · unfold Dev.examine
    refine keeps_pair ?_
    exact keeps_refl
  · rename_i x0 ih
    unfold Dev.examine
    extract_lets b1 marker2 seq3 crc4 d5
    clear_value b1
    refine keeps_through (b := d5) ?_ fun hd5 => ?_
    · unfold d5
      exact keeps_mono (keeps_acceptSlot _ _) rfl
    clear_value d5
    refine keeps_ite_fst (fun _ => ?_) fun _ => ?_
    · refine keeps_ite_fst (fun _ => ?_) fun _ => ?_
      · refine keeps_trans ?_ (ih _ _)
        refine keeps_ite (fun _ => ?_) fun _ => ?_
        · exact hd5
        · refine keeps_via (keeps_findCorrupt _) rfl ?_
          refine keeps_via (keeps_judgeRecord _ _ _) rfl ?_
          exact hd5
      · refine keeps_ite_fst (fun _ => ?_) fun _ => ?_
        · refine keeps_ite_fst (fun _ => ?_) fun _ => ?_
          · refine keeps_pair ?_
            exact keeps_refl
          · refine keeps_trans ?_ (ih _ _)
            refine keeps_via (keeps_findCorrupt _) rfl ?_
            refine keeps_via (keeps_judgeRecord _ _ _) rfl ?_
            exact keeps_mono (keeps_acceptSlot _ _) rfl
        · refine keeps_pair ?_
          exact keeps_refl
    · refine keeps_ite_fst (fun _ => ?_) fun _ => ?_
      · refine keeps_pair ?_
        exact keeps_refl
      · refine keeps_pair ?_
        exact keeps_mono (keeps_reseal _ _ _ _) rfl

theorem keeps_findHead (d : Dev) (life : Option (Nat × Nat)) :
    Keeps [.sys, .tol, .lgr] d (d.findHead life).1 := by
  unfold Dev.findHead
  split
  · refine keeps_pair ?_
    exact keeps_set keeps_refl fun p => by cases p <;> first | exact .inl rfl | exact .inr rfl | exact .inr ⟨rfl, rfl⟩ | exact .inr ⟨rfl, rfl, rfl, rfl, rfl, rfl, rfl⟩
  · extract_lets b1 d2 b3 b4 b5
    refine keeps_through (b := d2) ?_ fun hd2 => ?_
    · unfold d2
      exact keeps_set keeps_refl fun p => by cases p <;> first | exact .inl rfl | exact .inr rfl | exact .inr ⟨rfl, rfl⟩ | exact .inr ⟨rfl, rfl, rfl, rfl, rfl, rfl, rfl⟩
    clear_value d2
    refine keeps_through (b := b5) ?_ fun hb5 => ?_
    · unfold b5
      refine keeps_via (keeps_tick _) rfl ?_
      exact hd2
    clear_value b5
    split
    · split
      · extract_lets h6
        clear_value h6
        refine keeps_pair ?_
        refine keeps_set (b := d2) ?_ fun p => by cases p <;> first | exact .inl rfl | exact .inr rfl | exact .inr ⟨rfl, rfl⟩ | exact .inr ⟨rfl, rfl, rfl, rfl, rfl, rfl, rfl⟩
        exact hd2
      · refine keeps_pair ?_
        refine keeps_set (b := d2) ?_ fun p => by cases p <;> first | exact .inl rfl | exact .inr rfl | exact .inr ⟨rfl, rfl⟩ | exact .inr ⟨rfl, rfl, rfl, rfl, rfl, rfl, rfl⟩
        exact hd2
    · extract_lets top7 low8 ack9
      clear_value top7
      clear_value low8
      clear_value ack9
      refine keeps_pair ?_
      refine keeps_set (b := b5) ?_ fun p => by cases p <;> first | exact .inl rfl | exact .inr rfl | exact .inr ⟨rfl, rfl⟩ | exact .inr ⟨rfl, rfl, rfl, rfl, rfl, rfl, rfl⟩
      exact hb5

theorem keeps_recoverLedger (d : Dev) (life : Option (Nat × Nat)) :
    Keeps [.sys, .tol, .lgr, .mem] d (d.recoverLedger life) := by
  unfold Dev.recoverLedger
  extract_lets r1 x2 b3 b4
  refine keeps_through (b := r1.1) ?_ fun hr1 => ?_
  · unfold r1
    exact keeps_mono (keeps_findHead _ _) rfl
  clear_value r1
  refine keeps_through (b := x2.1) ?_ fun hx2 => ?_
  · unfold x2
    refine keeps_via (keeps_examine _ _ _) rfl ?_
    exact hr1
  clear_value x2
  refine keeps_through (b := b3) ?_ fun hb3 => ?_
  · unfold b3
    exact hx2
  clear_value b3
  refine keeps_set (b := b3) ?_ fun p => by cases p <;> first | exact .inl rfl | exact .inr rfl | exact .inr ⟨rfl, rfl⟩ | exact .inr ⟨rfl, rfl, rfl, rfl, rfl, rfl, rfl⟩
  exact hb3

theorem keeps_canEvent (d : Dev) (ch : Ch) (src : Nat) :
    Keeps [] d (d.canEvent ch src) := by
  unfold Dev.canEvent
  exact keeps_mono (keeps_event _ _ _ _ _ _ _) rfl

theorem keeps_openCanEpisode (d : Dev) (ch : Ch) :
    Keeps [.can0, .can1, .evt] d (d.openCanEpisode ch) := by
  unfold Dev.openCanEpisode
  split
  · exact keeps_refl
  · extract_lets r1 b2
    refine keeps_through (b := r1.1) ?_ fun hr1 => ?_
    · unfold r1
      exact keeps_mono (keeps_newEpisode _) rfl
    clear_value r1
    clear_value b2
    refine keeps_via (keeps_setCan _ _ _) rfl ?_
    exact hr1

theorem keeps_setErrors (d : Dev) (ch : Ch) (tec : Nat) (rec_ : Nat) :
    Keeps [.can0, .can1] d (d.setErrors ch tec rec_) := by
  unfold Dev.setErrors
  extract_lets c1 st2 d3
  clear_value c1
  clear_value st2
  refine keeps_through (b := d3) ?_ fun hd3 => ?_
  · unfold d3
    exact keeps_mono (keeps_setCan _ _ _) rfl
  clear_value d3
  refine keeps_ite (fun _ => ?_) fun _ => ?_
  · exact hd3
  · refine keeps_via (keeps_canEvent _ _ _) rfl ?_
    exact hd3

theorem keeps_closeCanEpisode (d : Dev) (ch : Ch) :
    Keeps [.can0, .can1] d (d.closeCanEpisode ch) := by
  unfold Dev.closeCanEpisode
  exact keeps_mono (keeps_setCan _ _ _) rfl

theorem keeps_arbitrate (d : Dev) (ch : Ch) (won : Bool) :
    Keeps [.can0, .can1] d (d.arbitrate ch won) := by
  unfold Dev.arbitrate
  extract_lets c1
  clear_value c1
  refine keeps_ite (fun _ => ?_) fun _ => ?_
  · exact keeps_refl
  · split
    · exact keeps_refl
    · extract_lets prio2
      clear_value prio2
      refine keeps_via (keeps_setCan _ _ _) rfl ?_
      exact keeps_mono (keeps_tick _) rfl

theorem keeps_mayMeasure (d : Dev) (ch : Ch) (o : OnBus) :
    Keeps [.can0, .can1] d (d.mayMeasure ch o) := by
  unfold Dev.mayMeasure
  extract_lets c1
  clear_value c1
  refine keeps_via (keeps_setCan _ _ _) rfl ?_
  refine keeps_via (keeps_tick _) rfl ?_
  exact keeps_mono (keeps_tick _) rfl

theorem keeps_enterBusOff (d : Dev) (ch : Ch) :
    Keeps [.can0, .can1, .evt] d (d.enterBusOff ch) := by
  unfold Dev.enterBusOff
  refine keeps_ite (fun _ => ?_) fun _ => ?_
  · exact keeps_refl
  · extract_lets d1 c2 c3
    refine keeps_through (b := d1) ?_ fun hd1 => ?_
    · unfold d1
      exact keeps_mono (keeps_openCanEpisode _ _) rfl
    clear_value d1
    clear_value c2
    clear_value c3
    refine keeps_via (keeps_canEvent _ _ _) rfl ?_
    refine keeps_via (keeps_setCan _ _ _) rfl ?_
    exact hd1

theorem keeps_attemptSent (d : Dev) (ch : Ch) (o : OnBus) :
    Keeps [.can0, .can1] d (d.attemptSent ch o) := by
  unfold Dev.attemptSent
  extract_lets d1 c2 b3 c4 c5
  refine keeps_through (b := d1) ?_ fun hd1 => ?_
  · unfold d1
    exact keeps_mono (keeps_closeCanEpisode _ _) rfl
  clear_value d1
  clear_value c2
  clear_value c4
  clear_value c5
  refine keeps_via (keeps_setErrors _ _ _ _) rfl ?_
  refine keeps_via (keeps_setCan _ _ _) rfl ?_
  refine keeps_via (keeps_tick _) rfl ?_
  exact hd1

theorem keeps_attemptFailed (d : Dev) (ch : Ch) (o : OnBus) :
    Keeps [.can0, .can1, .evt] d (d.attemptFailed ch o) := by
  unfold Dev.attemptFailed
  extract_lets c1 rise2 d3 d4 c5 c6
  clear_value c1
  clear_value rise2
  refine keeps_through (b := d3) ?_ fun hd3 => ?_
  · unfold d3
    refine keeps_via (keeps_mayMeasure _ _ _) rfl ?_
    exact keeps_mono (keeps_tick _) rfl
  clear_value d3
  refine keeps_through (b := d4) ?_ fun hd4 => ?_
  · unfold d4
    refine keeps_via (keeps_setErrors _ _ _ _) rfl ?_
    refine keeps_via (keeps_openCanEpisode _ _) rfl ?_
    exact hd3
  clear_value d4
  clear_value c5
  clear_value c6
  refine keeps_ite (fun _ => ?_) fun _ => ?_
  · refine keeps_via (keeps_enterBusOff _ _) rfl ?_
    exact hd3
  · split
    · refine keeps_via (keeps_setCan _ _ _) rfl ?_
      exact hd4
    · refine keeps_ite (fun _ => ?_) fun _ => ?_
      · refine keeps_via (keeps_canEvent _ _ _) rfl ?_
        refine keeps_via (keeps_setCan _ _ _) rfl ?_
        exact hd4
      · refine keeps_ite (fun _ => ?_) fun _ => ?_
        · refine keeps_via (keeps_setCan _ _ _) rfl ?_
          exact hd4
        · refine keeps_via (keeps_setCan _ _ _) rfl ?_
          exact hd4

theorem keeps_entryDue (d : Dev) (ch : Ch) (j : Fin 32) :
    Keeps [.can0, .can1] d (d.entryDue ch j) := by
  unfold Dev.entryDue
  extract_lets c1 e2 cells3 frame4 bus5 e'6 c7 d8
  clear_value c1
  clear_value e2
  clear_value cells3
  clear_value frame4
  clear_value bus5
  clear_value e'6
  clear_value c7
  refine keeps_through (b := d8) ?_ fun hd8 => ?_
  · unfold d8
    refine keeps_ite (fun _ => ?_) fun _ => ?_
    · exact keeps_mono (keeps_tick _) rfl
    · exact keeps_refl
  clear_value d8
  refine keeps_ite (fun _ => ?_) fun _ => ?_
  · exact keeps_refl
  · refine keeps_ite (fun _ => ?_) fun _ => ?_
    · refine keeps_via (keeps_canEvent _ _ _) rfl ?_
      refine keeps_via (keeps_setCan _ _ _) rfl ?_
      exact hd8
    · refine keeps_via (keeps_setCan _ _ _) rfl ?_
      exact hd8

theorem keeps_storeMailbox (d : Dev) (ch : Ch) (n : Fin 16) (f : CanFrame) :
    Keeps [.can0, .can1] d (d.storeMailbox ch n f) := by
  unfold Dev.storeMailbox
  extract_lets c1 lost2 c3
  clear_value c1
  clear_value lost2
  clear_value c3
  refine keeps_ite (fun _ => ?_) fun _ => ?_
  · refine keeps_via (keeps_canEvent _ _ _) rfl ?_
    exact keeps_mono (keeps_setCan _ _ _) rfl
  · exact keeps_mono (keeps_setCan _ _ _) rfl

theorem keeps_storeFifo (d : Dev) (ch : Ch) (f : CanFrame) :
    Keeps [.can0, .can1] d (d.storeFifo ch f) := by
  unfold Dev.storeFifo
  extract_lets c1 n2 r3
  clear_value c1
  clear_value n2
  clear_value r3
  refine keeps_ite (fun _ => ?_) fun _ => ?_
  · refine keeps_via (keeps_canEvent _ _ _) rfl ?_
    exact keeps_mono (keeps_setCan _ _ _) rfl
  · refine keeps_via (keeps_queueCrossed _ _ _ _ _) rfl ?_
    exact keeps_mono (keeps_setCan _ _ _) rfl

theorem keeps_hostAlive (d : Dev) (ch : Ch) (b : Byte) :
    Keeps [.lim, .can0, .can1] d (d.hostAlive ch b) := by
  unfold Dev.hostAlive
  extract_lets c1 counted2 c3 d4
  clear_value c1
  clear_value counted2
  clear_value c3
  refine keeps_through (b := d4) ?_ fun hd4 => ?_
  · unfold d4
    exact keeps_mono (keeps_setCan _ _ _) rfl
  clear_value d4
  refine keeps_ite (fun _ => ?_) fun _ => ?_
  · exact keeps_mono (keeps_setCan _ _ _) rfl
  · refine keeps_ite (fun _ => ?_) fun _ => ?_
    · exact keeps_mono (keeps_setCan _ _ _) rfl
    · refine keeps_ite (fun _ => ?_) fun _ => ?_
      · exact hd4
      · refine keeps_via (keeps_faultGone _ _) rfl ?_
        exact hd4

theorem keeps_sleepFrame (d : Dev) :
    Keeps [.mode] d (d.sleepFrame) := by
  unfold Dev.sleepFrame
  refine keeps_ite (fun _ => ?_) fun _ => ?_
  · exact keeps_mono (keeps_startWatch _) rfl
  · exact keeps_mono (keeps_notice _ _ _ _) rfl

theorem keeps_ownMailbox (d : Dev) (ch : Ch) (n : Fin 16) (f : CanFrame) :
    Keeps [.mode, .lim, .can0, .can1] d (d.ownMailbox ch n f) := by
  unfold Dev.ownMailbox
  refine keeps_ite (fun _ => ?_) fun _ => ?_
  · exact keeps_refl
  · refine keeps_ite (fun _ => ?_) fun _ => ?_
    · exact keeps_mono (keeps_hostAlive _ _ _) rfl
    · refine keeps_ite (fun _ => ?_) fun _ => ?_
      · exact keeps_mono (keeps_sleepFrame _) rfl
      · exact keeps_refl

theorem keeps_receiveError (d : Dev) (ch : Ch) :
    Keeps [.can0, .can1, .wakeDet, .evt] d (d.receiveError ch) := by
  unfold Dev.receiveError
  refine keeps_ite (fun _ => ?_) fun _ => ?_
  · extract_lets d1
    refine keeps_through (b := d1) ?_ fun hd1 => ?_
    · unfold d1
      exact keeps_mono (keeps_openCanEpisode _ _) rfl
    clear_value d1
    refine keeps_via (keeps_setErrors _ _ _ _) rfl ?_
    exact hd1
  · refine keeps_ite (fun _ => ?_) fun _ => ?_
    · exact keeps_set keeps_refl fun p => by cases p <;> first | exact .inl rfl | exact .inr rfl | exact .inr ⟨rfl, rfl⟩ | exact .inr ⟨rfl, rfl, rfl, rfl, rfl, rfl, rfl⟩
    · exact keeps_refl

theorem keeps_receive (d : Dev) (ch : Ch) (f : CanFrame) :
    Keeps [.mode, .lim, .can0, .can1, .wakeDet, .evt] d (d.receive ch f) := by
  unfold Dev.receive
  refine keeps_ite (fun _ => ?_) fun _ => ?_
  · refine keeps_ite (fun _ => ?_) fun _ => ?_
    · exact keeps_refl
    · exact keeps_set keeps_refl fun p => by cases p <;> first | exact .inl rfl | exact .inr rfl | exact .inr ⟨rfl, rfl⟩ | exact .inr ⟨rfl, rfl, rfl, rfl, rfl, rfl, rfl⟩
  · refine keeps_ite (fun _ => ?_) fun _ => ?_
    · exact keeps_mono (keeps_receiveError _ _) rfl
    · refine keeps_ite (fun _ => ?_) fun _ => ?_
      · extract_lets d1 d2
        refine keeps_through (b := d1) ?_ fun hd1 => ?_
        · unfold d1
          exact keeps_mono (keeps_closeCanEpisode _ _) rfl
        clear_value d1
        refine keeps_through (b := d2) ?_ fun hd2 => ?_
        · unfold d2
          refine keeps_via (keeps_setErrors _ _ _ _) rfl ?_
          refine keeps_via (keeps_tick _) rfl ?_
          exact hd1
        clear_value d2
        split
        · refine keeps_via (keeps_ownMailbox _ _ _ _) rfl ?_
          refine keeps_via (keeps_storeMailbox _ _ _ _) rfl ?_
          exact hd2
        · refine keeps_ite (fun _ => ?_) fun _ => ?_
          · refine keeps_via (keeps_storeFifo _ _ _) rfl ?_
            exact hd2
          · exact hd2
      · exact keeps_refl

theorem keeps_refuseTx (d : Dev) (ch : Ch) :
    Keeps [.can0, .can1] d (d.refuseTx ch) := by
  unfold Dev.refuseTx
  extract_lets c1 d2 b3
  clear_value c1
  refine keeps_through (b := d2) ?_ fun hd2 => ?_
  · unfold d2
    exact keeps_mono (keeps_countShed _ _) rfl
  clear_value d2
  clear_value b3
  refine keeps_ite (fun _ => ?_) fun _ => ?_
  · refine keeps_via (keeps_shedNotice _ _) rfl ?_
    exact hd2
  · refine keeps_ite (fun _ => ?_) fun _ => ?_
    · exact hd2
    · refine keeps_via (keeps_fire _ _) rfl ?_
      refine keeps_via (keeps_setCan _ _ _) rfl ?_
      exact hd2

theorem keeps_bodyTxQueue (ch : Ch) (d : Dev) :
    Keeps [.can0, .can1] d (bodyTxQueue ch d).1 := by
  unfold bodyTxQueue
  extract_lets c1 f2 n3 tag4 r5 c6
  clear_value c1
  clear_value n3
  clear_value tag4
  clear_value r5
  clear_value c6
  refine keeps_ite_fst (fun _ => ?_) fun _ => ?_
  · refine keeps_pair ?_
    exact keeps_refl
  · refine keeps_ite_fst (fun _ => ?_) fun _ => ?_
    · refine keeps_pair ?_
      exact keeps_mono (keeps_refuseTx _ _) rfl
    · refine keeps_ite_fst (fun _ => ?_) fun _ => ?_
      · refine keeps_pair ?_
        exact keeps_refl
      · refine keeps_ite_fst (fun _ => ?_) fun _ => ?_
        · refine keeps_pair ?_
          exact keeps_refl
        · refine keeps_pair ?_
          refine keeps_via (keeps_queueCrossed _ _ _ _ _) rfl ?_
          exact keeps_mono (keeps_setCan _ _ _) rfl

theorem keeps_bodyTxCancel (ch : Ch) (d : Dev) :
    Keeps [.can0, .can1] d (bodyTxCancel ch d).1 := by
  unfold bodyTxCancel
  extract_lets c1
  clear_value c1
  refine keeps_ite_fst (fun _ => ?_) fun _ => ?_
  · refine keeps_pair ?_
    exact keeps_mono (keeps_setCan _ _ _) rfl
  · refine keeps_ite_fst (fun _ => ?_) fun _ => ?_
    · refine keeps_pair ?_
      exact keeps_mono (keeps_setCan _ _ _) rfl
    · refine keeps_pair ?_
      exact keeps_refl

theorem keeps_bodyRxPop (ch : Ch) (d : Dev) :
    Keeps [.can0, .can1] d (bodyRxPop ch d).1 := by
  unfold bodyRxPop
  extract_lets c1
  clear_value c1
  refine keeps_pair ?_
  exact keeps_mono (keeps_setCan _ _ _) rfl

theorem keeps_bodyTtLoad (ch : Ch) (d : Dev) :
    Keeps [.can0, .can1] d (bodyTtLoad ch d).1 := by
  unfold bodyTtLoad
  extract_lets c1 j2 e3 bus4 e5
  clear_value c1
  clear_value j2
  clear_value e3
  clear_value bus4
  clear_value e5
  refine keeps_ite_fst (fun _ => ?_) fun _ => ?_
  · refine keeps_pair ?_
    exact keeps_refl
  · refine keeps_pair ?_
    exact keeps_mono (keeps_setCan _ _ _) rfl

theorem keeps_bodyBoRecover (ch : Ch) (d : Dev) :
    Keeps [.can0, .can1] d (bodyBoRecover ch d).1 := by
  unfold bodyBoRecover
  extract_lets c1
  clear_value c1
  refine keeps_pair ?_
  exact keeps_mono (keeps_setCan _ _ _) rfl

theorem keeps_bodyCanCntClr (ch : Ch) (d : Dev) :
    Keeps [.can0, .can1] d (bodyCanCntClr ch d).1 := by
  unfold bodyCanCntClr
  refine keeps_pair ?_
  exact keeps_mono (keeps_setCan _ _ _) rfl

theorem keeps_plainFault (d : Dev) (f : Nat) (inst : Nat) :
    Keeps [.stamp, .mode, .seq, .coil, .lim, .pwr, .saf, .tol, .can0, .can1, .evt, .lif] d (d.plainFault f inst) := by
  unfold Dev.plainFault
  refine keeps_ite (fun _ => ?_) fun _ => ?_
  · exact keeps_refl
  · exact keeps_mono (keeps_fault _ _ _ _ _) rfl

theorem keeps_cellFaults (d : Dev) (a : Fin 32) :
    Keeps [.stamp, .mode, .seq, .coil, .lim, .pwr, .saf, .tol, .can0, .can1, .evt, .lif] d (d.cellFaults a) := by
  unfold Dev.cellFaults
  extract_lets crossed1 d2
  clear_value crossed1
  refine keeps_through (b := d2) ?_ fun hd2 => ?_
  · unfold d2
    refine keeps_foldl ?_ fun d3 x4 => ?_
    · exact keeps_refl
    · refine keeps_ite (fun _ => ?_) fun _ => ?_
      · exact keeps_mono (keeps_plainFault _ _ _) rfl
      · exact keeps_refl
  clear_value d2
  refine keeps_ite (fun _ => ?_) fun _ => ?_
  · refine keeps_via (keeps_plainFault _ _ _) rfl ?_
    exact hd2
  · refine keeps_via (keeps_faultGone _ _) rfl ?_
    exact hd2

theorem keeps_deliverSnap (d : Dev) (a : Fin 32) (ts : Option Word) (volts : List Nat) (temps : List (Option Int)) (fault : Bool) :
    Keeps [.stamp, .mode, .seq, .coil, .chn, .est, .lim, .pwr, .saf, .tol, .can0, .can1, .evt, .lif] d (d.deliverSnap a ts volts temps fault) := by
  unfold Dev.deliverSnap
  split
  · exact keeps_refl
  · extract_lets listed1 fresh2 one3 cells4 st5 b6 b7 d8
    clear_value listed1
    clear_value fresh2
    clear_value one3
    clear_value cells4
    clear_value st5
    refine keeps_through (b := d8) ?_ fun hd8 => ?_
    · unfold d8
      exact keeps_set keeps_refl fun p => by cases p <;> first | exact .inl rfl | exact .inr rfl | exact .inr ⟨rfl, rfl⟩ | exact .inr ⟨rfl, rfl, rfl, rfl, rfl, rfl, rfl⟩
    clear_value d8
    refine keeps_via (keeps_cellFaults _ _) rfl ?_
    refine keeps_ite (fun _ => ?_) fun _ => ?_
    · exact hd8
    · refine keeps_via (keeps_faultGone _ _) rfl ?_
      exact hd8

theorem keeps_snapRead (d : Dev) (x : HeldSnap) :
    Keeps [.stamp, .mode, .seq, .coil, .chn, .est, .lim, .pwr, .saf, .tol, .can0, .can1, .evt, .lif] d (d.snapRead x) := by
  unfold Dev.snapRead
  refine keeps_ite (fun _ => ?_) fun _ => ?_
  · exact keeps_set keeps_refl fun p => by cases p <;> first | exact .inl rfl | exact .inr rfl | exact .inr ⟨rfl, rfl⟩ | exact .inr ⟨rfl, rfl, rfl, rfl, rfl, rfl, rfl⟩
  · exact keeps_mono (keeps_deliverSnap _ _ _ _ _ _) rfl

theorem keeps_enterSnaps (d : Dev) (keep : Bool) :
    Keeps [.stamp, .mode, .seq, .coil, .chn, .est, .lim, .pwr, .saf, .tol, .can0, .can1, .evt, .lif] d (d.enterSnaps keep) := by
  unfold Dev.enterSnaps
  refine keeps_ite (fun _ => ?_) fun _ => ?_
  · exact keeps_refl
  · refine keeps_foldl ?_ fun d1 x2 => ?_
    · exact keeps_set keeps_refl fun p => by cases p <;> first | exact .inl rfl | exact .inr rfl | exact .inr ⟨rfl, rfl⟩ | exact .inr ⟨rfl, rfl, rfl, rfl, rfl, rfl, rfl⟩
    · exact keeps_mono (keeps_deliverSnap _ _ _ _ _ _) rfl

theorem keeps_clearCell (d : Dev) (p : Fin 576) (i : Fin 8) :
    Keeps [.est, .lim] d (d.clearCell p i) := by
  unfold Dev.clearCell
  split
  · exact keeps_refl
  · extract_lets c1 x2 inside3 c4 b5 d6
    clear_value c1
    clear_value x2
    clear_value inside3
    clear_value c4
    refine keeps_through (b := d6) ?_ fun hd6 => ?_
    · unfold d6
      exact keeps_set keeps_refl fun p => by cases p <;> first | exact .inl rfl | exact .inr rfl | exact .inr ⟨rfl, rfl⟩ | exact .inr ⟨rfl, rfl, rfl, rfl, rfl, rfl, rfl⟩
    clear_value d6
    refine keeps_ite (fun _ => ?_) fun _ => ?_
    · refine keeps_ite (fun _ => ?_) fun _ => ?_
      · exact hd6
      · refine keeps_via (keeps_faultGone _ _) rfl ?_
        exact hd6
    · exact keeps_refl

theorem keeps_clearNtc (d : Dev) (n : Fin 4) (two : Bool) :
    Keeps [.lim] d (d.clearNtc n two) := by
  unfold Dev.clearNtc
  extract_lets b1 cross2 b3 l4 d5 left6
  clear_value b1
  clear_value cross2
  clear_value l4
  refine keeps_through (b := d5) ?_ fun hd5 => ?_
  · unfold d5
    exact keeps_set keeps_refl fun p => by cases p <;> first | exact .inl rfl | exact .inr rfl | exact .inr ⟨rfl, rfl⟩ | exact .inr ⟨rfl, rfl, rfl, rfl, rfl, rfl, rfl⟩
  clear_value d5
  clear_value left6
  split
  · refine keeps_ite (fun _ => ?_) fun _ => ?_
    · refine keeps_ite (fun _ => ?_) fun _ => ?_
      · exact hd5
      · refine keeps_via (keeps_faultGone _ _) rfl ?_
        exact hd5
    · exact keeps_refl
  · exact keeps_refl

theorem keeps_ntcCheck (d : Dev) (n : Fin 4) :
    Keeps [.stamp, .mode, .seq, .coil, .lim, .pwr, .saf, .tol, .can0, .can1, .evt, .lif] d (d.ntcCheck n) := by
  unfold Dev.ntcCheck
  split
  · extract_lets n11 n22 set13 set24 b5 d6 d7
    clear_value n11
    clear_value n22
    clear_value set13
    clear_value set24
    refine keeps_through (b := d6) ?_ fun hd6 => ?_
    · unfold d6
      exact keeps_set keeps_refl fun p => by cases p <;> first | exact .inl rfl | exact .inr rfl | exact .inr ⟨rfl, rfl⟩ | exact .inr ⟨rfl, rfl, rfl, rfl, rfl, rfl, rfl⟩
    clear_value d6
    refine keeps_through (b := d7) ?_ fun hd7 => ?_
    · unfold d7
      refine keeps_ite (fun _ => ?_) fun _ => ?_
      · refine keeps_via (keeps_plainFault _ _ _) rfl ?_
        exact hd6
      · exact hd6
    clear_value d7
    refine keeps_ite (fun _ => ?_) fun _ => ?_
    · refine keeps_via (keeps_plainFault _ _ _) rfl ?_
      exact hd7
    · exact hd7
  · exact keeps_refl

theorem keeps_ntcThresholds (d : Dev) :
    Keeps [.stamp, .mode, .seq, .coil, .lim, .pwr, .saf, .tol, .can0, .can1, .evt, .lif] d (d.ntcThresholds) := by
  unfold Dev.ntcThresholds
  refine keeps_foldl ?_ fun d1 x2 => ?_
  · exact keeps_refl
  · exact keeps_mono (keeps_ntcCheck _ _) rfl

theorem keeps_mapListed (d : Dev) (f : Fin 576 → Cell → Cell) :
    Keeps [.est] d (d.mapListed f) := by
  unfold Dev.mapListed
  exact keeps_set keeps_refl fun p => by cases p <;> first | exact .inl rfl | exact .inr rfl | exact .inr ⟨rfl, rfl⟩ | exact .inr ⟨rfl, rfl, rfl, rfl, rfl, rfl, rfl⟩

theorem keeps_coulombFrame (d : Dev) :
    Keeps [.est] d (d.coulombFrame) := by
  unfold Dev.coulombFrame
  extract_lets t1 b2
  clear_value t1
  exact keeps_set keeps_refl fun p => by cases p <;> first | exact .inl rfl | exact .inr rfl | exact .inr ⟨rfl, rfl⟩ | exact .inr ⟨rfl, rfl, rfl, rfl, rfl, rfl, rfl⟩

theorem keeps_ageSnaps (d : Dev) :
    Keeps [.est] d (d.ageSnaps) := by
  unfold Dev.ageSnaps
  extract_lets one1 snaps2 i13 b4
  clear_value one1
  clear_value snaps2
  clear_value i13
  exact keeps_set keeps_refl fun p => by cases p <;> first | exact .inl rfl | exact .inr rfl | exact .inr ⟨rfl, rfl⟩ | exact .inr ⟨rfl, rfl, rfl, rfl, rfl, rfl, rfl⟩

theorem keeps_flatFrame (d : Dev) :
    Keeps [.est] d (d.flatFrame) := by
  unfold Dev.flatFrame
  split
  · refine keeps_ite (fun _ => ?_) fun _ => ?_
    · exact keeps_set keeps_refl fun p => by cases p <;> first | exact .inl rfl | exact .inr rfl | exact .inr ⟨rfl, rfl⟩ | exact .inr ⟨rfl, rfl, rfl, rfl, rfl, rfl, rfl⟩
    · exact keeps_refl
  · exact keeps_refl

theorem keeps_startBurst (d : Dev) (pre : Option Word) :
    Keeps [.chn, .est] d (d.startBurst pre) := by
  unfold Dev.startBurst
  extract_lets b1 b2 d3
  refine keeps_through (b := d3) ?_ fun hd3 => ?_
  · unfold d3
    exact keeps_set keeps_refl fun p => by cases p <;> first | exact .inl rfl | exact .inr rfl | exact .inr ⟨rfl, rfl⟩ | exact .inr ⟨rfl, rfl, rfl, rfl, rfl, rfl, rfl⟩
  clear_value d3
  refine keeps_via (keeps_mapListed _ _) rfl ?_
  exact hd3

theorem keeps_estimateFrame (d : Dev) :
    Keeps [.chn, .est] d (d.estimateFrame) := by
  unfold Dev.estimateFrame
  extract_lets d1 e2 quiet3 d4 d5
  refine keeps_through (b := d1) ?_ fun hd1 => ?_
  · unfold d1
    exact keeps_mono (keeps_coulombFrame _) rfl
  clear_value d1
  clear_value quiet3
  refine keeps_through (b := d4) ?_ fun hd4 => ?_
  · unfold d4
    refine keeps_set (b := d1) ?_ fun p => by cases p <;> first | exact .inl rfl | exact .inr rfl | exact .inr ⟨rfl, rfl⟩ | exact .inr ⟨rfl, rfl, rfl, rfl, rfl, rfl, rfl⟩
    exact hd1
  clear_value d4
  refine keeps_through (b := d5) ?_ fun hd5 => ?_
  · unfold d5
    refine keeps_via (keeps_flatFrame _) rfl ?_
    refine keeps_via (keeps_ageSnaps _) rfl ?_
    exact hd4
  clear_value d5
  split
  · exact hd5
  · refine keeps_ite (fun _ => ?_) fun _ => ?_
    · refine keeps_via (keeps_startBurst _ _) rfl ?_
      exact hd5
    · exact hd5

theorem keeps_liftDerate (d : Dev) :
    Keeps [.est] d (d.liftDerate) := by
  unfold Dev.liftDerate
  refine keeps_ite (fun _ => ?_) fun _ => ?_
  · refine keeps_via (keeps_notice _ _ _ _) rfl ?_
    exact keeps_set keeps_refl fun p => by cases p <;> first | exact .inl rfl | exact .inr rfl | exact .inr ⟨rfl, rfl⟩ | exact .inr ⟨rfl, rfl, rfl, rfl, rfl, rfl, rfl⟩
  · exact keeps_refl

theorem keeps_takeEstSettings (d : Dev) :
    Keeps [.est] d (d.takeEstSettings) := by
  unfold Dev.takeEstSettings
  extract_lets e1
  exact keeps_set keeps_refl fun p => by cases p <;> first | exact .inl rfl | exact .inr rfl | exact .inr ⟨rfl, rfl⟩ | exact .inr ⟨rfl, rfl, rfl, rfl, rfl, rfl, rfl⟩

theorem keeps_estimatePeriod (d : Dev) :
    Keeps [.est] d (d.estimatePeriod) := by
  unfold Dev.estimatePeriod
  split
  · exact keeps_refl
  · extract_lets dq1 b2 d3 i4 d5
    clear_value dq1
    refine keeps_through (b := d3) ?_ fun hd3 => ?_
    · unfold d3
      exact keeps_set keeps_refl fun p => by cases p <;> first | exact .inl rfl | exact .inr rfl | exact .inr ⟨rfl, rfl⟩ | exact .inr ⟨rfl, rfl, rfl, rfl, rfl, rfl, rfl⟩
    clear_value d3
    clear_value i4
    refine keeps_through (b := d5) ?_ fun hd5 => ?_
    · unfold d5
      refine keeps_via (keeps_mapListed _ _) rfl ?_
      exact hd3
    clear_value d5
    refine keeps_via (keeps_liftDerate _) rfl ?_
    exact hd5

theorem keeps_fuseAll (d : Dev) :
    Keeps [.est] d (d.fuseAll) := by
  unfold Dev.fuseAll
  split
  · exact keeps_refl
  · refine keeps_via (keeps_liftDerate _) rfl ?_
    exact keeps_mono (keeps_mapListed _ _) rfl

theorem keeps_takeFit (d : Dev) (p : Fin 576) :
    Keeps [.est] d (d.takeFit p) := by
  unfold Dev.takeFit
  split
  · exact keeps_refl
  · extract_lets c1 i12 f3 r4 b5 e6
    clear_value c1
    clear_value i12
    clear_value f3
    clear_value r4
    clear_value e6
    refine keeps_ite (fun _ => ?_) fun _ => ?_
    · exact keeps_refl
    · refine keeps_ite (fun _ => ?_) fun _ => ?_
      · exact keeps_set keeps_refl fun p => by cases p <;> first | exact .inl rfl | exact .inr rfl | exact .inr ⟨rfl, rfl⟩ | exact .inr ⟨rfl, rfl, rfl, rfl, rfl, rfl, rfl⟩
      · exact keeps_set keeps_refl fun p => by cases p <;> first | exact .inl rfl | exact .inr rfl | exact .inr ⟨rfl, rfl⟩ | exact .inr ⟨rfl, rfl, rfl, rfl, rfl, rfl, rfl⟩

theorem keeps_requestStep (d : Dev) :
    Keeps [.est, .can0, .can1, .lif] d (d.requestStep) := by
  unfold Dev.requestStep
  extract_lets e1 d2
  refine keeps_through (b := d2) ?_ fun hd2 => ?_
  · unfold d2
    exact keeps_set keeps_refl fun p => by cases p <;> first | exact .inl rfl | exact .inr rfl | exact .inr ⟨rfl, rfl⟩ | exact .inr ⟨rfl, rfl, rfl, rfl, rfl, rfl, rfl⟩
  clear_value d2
  refine keeps_via (keeps_publish _ _) rfl ?_
  refine keeps_via (keeps_countDevice _ _) rfl ?_
  exact hd2

theorem keeps_stepPeriod (d : Dev) :
    Keeps [.est, .can0, .can1, .lif] d (d.stepPeriod) := by
  unfold Dev.stepPeriod
  extract_lets due1
  clear_value due1
  refine keeps_ite (fun _ => ?_) fun _ => ?_
  · exact keeps_mono (keeps_requestStep _) rfl
  · exact keeps_refl

theorem keeps_bodyStepNow (d : Dev) :
    Keeps [.est, .can0, .can1, .lif] d (bodyStepNow d).1 := by
  unfold bodyStepNow
  refine keeps_ite_fst (fun _ => ?_) fun _ => ?_
  · refine keeps_pair ?_
    exact keeps_mono (keeps_requestStep _) rfl
  · refine keeps_pair ?_
    exact keeps_refl

theorem keeps_setStage (d : Dev) (a : Fin 32) (f : Stage → Stage) :
    Keeps [.chn] d (d.setStage a f) := by
  unfold Dev.setStage
  exact keeps_set keeps_refl fun p => by cases p <;> first | exact .inl rfl | exact .inr rfl | exact .inr ⟨rfl, rfl⟩ | exact .inr ⟨rfl, rfl, rfl, rfl, rfl, rfl, rfl⟩

theorem keeps_callChain (d : Dev) :
    Keeps [.doms] d (d.callChain) := by
  unfold Dev.callChain
  refine keeps_ite (fun _ => ?_) fun _ => ?_
  · exact keeps_mono (keeps_needEvo _) rfl
  · exact keeps_refl

theorem keeps_insertModule (d : Dev) (a : Fin 32) (x : StageId) :
    Keeps [.chn, .est] d (d.insertModule a x) := by
  unfold Dev.insertModule
  split
  · exact keeps_refl
  · extract_lets r1 d2 one3 b4 d5 b6
    clear_value r1
    refine keeps_through (b := d2) ?_ fun hd2 => ?_
    · unfold d2
      exact keeps_mono (keeps_setStage _ _ _) rfl
    clear_value d2
    clear_value one3
    refine keeps_through (b := d5) ?_ fun hd5 => ?_
    · unfold d5
      refine keeps_set (b := d2) ?_ fun p => by cases p <;> first | exact .inl rfl | exact .inr rfl | exact .inr ⟨rfl, rfl⟩ | exact .inr ⟨rfl, rfl, rfl, rfl, rfl, rfl, rfl⟩
      exact hd2
    clear_value d5
    refine keeps_set (b := d5) ?_ fun p => by cases p <;> first | exact .inl rfl | exact .inr rfl | exact .inr ⟨rfl, rfl⟩ | exact .inr ⟨rfl, rfl, rfl, rfl, rfl, rfl, rfl⟩
    exact hd5

theorem keeps_setLimits (d : Dev) (chg : Vector Nat 3) (dis : Vector Nat 3) :
    Keeps [.lim] d (d.setLimits chg dis) := by
  unfold Dev.setLimits
  extract_lets u1 clamp2 c3 x4 zero5 b6
  clear_value clamp2
  clear_value c3
  clear_value x4
  clear_value zero5
  exact keeps_set keeps_refl fun p => by cases p <;> first | exact .inl rfl | exact .inr rfl | exact .inr ⟨rfl, rfl⟩ | exact .inr ⟨rfl, rfl, rfl, rfl, rfl, rfl, rfl⟩

theorem keeps_limitPeriod (d : Dev) :
    Keeps [.lim] d (d.limitPeriod) := by
  unfold Dev.limitPeriod
  split
  · exact keeps_refl
  · extract_lets was1 d2
    refine keeps_through (b := d2) ?_ fun hd2 => ?_
    · unfold d2
      exact keeps_mono (keeps_setLimits _ _ _) rfl
    clear_value d2
    refine keeps_ite (fun _ => ?_) fun _ => ?_
    · refine keeps_via (keeps_notice _ _ _ _) rfl ?_
      exact hd2
    · exact hd2

theorem keeps_publishPeriod (d : Dev) :
    Keeps [.eng, .can0, .can1] d (d.publishPeriod) := by
  unfold Dev.publishPeriod
  refine keeps_ite (fun _ => ?_) fun _ => ?_
  · exact keeps_set keeps_refl fun p => by cases p <;> first | exact .inl rfl | exact .inr rfl | exact .inr ⟨rfl, rfl⟩ | exact .inr ⟨rfl, rfl, rfl, rfl, rfl, rfl, rfl⟩
  · refine keeps_via (keeps_publishLimits _) rfl ?_
    exact keeps_set keeps_refl fun p => by cases p <;> first | exact .inl rfl | exact .inr rfl | exact .inr ⟨rfl, rfl⟩ | exact .inr ⟨rfl, rfl, rfl, rfl, rfl, rfl, rfl⟩

theorem keeps_bodyFaultClr (d : Dev) :
    Keeps [.lim, .pwr, .saf] d (bodyFaultClr d).1 := by
  unfold bodyFaultClr
  extract_lets gone1 d'2
  clear_value gone1
  refine keeps_through (b := d'2) ?_ fun hd'2 => ?_
  · unfold d'2
    refine keeps_via (keeps_tryClearLatch _) rfl ?_
    exact keeps_mono (keeps_unlatch _ _) rfl
  clear_value d'2
  refine keeps_pair ?_
  exact hd'2

end Sys2Proof.Laws
end

