-- ==== Sys2Proof/Laws/KeepsChain.lean ====
section
/-! SUPPORT. Which parts of the device each operation of Chain, Depot, Crossings, Supply may change, each said once. -/
namespace Sys2Proof.Laws

open Sys2Proof.Machine Sys2Proof.Safety

theorem keeps_sendChain (d : Dev) (p : Port) (addr : Nat) (cmd : Nat) (words : List Word) :
    Keeps [.chn] d (d.sendChain p addr cmd words) := by
  unfold Dev.sendChain
  exact keeps_set keeps_refl fun p => by cases p <;> first | exact .inl rfl | exact .inr rfl | exact .inr ⟨rfl, rfl⟩ | exact .inr ⟨rfl, rfl, rfl, rfl, rfl, rfl, rfl⟩

theorem keeps_broadcast (d : Dev) (cmd : Nat) (words : List Word) :
    Keeps [.chn] d (d.broadcast cmd words) := by
  unfold Dev.broadcast
  extract_lets d1
  refine keeps_through (b := d1) ?_ fun hd1 => ?_
  · unfold d1
    exact keeps_mono (keeps_sendChain _ _ _ _ _) rfl
  clear_value d1
  refine keeps_ite (fun _ => ?_) fun _ => ?_
  · exact hd1
  · refine keeps_via (keeps_sendChain _ _ _ _ _) rfl ?_
    exact hd1

theorem keeps_sleepChain (d : Dev) :
    Keeps [.chn] d (d.sleepChain) := by
  unfold Dev.sleepChain
  extract_lets d1 b2
  refine keeps_through (b := d1) ?_ fun hd1 => ?_
  · unfold d1
    exact keeps_mono (keeps_broadcast _ _ _) rfl
  clear_value d1
  refine keeps_set (b := d1) ?_ fun p => by cases p <;> first | exact .inl rfl | exact .inr rfl | exact .inr ⟨rfl, rfl⟩ | exact .inr ⟨rfl, rfl, rfl, rfl, rfl, rfl, rfl⟩
  exact hd1

theorem keeps_newPhase (d : Dev) :
    Keeps [.chn] d (d.newPhase) := by
  unfold Dev.newPhase
  extract_lets b1 b2
  refine keeps_through (b := b1) ?_ fun hb1 => ?_
  · unfold b1
    exact keeps_mono (keeps_tick _) rfl
  clear_value b1
  refine keeps_set (b := b1) ?_ fun p => by cases p <;> first | exact .inl rfl | exact .inr rfl | exact .inr ⟨rfl, rfl⟩ | exact .inr ⟨rfl, rfl, rfl, rfl, rfl, rfl, rfl⟩
  exact hb1

theorem keeps_snap (d : Dev) :
    Keeps [.chn, .est] d (d.snap) := by
  unfold Dev.snap
  extract_lets ts1 first2 d3 b4 b5
  clear_value first2
  refine keeps_through (b := d3) ?_ fun hd3 => ?_
  · unfold d3
    exact keeps_mono (keeps_broadcast _ _ _) rfl
  clear_value d3
  refine keeps_set (b := d3) ?_ fun p => by cases p <;> first | exact .inl rfl | exact .inr rfl | exact .inr ⟨rfl, rfl⟩ | exact .inr ⟨rfl, rfl, rfl, rfl, rfl, rfl, rfl⟩
  exact hd3

theorem keeps_setSlot (d : Dev) (t : Nat) (ws : List Word) :
    Keeps [.chn] d (d.setSlot t ws) := by
  unfold Dev.setSlot
  exact keeps_set keeps_refl fun p => by cases p <;> first | exact .inl rfl | exact .inr rfl | exact .inr ⟨rfl, rfl⟩ | exact .inr ⟨rfl, rfl, rfl, rfl, rfl, rfl, rfl⟩

theorem keeps_takeTag (d : Dev) :
    Keeps [.chn, .dep] d (d.takeTag) := by
  unfold Dev.takeTag
  extract_lets n1 r2 b3 b4 d5
  clear_value n1
  clear_value r2
  refine keeps_through (b := d5) ?_ fun hd5 => ?_
  · unfold d5
    exact keeps_set keeps_refl fun p => by cases p <;> first | exact .inl rfl | exact .inr rfl | exact .inr ⟨rfl, rfl⟩ | exact .inr ⟨rfl, rfl, rfl, rfl, rfl, rfl, rfl⟩
  clear_value d5
  refine keeps_via (keeps_queueCrossed _ _ _ _ _) rfl ?_
  exact hd5

theorem keeps_transact (d : Dev) (p : Port) (addr : Nat) (cmd : Nat) (words : List Word) (resp : List Word) :
    Keeps [.chn, .dep] d (d.transact p addr cmd words resp) := by
  unfold Dev.transact
  refine keeps_via (keeps_sendChain _ _ _ _ _) rfl ?_
  refine keeps_via (keeps_takeTag _) rfl ?_
  exact keeps_mono (keeps_setSlot _ _ _) rfl

theorem keeps_sendTag (d : Dev) (t : Tag) (p : Port) :
    Keeps [.chn] d (d.sendTag t p) := by
  unfold Dev.sendTag
  extract_lets b1 c2 seq3 r4 d5 b6
  clear_value c2
  clear_value r4
  refine keeps_through (b := d5) ?_ fun hd5 => ?_
  · unfold d5
    refine keeps_via (keeps_sendChain _ _ _ _ _) rfl ?_
    exact keeps_set keeps_refl fun p => by cases p <;> first | exact .inl rfl | exact .inr rfl | exact .inr ⟨rfl, rfl⟩ | exact .inr ⟨rfl, rfl, rfl, rfl, rfl, rfl, rfl⟩
  clear_value d5
  refine keeps_ite (fun _ => ?_) fun _ => ?_
  · refine keeps_set (b := d5) ?_ fun p => by cases p <;> first | exact .inl rfl | exact .inr rfl | exact .inr ⟨rfl, rfl⟩ | exact .inr ⟨rfl, rfl, rfl, rfl, rfl, rfl, rfl⟩
    exact hd5
  · exact keeps_set keeps_refl fun p => by cases p <;> first | exact .inl rfl | exact .inr rfl | exact .inr ⟨rfl, rfl⟩ | exact .inr ⟨rfl, rfl, rfl, rfl, rfl, rfl, rfl⟩

theorem keeps_serveSide (d : Dev) (p : Port) :
    Keeps [.chn] d (d.serveSide p) := by
  unfold Dev.serveSide
  refine keeps_ite (fun _ => ?_) fun _ => ?_
  · split
    · exact keeps_mono (keeps_sendTag _ _ _) rfl
    · exact keeps_refl
  · exact keeps_refl

theorem keeps_serveSides (d : Dev) :
    Keeps [.chn] d (d.serveSides) := by
  unfold Dev.serveSides
  refine keeps_via (keeps_serveSide _ _) rfl ?_
  exact keeps_mono (keeps_serveSide _ _) rfl

theorem keeps_startRequest (d : Dev) (req : ChainRequest) :
    Keeps [.doms, .chn, .dep] d (d.startRequest req) := by
  unfold Dev.startRequest
  split
  · exact keeps_refl
  · extract_lets d1 b2
    refine keeps_through (b := d1) ?_ fun hd1 => ?_
    · unfold d1
      exact keeps_mono (keeps_callChain _) rfl
    clear_value d1
    split
    · refine keeps_set (b := d1) ?_ fun p => by cases p <;> first | exact .inl rfl | exact .inr rfl | exact .inr ⟨rfl, rfl⟩ | exact .inr ⟨rfl, rfl, rfl, rfl, rfl, rfl, rfl⟩
      exact hd1
    · refine keeps_via (keeps_sendTag _ _ _) rfl ?_
      refine keeps_via (keeps_takeTag _) rfl ?_
      refine keeps_via (keeps_setSlot _ _ _) rfl ?_
      exact hd1

theorem keeps_freeTag (d : Dev) (t : Nat) :
    Keeps [.doms, .chn, .dep] d (d.freeTag t) := by
  unfold Dev.freeTag
  extract_lets b1 d2 b3
  refine keeps_through (b := d2) ?_ fun hd2 => ?_
  · unfold d2
    exact keeps_set keeps_refl fun p => by cases p <;> first | exact .inl rfl | exact .inr rfl | exact .inr ⟨rfl, rfl⟩ | exact .inr ⟨rfl, rfl, rfl, rfl, rfl, rfl, rfl⟩
  clear_value d2
  refine keeps_via (keeps_serveSides _) rfl ?_
  split
  · exact hd2
  · refine keeps_via (keeps_startRequest _ _) rfl ?_
    refine keeps_set (b := d2) ?_ fun p => by cases p <;> first | exact .inl rfl | exact .inr rfl | exact .inr ⟨rfl, rfl⟩ | exact .inr ⟨rfl, rfl, rfl, rfl, rfl, rfl, rfl⟩
    exact hd2

theorem keeps_takeWaiting (d : Dev) :
    Keeps [.doms, .chn, .dep] d (d.takeWaiting) := by
  unfold Dev.takeWaiting
  refine keeps_foldl ?_ fun d1 x2 => ?_
  · exact keeps_set keeps_refl fun p => by cases p <;> first | exact .inl rfl | exact .inr rfl | exact .inr ⟨rfl, rfl⟩ | exact .inr ⟨rfl, rfl, rfl, rfl, rfl, rfl, rfl⟩
  · exact keeps_mono (keeps_startRequest _ _) rfl

theorem keeps_stageNotice (d : Dev) (src : Nat) (a : Fin 32) :
    Keeps [] d (d.stageNotice src a) := by
  unfold Dev.stageNotice
  exact keeps_mono (keeps_event _ _ _ _ _ _ _) rfl

theorem keeps_countChain (d : Dev) (i : Fin 6) (a : Option (Fin 32)) :
    Keeps [.chn] d (d.countChain i a) := by
  unfold Dev.countChain
  extract_lets c1 old2 new3 c4 c5 ep6 d7
  clear_value old2
  clear_value new3
  clear_value c4
  clear_value c5
  clear_value ep6
  refine keeps_through (b := d7) ?_ fun hd7 => ?_
  · unfold d7
    exact keeps_set keeps_refl fun p => by cases p <;> first | exact .inl rfl | exact .inr rfl | exact .inr ⟨rfl, rfl⟩ | exact .inr ⟨rfl, rfl, rfl, rfl, rfl, rfl, rfl⟩
  clear_value d7
  refine keeps_ite (fun _ => ?_) fun _ => ?_
  · refine keeps_via (keeps_event _ _ _ _ _ _ _) rfl ?_
    exact hd7
  · exact hd7

theorem keeps_openStageEpisode (d : Dev) (a : Fin 32) :
    Keeps [.chn, .evt] d (d.openStageEpisode a) := by
  unfold Dev.openStageEpisode
  split
  · exact keeps_refl
  · extract_lets r1
    refine keeps_through (b := r1.1) ?_ fun hr1 => ?_
    · unfold r1
      exact keeps_mono (keeps_newEpisode _) rfl
    clear_value r1
    refine keeps_via (keeps_setStage _ _ _) rfl ?_
    exact hr1

theorem keeps_stageFault (d : Dev) (f : Nat) (src : Nat) (a : Fin 32) :
    Keeps [.stamp, .mode, .seq, .coil, .lim, .pwr, .saf, .tol, .can0, .can1, .evt, .lif] d (d.stageFault f src a) := by
  unfold Dev.stageFault
  exact keeps_mono (keeps_raise _ _ _ _ _ _ _ _) rfl

theorem keeps_abandon (d : Dev) (t : Tag) :
    Keeps [.doms, .stamp, .mode, .seq, .coil, .chn, .lim, .pwr, .saf, .tol, .can0, .can1, .evt, .dep, .lif] d (d.abandon t) := by
  unfold Dev.abandon
  extract_lets a1
  refine keeps_via (keeps_freeTag _ _) rfl ?_
  refine keeps_via (keeps_stageFault _ _ _ _) rfl ?_
  exact keeps_mono (keeps_countChain _ _ _) rfl

theorem keeps_attemptFails (d : Dev) (t : Tag) :
    Keeps [.doms, .stamp, .mode, .seq, .coil, .chn, .lim, .pwr, .saf, .tol, .can0, .can1, .evt, .dep, .lif] d (d.attemptFails t) := by
  unfold Dev.attemptFails
  extract_lets a1 d2
  refine keeps_through (b := d2) ?_ fun hd2 => ?_
  · unfold d2
    exact keeps_mono (keeps_openStageEpisode _ _) rfl
  clear_value d2
  refine keeps_ite (fun _ => ?_) fun _ => ?_
  · refine keeps_via (keeps_abandon _ _) rfl ?_
    exact hd2
  · split
    · refine keeps_via (keeps_abandon _ _) rfl ?_
      exact hd2
    · refine keeps_via (keeps_sendTag _ _ _) rfl ?_
      refine keeps_via (keeps_countChain _ _ _) rfl ?_
      exact hd2

theorem keeps_challenge (d : Dev) (a : Fin 32) :
    Keeps [.doms, .chn, .dep] d (d.challenge a) := by
  unfold Dev.challenge
  extract_lets n1 d2
  refine keeps_through (b := d2) ?_ fun hd2 => ?_
  · unfold d2
    refine keeps_via (keeps_tick _) rfl ?_
    exact keeps_mono (keeps_setStage _ _ _) rfl
  clear_value d2
  refine keeps_via (keeps_startRequest _ _) rfl ?_
  exact hd2

theorem keeps_stageFinding (d : Dev) (f : Nat) (src : Nat) (a : Fin 32) :
    Keeps [.stamp, .mode, .seq, .coil, .lim, .pwr, .saf, .tol, .can0, .can1, .evt, .lif] d (d.stageFinding f src a) := by
  unfold Dev.stageFinding
  refine keeps_ite (fun _ => ?_) fun _ => ?_
  · exact keeps_mono (keeps_stageFault _ _ _ _) rfl
  · exact keeps_mono (keeps_stageNotice _ _ _) rfl

theorem keeps_readIdentity (d : Dev) (always : Bool) (a : Fin 32) (x : StageId) :
    Keeps [.doms, .stamp, .mode, .seq, .coil, .chn, .est, .lim, .pwr, .saf, .tol, .can0, .can1, .evt, .dep, .lif] d (d.readIdentity always a x) := by
  unfold Dev.readIdentity
  extract_lets st1 d2
  clear_value st1
  refine keeps_through (b := d2) ?_ fun hd2 => ?_
  · unfold d2
    exact keeps_mono (keeps_setStage _ _ _) rfl
  clear_value d2
  refine keeps_ite (fun _ => ?_) fun _ => ?_
  · refine keeps_via (keeps_challenge _ _) rfl ?_
    refine keeps_via (keeps_insertModule _ _ _) rfl ?_
    refine keeps_via (keeps_stageFinding _ _ _ _) rfl ?_
    exact hd2
  · exact hd2

theorem keeps_snapPart (d : Dev) (a : Fin 32) :
    Keeps [.stamp, .mode, .seq, .coil, .chn, .est, .lim, .pwr, .saf, .tol, .can0, .can1, .evt, .lif] d (d.snapPart a) := by
  unfold Dev.snapPart
  split
  · refine keeps_ite (fun _ => ?_) fun _ => ?_
    · extract_lets volts1 temp2 d3
      clear_value volts1
      clear_value temp2
      refine keeps_through (b := d3) ?_ fun hd3 => ?_
      · unfold d3
        exact keeps_mono (keeps_setStage _ _ _) rfl
      clear_value d3
      refine keeps_via (keeps_snapRead _ _) rfl ?_
      exact hd3
    · exact keeps_refl
  · exact keeps_refl

theorem keeps_readAuth (d : Dev) (a : Fin 32) (cmd : BitVec 6) :
    Keeps [.doms, .chn, .dep] d (d.readAuth a cmd) := by
  unfold Dev.readAuth
  exact keeps_mono (keeps_startRequest _ _) rfl

theorem keeps_keepAnswer (d : Dev) (r : ChainRequest) (ws : List Word) :
    Keeps [.doms, .stamp, .mode, .seq, .coil, .chn, .est, .lim, .pwr, .saf, .tol, .can0, .can1, .evt, .dep, .lif] d (d.keepAnswer r ws) := by
  unfold Dev.keepAnswer
  extract_lets a1 challenged2 w3 d4
  clear_value challenged2
  clear_value w3
  refine keeps_through (b := d4) ?_ fun hd4 => ?_
  · unfold d4
    exact keeps_mono (keeps_setStage _ _ _) rfl
  clear_value d4
  split
  · exact keeps_mono (keeps_readIdentity _ _ _ _) rfl
  · refine keeps_via (keeps_snapPart _ _) rfl ?_
    exact keeps_mono (keeps_setStage _ _ _) rfl
  · refine keeps_via (keeps_snapPart _ _) rfl ?_
    exact keeps_mono (keeps_setStage _ _ _) rfl
  · exact keeps_mono (keeps_setStage _ _ _) rfl
  · exact keeps_mono (keeps_setStage _ _ _) rfl
  · refine keeps_ite (fun _ => ?_) fun _ => ?_
    · exact keeps_mono (keeps_readAuth _ _ _) rfl
    · exact keeps_refl
  · refine keeps_ite (fun _ => ?_) fun _ => ?_
    · refine keeps_ite (fun _ => ?_) fun _ => ?_
      · exact hd4
      · refine keeps_via (keeps_readAuth _ _ _) rfl ?_
        exact hd4
    · exact keeps_refl
  · refine keeps_ite (fun _ => ?_) fun _ => ?_
    · exact keeps_mono (keeps_setStage _ _ _) rfl
    · exact keeps_refl
  · exact keeps_refl

theorem keeps_answer (d : Dev) (t : Tag) (ws : List Word) :
    Keeps [.doms, .stamp, .mode, .seq, .coil, .chn, .est, .lim, .pwr, .saf, .tol, .can0, .can1, .evt, .dep, .lif] d (d.answer t ws) := by
  unfold Dev.answer
  extract_lets d1
  refine keeps_through (b := d1) ?_ fun hd1 => ?_
  · unfold d1
    exact keeps_mono (keeps_setSlot _ _ _) rfl
  clear_value d1
  split
  · refine keeps_via (keeps_sendTag _ _ _) rfl ?_
    exact hd1
  · refine keeps_via (keeps_keepAnswer _ _ _) rfl ?_
    refine keeps_via (keeps_freeTag _ _) rfl ?_
    exact hd1

theorem keeps_refusal (d : Dev) (t : Tag) (reason : Nat) :
    Keeps [.doms, .stamp, .mode, .seq, .coil, .chn, .lim, .pwr, .saf, .tol, .can0, .can1, .evt, .dep, .lif] d (d.refusal t reason) := by
  unfold Dev.refusal
  extract_lets cmd1 a2 b3
  clear_value cmd1
  refine keeps_ite (fun _ => ?_) fun _ => ?_
  · refine keeps_via (keeps_serveSides _) rfl ?_
    exact keeps_set keeps_refl fun p => by cases p <;> first | exact .inl rfl | exact .inr rfl | exact .inr ⟨rfl, rfl⟩ | exact .inr ⟨rfl, rfl, rfl, rfl, rfl, rfl, rfl⟩
  · refine keeps_ite (fun _ => ?_) fun _ => ?_
    · refine keeps_via (keeps_freeTag _ _) rfl ?_
      refine keeps_via (keeps_stageFault _ _ _ _) rfl ?_
      exact keeps_mono (keeps_countChain _ _ _) rfl
    · exact keeps_mono (keeps_freeTag _ _) rfl

theorem keeps_closeStageEpisode (d : Dev) (a : Fin 32) :
    Keeps [.chn, .lim] d (d.closeStageEpisode a) := by
  unfold Dev.closeStageEpisode
  extract_lets off1 d2
  clear_value off1
  refine keeps_through (b := d2) ?_ fun hd2 => ?_
  · unfold d2
    exact keeps_mono (keeps_setStage _ _ _) rfl
  clear_value d2
  refine keeps_ite (fun _ => ?_) fun _ => ?_
  · refine keeps_via (keeps_faultGone _ _) rfl ?_
    exact hd2
  · exact hd2

theorem keeps_chainResponse (d : Dev) (p : Port) (f : ChainFrame) :
    Keeps [.doms, .stamp, .mode, .seq, .coil, .chn, .est, .lim, .pwr, .saf, .tol, .can0, .can1, .evt, .dep, .lif] d (d.chainResponse p f) := by
  unfold Dev.chainResponse
  split
  · exact keeps_mono (keeps_countChain _ _ _) rfl
  · extract_lets a1 d2
    refine keeps_through (b := d2) ?_ fun hd2 => ?_
    · unfold d2
      exact keeps_mono (keeps_closeStageEpisode _ _) rfl
    clear_value d2
    refine keeps_ite (fun _ => ?_) fun _ => ?_
    · refine keeps_ite (fun _ => ?_) fun _ => ?_
      · refine keeps_via (keeps_refusal _ _ _) rfl ?_
        exact hd2
      · refine keeps_via (keeps_answer _ _ _) rfl ?_
        exact hd2
    · refine keeps_via (keeps_attemptFails _ _) rfl ?_
      exact keeps_mono (keeps_countChain _ _ _) rfl

theorem keeps_endAuth (d : Dev) (a : Fin 32) :
    Keeps [.doms, .chn, .dep] d (d.endAuth a) := by
  unfold Dev.endAuth
  extract_lets own1 b2 d3 d4
  clear_value own1
  refine keeps_through (b := d3) ?_ fun hd3 => ?_
  · unfold d3
    exact keeps_set keeps_refl fun p => by cases p <;> first | exact .inl rfl | exact .inr rfl | exact .inr ⟨rfl, rfl⟩ | exact .inr ⟨rfl, rfl, rfl, rfl, rfl, rfl, rfl⟩
  clear_value d3
  refine keeps_through (b := d4) ?_ fun hd4 => ?_
  · unfold d4
    refine keeps_foldl ?_ fun d5 x6 => ?_
    · exact hd3
    · exact keeps_mono (keeps_freeTag _ _) rfl
  clear_value d4
  refine keeps_via (keeps_setStage _ _ _) rfl ?_
  exact hd4

theorem keeps_authFails (d : Dev) (a : Fin 32) (why : AuthFail) :
    Keeps [.doms, .stamp, .mode, .seq, .coil, .chn, .est, .lim, .pwr, .saf, .tol, .can0, .can1, .evt, .dep, .lif] d (d.authFails a why) := by
  unfold Dev.authFails
  extract_lets e1 d2 d3
  refine keeps_through (b := d2) ?_ fun hd2 => ?_
  · unfold d2
    exact keeps_set keeps_refl fun p => by cases p <;> first | exact .inl rfl | exact .inr rfl | exact .inr ⟨rfl, rfl⟩ | exact .inr ⟨rfl, rfl, rfl, rfl, rfl, rfl, rfl⟩
  clear_value d2
  refine keeps_through (b := d3) ?_ fun hd3 => ?_
  · unfold d3
    refine keeps_via (keeps_countDevice _ _) rfl ?_
    refine keeps_via (keeps_setStage _ _ _) rfl ?_
    refine keeps_via (keeps_endAuth _ _) rfl ?_
    exact hd2
  clear_value d3
  refine keeps_via (keeps_stageFinding _ _ _ _) rfl ?_
  exact hd3

theorem keeps_authPasses (d : Dev) (a : Fin 32) (cert : List Byte) :
    Keeps [.doms, .chn, .lim, .dep] d (d.authPasses a cert) := by
  unfold Dev.authPasses
  extract_lets d1
  refine keeps_through (b := d1) ?_ fun hd1 => ?_
  · unfold d1
    refine keeps_via (keeps_setStage _ _ _) rfl ?_
    exact keeps_mono (keeps_endAuth _ _) rfl
  clear_value d1
  refine keeps_ite (fun _ => ?_) fun _ => ?_
  · refine keeps_via (keeps_faultGone _ _) rfl ?_
    refine keeps_via (keeps_faultGone _ _) rfl ?_
    exact hd1
  · exact hd1

theorem keeps_freeSeq (d : Dev) :
    Keeps [.chn] d (d.freeSeq) := by
  unfold Dev.freeSeq
  extract_lets b1 b2
  refine keeps_through (b := b1) ?_ fun hb1 => ?_
  · unfold b1
    exact keeps_mono (keeps_tick _) rfl
  clear_value b1
  refine keeps_set (b := b1) ?_ fun p => by cases p <;> first | exact .inl rfl | exact .inr rfl | exact .inr ⟨rfl, rfl⟩ | exact .inr ⟨rfl, rfl, rfl, rfl, rfl, rfl, rfl⟩
  exact hb1

theorem keeps_authenticate (d : Dev) (a : Fin 32) (r : AuthReply) :
    Keeps [.doms, .stamp, .mode, .seq, .coil, .chn, .est, .lim, .pwr, .saf, .tol, .can0, .can1, .evt, .dep, .lif] d (d.authenticate a r) := by
  unfold Dev.authenticate
  split
  · extract_lets d1 st2 d3
    refine keeps_through (b := d1) ?_ fun hd1 => ?_
    · unfold d1
      refine keeps_ite (fun _ => ?_) fun _ => ?_
      · exact keeps_refl
      · exact keeps_mono (keeps_challenge _ _) rfl
    clear_value d1
    clear_value st2
    refine keeps_through (b := d3) ?_ fun hd3 => ?_
    · unfold d3
      refine keeps_ite (fun _ => ?_) fun _ => ?_
      · exact hd1
      · refine keeps_via (keeps_freeSeq _) rfl ?_
        exact hd1
    clear_value d3
    split
    · refine keeps_via (keeps_authPasses _ _ _) rfl ?_
      exact hd3
    · refine keeps_via (keeps_authFails _ _ _) rfl ?_
      exact hd3
  · refine keeps_foldl ?_ fun d4 x5 => ?_
    · exact keeps_refl
    · exact keeps_mono (keeps_authFails _ _ _) rfl

theorem keeps_bodyAuthNow (d : Dev) :
    Keeps [.doms, .chn, .dep] d (bodyAuthNow d).1 := by
  unfold bodyAuthNow
  refine keeps_pair ?_
  refine keeps_foldl ?_ fun d1 x2 => ?_
  · exact keeps_refl
  · refine keeps_ite (fun _ => ?_) fun _ => ?_
    · exact keeps_mono (keeps_challenge _ _) rfl
    · exact keeps_refl

theorem keeps_measureStage (echoes : List (Fin 32 × Rat × Rat)) (d : Dev) (a : Fin 32) :
    Keeps [.chn, .dep] d (Dev.measureStage echoes d a) := by
  unfold Dev.measureStage
  extract_lets c1 st2 n3 fromA4 fromB5 d6 d7 m8 take9 pq10
  clear_value st2
  clear_value fromA4
  clear_value fromB5
  refine keeps_through (b := d6) ?_ fun hd6 => ?_
  · unfold d6
    refine keeps_ite (fun _ => ?_) fun _ => ?_
    · exact keeps_mono (keeps_transact _ _ _ _ _ _) rfl
    · exact keeps_refl
  clear_value d6
  refine keeps_through (b := d7) ?_ fun hd7 => ?_
  · unfold d7
    refine keeps_ite (fun _ => ?_) fun _ => ?_
    · refine keeps_via (keeps_transact _ _ _ _ _ _) rfl ?_
      exact hd6
    · exact hd6
  clear_value d7
  clear_value m8
  clear_value take9
  clear_value pq10
  split
  · exact keeps_refl
  · refine keeps_via (keeps_setStage _ _ _) rfl ?_
    refine keeps_via (keeps_transact _ _ _ _ _ _) rfl ?_
    exact hd7

theorem keeps_measureDelays (d : Dev) (echoes : List (Fin 32 × Rat × Rat)) :
    Keeps [.chn, .dep] d (d.measureDelays echoes) := by
  unfold Dev.measureDelays
  refine keeps_foldl ?_ fun d1 x2 => ?_
  · exact keeps_refl
  · exact keeps_mono (keeps_measureStage _ _ _) rfl

theorem keeps_reach (d : Dev) :
    Keeps [.chn] d (d.reach) := by
  unfold Dev.reach
  extract_lets c1
  exact keeps_set keeps_refl fun p => by cases p <;> first | exact .inl rfl | exact .inr rfl | exact .inr ⟨rfl, rfl⟩ | exact .inr ⟨rfl, rfl, rfl, rfl, rfl, rfl, rfl⟩

theorem keeps_ringFault (d : Dev) :
    Keeps [.stamp, .mode, .seq, .coil, .lim, .pwr, .saf, .tol, .can0, .can1, .evt, .lif] d (d.ringFault) := by
  unfold Dev.ringFault
  extract_lets all1
  clear_value all1
  refine keeps_ite (fun _ => ?_) fun _ => ?_
  · refine keeps_ite (fun _ => ?_) fun _ => ?_
    · exact keeps_refl
    · exact keeps_mono (keeps_fault _ _ _ _ _) rfl
  · refine keeps_ite (fun _ => ?_) fun _ => ?_
    · exact keeps_mono (keeps_faultGone _ _) rfl
    · exact keeps_refl

theorem keeps_transactEach (d : Dev) (p : Port) (cmd : Nat) (addrs : List Nat) :
    Keeps [.chn, .dep] d (d.transactEach p cmd addrs) := by
  unfold Dev.transactEach
  refine keeps_foldl ?_ fun d1 x2 => ?_
  · exact keeps_refl
  · exact keeps_mono (keeps_transact _ _ _ _ _ _) rfl

theorem keeps_echoSides (d : Dev) :
    Keeps [.chn, .dep] d (d.echoSides) := by
  unfold Dev.echoSides
  extract_lets n1 c2 up3 down4
  clear_value up3
  clear_value down4
  refine keeps_via (keeps_transactEach _ _ _ _) rfl ?_
  exact keeps_mono (keeps_transactEach _ _ _ _) rfl

theorem keeps_resumeTags (d : Dev) :
    Keeps [.chn] d (d.resumeTags) := by
  unfold Dev.resumeTags
  refine keeps_via (keeps_serveSides _) rfl ?_
  exact keeps_set keeps_refl fun p => by cases p <;> first | exact .inl rfl | exact .inr rfl | exact .inr ⟨rfl, rfl⟩ | exact .inr ⟨rfl, rfl, rfl, rfl, rfl, rfl, rfl⟩

theorem keeps_ringBreaks (d : Dev) (lastA : BitVec 6) (firstB : BitVec 6) :
    Keeps [.stamp, .mode, .seq, .coil, .chn, .lim, .pwr, .saf, .tol, .can0, .can1, .evt, .dep, .lif] d (d.ringBreaks lastA firstB) := by
  unfold Dev.ringBreaks
  extract_lets b1 d2 d3 d4
  refine keeps_through (b := d2) ?_ fun hd2 => ?_
  · unfold d2
    exact keeps_set keeps_refl fun p => by cases p <;> first | exact .inl rfl | exact .inr rfl | exact .inr ⟨rfl, rfl⟩ | exact .inr ⟨rfl, rfl, rfl, rfl, rfl, rfl, rfl⟩
  clear_value d2
  refine keeps_through (b := d3) ?_ fun hd3 => ?_
  · unfold d3
    refine keeps_via (keeps_reach _) rfl ?_
    refine keeps_via (keeps_countDevice _ _) rfl ?_
    refine keeps_via (keeps_echoSides _) rfl ?_
    refine keeps_via (keeps_broadcast _ _ _) rfl ?_
    exact hd2
  clear_value d3
  refine keeps_through (b := d4) ?_ fun hd4 => ?_
  · unfold d4
    refine keeps_ite (fun _ => ?_) fun _ => ?_
    · refine keeps_via (keeps_fault _ _ _ _ _) rfl ?_
      exact hd3
    · refine keeps_via (keeps_notice _ _ _ _) rfl ?_
      exact hd3
  clear_value d4
  refine keeps_via (keeps_resumeTags _) rfl ?_
  exact hd4

theorem keeps_assignNext (d : Dev) (p : Port) (addr : Nat) (x : Option StageId) :
    Keeps [.doms, .stamp, .mode, .seq, .coil, .chn, .est, .lim, .pwr, .saf, .tol, .can0, .can1, .evt, .dep, .lif] d (d.assignNext p addr x) := by
  unfold Dev.assignNext
  refine keeps_ite (fun _ => ?_) fun _ => ?_
  · extract_lets d1 b2 d3 a4
    refine keeps_through (b := d1) ?_ fun hd1 => ?_
    · unfold d1
      exact keeps_mono (keeps_transact _ _ _ _ _ _) rfl
    clear_value d1
    refine keeps_through (b := d3) ?_ fun hd3 => ?_
    · unfold d3
      refine keeps_set (b := d1) ?_ fun p => by cases p <;> first | exact .inl rfl | exact .inr rfl | exact .inr ⟨rfl, rfl⟩ | exact .inr ⟨rfl, rfl, rfl, rfl, rfl, rfl, rfl⟩
      exact hd1
    clear_value d3
    split
    · refine keeps_via (keeps_readIdentity _ _ _ _) rfl ?_
      refine keeps_via (keeps_setStage _ _ _) rfl ?_
      exact hd3
    · exact hd1
  · exact keeps_refl

theorem keeps_ringProbe (d : Dev) (r : ProbeResult) :
    Keeps [.doms, .stamp, .mode, .seq, .coil, .chn, .est, .lim, .pwr, .saf, .tol, .can0, .can1, .evt, .dep, .lif] d (d.ringProbe r) := by
  unfold Dev.ringProbe
  extract_lets before1 d2 free3 b4 d5 d6 d7 b8 d9 d10 d11 d12
  refine keeps_through (b := d2) ?_ fun hd2 => ?_
  · unfold d2
    exact keeps_mono (keeps_sendChain _ _ _ _ _) rfl
  clear_value d2
  clear_value free3
  refine keeps_through (b := d5) ?_ fun hd5 => ?_
  · unfold d5
    refine keeps_set (b := d2) ?_ fun p => by cases p <;> first | exact .inl rfl | exact .inr rfl | exact .inr ⟨rfl, rfl⟩ | exact .inr ⟨rfl, rfl, rfl, rfl, rfl, rfl, rfl⟩
    exact hd2
  clear_value d5
  refine keeps_through (b := d6) ?_ fun hd6 => ?_
  · unfold d6
    refine keeps_foldl ?_ fun d13 x14 => ?_
    · exact hd5
    · exact keeps_mono (keeps_readIdentity _ _ _ _) rfl
  clear_value d6
  refine keeps_through (b := d7) ?_ fun hd7 => ?_
  · unfold d7
    refine keeps_via (keeps_notice _ _ _ _) rfl ?_
    refine keeps_via (keeps_sendChain _ _ _ _ _) rfl ?_
    refine keeps_via (keeps_measureDelays _ _) rfl ?_
    exact hd6
  clear_value d7
  clear_value b8
  refine keeps_through (b := d9) ?_ fun hd9 => ?_
  · unfold d9
    refine keeps_via (keeps_assignNext _ _ _ _) rfl ?_
    refine keeps_via (keeps_assignNext _ _ _ _) rfl ?_
    exact hd2
  clear_value d9
  refine keeps_through (b := d10) ?_ fun hd10 => ?_
  · unfold d10
    refine keeps_foldl ?_ fun d15 x16 => ?_
    · exact hd9
    · exact keeps_mono (keeps_readIdentity _ _ _ _) rfl
  clear_value d10
  refine keeps_through (b := d11) ?_ fun hd11 => ?_
  · unfold d11
    refine keeps_via (keeps_reach _) rfl ?_
    exact hd10
  clear_value d11
  refine keeps_through (b := d12) ?_ fun hd12 => ?_
  · unfold d12
    refine keeps_ite (fun _ => ?_) fun _ => ?_
    · exact hd2
    · refine keeps_ite (fun _ => ?_) fun _ => ?_
      · refine keeps_foldl ?_ fun d17 x18 => ?_
        · refine keeps_via (keeps_ringFault _) rfl ?_
          exact hd7
        · exact keeps_mono (keeps_serveSide _ _) rfl
      · refine keeps_via (keeps_serveSides _) rfl ?_
        refine keeps_via (keeps_ringFault _) rfl ?_
        refine keeps_foldl ?_ fun d19 x20 => ?_
        · exact hd11
        · exact keeps_mono (keeps_measureStage _ _ _) rfl
  clear_value d12
  refine keeps_foldl ?_ fun d21 x22 => ?_
  · exact hd12
  · exact keeps_mono (keeps_challenge _ _) rfl

theorem keeps_writePointer (d : Dev) (slot : Nat) :
    Keeps [.doms, .dep, .mem, .copies] d (d.writePointer slot) := by
  unfold Dev.writePointer
  extract_lets r1 b2
  clear_value r1
  clear_value b2
  exact keeps_mono (keeps_depotWrite _ _) rfl

theorem keeps_bodyManErase (d : Dev) :
    Keeps [.doms, .dep, .mem, .copies] d (bodyManErase d).1 := by
  unfold bodyManErase
  refine keeps_ite_fst (fun _ => ?_) fun _ => ?_
  · refine keeps_pair ?_
    exact keeps_refl
  · refine keeps_ite_fst (fun _ => ?_) fun _ => ?_
    · refine keeps_pair ?_
      exact keeps_refl
    · refine keeps_pair ?_
      exact keeps_mono (keeps_depotWrite _ _) rfl

theorem keeps_bodyManSwitch (d : Dev) :
    Keeps [.doms, .dep, .mem, .copies] d (bodyManSwitch d).1 := by
  unfold bodyManSwitch
  refine keeps_ite_fst (fun _ => ?_) fun _ => ?_
  · refine keeps_pair ?_
    exact keeps_refl
  · refine keeps_ite_fst (fun _ => ?_) fun _ => ?_
    · refine keeps_pair ?_
      exact keeps_refl
    · extract_lets d1
      refine keeps_through (b := d1) ?_ fun hd1 => ?_
      · unfold d1
        exact keeps_mono (keeps_needDepot _) rfl
      clear_value d1
      split
      · refine keeps_ite_fst (fun _ => ?_) fun _ => ?_
        · refine keeps_pair ?_
          refine keeps_via (keeps_writePointer _ _) rfl ?_
          exact hd1
        · refine keeps_pair ?_
          exact hd1
      · refine keeps_pair ?_
        exact hd1

theorem keeps_pin (d : Dev) (n : Nat) :
    Keeps [.dep] d (d.pin n) := by
  unfold Dev.pin
  refine keeps_ite (fun _ => ?_) fun _ => ?_
  · exact keeps_set keeps_refl fun p => by cases p <;> first | exact .inl rfl | exact .inr rfl | exact .inr ⟨rfl, rfl⟩ | exact .inr ⟨rfl, rfl, rfl, rfl, rfl, rfl, rfl⟩
  · extract_lets b1 d2
    refine keeps_through (b := d2) ?_ fun hd2 => ?_
    · unfold d2
      exact keeps_set keeps_refl fun p => by cases p <;> first | exact .inl rfl | exact .inr rfl | exact .inr ⟨rfl, rfl⟩ | exact .inr ⟨rfl, rfl, rfl, rfl, rfl, rfl, rfl⟩
    clear_value d2
    refine keeps_via (keeps_notice _ _ _ _) rfl ?_
    exact hd2

theorem keeps_copyForward (d : Dev) (old : Nat × List Byte) :
    Keeps [.dep, .mem] d (d.copyForward old) := by
  unfold Dev.copyForward
  extract_lets n1 d2 b3
  clear_value n1
  refine keeps_through (b := d2) ?_ fun hd2 => ?_
  · unfold d2
    exact keeps_mono (keeps_setCs1 _ _ _) rfl
  clear_value d2
  refine keeps_set (b := d2) ?_ fun p => by cases p <;> first | exact .inl rfl | exact .inr rfl | exact .inr ⟨rfl, rfl⟩ | exact .inr ⟨rfl, rfl, rfl, rfl, rfl, rfl, rfl⟩
  exact hd2

theorem keeps_enterSector (d : Dev) (n : Nat) :
    Keeps [.dep, .mem] d (d.enterSector n) := by
  unfold Dev.enterSector
  refine keeps_ite (fun _ => ?_) fun _ => ?_
  · extract_lets olds1 d2 b3 d4
    clear_value olds1
    refine keeps_through (b := d2) ?_ fun hd2 => ?_
    · unfold d2
      exact keeps_mono (keeps_eraseCs1 _ _ _) rfl
    clear_value d2
    refine keeps_through (b := d4) ?_ fun hd4 => ?_
    · unfold d4
      refine keeps_set (b := d2) ?_ fun p => by cases p <;> first | exact .inl rfl | exact .inr rfl | exact .inr ⟨rfl, rfl⟩ | exact .inr ⟨rfl, rfl, rfl, rfl, rfl, rfl, rfl⟩
      exact hd2
    clear_value d4
    refine keeps_foldl ?_ fun d5 x6 => ?_
    · exact hd4
    · exact keeps_mono (keeps_copyForward _ _) rfl
  · exact keeps_set keeps_refl fun p => by cases p <;> first | exact .inl rfl | exact .inr rfl | exact .inr ⟨rfl, rfl⟩ | exact .inr ⟨rfl, rfl, rfl, rfl, rfl, rfl, rfl⟩

theorem keeps_nextSlot (x0 : Nat) (x1 : Dev) :
    Keeps [.dep, .mem] x1 (Dev.nextSlot x0 x1) := by
  induction x0 generalizing x1
  · unfold Dev.nextSlot
    exact keeps_refl
  · rename_i x0 ih
    unfold Dev.nextSlot
    extract_lets n1 d2
    clear_value n1
    refine keeps_through (b := d2) ?_ fun hd2 => ?_
    · unfold d2
      exact keeps_mono (keeps_enterSector _ _) rfl
    clear_value d2
    refine keeps_ite (fun _ => ?_) fun _ => ?_
    · refine keeps_trans ?_ (ih _)
      exact hd2
    · exact hd2

theorem keeps_writeLog (d : Dev) (x : LogEntry) :
    Keeps [.dep, .mem] d (d.writeLog x) := by
  unfold Dev.writeLog
  extract_lets d1 n2 d3 b4 d5
  refine keeps_through (b := d1) ?_ fun hd1 => ?_
  · unfold d1
    exact keeps_mono (keeps_nextSlot _ _) rfl
  clear_value d1
  clear_value n2
  refine keeps_through (b := d3) ?_ fun hd3 => ?_
  · unfold d3
    refine keeps_via (keeps_setCs1 _ _ _) rfl ?_
    exact hd1
  clear_value d3
  refine keeps_through (b := d5) ?_ fun hd5 => ?_
  · unfold d5
    refine keeps_set (b := d3) ?_ fun p => by cases p <;> first | exact .inl rfl | exact .inr rfl | exact .inr ⟨rfl, rfl⟩ | exact .inr ⟨rfl, rfl, rfl, rfl, rfl, rfl, rfl⟩
    exact hd3
  clear_value d5
  refine keeps_ite (fun _ => ?_) fun _ => ?_
  · refine keeps_via (keeps_pin _ _) rfl ?_
    exact hd5
  · exact hd5

theorem keeps_saveLogState (d : Dev) :
    Keeps [.doms, .dep, .mem, .copies] d (d.saveLogState) := by
  unfold Dev.saveLogState
  exact keeps_mono (keeps_depotWrite _ _) rfl

theorem keeps_writeBuffer (d : Dev) :
    Keeps [.doms, .evt, .dep, .mem, .copies] d (d.writeBuffer) := by
  unfold Dev.writeBuffer
  extract_lets sec1 done2 n3 now4 b5 d6
  clear_value sec1
  clear_value done2
  clear_value n3
  clear_value now4
  refine keeps_through (b := d6) ?_ fun hd6 => ?_
  · unfold d6
    exact keeps_set keeps_refl fun p => by cases p <;> first | exact .inl rfl | exact .inr rfl | exact .inr ⟨rfl, rfl⟩ | exact .inr ⟨rfl, rfl, rfl, rfl, rfl, rfl, rfl⟩
  clear_value d6
  refine keeps_via (keeps_saveLogState _) rfl ?_
  refine keeps_foldl ?_ fun d7 x8 => ?_
  · exact hd6
  · exact keeps_mono (keeps_writeLog _ _) rfl

theorem keeps_unpinTo (d : Dev) (v : Nat) :
    Keeps [.doms, .dep, .mem, .copies] d (d.unpinTo v) := by
  unfold Dev.unpinTo
  refine keeps_ite (fun _ => ?_) fun _ => ?_
  · exact keeps_refl
  · refine keeps_via (keeps_saveLogState _) rfl ?_
    exact keeps_set keeps_refl fun p => by cases p <;> first | exact .inl rfl | exact .inr rfl | exact .inr ⟨rfl, rfl⟩ | exact .inr ⟨rfl, rfl, rfl, rfl, rfl, rfl, rfl⟩

theorem keeps_bodyLogUnpin (d : Dev) :
    Keeps [.doms, .dep, .mem, .copies] d (bodyLogUnpin d).1 := by
  unfold bodyLogUnpin
  refine keeps_pair ?_
  exact keeps_mono (keeps_unpinTo _ _) rfl

theorem keeps_loadHistory (d : Dev) :
    Keeps [.dep, .copies] d (d.loadHistory) := by
  unfold Dev.loadHistory
  split
  · exact keeps_set keeps_refl fun p => by cases p <;> first | exact .inl rfl | exact .inr rfl | exact .inr ⟨rfl, rfl⟩ | exact .inr ⟨rfl, rfl, rfl, rfl, rfl, rfl, rfl⟩
  · exact keeps_refl

theorem keeps_writeHistory (d : Dev) :
    Keeps [.dep, .mem, .copies] d (d.writeHistory) := by
  unfold Dev.writeHistory
  extract_lets h1 copy2 gen3 d4 b5
  clear_value h1
  clear_value gen3
  refine keeps_through (b := d4) ?_ fun hd4 => ?_
  · unfold d4
    refine keeps_via (keeps_setCs1 _ _ _) rfl ?_
    exact keeps_mono (keeps_eraseCs1 _ _ _) rfl
  clear_value d4
  refine keeps_ite (fun _ => ?_) fun _ => ?_
  · exact keeps_refl
  · refine keeps_set (b := d4) ?_ fun p => by cases p <;> first | exact .inl rfl | exact .inr rfl | exact .inr ⟨rfl, rfl⟩ | exact .inr ⟨rfl, rfl, rfl, rfl, rfl, rfl, rfl⟩
    exact hd4

theorem keeps_flush (d : Dev) :
    Keeps [.doms, .dep, .mem, .copies, .lif] d (d.flush) := by
  unfold Dev.flush
  extract_lets d1 undo2 total3 gen4 copy5 d6 b7 b8 d9 d10 b11
  refine keeps_through (b := d1) ?_ fun hd1 => ?_
  · unfold d1
    exact keeps_mono (keeps_needDepot _) rfl
  clear_value d1
  clear_value total3
  clear_value gen4
  refine keeps_through (b := d6) ?_ fun hd6 => ?_
  · unfold d6
    refine keeps_via (keeps_setCs1 _ _ _) rfl ?_
    exact hd1
  clear_value d6
  refine keeps_through (b := d9) ?_ fun hd9 => ?_
  · unfold d9
    refine keeps_set (b := d6) ?_ fun p => by cases p <;> first | exact .inl rfl | exact .inr rfl | exact .inr ⟨rfl, rfl⟩ | exact .inr ⟨rfl, rfl, rfl, rfl, rfl, rfl, rfl⟩
    exact hd6
  clear_value d9
  refine keeps_through (b := d10) ?_ fun hd10 => ?_
  · unfold d10
    refine keeps_via (keeps_queueTx _ _) rfl ?_
    refine keeps_via (keeps_writeHistory _) rfl ?_
    exact hd9
  clear_value d10
  refine keeps_set (b := d10) ?_ fun p => by cases p <;> first | exact .inl rfl | exact .inr rfl | exact .inr ⟨rfl, rfl⟩ | exact .inr ⟨rfl, rfl, rfl, rfl, rfl, rfl, rfl⟩
  exact hd10

theorem keeps_abandonFlush (d : Dev) :
    Keeps [.dep, .mem, .copies, .lif] d (d.abandonFlush) := by
  unfold Dev.abandonFlush
  split
  · exact keeps_refl
  · extract_lets d1 d2 b3 b4
    refine keeps_through (b := d1) ?_ fun hd1 => ?_
    · unfold d1
      exact keeps_mono (keeps_eraseCs1 _ _ _) rfl
    clear_value d1
    refine keeps_through (b := d2) ?_ fun hd2 => ?_
    · unfold d2
      refine keeps_ite (fun _ => ?_) fun _ => ?_
      · exact hd1
      · refine keeps_via (keeps_eraseCs1 _ _ _) rfl ?_
        exact hd1
    clear_value d2
    refine keeps_set (b := d2) ?_ fun p => by cases p <;> first | exact .inl rfl | exact .inr rfl | exact .inr ⟨rfl, rfl⟩ | exact .inr ⟨rfl, rfl, rfl, rfl, rfl, rfl, rfl⟩
    exact hd2

theorem keeps_flushTurn (d : Dev) :
    Keeps [.doms, .dep, .mem, .copies, .lif] d (d.flushTurn) := by
  unfold Dev.flushTurn
  extract_lets b1 d2 d3
  refine keeps_through (b := d2) ?_ fun hd2 => ?_
  · unfold d2
    exact keeps_set keeps_refl fun p => by cases p <;> first | exact .inl rfl | exact .inr rfl | exact .inr ⟨rfl, rfl⟩ | exact .inr ⟨rfl, rfl, rfl, rfl, rfl, rfl, rfl⟩
  clear_value d2
  refine keeps_through (b := d3) ?_ fun hd3 => ?_
  · unfold d3
    refine keeps_via (keeps_needDepot _) rfl ?_
    exact hd2
  clear_value d3
  refine keeps_ite (fun _ => ?_) fun _ => ?_
  · exact hd2
  · refine keeps_ite (fun _ => ?_) fun _ => ?_
    · refine keeps_via (keeps_flush _) rfl ?_
      exact hd3
    · refine keeps_via (keeps_queueTx _ _) rfl ?_
      exact hd3

theorem keeps_bodyLifFlush (d : Dev) :
    Keeps [.doms, .dep, .mem, .copies, .lif] d (bodyLifFlush d).1 := by
  unfold bodyLifFlush
  refine keeps_pair ?_
  exact keeps_mono (keeps_flushTurn _) rfl

theorem keeps_clearK (d : Dev) (k : K) :
    Keeps [.coil, .lim, .lif] d (d.clearK k) := by
  unfold Dev.clearK
  extract_lets keep1 b2 d3 d4
  refine keeps_through (b := d3) ?_ fun hd3 => ?_
  · unfold d3
    exact keeps_set keeps_refl fun p => by cases p <;> first | exact .inl rfl | exact .inr rfl | exact .inr ⟨rfl, rfl⟩ | exact .inr ⟨rfl, rfl, rfl, rfl, rfl, rfl, rfl⟩
  -- noclear d3
  refine keeps_through (b := d4) ?_ fun hd4 => ?_
  · unfold d4
    refine keeps_via (keeps_setCoil _ _ _) rfl ?_
    exact hd3
  -- noclear d4
  refine keeps_ite (fun _ => ?_) fun _ => ?_
  · refine keeps_via (keeps_faultGone _ _) rfl ?_
    exact hd4
  · exact hd4

theorem keeps_bodyClrK (d : Dev) :
    Keeps [.coil, .lim, .lif] d (bodyClrK d).1 := by
  unfold bodyClrK
  refine keeps_ite_fst (fun _ => ?_) fun _ => ?_
  · refine keeps_pair ?_
    exact keeps_refl
  · refine keeps_pair ?_
    refine keeps_foldl ?_ fun d1 x2 => ?_
    · exact keeps_refl
    · refine keeps_ite (fun _ => ?_) fun _ => ?_
      · exact keeps_mono (keeps_clearK _ _) rfl
      · exact keeps_refl

theorem keeps_bodyClrPump (d : Dev) :
    Keeps [.lif] d (bodyClrPump d).1 := by
  unfold bodyClrPump
  refine keeps_ite_fst (fun _ => ?_) fun _ => ?_
  · refine keeps_pair ?_
    exact keeps_refl
  · refine keeps_pair ?_
    exact keeps_set keeps_refl fun p => by cases p <;> first | exact .inl rfl | exact .inr rfl | exact .inr ⟨rfl, rfl⟩ | exact .inr ⟨rfl, rfl, rfl, rfl, rfl, rfl, rfl⟩

theorem keeps_minute (d : Dev) :
    Keeps [.dep, .lif] d (d.minute) := by
  unfold Dev.minute
  extract_lets pack1 hot2 b3
  refine keeps_via (keeps_collect _ _) rfl ?_
  exact keeps_set keeps_refl fun p => by cases p <;> first | exact .inl rfl | exact .inr rfl | exact .inr ⟨rfl, rfl⟩ | exact .inr ⟨rfl, rfl, rfl, rfl, rfl, rfl, rfl⟩

theorem keeps_pumpTime (d : Dev) :
    Keeps [.dep, .lif] d (d.pumpTime) := by
  unfold Dev.pumpTime
  refine keeps_ite (fun _ => ?_) fun _ => ?_
  · exact keeps_refl
  · refine keeps_ite (fun _ => ?_) fun _ => ?_
    · exact keeps_set keeps_refl fun p => by cases p <;> first | exact .inl rfl | exact .inr rfl | exact .inr ⟨rfl, rfl⟩ | exact .inr ⟨rfl, rfl, rfl, rfl, rfl, rfl, rfl⟩
    · refine keeps_via (keeps_countPump _ _) rfl ?_
      exact keeps_set keeps_refl fun p => by cases p <;> first | exact .inl rfl | exact .inr rfl | exact .inr ⟨rfl, rfl⟩ | exact .inr ⟨rfl, rfl, rfl, rfl, rfl, rfl, rfl⟩

theorem keeps_hour (d : Dev) :
    Keeps [.lif] d (d.hour) := by
  unfold Dev.hour
  exact keeps_mono (keeps_countDevice _ _) rfl

theorem keeps_earlyFlush (d : Dev) :
    Keeps [.doms, .dep, .mem, .copies, .lif] d (d.earlyFlush) := by
  unfold Dev.earlyFlush
  refine keeps_ite (fun _ => ?_) fun _ => ?_
  · exact keeps_mono (keeps_flushTurn _) rfl
  · exact keeps_refl

theorem keeps_lifeFrame (d : Dev) :
    Keeps [.doms, .dep, .mem, .copies, .lif] d (d.lifeFrame) := by
  unfold Dev.lifeFrame
  extract_lets d1 b2 d3 b4
  refine keeps_through (b := d1) ?_ fun hd1 => ?_
  · unfold d1
    refine keeps_via (keeps_earlyFlush _) rfl ?_
    exact keeps_mono (keeps_pumpTime _) rfl
  clear_value d1
  refine keeps_through (b := d3) ?_ fun hd3 => ?_
  · unfold d3
    refine keeps_via (keeps_minute _) rfl ?_
    refine keeps_set (b := d1) ?_ fun p => by cases p <;> first | exact .inl rfl | exact .inr rfl | exact .inr ⟨rfl, rfl⟩ | exact .inr ⟨rfl, rfl, rfl, rfl, rfl, rfl, rfl⟩
    exact hd1
  clear_value d3
  refine keeps_ite (fun _ => ?_) fun _ => ?_
  · refine keeps_set (b := d1) ?_ fun p => by cases p <;> first | exact .inl rfl | exact .inr rfl | exact .inr ⟨rfl, rfl⟩ | exact .inr ⟨rfl, rfl, rfl, rfl, rfl, rfl, rfl⟩
    exact hd1
  · refine keeps_ite (fun _ => ?_) fun _ => ?_
    · refine keeps_set (b := d3) ?_ fun p => by cases p <;> first | exact .inl rfl | exact .inr rfl | exact .inr ⟨rfl, rfl⟩ | exact .inr ⟨rfl, rfl, rfl, rfl, rfl, rfl, rfl⟩
      exact hd3
    · refine keeps_via (keeps_hour _) rfl ?_
      refine keeps_set (b := d3) ?_ fun p => by cases p <;> first | exact .inl rfl | exact .inr rfl | exact .inr ⟨rfl, rfl⟩ | exact .inr ⟨rfl, rfl, rfl, rfl, rfl, rfl, rfl⟩
      exact hd3

theorem keeps_startTx (d : Dev) (t : DepotTx) :
    Keeps [.doms, .evt, .dep, .mem, .copies, .lif] d (d.startTx t) := by
  unfold Dev.startTx
  extract_lets js1 b2 d3 d4 d5 d6 b7
  clear_value js1
  refine keeps_through (b := d3) ?_ fun hd3 => ?_
  · unfold d3
    exact keeps_set keeps_refl fun p => by cases p <;> first | exact .inl rfl | exact .inr rfl | exact .inr ⟨rfl, rfl⟩ | exact .inr ⟨rfl, rfl, rfl, rfl, rfl, rfl, rfl⟩
  clear_value d3
  refine keeps_through (b := d4) ?_ fun hd4 => ?_
  · unfold d4
    refine keeps_foldl ?_ fun d8 x9 => ?_
    · exact hd3
    · exact keeps_mono (keeps_doJob _ _) rfl
  clear_value d4
  refine keeps_through (b := d5) ?_ fun hd5 => ?_
  · unfold d5
    refine keeps_ite (fun _ => ?_) fun _ => ?_
    · refine keeps_via (keeps_writeBuffer _) rfl ?_
      exact hd4
    · exact hd4
  clear_value d5
  refine keeps_through (b := d6) ?_ fun hd6 => ?_
  · unfold d6
    refine keeps_ite (fun _ => ?_) fun _ => ?_
    · refine keeps_via (keeps_flush _) rfl ?_
      exact hd5
    · exact hd5
  clear_value d6
  refine keeps_set (b := d6) ?_ fun p => by cases p <;> first | exact .inl rfl | exact .inr rfl | exact .inr ⟨rfl, rfl⟩ | exact .inr ⟨rfl, rfl, rfl, rfl, rfl, rfl, rfl⟩
  exact hd6

theorem keeps_countCs1Error (d : Dev) :
    Keeps [.dep] d (d.countCs1Error) := by
  unfold Dev.countCs1Error
  refine keeps_via (keeps_notice _ _ _ _) rfl ?_
  exact keeps_set keeps_refl fun p => by cases p <;> first | exact .inl rfl | exact .inr rfl | exact .inr ⟨rfl, rfl⟩ | exact .inr ⟨rfl, rfl, rfl, rfl, rfl, rfl, rfl⟩

theorem keeps_programFailed (d : Dev) (t : DepotTx) :
    Keeps [.dep, .mem, .lif] d (d.programFailed t) := by
  unfold Dev.programFailed
  split
  · extract_lets d1 b2
    refine keeps_through (b := d1) ?_ fun hd1 => ?_
    · unfold d1
      exact keeps_mono (keeps_countCs1Error _) rfl
    clear_value d1
    refine keeps_set (b := d1) ?_ fun p => by cases p <;> first | exact .inl rfl | exact .inr rfl | exact .inr ⟨rfl, rfl⟩ | exact .inr ⟨rfl, rfl, rfl, rfl, rfl, rfl, rfl⟩
    exact hd1
  · extract_lets d3 b4
    refine keeps_through (b := d3) ?_ fun hd3 => ?_
    · unfold d3
      refine keeps_via (keeps_eraseCs1 _ _ _) rfl ?_
      exact keeps_mono (keeps_countCs1Error _) rfl
    clear_value d3
    refine keeps_set (b := d3) ?_ fun p => by cases p <;> first | exact .inl rfl | exact .inr rfl | exact .inr ⟨rfl, rfl⟩ | exact .inr ⟨rfl, rfl, rfl, rfl, rfl, rfl, rfl⟩
    exact hd3
  · exact keeps_refl

theorem keeps_flushOver (d : Dev) (t : DepotTx) :
    Keeps [.lif] d (d.flushOver t) := by
  unfold Dev.flushOver
  refine keeps_ite (fun _ => ?_) fun _ => ?_
  · exact keeps_set keeps_refl fun p => by cases p <;> first | exact .inl rfl | exact .inr rfl | exact .inr ⟨rfl, rfl⟩ | exact .inr ⟨rfl, rfl, rfl, rfl, rfl, rfl, rfl⟩
  · exact keeps_refl

theorem keeps_txEnds (d : Dev) (ok : Bool) :
    Keeps [.dep, .mem, .lif] d (d.txEnds ok) := by
  unfold Dev.txEnds
  split
  · exact keeps_refl
  · exact keeps_refl
  · exact keeps_refl
  · extract_lets b1 d2
    refine keeps_through (b := d2) ?_ fun hd2 => ?_
    · unfold d2
      refine keeps_via (keeps_flushOver _ _) rfl ?_
      exact keeps_set keeps_refl fun p => by cases p <;> first | exact .inl rfl | exact .inr rfl | exact .inr ⟨rfl, rfl⟩ | exact .inr ⟨rfl, rfl, rfl, rfl, rfl, rfl, rfl⟩
    clear_value d2
    refine keeps_ite (fun _ => ?_) fun _ => ?_
    · exact hd2
    · refine keeps_via (keeps_programFailed _ _) rfl ?_
      exact hd2

theorem keeps_overrunNotice (d : Dev) (c : Carried) (source : Nat) :
    Keeps [] d (d.overrunNotice c source) := by
  unfold Dev.overrunNotice
  refine keeps_ite (fun _ => ?_) fun _ => ?_
  · exact keeps_mono (keeps_notice _ _ _ _) rfl
  · exact keeps_refl

theorem keeps_takeChain (d : Dev) :
    Keeps [.doms, .stamp, .mode, .seq, .coil, .chn, .est, .lim, .pwr, .saf, .tol, .can0, .can1, .evt, .dep, .lif] d (d.takeChain) := by
  unfold Dev.takeChain
  extract_lets c1 d2 d3 d4
  refine keeps_through (b := d2) ?_ fun hd2 => ?_
  · unfold d2
    exact keeps_set keeps_refl fun p => by cases p <;> first | exact .inl rfl | exact .inr rfl | exact .inr ⟨rfl, rfl⟩ | exact .inr ⟨rfl, rfl, rfl, rfl, rfl, rfl, rfl⟩
  clear_value d2
  refine keeps_through (b := d3) ?_ fun hd3 => ?_
  · unfold d3
    refine keeps_via (keeps_overrunNotice _ _ _) rfl ?_
    refine keeps_via (keeps_overrunNotice _ _ _) rfl ?_
    exact hd2
  clear_value d3
  refine keeps_through (b := d4) ?_ fun hd4 => ?_
  · unfold d4
    refine keeps_foldl ?_ fun d5 x6 => ?_
    · exact hd3
    · refine keeps_ite (fun _ => ?_) fun _ => ?_
      · exact keeps_mono (keeps_chainResponse _ _ _) rfl
      · exact keeps_refl
  clear_value d4
  refine keeps_foldl ?_ fun d7 x8 => ?_
  · exact hd4
  · refine keeps_ite (fun _ => ?_) fun _ => ?_
    · exact keeps_mono (keeps_ringBreaks _ _ _) rfl
    · exact keeps_refl

theorem keeps_takeDepot (d : Dev) :
    Keeps [.dep, .mem, .lif] d (d.takeDepot) := by
  unfold Dev.takeDepot
  extract_lets p1 d2
  refine keeps_through (b := d2) ?_ fun hd2 => ?_
  · unfold d2
    refine keeps_via (keeps_overrunNotice _ _ _) rfl ?_
    exact keeps_set keeps_refl fun p => by cases p <;> first | exact .inl rfl | exact .inr rfl | exact .inr ⟨rfl, rfl⟩ | exact .inr ⟨rfl, rfl, rfl, rfl, rfl, rfl, rfl⟩
  clear_value d2
  refine keeps_foldl ?_ fun d3 x4 => ?_
  · exact hd2
  · exact keeps_mono (keeps_txEnds _ _) rfl

theorem keeps_takeHeldSet (d : Dev) :
    Keeps [.sen, .tol] d (d.takeHeldSet) := by
  unfold Dev.takeHeldSet
  split
  · refine keeps_via (keeps_useSet _ _) rfl ?_
    exact keeps_set keeps_refl fun p => by cases p <;> first | exact .inl rfl | exact .inr rfl | exact .inr ⟨rfl, rfl⟩ | exact .inr ⟨rfl, rfl, rfl, rfl, rfl, rfl, rfl⟩
  · exact keeps_refl

theorem keeps_perTakes (d : Dev) :
    Keeps [.doms, .stamp, .mode, .seq, .coil, .chn, .sen, .est, .lim, .pwr, .saf, .tol, .can0, .can1, .evt, .dep, .mem, .lif] d (d.perTakes) := by
  unfold Dev.perTakes
  refine keeps_via (keeps_takeHeldSet _) rfl ?_
  refine keeps_via (keeps_takeDepot _) rfl ?_
  exact keeps_mono (keeps_takeChain _) rfl

theorem keeps_raiseVbkLow (d : Dev) :
    Keeps [.sup] d (d.raiseVbkLow) := by
  unfold Dev.raiseVbkLow
  refine keeps_ite (fun _ => ?_) fun _ => ?_
  · exact keeps_refl
  · extract_lets b1 d2
    refine keeps_through (b := d2) ?_ fun hd2 => ?_
    · unfold d2
      exact keeps_set keeps_refl fun p => by cases p <;> first | exact .inl rfl | exact .inr rfl | exact .inr ⟨rfl, rfl⟩ | exact .inr ⟨rfl, rfl, rfl, rfl, rfl, rfl, rfl⟩
    clear_value d2
    refine keeps_ite (fun _ => ?_) fun _ => ?_
    · refine keeps_via (keeps_notice _ _ _ _) rfl ?_
      exact hd2
    · exact hd2

theorem keeps_raiseVbkAbsent (d : Dev) :
    Keeps [.sup] d (d.raiseVbkAbsent) := by
  unfold Dev.raiseVbkAbsent
  refine keeps_ite (fun _ => ?_) fun _ => ?_
  · exact keeps_refl
  · extract_lets b1 d2
    refine keeps_through (b := d2) ?_ fun hd2 => ?_
    · unfold d2
      exact keeps_set keeps_refl fun p => by cases p <;> first | exact .inl rfl | exact .inr rfl | exact .inr ⟨rfl, rfl⟩ | exact .inr ⟨rfl, rfl, rfl, rfl, rfl, rfl, rfl⟩
    clear_value d2
    refine keeps_ite (fun _ => ?_) fun _ => ?_
    · refine keeps_via (keeps_notice _ _ _ _) rfl ?_
      exact hd2
    · exact hd2

theorem keeps_setTimeValid (d : Dev) (b : Bool) :
    Keeps [.sup, .tol] d (d.setTimeValid b) := by
  unfold Dev.setTimeValid
  refine keeps_ite (fun _ => ?_) fun _ => ?_
  · exact keeps_refl
  · extract_lets b1 d2 d3
    refine keeps_through (b := d2) ?_ fun hd2 => ?_
    · unfold d2
      exact keeps_set keeps_refl fun p => by cases p <;> first | exact .inl rfl | exact .inr rfl | exact .inr ⟨rfl, rfl⟩ | exact .inr ⟨rfl, rfl, rfl, rfl, rfl, rfl, rfl⟩
    clear_value d2
    refine keeps_through (b := d3) ?_ fun hd3 => ?_
    · unfold d3
      refine keeps_ite (fun _ => ?_) fun _ => ?_
      · refine keeps_via (keeps_markSession _ _) rfl ?_
        exact hd2
      · exact hd2
    clear_value d3
    refine keeps_ite (fun _ => ?_) fun _ => ?_
    · refine keeps_via (keeps_notice _ _ _ _) rfl ?_
      exact hd3
    · exact hd3

theorem keeps_rtcTick (d : Dev) :
    Keeps [.sup] d (d.rtcTick) := by
  unfold Dev.rtcTick
  exact keeps_set keeps_refl fun p => by cases p <;> first | exact .inl rfl | exact .inr rfl | exact .inr ⟨rfl, rfl⟩ | exact .inr ⟨rfl, rfl, rfl, rfl, rfl, rfl, rfl⟩

theorem keeps_moveTimes (d : Dev) (move : Time) :
    Keeps [.seq, .chn, .est] d (d.moveTimes move) := by
  unfold Dev.moveTimes
  exact keeps_set keeps_refl fun p => by cases p <;> first | exact .inl rfl | exact .inr rfl | exact .inr ⟨rfl, rfl⟩ | exact .inr ⟨rfl, rfl, rfl, rfl, rfl, rfl, rfl⟩

theorem keeps_bodySetTime (d : Dev) :
    Keeps [.sup, .seq, .chn, .est, .tol] d (bodySetTime d).1 := by
  unfold bodySetTime
  refine keeps_ite_fst (fun _ => ?_) fun _ => ?_
  · refine keeps_pair ?_
    exact keeps_refl
  · extract_lets t1 d2 b3 d4
    clear_value t1
    refine keeps_through (b := d2) ?_ fun hd2 => ?_
    · unfold d2
      exact keeps_mono (keeps_moveTimes _ _) rfl
    clear_value d2
    refine keeps_through (b := d4) ?_ fun hd4 => ?_
    · unfold d4
      refine keeps_set (b := d2) ?_ fun p => by cases p <;> first | exact .inl rfl | exact .inr rfl | exact .inr ⟨rfl, rfl⟩ | exact .inr ⟨rfl, rfl, rfl, rfl, rfl, rfl, rfl⟩
      exact hd2
    clear_value d4
    refine keeps_pair ?_
    refine keeps_via (keeps_setTimeValid _ _) rfl ?_
    exact hd4

theorem keeps_bodyArmAlarm (d : Dev) :
    Keeps [.sup] d (bodyArmAlarm d).1 := by
  unfold bodyArmAlarm
  extract_lets v1 b2
  clear_value v1
  refine keeps_ite_fst (fun _ => ?_) fun _ => ?_
  · refine keeps_pair ?_
    exact keeps_refl
  · refine keeps_pair ?_
    exact keeps_set keeps_refl fun p => by cases p <;> first | exact .inl rfl | exact .inr rfl | exact .inr ⟨rfl, rfl⟩ | exact .inr ⟨rfl, rfl, rfl, rfl, rfl, rfl, rfl⟩

theorem keeps_bodyDisarm (d : Dev) :
    Keeps [.sup] d (bodyDisarm d).1 := by
  unfold bodyDisarm
  refine keeps_pair ?_
  exact keeps_set keeps_refl fun p => by cases p <;> first | exact .inl rfl | exact .inr rfl | exact .inr ⟨rfl, rfl⟩ | exact .inr ⟨rfl, rfl, rfl, rfl, rfl, rfl, rfl⟩

theorem keeps_writeEnergy (d : Dev) :
    Keeps [.doms, .dep, .mem, .copies] d (d.writeEnergy) := by
  unfold Dev.writeEnergy
  exact keeps_mono (keeps_depotWrite _ _) rfl

theorem keeps_writeCounters (d : Dev) :
    Keeps [.copies] d (d.writeCounters) := by
  unfold Dev.writeCounters
  exact keeps_set keeps_refl fun p => by cases p <;> first | exact .inl rfl | exact .inr rfl | exact .inr ⟨rfl, rfl⟩ | exact .inr ⟨rfl, rfl, rfl, rfl, rfl, rfl, rfl⟩

theorem keeps_pfNotice (d : Dev) :
    Keeps [.sup] d (d.pfNotice) := by
  unfold Dev.pfNotice
  refine keeps_ite (fun _ => ?_) fun _ => ?_
  · exact keeps_refl
  · refine keeps_ite (fun _ => ?_) fun _ => ?_
    · refine keeps_via (keeps_notice _ _ _ _) rfl ?_
      exact keeps_set keeps_refl fun p => by cases p <;> first | exact .inl rfl | exact .inr rfl | exact .inr ⟨rfl, rfl⟩ | exact .inr ⟨rfl, rfl, rfl, rfl, rfl, rfl, rfl⟩
    · exact keeps_set keeps_refl fun p => by cases p <;> first | exact .inl rfl | exact .inr rfl | exact .inr ⟨rfl, rfl⟩ | exact .inr ⟨rfl, rfl, rfl, rfl, rfl, rfl, rfl⟩

theorem keeps_pfSuspend (d : Dev) :
    Keeps [.tol, .lgr, .dep] d (d.pfSuspend) := by
  unfold Dev.pfSuspend
  extract_lets d1 b2 d3
  refine keeps_through (b := d1) ?_ fun hd1 => ?_
  · unfold d1
    exact keeps_mono (keeps_suspendSession _) rfl
  clear_value d1
  refine keeps_through (b := d3) ?_ fun hd3 => ?_
  · unfold d3
    refine keeps_via (keeps_sealDue _ _) rfl ?_
    refine keeps_via (keeps_markSession _ _) rfl ?_
    refine keeps_set (b := d1) ?_ fun p => by cases p <;> first | exact .inl rfl | exact .inr rfl | exact .inr ⟨rfl, rfl⟩ | exact .inr ⟨rfl, rfl, rfl, rfl, rfl, rfl, rfl⟩
    exact hd1
  clear_value d3
  refine keeps_ite (fun _ => ?_) fun _ => ?_
  · refine keeps_via (keeps_drainDue _ _) rfl ?_
    exact hd3
  · exact hd1

theorem keeps_pfRun (d : Dev) :
    Keeps [.sup, .doms, .stamp, .mode, .seq, .coil, .lim, .pwr, .saf, .tol, .lgr, .can0, .can1, .evt, .dep, .mem, .copies, .lif] d (d.pfRun) := by
  unfold Dev.pfRun
  extract_lets b1 d2 d3 d4 b5
  refine keeps_through (b := d2) ?_ fun hd2 => ?_
  · unfold d2
    exact keeps_set keeps_refl fun p => by cases p <;> first | exact .inl rfl | exact .inr rfl | exact .inr ⟨rfl, rfl⟩ | exact .inr ⟨rfl, rfl, rfl, rfl, rfl, rfl, rfl⟩
  clear_value d2
  refine keeps_through (b := d3) ?_ fun hd3 => ?_
  · unfold d3
    refine keeps_via (keeps_zeroCheck _) rfl ?_
    refine keeps_via (keeps_pfNotice _) rfl ?_
    refine keeps_via (keeps_countDevice _ _) rfl ?_
    refine keeps_via (keeps_needDepot _) rfl ?_
    exact hd2
  clear_value d3
  refine keeps_through (b := d4) ?_ fun hd4 => ?_
  · unfold d4
    refine keeps_via (keeps_abandonFlush _) rfl ?_
    refine keeps_via (keeps_pfSuspend _) rfl ?_
    refine keeps_via (keeps_fault _ _ _ _ _) rfl ?_
    exact hd3
  clear_value d4
  refine keeps_set (b := d4) ?_ fun p => by cases p <;> first | exact .inl rfl | exact .inr rfl | exact .inr ⟨rfl, rfl⟩ | exact .inr ⟨rfl, rfl, rfl, rfl, rfl, rfl, rfl⟩
  exact hd4

theorem keeps_pfMuster (d : Dev) :
    Keeps [.sup, .doms, .dep, .mem, .copies, .lif] d (d.pfMuster) := by
  unfold Dev.pfMuster
  extract_lets d1 b2
  refine keeps_through (b := d1) ?_ fun hd1 => ?_
  · unfold d1
    exact keeps_mono (keeps_needDepot _) rfl
  clear_value d1
  refine keeps_via (keeps_abandonFlush _) rfl ?_
  refine keeps_via (keeps_pfNotice _) rfl ?_
  refine keeps_set (b := d1) ?_ fun p => by cases p <;> first | exact .inl rfl | exact .inr rfl | exact .inr ⟨rfl, rfl⟩ | exact .inr ⟨rfl, rfl, rfl, rfl, rfl, rfl, rfl⟩
  exact hd1

theorem keeps_pfWarning (d : Dev) :
    Keeps [.sup, .doms, .stamp, .mode, .seq, .coil, .lim, .pwr, .saf, .tol, .lgr, .can0, .can1, .evt, .dep, .mem, .copies, .lif] d (d.pfWarning) := by
  unfold Dev.pfWarning
  refine keeps_ite (fun _ => ?_) fun _ => ?_
  · exact keeps_refl
  · extract_lets b1 d2
    refine keeps_through (b := d2) ?_ fun hd2 => ?_
    · unfold d2
      exact keeps_set keeps_refl fun p => by cases p <;> first | exact .inl rfl | exact .inr rfl | exact .inr ⟨rfl, rfl⟩ | exact .inr ⟨rfl, rfl, rfl, rfl, rfl, rfl, rfl⟩
    clear_value d2
    split
    · exact hd2
    · refine keeps_ite (fun _ => ?_) fun _ => ?_
      · refine keeps_via (keeps_zeroCheck _) rfl ?_
        exact hd2
      · refine keeps_via (keeps_pfRun _) rfl ?_
        exact hd2
    · refine keeps_ite (fun _ => ?_) fun _ => ?_
      · exact hd2
      · refine keeps_via (keeps_pfMuster _) rfl ?_
        exact hd2

theorem keeps_commitAll (x0 : Nat) (x1 : Dev) :
    Keeps [.lgr, .dep, .mem] x1 (Dev.commitAll x0 x1) := by
  induction x0 generalizing x1
  · unfold Dev.commitAll
    exact keeps_refl
  · rename_i x0 ih
    unfold Dev.commitAll
    extract_lets d1
    refine keeps_through (b := d1) ?_ fun hd1 => ?_
    · unfold d1
      exact keeps_mono (keeps_recordSigned _) rfl
    clear_value d1
    split
    · exact hd1
    · refine keeps_ite (fun _ => ?_) fun _ => ?_
      · refine keeps_trans ?_ (ih _)
        refine keeps_via (keeps_commitDone _ _ _) rfl ?_
        refine keeps_via (keeps_setCs0 _ _ _) rfl ?_
        exact hd1
      · exact hd1

theorem keeps_finalCommit (d : Dev) :
    Keeps [.doms, .lgr, .dep, .mem, .copies] d (d.finalCommit) := by
  unfold Dev.finalCommit
  extract_lets d1 b2 d3
  refine keeps_through (b := d1) ?_ fun hd1 => ?_
  · unfold d1
    refine keeps_via (keeps_commitAll _ _) rfl ?_
    exact keeps_mono (keeps_needDepot _) rfl
  clear_value d1
  refine keeps_through (b := d3) ?_ fun hd3 => ?_
  · unfold d3
    refine keeps_set (b := d1) ?_ fun p => by cases p <;> first | exact .inl rfl | exact .inr rfl | exact .inr ⟨rfl, rfl⟩ | exact .inr ⟨rfl, rfl, rfl, rfl, rfl, rfl, rfl⟩
    exact hd1
  clear_value d3
  refine keeps_via (keeps_writeCounters _) rfl ?_
  refine keeps_via (keeps_doJob _ _) rfl ?_
  exact hd3

theorem keeps_shadowCommit (d : Dev) :
    Keeps [.copies] d (d.shadowCommit) := by
  unfold Dev.shadowCommit
  refine keeps_ite (fun _ => ?_) fun _ => ?_
  · extract_lets b1 d2
    refine keeps_through (b := d2) ?_ fun hd2 => ?_
    · unfold d2
      exact keeps_set keeps_refl fun p => by cases p <;> first | exact .inl rfl | exact .inr rfl | exact .inr ⟨rfl, rfl⟩ | exact .inr ⟨rfl, rfl, rfl, rfl, rfl, rfl, rfl⟩
    clear_value d2
    refine keeps_via (keeps_writeCounters _) rfl ?_
    exact hd2
  · exact keeps_refl

theorem keeps_enterHoldPf (d : Dev) :
    Keeps [.sup] d (d.enterHoldPf) := by
  unfold Dev.enterHoldPf
  extract_lets b1 d2
  refine keeps_through (b := d2) ?_ fun hd2 => ?_
  · unfold d2
    exact keeps_set keeps_refl fun p => by cases p <;> first | exact .inl rfl | exact .inr rfl | exact .inr ⟨rfl, rfl⟩ | exact .inr ⟨rfl, rfl, rfl, rfl, rfl, rfl, rfl⟩
  clear_value d2
  refine keeps_ite (fun _ => ?_) fun _ => ?_
  · refine keeps_via (keeps_notice _ _ _ _) rfl ?_
    exact hd2
  · exact hd2

end Sys2Proof.Laws
end

