-- ==== Sys2Proof/Laws/KeepsMuster.lean ====
section
/-! SUPPORT. Which parts of the device each operation of Muster, Registers, Settings may change, each said once. -/
namespace Sys2Proof.Laws

open Sys2Proof.Machine Sys2Proof.Safety

theorem keeps_resetWith (d : Dev) (bits : Word) :
    Keeps [.cmds, .sup, .doms, .stamp, .sys, .mode, .seq, .coil, .eng, .insp, .chn, .sen, .est, .lim, .pwr, .saf, .tol, .lgr, .can0, .can1, .wakeDet, .inh, .hst, .evt, .dep, .copies, .lif, .man] d (d.resetWith bits) := by
  unfold Dev.resetWith
  extract_lets a1 d02
  clear_value a1
  refine keeps_through (b := d02) ?_ fun hd02 => ?_
  · unfold d02
    exact keeps_set keeps_refl fun p => by cases p <;> first | exact .inl rfl | exact .inr rfl | exact .inr ⟨rfl, rfl⟩ | exact .inr ⟨rfl, rfl, rfl, rfl, rfl, rfl, rfl⟩
  clear_value d02
  refine keeps_via (keeps_tick _) rfl ?_
  exact hd02

theorem keeps_found (d : Dev) (n : Nat) (b : Bool) :
    Keeps [.sys] d (d.found n b) := by
  unfold Dev.found
  exact keeps_set keeps_refl fun p => by cases p <;> first | exact .inl rfl | exact .inr rfl | exact .inr ⟨rfl, rfl⟩ | exact .inr ⟨rfl, rfl, rfl, rfl, rfl, rfl, rfl⟩

theorem keeps_musterStop (d : Dev) (code : Byte) (detail : Nat) :
    Keeps [.sys] d (d.musterStop code detail) := by
  unfold Dev.musterStop
  extract_lets b1 d2
  refine keeps_through (b := d2) ?_ fun hd2 => ?_
  · unfold d2
    exact keeps_set keeps_refl fun p => by cases p <;> first | exact .inl rfl | exact .inr rfl | exact .inr ⟨rfl, rfl⟩ | exact .inr ⟨rfl, rfl, rfl, rfl, rfl, rfl, rfl⟩
  clear_value d2
  refine keeps_ite (fun _ => ?_) fun _ => ?_
  · refine keeps_via (keeps_notice _ _ _ _) rfl ?_
    exact hd2
  · exact hd2

theorem keeps_countCause (reg : Word) (d : Dev) (c : Nat × Fin 22) :
    Keeps [.lif] d (Dev.countCause reg d c) := by
  unfold Dev.countCause
  refine keeps_ite (fun _ => ?_) fun _ => ?_
  · exact keeps_mono (keeps_countDevice _ _) rfl
  · exact keeps_refl

theorem keeps_countStart (d : Dev) (reg : Word) (cold : Bool) :
    Keeps [.lif] d (d.countStart reg cold) := by
  unfold Dev.countStart
  extract_lets d1
  refine keeps_through (b := d1) ?_ fun hd1 => ?_
  · unfold d1
    refine keeps_foldl ?_ fun d2 x3 => ?_
    · exact keeps_refl
    · exact keeps_mono (keeps_countCause _ _ _) rfl
  clear_value d1
  refine keeps_ite (fun _ => ?_) fun _ => ?_
  · refine keeps_via (keeps_countDevice _ _) rfl ?_
    exact hd1
  · exact hd1

theorem keeps_coldClear (d : Dev) :
    Keeps [.sup, .stamp, .sys, .tol, .lgr, .lif] d (d.coldClear) := by
  unfold Dev.coldClear
  exact keeps_set keeps_refl fun p => by cases p <;> first | exact .inl rfl | exact .inr rfl | exact .inr ⟨rfl, rfl⟩ | exact .inr ⟨rfl, rfl, rfl, rfl, rfl, rfl, rfl⟩

theorem keeps_sealLevels (d : Dev) (seal0 : Bool) (seal1 : Bool) (cold : Bool) :
    Keeps [.doms, .tol, .lgr, .dep] d (d.sealLevels seal0 seal1 cold) := by
  unfold Dev.sealLevels
  refine keeps_ite (fun _ => ?_) fun _ => ?_
  · exact keeps_set keeps_refl fun p => by cases p <;> first | exact .inl rfl | exact .inr rfl | exact .inr ⟨rfl, rfl⟩ | exact .inr ⟨rfl, rfl, rfl, rfl, rfl, rfl, rfl⟩
  · exact keeps_mono (keeps_enclosureChange _ _ _) rfl

theorem keeps_startStep (d : Dev) (m : MusterInputs) :
    Keeps [.sup, .doms, .stamp, .sys, .saf, .tol, .lgr, .dep, .lif] d (d.startStep m) := by
  unfold Dev.startStep
  extract_lets cold1 cause2 reg3 d4 b5 b6 d7
  clear_value cause2
  clear_value reg3
  refine keeps_through (b := d4) ?_ fun hd4 => ?_
  · unfold d4
    refine keeps_ite (fun _ => ?_) fun _ => ?_
    · exact keeps_mono (keeps_coldClear _) rfl
    · exact keeps_refl
  clear_value d4
  refine keeps_through (b := d7) ?_ fun hd7 => ?_
  · unfold d7
    refine keeps_set (b := d4) ?_ fun p => by cases p <;> first | exact .inl rfl | exact .inr rfl | exact .inr ⟨rfl, rfl⟩ | exact .inr ⟨rfl, rfl, rfl, rfl, rfl, rfl, rfl⟩
    exact hd4
  clear_value d7
  refine keeps_via (keeps_sealLevels _ _ _ _) rfl ?_
  refine keeps_via (keeps_countStart _ _ _) rfl ?_
  exact hd7

theorem keeps_clockStep (d : Dev) (m : MusterInputs) :
    Keeps [.sup, .doms, .stamp, .sys, .mode, .seq, .coil, .chn, .sen, .est, .lim, .pwr, .saf, .tol, .can0, .can1, .inh, .evt, .dep, .mem, .lif] d (d.clockStep m) := by
  unfold Dev.clockStep
  extract_lets lock1 b2 d3 b4 b5 b6 d7 d8 d9
  clear_value lock1
  refine keeps_through (b := d3) ?_ fun hd3 => ?_
  · unfold d3
    exact keeps_set keeps_refl fun p => by cases p <;> first | exact .inl rfl | exact .inr rfl | exact .inr ⟨rfl, rfl⟩ | exact .inr ⟨rfl, rfl, rfl, rfl, rfl, rfl, rfl⟩
  clear_value d3
  refine keeps_through (b := d7) ?_ fun hd7 => ?_
  · unfold d7
    refine keeps_set (b := d3) ?_ fun p => by cases p <;> first | exact .inl rfl | exact .inr rfl | exact .inr ⟨rfl, rfl⟩ | exact .inr ⟨rfl, rfl, rfl, rfl, rfl, rfl, rfl⟩
    exact hd3
  clear_value d7
  refine keeps_through (b := d8) ?_ fun hd8 => ?_
  · unfold d8
    refine keeps_via (keeps_perTakes _) rfl ?_
    exact hd7
  clear_value d8
  refine keeps_through (b := d9) ?_ fun hd9 => ?_
  · unfold d9
    refine keeps_ite (fun _ => ?_) fun _ => ?_
    · refine keeps_via (keeps_notice _ _ _ _) rfl ?_
      exact hd8
    · exact hd8
  clear_value d9
  refine keeps_ite (fun _ => ?_) fun _ => ?_
  · refine keeps_via (keeps_musterStop _ _ _) rfl ?_
    exact hd3
  · refine keeps_ite (fun _ => ?_) fun _ => ?_
    · refine keeps_via (keeps_musterStop _ _ _) rfl ?_
      exact hd3
    · refine keeps_ite (fun _ => ?_) fun _ => ?_
      · refine keeps_via (keeps_pfNotice _) rfl ?_
        exact hd9
      · exact hd9

theorem keeps_otpStep (d : Dev) (m : MusterInputs) :
    Keeps [.sys] d (d.otpStep m) := by
  unfold Dev.otpStep
  refine keeps_ite (fun _ => ?_) fun _ => ?_
  · exact keeps_set keeps_refl fun p => by cases p <;> first | exact .inl rfl | exact .inr rfl | exact .inr ⟨rfl, rfl⟩ | exact .inr ⟨rfl, rfl, rfl, rfl, rfl, rfl, rfl⟩
  · exact keeps_mono (keeps_musterStop _ _ _) rfl

theorem keeps_engineStep (d : Dev) (m : MusterInputs) :
    Keeps [.sup, .sys] d (d.engineStep m) := by
  unfold Dev.engineStep
  refine keeps_ite (fun _ => ?_) fun _ => ?_
  · exact keeps_mono (keeps_musterStop _ _ _) rfl
  · refine keeps_ite (fun _ => ?_) fun _ => ?_
    · exact keeps_mono (keeps_musterStop _ _ _) rfl
    · split
      · exact keeps_mono (keeps_musterStop _ _ _) rfl
      · exact keeps_set keeps_refl fun p => by cases p <;> first | exact .inl rfl | exact .inr rfl | exact .inr ⟨rfl, rfl⟩ | exact .inr ⟨rfl, rfl, rfl, rfl, rfl, rfl, rfl⟩

theorem keeps_loadLogState (d : Dev) :
    Keeps [.dep] d (d.loadLogState) := by
  unfold Dev.loadLogState
  split
  · exact keeps_set keeps_refl fun p => by cases p <;> first | exact .inl rfl | exact .inr rfl | exact .inr ⟨rfl, rfl⟩ | exact .inr ⟨rfl, rfl, rfl, rfl, rfl, rfl, rfl⟩
  · exact keeps_refl

theorem keeps_depotStep (d : Dev) (m : MusterInputs) :
    Keeps [.doms, .sys, .dep] d (d.depotStep m) := by
  unfold Dev.depotStep
  extract_lets ok01 ok12 b3 b4 b5 d6 d7
  clear_value ok01
  clear_value ok12
  refine keeps_through (b := d6) ?_ fun hd6 => ?_
  · unfold d6
    exact keeps_set keeps_refl fun p => by cases p <;> first | exact .inl rfl | exact .inr rfl | exact .inr ⟨rfl, rfl⟩ | exact .inr ⟨rfl, rfl, rfl, rfl, rfl, rfl, rfl⟩
  clear_value d6
  refine keeps_through (b := d7) ?_ fun hd7 => ?_
  · unfold d7
    refine keeps_via (keeps_loadLogState _) rfl ?_
    exact hd6
  clear_value d7
  refine keeps_ite (fun _ => ?_) fun _ => ?_
  · refine keeps_via (keeps_musterStop _ _ _) rfl ?_
    exact hd7
  · refine keeps_ite (fun _ => ?_) fun _ => ?_
    · refine keeps_via (keeps_musterStop _ _ _) rfl ?_
      exact hd7
    · exact hd7

theorem keeps_patchStep (d : Dev) :
    Keeps [.sys, .tol] d (d.patchStep) := by
  unfold Dev.patchStep
  extract_lets r1 slot12 v3 b4 b5 d6
  clear_value slot12
  clear_value v3
  refine keeps_through (b := d6) ?_ fun hd6 => ?_
  · unfold d6
    exact keeps_set keeps_refl fun p => by cases p <;> first | exact .inl rfl | exact .inr rfl | exact .inr ⟨rfl, rfl⟩ | exact .inr ⟨rfl, rfl, rfl, rfl, rfl, rfl, rfl⟩
  clear_value d6
  refine keeps_via (keeps_found _ _ _) rfl ?_
  exact hd6

theorem keeps_useManifest (d : Dev) (slot : Nat) (minimum : Nat) (man : Manifest) (fallback : Bool) :
    Keeps [.sup, .sys, .coil, .saf, .hst, .man] d (d.useManifest slot minimum man fallback) := by
  unfold Dev.useManifest
  extract_lets d1 b2 b3 b4 d5
  refine keeps_through (b := d1) ?_ fun hd1 => ?_
  · unfold d1
    exact keeps_mono (keeps_found _ _ _) rfl
  clear_value d1
  refine keeps_through (b := d5) ?_ fun hd5 => ?_
  · unfold d5
    refine keeps_set (b := d1) ?_ fun p => by cases p <;> first | exact .inl rfl | exact .inr rfl | exact .inr ⟨rfl, rfl⟩ | exact .inr ⟨rfl, rfl, rfl, rfl, rfl, rfl, rfl⟩
    exact hd1
  clear_value d5
  refine keeps_ite (fun _ => ?_) fun _ => ?_
  · refine keeps_via (keeps_musterStop _ _ _) rfl ?_
    exact hd1
  · refine keeps_foldl ?_ fun d6 x7 => ?_
    · refine keeps_via (keeps_cfgCheck _) rfl ?_
      exact hd5
    · refine keeps_ite (fun _ => ?_) fun _ => ?_
      · exact keeps_mono (keeps_accrueProof _ _) rfl
      · exact keeps_refl

theorem keeps_manifestStep (d : Dev) :
    Keeps [.sup, .sys, .coil, .saf, .hst, .man] d (d.manifestStep) := by
  unfold Dev.manifestStep
  extract_lets p1
  split
  · exact keeps_mono (keeps_useManifest _ _ _ _ _) rfl
  · split
    · exact keeps_mono (keeps_useManifest _ _ _ _ _) rfl
    · exact keeps_mono (keeps_musterStop _ _ _) rfl

theorem keeps_sealStep (d : Dev) :
    Keeps [.doms, .tol, .lgr, .dep, .mem, .copies] d (d.sealStep) := by
  unfold Dev.sealStep
  extract_lets b1 b2 t3 b4
  clear_value b1
  clear_value t3
  refine keeps_ite (fun _ => ?_) fun _ => ?_
  · split
    · exact keeps_refl
    · extract_lets t5
      clear_value t5
      refine keeps_via (keeps_writeSealed _) rfl ?_
      exact keeps_set keeps_refl fun p => by cases p <;> first | exact .inl rfl | exact .inr rfl | exact .inr ⟨rfl, rfl⟩ | exact .inr ⟨rfl, rfl, rfl, rfl, rfl, rfl, rfl⟩
  · refine keeps_ite (fun _ => ?_) fun _ => ?_
    · exact keeps_set keeps_refl fun p => by cases p <;> first | exact .inl rfl | exact .inr rfl | exact .inr ⟨rfl, rfl⟩ | exact .inr ⟨rfl, rfl, rfl, rfl, rfl, rfl, rfl⟩
    · exact keeps_set keeps_refl fun p => by cases p <;> first | exact .inl rfl | exact .inr rfl | exact .inr ⟨rfl, rfl⟩ | exact .inr ⟨rfl, rfl, rfl, rfl, rfl, rfl, rfl⟩

theorem keeps_ledgerStep (d : Dev) :
    Keeps [.doms, .sys, .tol, .lgr, .dep, .mem, .copies] d (d.ledgerStep) := by
  unfold Dev.ledgerStep
  refine keeps_via (keeps_recoverLedger _ _) rfl ?_
  exact keeps_mono (keeps_sealStep _) rfl

theorem keeps_recallForecast (d : Dev) (k : K) :
    Keeps [.coil] d (d.recallForecast k) := by
  unfold Dev.recallForecast
  extract_lets s1 n2
  clear_value s1
  clear_value n2
  refine keeps_via (keeps_setCoil _ _ _) rfl ?_
  exact keeps_mono (keeps_tick _) rfl

theorem keeps_loadLife (d : Dev) :
    Keeps [.coil, .lim, .lif] d (d.loadLife) := by
  unfold Dev.loadLife
  split
  · exact keeps_refl
  · extract_lets total1 b2 d3 d4 b5
    clear_value total1
    refine keeps_through (b := d3) ?_ fun hd3 => ?_
    · unfold d3
      exact keeps_set keeps_refl fun p => by cases p <;> first | exact .inl rfl | exact .inr rfl | exact .inr ⟨rfl, rfl⟩ | exact .inr ⟨rfl, rfl, rfl, rfl, rfl, rfl, rfl⟩
    clear_value d3
    refine keeps_through (b := d4) ?_ fun hd4 => ?_
    · unfold d4
      refine keeps_foldl ?_ fun d6 x7 => ?_
      · exact hd3
      · exact keeps_mono (keeps_recallForecast _ _) rfl
    clear_value d4
    refine keeps_set (b := d4) ?_ fun p => by cases p <;> first | exact .inl rfl | exact .inr rfl | exact .inr ⟨rfl, rfl⟩ | exact .inr ⟨rfl, rfl, rfl, rfl, rfl, rfl, rfl⟩
    exact hd4

theorem keeps_loadCounters (d : Dev) :
    Keeps [.sup, .doms, .dep, .mem, .copies, .lif] d (d.loadCounters) := by
  unfold Dev.loadCounters
  split
  · exact keeps_refl
  · extract_lets b1 b2 d3 d4 b5
    refine keeps_through (b := d3) ?_ fun hd3 => ?_
    · unfold d3
      refine keeps_ite (fun _ => ?_) fun _ => ?_
      · exact keeps_set keeps_refl fun p => by cases p <;> first | exact .inl rfl | exact .inr rfl | exact .inr ⟨rfl, rfl⟩ | exact .inr ⟨rfl, rfl, rfl, rfl, rfl, rfl, rfl⟩
      · exact keeps_refl
    clear_value d3
    refine keeps_through (b := d4) ?_ fun hd4 => ?_
    · unfold d4
      refine keeps_ite (fun _ => ?_) fun _ => ?_
      · refine keeps_via (keeps_countDevice _ _) rfl ?_
        exact hd3
      · exact hd3
    clear_value d4
    refine keeps_ite (fun _ => ?_) fun _ => ?_
    · exact hd4
    · refine keeps_via (keeps_flush _) rfl ?_
      refine keeps_set (b := d4) ?_ fun p => by cases p <;> first | exact .inl rfl | exact .inr rfl | exact .inr ⟨rfl, rfl⟩ | exact .inr ⟨rfl, rfl, rfl, rfl, rfl, rfl, rfl⟩
      exact hd4

theorem keeps_loadShadows (d : Dev) :
    Keeps [.est, .tol] d (d.loadShadows) := by
  unfold Dev.loadShadows
  extract_lets last1 d2 b3 d4 b5
  refine keeps_through (b := d2) ?_ fun hd2 => ?_
  · unfold d2
    split
    · exact keeps_set keeps_refl fun p => by cases p <;> first | exact .inl rfl | exact .inr rfl | exact .inr ⟨rfl, rfl⟩ | exact .inr ⟨rfl, rfl, rfl, rfl, rfl, rfl, rfl⟩
    · exact keeps_refl
  clear_value d2
  refine keeps_through (b := d4) ?_ fun hd4 => ?_
  · unfold d4
    refine keeps_ite (fun _ => ?_) fun _ => ?_
    · refine keeps_set (b := d2) ?_ fun p => by cases p <;> first | exact .inl rfl | exact .inr rfl | exact .inr ⟨rfl, rfl⟩ | exact .inr ⟨rfl, rfl, rfl, rfl, rfl, rfl, rfl⟩
      exact hd2
    · exact hd2
  clear_value d4
  split
  · refine keeps_set (b := d4) ?_ fun p => by cases p <;> first | exact .inl rfl | exact .inr rfl | exact .inr ⟨rfl, rfl⟩ | exact .inr ⟨rfl, rfl, rfl, rfl, rfl, rfl, rfl⟩
    exact hd4
  · exact hd4

theorem keeps_countResetOpening (d : Dev) (k : K) :
    Keeps [.sys, .coil, .lim, .dep, .lif] d (d.countResetOpening k) := by
  unfold Dev.countResetOpening
  refine keeps_ite (fun _ => ?_) fun _ => ?_
  · exact keeps_refl
  · extract_lets shadow1 load2 freeI3 i4 i2t5
    clear_value load2
    clear_value freeI3
    clear_value i4
    clear_value i2t5
    refine keeps_via (keeps_found _ _ _) rfl ?_
    refine keeps_via (keeps_accountAs _ _ _ _ _) rfl ?_
    refine keeps_via (keeps_tick _) rfl ?_
    exact keeps_mono (keeps_tick _) rfl

theorem keeps_checkDigest (d : Dev) :
    Keeps [.doms, .tol, .lgr, .dep, .mem, .copies] d (d.checkDigest) := by
  unfold Dev.checkDigest
  refine keeps_ite (fun _ => ?_) fun _ => ?_
  · exact keeps_refl
  · extract_lets old1 b2 d3
    refine keeps_through (b := d3) ?_ fun hd3 => ?_
    · unfold d3
      exact keeps_set keeps_refl fun p => by cases p <;> first | exact .inl rfl | exact .inr rfl | exact .inr ⟨rfl, rfl⟩ | exact .inr ⟨rfl, rfl, rfl, rfl, rfl, rfl, rfl⟩
    clear_value d3
    refine keeps_via (keeps_freezeAudit _ _ _) rfl ?_
    refine keeps_via (keeps_writeSealed _) rfl ?_
    exact hd3

theorem keeps_openingAudit (d : Dev) :
    Keeps [.doms, .tol, .lgr, .dep] d (d.openingAudit) := by
  unfold Dev.openingAudit
  extract_lets n1 b2
  clear_value n1
  refine keeps_repeat ?_ fun d3 => ?_
  · exact keeps_set keeps_refl fun p => by cases p <;> first | exact .inl rfl | exact .inr rfl | exact .inr ⟨rfl, rfl⟩ | exact .inr ⟨rfl, rfl, rfl, rfl, rfl, rfl, rfl⟩
  · exact keeps_mono (keeps_sealAudit _ _) rfl

theorem keeps_counterStep (d : Dev) :
    Keeps [.sup, .doms, .sys, .coil, .est, .lim, .tol, .lgr, .dep, .mem, .copies, .lif] d (d.counterStep) := by
  unfold Dev.counterStep
  extract_lets d1 d2 b3 d4
  refine keeps_through (b := d1) ?_ fun hd1 => ?_
  · unfold d1
    refine keeps_via (keeps_loadCounters _) rfl ?_
    refine keeps_via (keeps_loadHistory _) rfl ?_
    refine keeps_via (keeps_loadLife _) rfl ?_
    exact keeps_mono (keeps_loadShadows _) rfl
  clear_value d1
  refine keeps_through (b := d2) ?_ fun hd2 => ?_
  · unfold d2
    refine keeps_foldl ?_ fun d5 x6 => ?_
    · exact hd1
    · exact keeps_mono (keeps_countResetOpening _ _) rfl
  clear_value d2
  refine keeps_through (b := d4) ?_ fun hd4 => ?_
  · unfold d4
    refine keeps_set (b := d2) ?_ fun p => by cases p <;> first | exact .inl rfl | exact .inr rfl | exact .inr ⟨rfl, rfl⟩ | exact .inr ⟨rfl, rfl, rfl, rfl, rfl, rfl, rfl⟩
    exact hd2
  clear_value d4
  refine keeps_via (keeps_drainRecords _) rfl ?_
  refine keeps_via (keeps_openingAudit _) rfl ?_
  refine keeps_via (keeps_checkDigest _) rfl ?_
  exact hd4

theorem keeps_sensingStep (d : Dev) :
    Keeps [.doms, .sen, .can0, .can1] d (d.sensingStep) := by
  unfold Dev.sensingStep
  extract_lets b1 b2 d3
  refine keeps_through (b := d3) ?_ fun hd3 => ?_
  · unfold d3
    refine keeps_via (keeps_startSettling _) rfl ?_
    exact keeps_set keeps_refl fun p => by cases p <;> first | exact .inl rfl | exact .inr rfl | exact .inr ⟨rfl, rfl⟩ | exact .inr ⟨rfl, rfl, rfl, rfl, rfl, rfl, rfl⟩
  clear_value d3
  refine keeps_ite (fun _ => ?_) fun _ => ?_
  · exact hd3
  · refine keeps_set (b := d3) ?_ fun p => by cases p <;> first | exact .inl rfl | exact .inr rfl | exact .inr ⟨rfl, rfl⟩ | exact .inr ⟨rfl, rfl, rfl, rfl, rfl, rfl, rfl⟩
    exact hd3

theorem keeps_diagStep (d : Dev) (m : MusterInputs) :
    Keeps [.stamp, .sys, .mode, .seq, .coil, .lim, .pwr, .saf, .tol, .can0, .can1, .evt, .lif] d (d.diagStep m) := by
  unfold Dev.diagStep
  extract_lets b1 d2 d3 d4
  refine keeps_through (b := d2) ?_ fun hd2 => ?_
  · unfold d2
    exact keeps_set keeps_refl fun p => by cases p <;> first | exact .inl rfl | exact .inr rfl | exact .inr ⟨rfl, rfl⟩ | exact .inr ⟨rfl, rfl, rfl, rfl, rfl, rfl, rfl⟩
  clear_value d2
  refine keeps_through (b := d3) ?_ fun hd3 => ?_
  · unfold d3
    refine keeps_ite (fun _ => ?_) fun _ => ?_
    · exact hd2
    · refine keeps_via (keeps_protectionTrip _ _ _) rfl ?_
      exact hd2
  clear_value d3
  refine keeps_through (b := d4) ?_ fun hd4 => ?_
  · unfold d4
    refine keeps_via (keeps_runDiagnostics _ _) rfl ?_
    exact hd3
  clear_value d4
  refine keeps_via (keeps_found _ _ _) rfl ?_
  exact hd4

theorem keeps_proveGuard (m : MusterInputs) (d : Dev) (g : Fin 4) :
    Keeps [.sys, .saf] d (Dev.proveGuard m d g) := by
  unfold Dev.proveGuard
  refine keeps_ite (fun _ => ?_) fun _ => ?_
  · extract_lets opened1 closed2 b3 d4
    clear_value opened1
    clear_value closed2
    refine keeps_through (b := d4) ?_ fun hd4 => ?_
    · unfold d4
      exact keeps_set keeps_refl fun p => by cases p <;> first | exact .inl rfl | exact .inr rfl | exact .inr ⟨rfl, rfl⟩ | exact .inr ⟨rfl, rfl, rfl, rfl, rfl, rfl, rfl⟩
    clear_value d4
    refine keeps_via (keeps_found _ _ _) rfl ?_
    refine keeps_via (keeps_guardVerdict _ _ _ _) rfl ?_
    exact hd4
  · exact keeps_refl

theorem keeps_guardStep (d : Dev) (m : MusterInputs) :
    Keeps [.sys, .saf] d (d.guardStep m) := by
  unfold Dev.guardStep
  refine keeps_foldl ?_ fun d1 x2 => ?_
  · exact keeps_refl
  · exact keeps_mono (keeps_proveGuard _ _ _) rfl

theorem keeps_assignAt (ids : Fin 32 → Option StageId) (p : Port) (d : Dev) (x : Nat) :
    Keeps [.chn, .dep] d (Dev.assignAt ids p d x) := by
  unfold Dev.assignAt
  exact keeps_mono (keeps_transact _ _ _ _ _ _) rfl

theorem keeps_sendAssigns (d : Dev) (ids : Fin 32 → Option StageId) (a : Nat) (b : Nat) (n : Nat) (intact : Bool) :
    Keeps [.chn, .dep] d (d.sendAssigns ids a b n intact) := by
  unfold Dev.sendAssigns
  extract_lets up1 down2 d3
  clear_value up1
  clear_value down2
  refine keeps_through (b := d3) ?_ fun hd3 => ?_
  · unfold d3
    exact keeps_mono (keeps_sendChain _ _ _ _ _) rfl
  clear_value d3
  refine keeps_foldl ?_ fun d4 x5 => ?_
  · refine keeps_foldl ?_ fun d6 x7 => ?_
    · exact hd3
    · exact keeps_mono (keeps_assignAt _ _ _ _) rfl
  · exact keeps_mono (keeps_assignAt _ _ _ _) rfl

theorem keeps_enumerateStage (ids : Fin 32 → Option StageId) (countA : Nat) (d : Dev) (a : Fin 32) :
    Keeps [.doms, .stamp, .mode, .seq, .coil, .chn, .est, .lim, .pwr, .saf, .tol, .can0, .can1, .evt, .dep, .lif] d (Dev.enumerateStage ids countA d a) := by
  unfold Dev.enumerateStage
  split
  · extract_lets d1
    refine keeps_through (b := d1) ?_ fun hd1 => ?_
    · unfold d1
      refine keeps_via (keeps_readIdentity _ _ _ _) rfl ?_
      refine keeps_via (keeps_setStage _ _ _) rfl ?_
      exact keeps_mono (keeps_transact _ _ _ _ _ _) rfl
    clear_value d1
    refine keeps_via (keeps_setStage _ _ _) rfl ?_
    exact hd1
  · exact keeps_mono (keeps_setStage _ _ _) rfl

theorem keeps_confirmStage (ids : Fin 32 → Option StageId) (d : Dev) (a : Fin 32) :
    Keeps [.doms, .stamp, .mode, .seq, .coil, .chn, .est, .lim, .pwr, .saf, .tol, .can0, .can1, .evt, .dep, .lif] d (Dev.confirmStage ids d a) := by
  unfold Dev.confirmStage
  split
  · refine keeps_ite (fun _ => ?_) fun _ => ?_
    · refine keeps_via (keeps_readIdentity _ _ _ _) rfl ?_
      exact keeps_mono (keeps_transact _ _ _ _ _ _) rfl
    · exact keeps_refl
  · exact keeps_mono (keeps_setStage _ _ _) rfl

theorem keeps_ringSet (d : Dev) (a : Nat) (b : Nat) (n : Nat) (intact : Bool) :
    Keeps [.chn] d (d.ringSet a b n intact) := by
  unfold Dev.ringSet
  exact keeps_set keeps_refl fun p => by cases p <;> first | exact .inl rfl | exact .inr rfl | exact .inr ⟨rfl, rfl⟩ | exact .inr ⟨rfl, rfl, rfl, rfl, rfl, rfl, rfl⟩

theorem keeps_ringReport (d : Dev) :
    Keeps [.stamp, .sys, .mode, .seq, .coil, .lim, .pwr, .saf, .tol, .can0, .can1, .evt, .lif] d (d.ringReport) := by
  unfold Dev.ringReport
  extract_lets missing1 d2 d3
  clear_value missing1
  refine keeps_through (b := d2) ?_ fun hd2 => ?_
  · unfold d2
    refine keeps_via (keeps_found _ _ _) rfl ?_
    exact keeps_mono (keeps_found _ _ _) rfl
  clear_value d2
  refine keeps_through (b := d3) ?_ fun hd3 => ?_
  · unfold d3
    refine keeps_via (keeps_countDevice _ _) rfl ?_
    exact hd2
  clear_value d3
  refine keeps_ite (fun _ => ?_) fun _ => ?_
  · refine keeps_via (keeps_faultGone _ _) rfl ?_
    exact hd2
  · refine keeps_ite (fun _ => ?_) fun _ => ?_
    · refine keeps_via (keeps_notice _ _ _ _) rfl ?_
      exact hd3
    · refine keeps_via (keeps_ringFault _) rfl ?_
      exact hd3

theorem keeps_chainStep (d : Dev) (m : MusterInputs) :
    Keeps [.doms, .stamp, .sys, .mode, .seq, .coil, .chn, .est, .lim, .pwr, .saf, .tol, .can0, .can1, .evt, .dep, .lif] d (d.chainStep m) := by
  unfold Dev.chainStep
  extract_lets n1 a2 b3 ids4 b5 b6 d7 d8 d9 b10
  clear_value a2
  clear_value b3
  clear_value ids4
  refine keeps_through (b := d7) ?_ fun hd7 => ?_
  · unfold d7
    exact keeps_set keeps_refl fun p => by cases p <;> first | exact .inl rfl | exact .inr rfl | exact .inr ⟨rfl, rfl⟩ | exact .inr ⟨rfl, rfl, rfl, rfl, rfl, rfl, rfl⟩
  clear_value d7
  refine keeps_through (b := d8) ?_ fun hd8 => ?_
  · unfold d8
    refine keeps_via (keeps_ringSet _ _ _ _ _) rfl ?_
    refine keeps_via (keeps_sendAssigns _ _ _ _ _ _) rfl ?_
    exact hd7
  clear_value d8
  refine keeps_through (b := d9) ?_ fun hd9 => ?_
  · unfold d9
    refine keeps_via (keeps_measureDelays _ _) rfl ?_
    refine keeps_foldl ?_ fun d11 x12 => ?_
    · exact hd8
    · exact keeps_mono (keeps_enumerateStage _ _ _ _) rfl
  clear_value d9
  refine keeps_ite (fun _ => ?_) fun _ => ?_
  · refine keeps_via (keeps_ringReport _) rfl ?_
    refine keeps_foldl ?_ fun d13 x14 => ?_
    · refine keeps_via (keeps_ringSet _ _ _ _ _) rfl ?_
      exact hd7
    · exact keeps_mono (keeps_confirmStage _ _ _) rfl
  · refine keeps_via (keeps_ringReport _) rfl ?_
    refine keeps_via (keeps_notice _ _ _ _) rfl ?_
    refine keeps_set (b := d9) ?_ fun p => by cases p <;> first | exact .inl rfl | exact .inr rfl | exact .inr ⟨rfl, rfl⟩ | exact .inr ⟨rfl, rfl, rfl, rfl, rfl, rfl, rfl⟩
    exact hd9

theorem keeps_authStep (d : Dev) (m : MusterInputs) :
    Keeps [.doms, .stamp, .sys, .mode, .seq, .coil, .chn, .est, .lim, .pwr, .saf, .tol, .can0, .can1, .evt, .dep, .lif] d (d.authStep m) := by
  unfold Dev.authStep
  extract_lets d1 d2
  refine keeps_through (b := d1) ?_ fun hd1 => ?_
  · unfold d1
    refine keeps_foldl ?_ fun d3 x4 => ?_
    · exact keeps_refl
    · exact keeps_mono (keeps_challenge _ _) rfl
  clear_value d1
  refine keeps_through (b := d2) ?_ fun hd2 => ?_
  · unfold d2
    refine keeps_foldl ?_ fun d5 x6 => ?_
    · exact hd1
    · exact keeps_mono (keeps_authenticate _ _ _) rfl
  clear_value d2
  refine keeps_via (keeps_found _ _ _) rfl ?_
  exact hd2

theorem keeps_firstSnap (d : Dev) (r : SnapReading) :
    Keeps [.stamp, .mode, .seq, .coil, .chn, .est, .lim, .pwr, .saf, .tol, .can0, .can1, .evt, .lif] d (d.firstSnap r) := by
  unfold Dev.firstSnap
  refine keeps_ite (fun _ => ?_) fun _ => ?_
  · exact keeps_mono (keeps_deliverSnap _ _ _ _ _ _) rfl
  · exact keeps_refl

theorem keeps_startStage (m : Manifest) (warmRest : Bool) (d : Dev) (a : Fin 32) :
    Keeps [.sys, .est] d (Dev.startStage m warmRest d a) := by
  unfold Dev.startStage
  extract_lets st1 rec_2 fresh3 seen4 soc5 anchor6 one7 b8 d9
  clear_value st1
  clear_value rec_2
  clear_value fresh3
  clear_value seen4
  clear_value soc5
  clear_value anchor6
  clear_value one7
  refine keeps_through (b := d9) ?_ fun hd9 => ?_
  · unfold d9
    exact keeps_set keeps_refl fun p => by cases p <;> first | exact .inl rfl | exact .inr rfl | exact .inr ⟨rfl, rfl⟩ | exact .inr ⟨rfl, rfl, rfl, rfl, rfl, rfl, rfl⟩
  clear_value d9
  refine keeps_via (keeps_found _ _ _) rfl ?_
  exact hd9

theorem keeps_startEstimates (d : Dev) :
    Keeps [.sys, .est] d (d.startEstimates) := by
  unfold Dev.startEstimates
  split
  · exact keeps_refl
  · extract_lets rest1 d2
    clear_value rest1
    refine keeps_through (b := d2) ?_ fun hd2 => ?_
    · unfold d2
      refine keeps_foldl ?_ fun d3 x4 => ?_
      · exact keeps_refl
      · exact keeps_mono (keeps_startStage _ _ _ _) rfl
    clear_value d2
    refine keeps_via (keeps_found _ _ _) rfl ?_
    exact hd2

theorem keeps_resumeEstimates (d : Dev) :
    Keeps [.sys, .est] d (d.resumeEstimates) := by
  unfold Dev.resumeEstimates
  extract_lets d1
  refine keeps_through (b := d1) ?_ fun hd1 => ?_
  · unfold d1
    refine keeps_via (keeps_found _ _ _) rfl ?_
    refine keeps_ite (fun _ => ?_) fun _ => ?_
    · exact keeps_mono (keeps_fuseAll _) rfl
    · exact keeps_refl
  clear_value d1
  refine keeps_via (keeps_found _ _ _) rfl ?_
  exact hd1

theorem keeps_watchDue (d : Dev) :
    Keeps [.doms, .tol, .lgr, .dep, .mem, .copies, .lif] d (d.watchDue) := by
  unfold Dev.watchDue
  extract_lets d1
  refine keeps_through (b := d1) ?_ fun hd1 => ?_
  · unfold d1
    refine keeps_ite (fun _ => ?_) fun _ => ?_
    · exact keeps_mono (keeps_flush _) rfl
    · exact keeps_refl
  clear_value d1
  refine keeps_via (keeps_drainRecords _) rfl ?_
  refine keeps_via (keeps_openingAudit _) rfl ?_
  exact hd1

theorem keeps_estimateStep (d : Dev) (m : MusterInputs) :
    Keeps [.doms, .stamp, .sys, .mode, .seq, .coil, .chn, .est, .lim, .pwr, .saf, .tol, .lgr, .can0, .can1, .evt, .dep, .mem, .copies, .lif] d (d.estimateStep m) := by
  unfold Dev.estimateStep
  extract_lets d1
  refine keeps_through (b := d1) ?_ fun hd1 => ?_
  · unfold d1
    refine keeps_foldl ?_ fun d2 x3 => ?_
    · exact keeps_refl
    · exact keeps_mono (keeps_firstSnap _ _) rfl
  clear_value d1
  refine keeps_via (keeps_watchDue _) rfl ?_
  refine keeps_ite (fun _ => ?_) fun _ => ?_
  · refine keeps_via (keeps_resumeEstimates _) rfl ?_
    exact hd1
  · refine keeps_via (keeps_startEstimates _) rfl ?_
    exact hd1

theorem keeps_lockWhenDue (d : Dev) :
    Keeps [.stamp, .mode, .seq, .lif] d (d.lockWhenDue) := by
  unfold Dev.lockWhenDue
  refine keeps_ite (fun _ => ?_) fun _ => ?_
  · exact keeps_refl
  · refine keeps_via (keeps_enterLockout _ _ _) rfl ?_
    exact keeps_set keeps_refl fun p => by cases p <;> first | exact .inl rfl | exact .inr rfl | exact .inr ⟨rfl, rfl⟩ | exact .inr ⟨rfl, rfl, rfl, rfl, rfl, rfl, rfl⟩

theorem keeps_runStep (d : Dev) (m : MusterInputs) :
    Keeps [.stamp, .sys, .mode, .seq, .lif] d (d.runStep m) := by
  unfold Dev.runStep
  extract_lets b1 b2 d3 d4
  refine keeps_through (b := d3) ?_ fun hd3 => ?_
  · unfold d3
    exact keeps_set keeps_refl fun p => by cases p <;> first | exact .inl rfl | exact .inr rfl | exact .inr ⟨rfl, rfl⟩ | exact .inr ⟨rfl, rfl, rfl, rfl, rfl, rfl, rfl⟩
  clear_value d3
  refine keeps_through (b := d4) ?_ fun hd4 => ?_
  · unfold d4
    refine keeps_via (keeps_countDevice _ _) rfl ?_
    refine keeps_via (keeps_found _ _ _) rfl ?_
    exact hd3
  clear_value d4
  refine keeps_via (keeps_lockWhenDue _) rfl ?_
  refine keeps_via (keeps_notice _ _ _ _) rfl ?_
  refine keeps_via (keeps_notice _ _ _ _) rfl ?_
  exact hd4

theorem keeps_musterStep (d : Dev) (m : MusterInputs) :
    Keeps [.sup, .doms, .stamp, .sys, .mode, .seq, .coil, .chn, .sen, .est, .lim, .pwr, .saf, .tol, .lgr, .can0, .can1, .inh, .hst, .evt, .dep, .mem, .copies, .lif, .man] d (d.musterStep m) := by
  unfold Dev.musterStep
  split
  · exact keeps_mono (keeps_startStep _ _) rfl
  · exact keeps_mono (keeps_clockStep _ _) rfl
  · exact keeps_mono (keeps_otpStep _ _) rfl
  · exact keeps_mono (keeps_engineStep _ _) rfl
  · exact keeps_mono (keeps_depotStep _ _) rfl
  · exact keeps_mono (keeps_patchStep _) rfl
  · exact keeps_mono (keeps_manifestStep _) rfl
  · exact keeps_mono (keeps_ledgerStep _) rfl
  · exact keeps_mono (keeps_counterStep _) rfl
  · exact keeps_mono (keeps_sensingStep _) rfl
  · exact keeps_mono (keeps_diagStep _ _) rfl
  · exact keeps_mono (keeps_guardStep _ _) rfl
  · exact keeps_mono (keeps_chainStep _ _) rfl
  · exact keeps_mono (keeps_authStep _ _) rfl
  · exact keeps_mono (keeps_estimateStep _ _) rfl
  · exact keeps_mono (keeps_runStep _ _) rfl

theorem keeps_musterFrom (x0 : Nat) (x1 : MusterInputs) (x2 : Dev) :
    Keeps [.sup, .doms, .stamp, .sys, .mode, .seq, .coil, .chn, .sen, .est, .lim, .pwr, .saf, .tol, .lgr, .can0, .can1, .inh, .hst, .evt, .dep, .mem, .copies, .lif, .man] x2 (Dev.musterFrom x0 x1 x2) := by
  induction x0 generalizing x1 x2
  · unfold Dev.musterFrom
    exact keeps_refl
  · rename_i x0 ih
    unfold Dev.musterFrom
    extract_lets n1 d2 b3 d4 d5 b6
    refine keeps_through (b := d2) ?_ fun hd2 => ?_
    · unfold d2
      exact keeps_mono (keeps_musterStep _ _) rfl
    clear_value d2
    refine keeps_through (b := d4) ?_ fun hd4 => ?_
    · unfold d4
      refine keeps_set (b := d2) ?_ fun p => by cases p <;> first | exact .inl rfl | exact .inr rfl | exact .inr ⟨rfl, rfl⟩ | exact .inr ⟨rfl, rfl, rfl, rfl, rfl, rfl, rfl⟩
      exact hd2
    clear_value d4
    refine keeps_through (b := d5) ?_ fun hd5 => ?_
    · unfold d5
      refine keeps_ite (fun _ => ?_) fun _ => ?_
      · refine keeps_via (keeps_found _ _ _) rfl ?_
        exact hd4
      · exact hd4
    clear_value d5
    refine keeps_ite (fun _ => ?_) fun _ => ?_
    · exact hd2
    · refine keeps_ite (fun _ => ?_) fun _ => ?_
      · refine keeps_set (b := d5) ?_ fun p => by cases p <;> first | exact .inl rfl | exact .inr rfl | exact .inr ⟨rfl, rfl⟩ | exact .inr ⟨rfl, rfl, rfl, rfl, rfl, rfl, rfl⟩
        exact hd5
      · refine keeps_trans ?_ (ih _ _)
        exact hd5

theorem keeps_musterOn (d : Dev) (m : MusterInputs) :
    Keeps [.sup, .doms, .stamp, .sys, .mode, .seq, .coil, .chn, .sen, .est, .lim, .pwr, .saf, .tol, .lgr, .can0, .can1, .inh, .hst, .evt, .dep, .mem, .copies, .lif, .man] d (d.musterOn m) := by
  unfold Dev.musterOn
  refine keeps_via (keeps_musterFrom _ _ _) rfl ?_
  exact keeps_set keeps_refl fun p => by cases p <;> first | exact .inl rfl | exact .inr rfl | exact .inr ⟨rfl, rfl⟩ | exact .inr ⟨rfl, rfl, rfl, rfl, rfl, rfl, rfl⟩

theorem keeps_startUp (d : Dev) (m : MusterInputs) :
    Keeps [.sup, .doms, .stamp, .sys, .mode, .seq, .coil, .chn, .sen, .est, .lim, .pwr, .saf, .tol, .lgr, .can0, .can1, .inh, .hst, .evt, .dep, .mem, .copies, .lif, .man] d (d.startUp m) := by
  unfold Dev.startUp
  refine keeps_ite (fun _ => ?_) fun _ => ?_
  · exact keeps_set keeps_refl fun p => by cases p <;> first | exact .inl rfl | exact .inr rfl | exact .inr ⟨rfl, rfl⟩ | exact .inr ⟨rfl, rfl, rfl, rfl, rfl, rfl, rfl⟩
  · refine keeps_via (keeps_musterFrom _ _ _) rfl ?_
    exact keeps_set keeps_refl fun p => by cases p <;> first | exact .inl rfl | exact .inr rfl | exact .inr ⟨rfl, rfl⟩ | exact .inr ⟨rfl, rfl, rfl, rfl, rfl, rfl, rfl⟩

theorem keeps_brownOut (d : Dev) :
    Keeps [.cmds, .sup, .doms, .stamp, .sys, .mode, .seq, .coil, .eng, .insp, .chn, .sen, .est, .lim, .pwr, .saf, .tol, .lgr, .can0, .can1, .wakeDet, .inh, .hst, .evt, .dep, .copies, .lif, .man] d (d.brownOut) := by
  unfold Dev.brownOut
  refine keeps_ite (fun _ => ?_) fun _ => ?_
  · extract_lets d1 b2 b3
    refine keeps_through (b := d1) ?_ fun hd1 => ?_
    · unfold d1
      exact keeps_mono (keeps_resetWith _ _) rfl
    clear_value d1
    refine keeps_set (b := d1) ?_ fun p => by cases p <;> first | exact .inl rfl | exact .inr rfl | exact .inr ⟨rfl, rfl⟩ | exact .inr ⟨rfl, rfl, rfl, rfl, rfl, rfl, rfl⟩
    exact hd1
  · exact keeps_refl

theorem keeps_retentionLost (d : Dev) (m : MusterInputs) :
    Keeps [.cmds, .sup, .doms, .stamp, .sys, .mode, .seq, .coil, .eng, .insp, .chn, .sen, .est, .lim, .pwr, .saf, .tol, .lgr, .can0, .can1, .wakeDet, .inh, .hst, .evt, .dep, .mem, .copies, .lif, .man] d (d.retentionLost m) := by
  unfold Dev.retentionLost
  extract_lets b1 d2
  refine keeps_through (b := d2) ?_ fun hd2 => ?_
  · unfold d2
    exact keeps_set keeps_refl fun p => by cases p <;> first | exact .inl rfl | exact .inr rfl | exact .inr ⟨rfl, rfl⟩ | exact .inr ⟨rfl, rfl, rfl, rfl, rfl, rfl, rfl⟩
  clear_value d2
  refine keeps_ite (fun _ => ?_) fun _ => ?_
  · refine keeps_via (keeps_startUp _ _) rfl ?_
    refine keeps_via (keeps_resetWith _ _) rfl ?_
    exact hd2
  · exact hd2

theorem keeps_clockFails (d : Dev) (m : MusterInputs) :
    Keeps [.cmds, .sup, .doms, .stamp, .sys, .mode, .seq, .coil, .eng, .insp, .chn, .sen, .est, .lim, .pwr, .saf, .tol, .lgr, .can0, .can1, .wakeDet, .inh, .hst, .evt, .dep, .mem, .copies, .lif, .man] d (d.clockFails m) := by
  unfold Dev.clockFails
  refine keeps_ite (fun _ => ?_) fun _ => ?_
  · refine keeps_via (keeps_startUp _ _) rfl ?_
    refine keeps_via (keeps_resetWith _ _) rfl ?_
    exact keeps_mono (keeps_countDevice _ _) rfl
  · exact keeps_refl

theorem keeps_watchdogTrips (d : Dev) (m : MusterInputs) :
    Keeps [.cmds, .sup, .doms, .stamp, .sys, .mode, .seq, .coil, .eng, .insp, .chn, .sen, .est, .lim, .pwr, .saf, .tol, .lgr, .can0, .can1, .wakeDet, .inh, .hst, .evt, .dep, .mem, .copies, .lif, .man] d (d.watchdogTrips m) := by
  unfold Dev.watchdogTrips
  refine keeps_ite (fun _ => ?_) fun _ => ?_
  · refine keeps_via (keeps_startUp _ _) rfl ?_
    refine keeps_via (keeps_resetWith _ _) rfl ?_
    exact keeps_mono (keeps_countDevice _ _) rfl
  · exact keeps_refl

theorem keeps_bodyReset (m : Option MusterInputs) (d : Dev) :
    Keeps [.cmds, .sup, .doms, .stamp, .sys, .mode, .seq, .coil, .eng, .insp, .chn, .sen, .est, .lim, .pwr, .saf, .tol, .lgr, .can0, .can1, .wakeDet, .inh, .hst, .evt, .dep, .mem, .copies, .lif, .man] d (bodyReset m d).1 := by
  unfold bodyReset
  refine keeps_ite_fst (fun _ => ?_) fun _ => ?_
  · refine keeps_pair ?_
    exact keeps_refl
  · extract_lets d1
    refine keeps_through (b := d1) ?_ fun hd1 => ?_
    · unfold d1
      exact keeps_mono (keeps_resetWith _ _) rfl
    clear_value d1
    split
    · refine keeps_pair ?_
      refine keeps_via (keeps_startUp _ _) rfl ?_
      exact hd1
    · refine keeps_pair ?_
      exact hd1

theorem keeps_enterWatch (d : Dev) :
    Keeps [.sup, .doms, .mode, .chn, .est, .pwr, .saf, .wakeDet, .inh, .evt, .dep] d (d.enterWatch) := by
  unfold Dev.enterWatch
  extract_lets d1 d2 d3 b4 b5 b6 b7 b8 b9 b10 b11
  refine keeps_through (b := d1) ?_ fun hd1 => ?_
  · unfold d1
    exact keeps_mono (keeps_notice _ _ _ _) rfl
  clear_value d1
  refine keeps_through (b := d2) ?_ fun hd2 => ?_
  · unfold d2
    refine keeps_via (keeps_withdraw _) rfl ?_
    refine keeps_via (keeps_endDiag _) rfl ?_
    exact hd1
  clear_value d2
  refine keeps_through (b := d3) ?_ fun hd3 => ?_
  · unfold d3
    refine keeps_ite (fun _ => ?_) fun _ => ?_
    · refine keeps_via (keeps_sleepChain _) rfl ?_
      exact hd2
    · exact hd2
  clear_value d3
  refine keeps_set (b := d3) ?_ fun p => by cases p <;> first | exact .inl rfl | exact .inr rfl | exact .inr ⟨rfl, rfl⟩ | exact .inr ⟨rfl, rfl, rfl, rfl, rfl, rfl, rfl⟩
  exact hd3

theorem keeps_sweepStage (d : Dev) (r : SnapReading) :
    Keeps [.est] d (d.sweepStage r) := by
  unfold Dev.sweepStage
  exact keeps_set keeps_refl fun p => by cases p <;> first | exact .inl rfl | exact .inr rfl | exact .inr ⟨rfl, rfl⟩ | exact .inr ⟨rfl, rfl, rfl, rfl, rfl, rfl, rfl⟩

theorem keeps_watchTime (d : Dev) :
    Keeps [.lif] d (d.watchTime) := by
  unfold Dev.watchTime
  extract_lets n1 minutes2 b3 d4
  clear_value n1
  clear_value minutes2
  refine keeps_through (b := d4) ?_ fun hd4 => ?_
  · unfold d4
    exact keeps_set keeps_refl fun p => by cases p <;> first | exact .inl rfl | exact .inr rfl | exact .inr ⟨rfl, rfl⟩ | exact .inr ⟨rfl, rfl, rfl, rfl, rfl, rfl, rfl⟩
  clear_value d4
  refine keeps_ite (fun _ => ?_) fun _ => ?_
  · refine keeps_via (keeps_countDevice _ _) rfl ?_
    exact hd4
  · exact hd4

theorem keeps_sweep (d : Dev) (snaps : List SnapReading) :
    Keeps [.chn, .est, .lif] d (d.sweep snaps) := by
  unfold Dev.sweep
  extract_lets d1 d2
  refine keeps_through (b := d1) ?_ fun hd1 => ?_
  · unfold d1
    exact keeps_mono (keeps_newPhase _) rfl
  clear_value d1
  refine keeps_through (b := d2) ?_ fun hd2 => ?_
  · unfold d2
    refine keeps_via (keeps_freeSeq _) rfl ?_
    refine keeps_via (keeps_broadcast _ _ _) rfl ?_
    exact hd1
  clear_value d2
  refine keeps_via (keeps_sleepChain _) rfl ?_
  refine keeps_via (keeps_watchTime _) rfl ?_
  refine keeps_foldl ?_ fun d3 x4 => ?_
  · exact hd2
  · exact keeps_mono (keeps_sweepStage _ _) rfl

theorem keeps_wakeCause (d : Dev) (n : Nat) :
    Keeps [.mode] d (d.wakeCause n) := by
  unfold Dev.wakeCause
  exact keeps_set keeps_refl fun p => by cases p <;> first | exact .inl rfl | exact .inr rfl | exact .inr ⟨rfl, rfl⟩ | exact .inr ⟨rfl, rfl, rfl, rfl, rfl, rfl, rfl⟩

theorem keeps_resume (d : Dev) (m : MusterInputs) :
    Keeps [.sup, .doms, .stamp, .sys, .mode, .seq, .coil, .chn, .sen, .est, .lim, .pwr, .saf, .tol, .lgr, .can0, .can1, .wakeDet, .inh, .hst, .evt, .dep, .mem, .copies, .lif, .man] d (d.resume m) := by
  unfold Dev.resume
  extract_lets b1 b2 b3 b4 d5 d6
  refine keeps_through (b := d5) ?_ fun hd5 => ?_
  · unfold d5
    exact keeps_set keeps_refl fun p => by cases p <;> first | exact .inl rfl | exact .inr rfl | exact .inr ⟨rfl, rfl⟩ | exact .inr ⟨rfl, rfl, rfl, rfl, rfl, rfl, rfl⟩
  clear_value d5
  refine keeps_through (b := d6) ?_ fun hd6 => ?_
  · unfold d6
    refine keeps_ite (fun _ => ?_) fun _ => ?_
    · refine keeps_via (keeps_pfMuster _) rfl ?_
      exact hd5
    · exact hd5
  clear_value d6
  refine keeps_via (keeps_musterFrom _ _ _) rfl ?_
  exact hd6

theorem keeps_wake (d : Dev) (src : WakeSource) (m : MusterInputs) :
    Keeps [.sup, .doms, .stamp, .sys, .mode, .seq, .coil, .chn, .sen, .est, .lim, .pwr, .saf, .tol, .lgr, .can0, .can1, .wakeDet, .inh, .hst, .evt, .dep, .mem, .copies, .lif, .man] d (d.wake src m) := by
  unfold Dev.wake
  refine keeps_ite (fun _ => ?_) fun _ => ?_
  · exact keeps_refl
  · refine keeps_ite (fun _ => ?_) fun _ => ?_
    · extract_lets d1 b2
      refine keeps_through (b := d1) ?_ fun hd1 => ?_
      · unfold d1
        refine keeps_via (keeps_wakeCause _ _) rfl ?_
        exact keeps_mono (keeps_wakeCause _ _) rfl
      clear_value d1
      refine keeps_via (keeps_notice _ _ _ _) rfl ?_
      refine keeps_set (b := d1) ?_ fun p => by cases p <;> first | exact .inl rfl | exact .inr rfl | exact .inr ⟨rfl, rfl⟩ | exact .inr ⟨rfl, rfl, rfl, rfl, rfl, rfl, rfl⟩
      exact hd1
    · split
      · refine keeps_via (keeps_resume _ _) rfl ?_
        exact keeps_mono (keeps_wakeCause _ _) rfl
      · refine keeps_ite (fun _ => ?_) fun _ => ?_
        · exact keeps_mono (keeps_wakeCause _ _) rfl
        · exact keeps_refl
      · exact keeps_refl

theorem keeps_readCaptured (d : Dev) (v : Nat × Nat) (a : Nat) :
    Keeps [.hst] d (d.readCaptured v a).1 := by
  unfold Dev.readCaptured
  extract_lets key1 ws2 b3
  clear_value key1
  clear_value ws2
  refine keeps_ite_fst (fun _ => ?_) fun _ => ?_
  · refine keeps_pair ?_
    exact keeps_set keeps_refl fun p => by cases p <;> first | exact .inl rfl | exact .inr rfl | exact .inr ⟨rfl, rfl⟩ | exact .inr ⟨rfl, rfl, rfl, rfl, rfl, rfl, rfl⟩
  · split
    · refine keeps_pair ?_
      exact keeps_refl
    · refine keeps_pair ?_
      exact keeps_refl

theorem keeps_readReg (d : Dev) (a : Nat) :
    Keeps [.can0, .can1, .hst] d (d.readReg a).1 := by
  unfold Dev.readReg
  split
  · exact keeps_mono (keeps_readCaptured _ _ _) rfl
  · refine keeps_ite_fst (fun _ => ?_) fun _ => ?_
    · refine keeps_pair ?_
      exact keeps_set keeps_refl fun p => by cases p <;> first | exact .inl rfl | exact .inr rfl | exact .inr ⟨rfl, rfl⟩ | exact .inr ⟨rfl, rfl, rfl, rfl, rfl, rfl, rfl⟩
    · refine keeps_ite_fst (fun _ => ?_) fun _ => ?_
      · refine keeps_pair ?_
        exact keeps_set keeps_refl fun p => by cases p <;> first | exact .inl rfl | exact .inr rfl | exact .inr ⟨rfl, rfl⟩ | exact .inr ⟨rfl, rfl, rfl, rfl, rfl, rfl, rfl⟩
      · refine keeps_pair ?_
        exact keeps_refl

theorem keeps_clearWmovf (d : Dev) (q : Nat) :
    Keeps [] d (d.clearWmovf q) := by
  unfold Dev.clearWmovf
  exact keeps_set keeps_refl fun p => by cases p <;> first | exact .inl rfl | exact .inr rfl | exact .inr ⟨rfl, rfl⟩ | exact .inr ⟨rfl, rfl, rfl, rfl, rfl, rfl, rfl⟩

theorem keeps_writeSys (d : Dev) (data : Word) (x2 : Nat) :
    KeepsOk [.sys] d (d.writeSys data x2) := by
  unfold Dev.writeSys
  split
  · refine keepsOk_ok ?_
    exact keeps_set keeps_refl fun p => by cases p <;> first | exact .inl rfl | exact .inr rfl | exact .inr ⟨rfl, rfl⟩ | exact .inr ⟨rfl, rfl, rfl, rfl, rfl, rfl, rfl⟩
  · exact keepsOk_error

theorem keeps_writeEvt (d : Dev) (data : Word) (x2 : Nat) :
    KeepsOk [.evt] d (d.writeEvt data x2) := by
  unfold Dev.writeEvt
  split
  · refine keepsOk_ok ?_
    exact keeps_set keeps_refl fun p => by cases p <;> first | exact .inl rfl | exact .inr rfl | exact .inr ⟨rfl, rfl⟩ | exact .inr ⟨rfl, rfl, rfl, rfl, rfl, rfl, rfl⟩
  · refine keepsOk_ok ?_
    exact keeps_set keeps_refl fun p => by cases p <;> first | exact .inl rfl | exact .inr rfl | exact .inr ⟨rfl, rfl⟩ | exact .inr ⟨rfl, rfl, rfl, rfl, rfl, rfl, rfl⟩
  · refine keepsOk_ok ?_
    exact keeps_set keeps_refl fun p => by cases p <;> first | exact .inl rfl | exact .inr rfl | exact .inr ⟨rfl, rfl⟩ | exact .inr ⟨rfl, rfl, rfl, rfl, rfl, rfl, rfl⟩
  · refine keepsOk_ok ?_
    exact keeps_set keeps_refl fun p => by cases p <;> first | exact .inl rfl | exact .inr rfl | exact .inr ⟨rfl, rfl⟩ | exact .inr ⟨rfl, rfl, rfl, rfl, rfl, rfl, rfl⟩
  · refine keepsOk_ok ?_
    exact keeps_set keeps_refl fun p => by cases p <;> first | exact .inl rfl | exact .inr rfl | exact .inr ⟨rfl, rfl⟩ | exact .inr ⟨rfl, rfl, rfl, rfl, rfl, rfl, rfl⟩
  · refine keepsOk_ok ?_
    exact keeps_set keeps_refl fun p => by cases p <;> first | exact .inl rfl | exact .inr rfl | exact .inr ⟨rfl, rfl⟩ | exact .inr ⟨rfl, rfl, rfl, rfl, rfl, rfl, rfl⟩
  · exact keepsOk_error

theorem keeps_writeMode (d : Dev) (data : Word) (x2 : Nat) :
    KeepsOk [.mode, .seq] d (d.writeMode data x2) := by
  unfold Dev.writeMode
  split
  · refine keepsOk_store fun w1 => ?_
    exact keeps_set keeps_refl fun p => by cases p <;> first | exact .inl rfl | exact .inr rfl | exact .inr ⟨rfl, rfl⟩ | exact .inr ⟨rfl, rfl, rfl, rfl, rfl, rfl, rfl⟩
  · refine keepsOk_ok ?_
    exact keeps_set keeps_refl fun p => by cases p <;> first | exact .inl rfl | exact .inr rfl | exact .inr ⟨rfl, rfl⟩ | exact .inr ⟨rfl, rfl, rfl, rfl, rfl, rfl, rfl⟩
  · refine keepsOk_store fun w2 => ?_
    exact keeps_set keeps_refl fun p => by cases p <;> first | exact .inl rfl | exact .inr rfl | exact .inr ⟨rfl, rfl⟩ | exact .inr ⟨rfl, rfl, rfl, rfl, rfl, rfl, rfl⟩
  · refine keepsOk_store fun w3 => ?_
    exact keeps_set keeps_refl fun p => by cases p <;> first | exact .inl rfl | exact .inr rfl | exact .inr ⟨rfl, rfl⟩ | exact .inr ⟨rfl, rfl, rfl, rfl, rfl, rfl, rfl⟩
  · exact keepsOk_error

theorem keeps_writeSup (d : Dev) (data : Word) (x2 : Nat) :
    KeepsOk [.sup] d (d.writeSup data x2) := by
  unfold Dev.writeSup
  split
  · refine keepsOk_ok ?_
    exact keeps_set keeps_refl fun p => by cases p <;> first | exact .inl rfl | exact .inr rfl | exact .inr ⟨rfl, rfl⟩ | exact .inr ⟨rfl, rfl, rfl, rfl, rfl, rfl, rfl⟩
  · refine keepsOk_store fun w1 => ?_
    exact keeps_set keeps_refl fun p => by cases p <;> first | exact .inl rfl | exact .inr rfl | exact .inr ⟨rfl, rfl⟩ | exact .inr ⟨rfl, rfl, rfl, rfl, rfl, rfl, rfl⟩
  · refine keepsOk_store fun w2 => ?_
    exact keeps_set keeps_refl fun p => by cases p <;> first | exact .inl rfl | exact .inr rfl | exact .inr ⟨rfl, rfl⟩ | exact .inr ⟨rfl, rfl, rfl, rfl, rfl, rfl, rfl⟩
  · refine keepsOk_store fun w3 => ?_
    exact keeps_set keeps_refl fun p => by cases p <;> first | exact .inl rfl | exact .inr rfl | exact .inr ⟨rfl, rfl⟩ | exact .inr ⟨rfl, rfl, rfl, rfl, rfl, rfl, rfl⟩
  · refine keepsOk_ok ?_
    exact keeps_set keeps_refl fun p => by cases p <;> first | exact .inl rfl | exact .inr rfl | exact .inr ⟨rfl, rfl⟩ | exact .inr ⟨rfl, rfl, rfl, rfl, rfl, rfl, rfl⟩
  · refine keepsOk_ok ?_
    exact keeps_set keeps_refl fun p => by cases p <;> first | exact .inl rfl | exact .inr rfl | exact .inr ⟨rfl, rfl⟩ | exact .inr ⟨rfl, rfl, rfl, rfl, rfl, rfl, rfl⟩
  · refine keepsOk_ok ?_
    exact keeps_set keeps_refl fun p => by cases p <;> first | exact .inl rfl | exact .inr rfl | exact .inr ⟨rfl, rfl⟩ | exact .inr ⟨rfl, rfl, rfl, rfl, rfl, rfl, rfl⟩
  · refine keepsOk_ok ?_
    exact keeps_set keeps_refl fun p => by cases p <;> first | exact .inl rfl | exact .inr rfl | exact .inr ⟨rfl, rfl⟩ | exact .inr ⟨rfl, rfl, rfl, rfl, rfl, rfl, rfl⟩
  · exact keepsOk_error

theorem keeps_writeEng (d : Dev) (data : Word) (x2 : Nat) :
    KeepsOk [.eng] d (d.writeEng data x2) := by
  unfold Dev.writeEng
  split
  · refine keepsOk_store fun w1 => ?_
    exact keeps_set keeps_refl fun p => by cases p <;> first | exact .inl rfl | exact .inr rfl | exact .inr ⟨rfl, rfl⟩ | exact .inr ⟨rfl, rfl, rfl, rfl, rfl, rfl, rfl⟩
  · refine keepsOk_ok ?_
    exact keeps_set keeps_refl fun p => by cases p <;> first | exact .inl rfl | exact .inr rfl | exact .inr ⟨rfl, rfl⟩ | exact .inr ⟨rfl, rfl, rfl, rfl, rfl, rfl, rfl⟩
  · refine keepsOk_ok ?_
    exact keeps_set keeps_refl fun p => by cases p <;> first | exact .inl rfl | exact .inr rfl | exact .inr ⟨rfl, rfl⟩ | exact .inr ⟨rfl, rfl, rfl, rfl, rfl, rfl, rfl⟩
  · refine keepsOk_ok ?_
    exact keeps_set keeps_refl fun p => by cases p <;> first | exact .inl rfl | exact .inr rfl | exact .inr ⟨rfl, rfl⟩ | exact .inr ⟨rfl, rfl, rfl, rfl, rfl, rfl, rfl⟩
  · exact keepsOk_error

theorem keeps_writeChn (d : Dev) (data : Word) (x2 : Nat) :
    KeepsOk [.chn] d (d.writeChn data x2) := by
  unfold Dev.writeChn
  split
  · extract_lets w1 b2 c3
    clear_value w1
    clear_value c3
    refine keepsOk_store fun w4 => ?_
    exact keeps_set keeps_refl fun p => by cases p <;> first | exact .inl rfl | exact .inr rfl | exact .inr ⟨rfl, rfl⟩ | exact .inr ⟨rfl, rfl, rfl, rfl, rfl, rfl, rfl⟩
  · extract_lets w5 b6 c7
    clear_value w5
    clear_value c7
    refine keepsOk_store fun w8 => ?_
    exact keeps_set keeps_refl fun p => by cases p <;> first | exact .inl rfl | exact .inr rfl | exact .inr ⟨rfl, rfl⟩ | exact .inr ⟨rfl, rfl, rfl, rfl, rfl, rfl, rfl⟩
  · refine keepsOk_ok ?_
    exact keeps_set keeps_refl fun p => by cases p <;> first | exact .inl rfl | exact .inr rfl | exact .inr ⟨rfl, rfl⟩ | exact .inr ⟨rfl, rfl, rfl, rfl, rfl, rfl, rfl⟩
  · refine keepsOk_ok ?_
    exact keeps_set keeps_refl fun p => by cases p <;> first | exact .inl rfl | exact .inr rfl | exact .inr ⟨rfl, rfl⟩ | exact .inr ⟨rfl, rfl, rfl, rfl, rfl, rfl, rfl⟩
  · exact keepsOk_error

theorem keeps_setSenCfg (d : Dev) (w : Word) :
    Keeps [.sen] d (d.setSenCfg w) := by
  unfold Dev.setSenCfg
  exact keeps_set keeps_refl fun p => by cases p <;> first | exact .inl rfl | exact .inr rfl | exact .inr ⟨rfl, rfl⟩ | exact .inr ⟨rfl, rfl, rfl, rfl, rfl, rfl, rfl⟩

theorem keeps_storeGain (d : Dev) (data : Word) (i : Fin 4) :
    KeepsOk [.sen] d (d.storeGain data i) := by
  unfold Dev.storeGain
  refine keepsOk_store fun w1 => ?_
  exact keeps_set keeps_refl fun p => by cases p <;> first | exact .inl rfl | exact .inr rfl | exact .inr ⟨rfl, rfl⟩ | exact .inr ⟨rfl, rfl, rfl, rfl, rfl, rfl, rfl⟩

theorem keeps_storeOfs (d : Dev) (data : Word) (i : Fin 4) :
    KeepsOk [.sen] d (d.storeOfs data i) := by
  unfold Dev.storeOfs
  refine keepsOk_store fun w1 => ?_
  exact keeps_set keeps_refl fun p => by cases p <;> first | exact .inl rfl | exact .inr rfl | exact .inr ⟨rfl, rfl⟩ | exact .inr ⟨rfl, rfl, rfl, rfl, rfl, rfl, rfl⟩

theorem keeps_writeSen (d : Dev) (data : Word) (x2 : Nat) :
    KeepsOk [.sen] d (d.writeSen data x2) := by
  unfold Dev.writeSen
  split
  · refine keepsOk_store fun w1 => ?_
    exact keeps_mono (keeps_setSenCfg _ _) rfl
  · refine keepsOk_ok ?_
    exact keeps_set keeps_refl fun p => by cases p <;> first | exact .inl rfl | exact .inr rfl | exact .inr ⟨rfl, rfl⟩ | exact .inr ⟨rfl, rfl, rfl, rfl, rfl, rfl, rfl⟩
  · refine keepsOk_store fun w2 => ?_
    exact keeps_set keeps_refl fun p => by cases p <;> first | exact .inl rfl | exact .inr rfl | exact .inr ⟨rfl, rfl⟩ | exact .inr ⟨rfl, rfl, rfl, rfl, rfl, rfl, rfl⟩
  · refine keepsOk_store fun w3 => ?_
    exact keeps_set keeps_refl fun p => by cases p <;> first | exact .inl rfl | exact .inr rfl | exact .inr ⟨rfl, rfl⟩ | exact .inr ⟨rfl, rfl, rfl, rfl, rfl, rfl, rfl⟩
  · exact keepsOk_mono (keeps_storeGain _ _ _) rfl
  · exact keepsOk_mono (keeps_storeGain _ _ _) rfl
  · exact keepsOk_mono (keeps_storeGain _ _ _) rfl
  · exact keepsOk_mono (keeps_storeGain _ _ _) rfl
  · exact keepsOk_mono (keeps_storeOfs _ _ _) rfl
  · exact keepsOk_mono (keeps_storeOfs _ _ _) rfl
  · exact keepsOk_mono (keeps_storeOfs _ _ _) rfl
  · exact keepsOk_mono (keeps_storeOfs _ _ _) rfl
  · refine keepsOk_store fun w4 => ?_
    exact keeps_set keeps_refl fun p => by cases p <;> first | exact .inl rfl | exact .inr rfl | exact .inr ⟨rfl, rfl⟩ | exact .inr ⟨rfl, rfl, rfl, rfl, rfl, rfl, rfl⟩
  · refine keepsOk_store fun w5 => ?_
    exact keeps_set keeps_refl fun p => by cases p <;> first | exact .inl rfl | exact .inr rfl | exact .inr ⟨rfl, rfl⟩ | exact .inr ⟨rfl, rfl, rfl, rfl, rfl, rfl, rfl⟩
  · refine keepsOk_store fun w6 => ?_
    exact keeps_set keeps_refl fun p => by cases p <;> first | exact .inl rfl | exact .inr rfl | exact .inr ⟨rfl, rfl⟩ | exact .inr ⟨rfl, rfl, rfl, rfl, rfl, rfl, rfl⟩
  · refine keepsOk_ok ?_
    refine keeps_ite (fun _ => ?_) fun _ => ?_
    · exact keeps_set keeps_refl fun p => by cases p <;> first | exact .inl rfl | exact .inr rfl | exact .inr ⟨rfl, rfl⟩ | exact .inr ⟨rfl, rfl, rfl, rfl, rfl, rfl, rfl⟩
    · exact keeps_refl
  · exact keepsOk_error

theorem keeps_writeEst (d : Dev) (data : Word) (x2 : Nat) :
    KeepsOk [.est] d (d.writeEst data x2) := by
  unfold Dev.writeEst
  split
  · refine keepsOk_store fun w1 => ?_
    exact keeps_set keeps_refl fun p => by cases p <;> first | exact .inl rfl | exact .inr rfl | exact .inr ⟨rfl, rfl⟩ | exact .inr ⟨rfl, rfl, rfl, rfl, rfl, rfl, rfl⟩
  · refine keepsOk_store fun w2 => ?_
    exact keeps_set keeps_refl fun p => by cases p <;> first | exact .inl rfl | exact .inr rfl | exact .inr ⟨rfl, rfl⟩ | exact .inr ⟨rfl, rfl, rfl, rfl, rfl, rfl, rfl⟩
  · refine keepsOk_ok ?_
    exact keeps_set keeps_refl fun p => by cases p <;> first | exact .inl rfl | exact .inr rfl | exact .inr ⟨rfl, rfl⟩ | exact .inr ⟨rfl, rfl, rfl, rfl, rfl, rfl, rfl⟩
  · refine keepsOk_ok ?_
    exact keeps_set keeps_refl fun p => by cases p <;> first | exact .inl rfl | exact .inr rfl | exact .inr ⟨rfl, rfl⟩ | exact .inr ⟨rfl, rfl, rfl, rfl, rfl, rfl, rfl⟩
  · exact keepsOk_error

theorem keeps_writeLim (d : Dev) (data : Word) (x2 : Nat) :
    KeepsOk [.lim] d (d.writeLim data x2) := by
  unfold Dev.writeLim
  split
  · refine keepsOk_store fun w1 => ?_
    exact keeps_set keeps_refl fun p => by cases p <;> first | exact .inl rfl | exact .inr rfl | exact .inr ⟨rfl, rfl⟩ | exact .inr ⟨rfl, rfl, rfl, rfl, rfl, rfl, rfl⟩
  · refine keepsOk_store fun w2 => ?_
    exact keeps_set keeps_refl fun p => by cases p <;> first | exact .inl rfl | exact .inr rfl | exact .inr ⟨rfl, rfl⟩ | exact .inr ⟨rfl, rfl, rfl, rfl, rfl, rfl, rfl⟩
  · refine keepsOk_ok ?_
    exact keeps_set keeps_refl fun p => by cases p <;> first | exact .inl rfl | exact .inr rfl | exact .inr ⟨rfl, rfl⟩ | exact .inr ⟨rfl, rfl, rfl, rfl, rfl, rfl, rfl⟩
  · refine keepsOk_ok ?_
    refine keeps_ite (fun _ => ?_) fun _ => ?_
    · exact keeps_set keeps_refl fun p => by cases p <;> first | exact .inl rfl | exact .inr rfl | exact .inr ⟨rfl, rfl⟩ | exact .inr ⟨rfl, rfl, rfl, rfl, rfl, rfl, rfl⟩
    · exact keeps_refl
  · exact keepsOk_error

theorem keeps_clearRevoked (d : Dev) :
    Keeps [.pwr] d (d.clearRevoked) := by
  unfold Dev.clearRevoked
  exact keeps_set keeps_refl fun p => by cases p <;> first | exact .inl rfl | exact .inr rfl | exact .inr ⟨rfl, rfl⟩ | exact .inr ⟨rfl, rfl, rfl, rfl, rfl, rfl, rfl⟩

theorem keeps_newContactors (d : Dev) (data : Word) :
    KeepsOk [.coil] d (d.newContactors data) := by
  unfold Dev.newContactors
  refine keepsOk_ite (fun _ => ?_) fun _ => ?_
  · refine keepsOk_ok ?_
    refine keeps_foldl ?_ fun d1 x2 => ?_
    · exact keeps_refl
    · refine keeps_ite (fun _ => ?_) fun _ => ?_
      · exact keeps_mono (keeps_setCoil _ _ _) rfl
      · exact keeps_refl
  · exact keepsOk_error

theorem keeps_storeGdrv (d : Dev) (data : Word) (i : Fin 6) :
    KeepsOk [.pwr] d (d.storeGdrv data i) := by
  unfold Dev.storeGdrv
  refine keepsOk_store fun w1 => ?_
  extract_lets starts2 b3
  clear_value starts2
  exact keeps_set keeps_refl fun p => by cases p <;> first | exact .inl rfl | exact .inr rfl | exact .inr ⟨rfl, rfl⟩ | exact .inr ⟨rfl, rfl, rfl, rfl, rfl, rfl, rfl⟩

theorem keeps_storeVds (d : Dev) (data : Word) (i : Fin 6) :
    KeepsOk [.pwr] d (d.storeVds data i) := by
  unfold Dev.storeVds
  refine keepsOk_store fun w1 => ?_
  exact keeps_set keeps_refl fun p => by cases p <;> first | exact .inl rfl | exact .inr rfl | exact .inr ⟨rfl, rfl⟩ | exact .inr ⟨rfl, rfl, rfl, rfl, rfl, rfl, rfl⟩

theorem keeps_storeKcur (d : Dev) (data : Word) (i : Fin 4) :
    KeepsOk [.pwr] d (d.storeKcur data i) := by
  unfold Dev.storeKcur
  refine keepsOk_store fun w1 => ?_
  exact keeps_set keeps_refl fun p => by cases p <;> first | exact .inl rfl | exact .inr rfl | exact .inr ⟨rfl, rfl⟩ | exact .inr ⟨rfl, rfl, rfl, rfl, rfl, rfl, rfl⟩

theorem keeps_writePwr (d : Dev) (data : Word) (x2 : Nat) :
    KeepsOk [.coil, .pwr] d (d.writePwr data x2) := by
  unfold Dev.writePwr
  split
  · refine keepsOk_ok ?_
    refine keeps_ite (fun _ => ?_) fun _ => ?_
    · exact keeps_mono (keeps_clearRevoked _) rfl
    · exact keeps_refl
  · refine keepsOk_store fun w1 => ?_
    exact keeps_set keeps_refl fun p => by cases p <;> first | exact .inl rfl | exact .inr rfl | exact .inr ⟨rfl, rfl⟩ | exact .inr ⟨rfl, rfl, rfl, rfl, rfl, rfl, rfl⟩
  · refine keepsOk_store fun w2 => ?_
    exact keeps_set keeps_refl fun p => by cases p <;> first | exact .inl rfl | exact .inr rfl | exact .inr ⟨rfl, rfl⟩ | exact .inr ⟨rfl, rfl, rfl, rfl, rfl, rfl, rfl⟩
  · refine keepsOk_store fun w3 => ?_
    exact keeps_set keeps_refl fun p => by cases p <;> first | exact .inl rfl | exact .inr rfl | exact .inr ⟨rfl, rfl⟩ | exact .inr ⟨rfl, rfl, rfl, rfl, rfl, rfl, rfl⟩
  · refine keepsOk_store fun w4 => ?_
    exact keeps_set keeps_refl fun p => by cases p <;> first | exact .inl rfl | exact .inr rfl | exact .inr ⟨rfl, rfl⟩ | exact .inr ⟨rfl, rfl, rfl, rfl, rfl, rfl, rfl⟩
  · exact keepsOk_mono (keeps_storeGdrv _ _ _) rfl
  · exact keepsOk_mono (keeps_storeGdrv _ _ _) rfl
  · exact keepsOk_mono (keeps_storeGdrv _ _ _) rfl
  · exact keepsOk_mono (keeps_storeGdrv _ _ _) rfl
  · exact keepsOk_mono (keeps_storeGdrv _ _ _) rfl
  · exact keepsOk_mono (keeps_storeGdrv _ _ _) rfl
  · exact keepsOk_mono (keeps_storeVds _ _ _) rfl
  · exact keepsOk_mono (keeps_storeVds _ _ _) rfl
  · exact keepsOk_mono (keeps_storeVds _ _ _) rfl
  · exact keepsOk_mono (keeps_storeVds _ _ _) rfl
  · exact keepsOk_mono (keeps_storeVds _ _ _) rfl
  · exact keepsOk_mono (keeps_storeVds _ _ _) rfl
  · refine keepsOk_store fun w5 => ?_
    exact keeps_set keeps_refl fun p => by cases p <;> first | exact .inl rfl | exact .inr rfl | exact .inr ⟨rfl, rfl⟩ | exact .inr ⟨rfl, rfl, rfl, rfl, rfl, rfl, rfl⟩
  · refine keepsOk_ok ?_
    refine keeps_ite (fun _ => ?_) fun _ => ?_
    · exact keeps_set keeps_refl fun p => by cases p <;> first | exact .inl rfl | exact .inr rfl | exact .inr ⟨rfl, rfl⟩ | exact .inr ⟨rfl, rfl, rfl, rfl, rfl, rfl, rfl⟩
    · exact keeps_refl
  · exact keepsOk_mono (keeps_storeKcur _ _ _) rfl
  · exact keepsOk_mono (keeps_storeKcur _ _ _) rfl
  · exact keepsOk_mono (keeps_storeKcur _ _ _) rfl
  · exact keepsOk_mono (keeps_storeKcur _ _ _) rfl
  · refine keepsOk_store fun w6 => ?_
    exact keeps_set keeps_refl fun p => by cases p <;> first | exact .inl rfl | exact .inr rfl | exact .inr ⟨rfl, rfl⟩ | exact .inr ⟨rfl, rfl, rfl, rfl, rfl, rfl, rfl⟩
  · exact keepsOk_mono (keeps_newContactors _ _) rfl
  · exact keepsOk_error

theorem keeps_writeSaf (d : Dev) (data : Word) (x2 : Nat) :
    KeepsOk [.saf] d (d.writeSaf data x2) := by
  unfold Dev.writeSaf
  split
  · refine keepsOk_store fun w1 => ?_
    exact keeps_set keeps_refl fun p => by cases p <;> first | exact .inl rfl | exact .inr rfl | exact .inr ⟨rfl, rfl⟩ | exact .inr ⟨rfl, rfl, rfl, rfl, rfl, rfl, rfl⟩
  · refine keepsOk_ok ?_
    exact keeps_set keeps_refl fun p => by cases p <;> first | exact .inl rfl | exact .inr rfl | exact .inr ⟨rfl, rfl⟩ | exact .inr ⟨rfl, rfl, rfl, rfl, rfl, rfl, rfl⟩
  · refine keepsOk_ok ?_
    refine keeps_ite (fun _ => ?_) fun _ => ?_
    · exact keeps_set keeps_refl fun p => by cases p <;> first | exact .inl rfl | exact .inr rfl | exact .inr ⟨rfl, rfl⟩ | exact .inr ⟨rfl, rfl, rfl, rfl, rfl, rfl, rfl⟩
    · exact keeps_refl
  · exact keepsOk_error

theorem keeps_storeTag (d : Dev) (data : Word) (k : Fin 6) :
    KeepsOk [.tol] d (d.storeTag data k) := by
  unfold Dev.storeTag
  refine keepsOk_ite (fun _ => ?_) fun _ => ?_
  · exact keepsOk_error
  · refine keepsOk_ok ?_
    exact keeps_set keeps_refl fun p => by cases p <;> first | exact .inl rfl | exact .inr rfl | exact .inr ⟨rfl, rfl⟩ | exact .inr ⟨rfl, rfl, rfl, rfl, rfl, rfl, rfl⟩

theorem keeps_storeSealed (d : Dev) (addr : Nat) (old : Word) (data : Word) (rws : Word) (rw : Word) (inRange : Bool) (set : Word → Toll → Toll) :
    KeepsOk [.doms, .tol, .lgr, .dep, .mem, .copies] d (d.storeSealed addr old data rws rw inRange set) := by
  unfold Dev.storeSealed
  extract_lets new1
  clear_value new1
  refine keepsOk_ite (fun _ => ?_) fun _ => ?_
  · exact keepsOk_error
  · refine keepsOk_ite (fun _ => ?_) fun _ => ?_
    · refine keepsOk_ok ?_
      exact keeps_set keeps_refl fun p => by cases p <;> first | exact .inl rfl | exact .inr rfl | exact .inr ⟨rfl, rfl⟩ | exact .inr ⟨rfl, rfl, rfl, rfl, rfl, rfl, rfl⟩
    · refine keepsOk_ite (fun _ => ?_) fun _ => ?_
      · refine keepsOk_ok ?_
        exact keeps_mono (keeps_changeSealed _ _ _ _ _) rfl
      · exact keepsOk_error

theorem keeps_writeTol (d : Dev) (data : Word) (x2 : Nat) :
    KeepsOk [.doms, .tol, .lgr, .dep, .mem, .copies] d (d.writeTol data x2) := by
  unfold Dev.writeTol
  split
  · refine keepsOk_ok ?_
    exact keeps_set keeps_refl fun p => by cases p <;> first | exact .inl rfl | exact .inr rfl | exact .inr ⟨rfl, rfl⟩ | exact .inr ⟨rfl, rfl, rfl, rfl, rfl, rfl, rfl⟩
  · exact keepsOk_mono (keeps_storeTag _ _ _) rfl
  · exact keepsOk_mono (keeps_storeTag _ _ _) rfl
  · exact keepsOk_mono (keeps_storeTag _ _ _) rfl
  · exact keepsOk_mono (keeps_storeTag _ _ _) rfl
  · exact keepsOk_mono (keeps_storeTag _ _ _) rfl
  · exact keepsOk_mono (keeps_storeTag _ _ _) rfl
  · exact keepsOk_mono (keeps_storeSealed _ _ _ _ _ _ _ _) rfl
  · exact keepsOk_mono (keeps_storeSealed _ _ _ _ _ _ _ _) rfl
  · exact keepsOk_mono (keeps_storeSealed _ _ _ _ _ _ _ _) rfl
  · exact keepsOk_mono (keeps_storeSealed _ _ _ _ _ _ _ _) rfl
  · exact keepsOk_mono (keeps_storeSealed _ _ _ _ _ _ _ _) rfl
  · exact keepsOk_mono (keeps_storeSealed _ _ _ _ _ _ _ _) rfl
  · exact keepsOk_mono (keeps_storeSealed _ _ _ _ _ _ _ _) rfl
  · refine keepsOk_store fun w1 => ?_
    exact keeps_set keeps_refl fun p => by cases p <;> first | exact .inl rfl | exact .inr rfl | exact .inr ⟨rfl, rfl⟩ | exact .inr ⟨rfl, rfl, rfl, rfl, rfl, rfl, rfl⟩
  · refine keepsOk_ok ?_
    exact keeps_set keeps_refl fun p => by cases p <;> first | exact .inl rfl | exact .inr rfl | exact .inr ⟨rfl, rfl⟩ | exact .inr ⟨rfl, rfl, rfl, rfl, rfl, rfl, rfl⟩
  · exact keepsOk_error

theorem keeps_writeLgr (d : Dev) (data : Word) (x2 : Nat) :
    KeepsOk [.lgr] d (d.writeLgr data x2) := by
  unfold Dev.writeLgr
  split
  · refine keepsOk_ok ?_
    exact keeps_set keeps_refl fun p => by cases p <;> first | exact .inl rfl | exact .inr rfl | exact .inr ⟨rfl, rfl⟩ | exact .inr ⟨rfl, rfl, rfl, rfl, rfl, rfl, rfl⟩
  · refine keepsOk_ok ?_
    exact keeps_set keeps_refl fun p => by cases p <;> first | exact .inl rfl | exact .inr rfl | exact .inr ⟨rfl, rfl⟩ | exact .inr ⟨rfl, rfl, rfl, rfl, rfl, rfl, rfl⟩
  · refine keepsOk_ok ?_
    exact keeps_set keeps_refl fun p => by cases p <;> first | exact .inl rfl | exact .inr rfl | exact .inr ⟨rfl, rfl⟩ | exact .inr ⟨rfl, rfl, rfl, rfl, rfl, rfl, rfl⟩
  · refine keepsOk_store fun w1 => ?_
    exact keeps_set keeps_refl fun p => by cases p <;> first | exact .inl rfl | exact .inr rfl | exact .inr ⟨rfl, rfl⟩ | exact .inr ⟨rfl, rfl, rfl, rfl, rfl, rfl, rfl⟩
  · refine keepsOk_store fun w2 => ?_
    exact keeps_set keeps_refl fun p => by cases p <;> first | exact .inl rfl | exact .inr rfl | exact .inr ⟨rfl, rfl⟩ | exact .inr ⟨rfl, rfl, rfl, rfl, rfl, rfl, rfl⟩
  · exact keepsOk_error

theorem keeps_afterCanWrite (d : Dev) (ch : Ch) (data : Word) (x3 : Nat) :
    Keeps [] d (d.afterCanWrite ch data x3) := by
  unfold Dev.afterCanWrite
  split
  · refine keeps_ite (fun _ => ?_) fun _ => ?_
    · exact keeps_mono (keeps_clearWmovf _ _) rfl
    · exact keeps_refl
  · refine keeps_ite (fun _ => ?_) fun _ => ?_
    · exact keeps_mono (keeps_clearWmovf _ _) rfl
    · exact keeps_refl
  · exact keeps_refl

theorem keeps_writeCan (d : Dev) (ch : Ch) (data : Word) (o : Nat) :
    KeepsOk [.can0, .can1] d (d.writeCan ch data o) := by
  unfold Dev.writeCan
  extract_lets c1 n2
  clear_value c1
  clear_value n2
  split
  · refine keepsOk_store fun w3 => ?_
    exact keeps_mono (keeps_setCan _ _ _) rfl
  · refine keepsOk_store fun w4 => ?_
    exact keeps_mono (keeps_setCan _ _ _) rfl
  · refine keepsOk_store fun w5 => ?_
    refine keeps_ite (fun _ => ?_) fun _ => ?_
    · exact keeps_refl
    · exact keeps_mono (keeps_setCan _ _ _) rfl
  · split
    · refine keepsOk_ok ?_
      refine keeps_via (keeps_afterCanWrite _ _ _ _) rfl ?_
      exact keeps_mono (keeps_setCan _ _ _) rfl
    · exact keepsOk_error

theorem keeps_writeHst (d : Dev) (data : Word) (x2 : Nat) :
    KeepsOk [.hst] d (d.writeHst data x2) := by
  unfold Dev.writeHst
  split
  · refine keepsOk_ok ?_
    exact keeps_set keeps_refl fun p => by cases p <;> first | exact .inl rfl | exact .inr rfl | exact .inr ⟨rfl, rfl⟩ | exact .inr ⟨rfl, rfl, rfl, rfl, rfl, rfl, rfl⟩
  · refine keepsOk_store fun w1 => ?_
    exact keeps_set keeps_refl fun p => by cases p <;> first | exact .inl rfl | exact .inr rfl | exact .inr ⟨rfl, rfl⟩ | exact .inr ⟨rfl, rfl, rfl, rfl, rfl, rfl, rfl⟩
  · refine keepsOk_ok ?_
    refine keeps_ite (fun _ => ?_) fun _ => ?_
    · refine keeps_via (keeps_clearWmovf _ _) rfl ?_
      exact keeps_set keeps_refl fun p => by cases p <;> first | exact .inl rfl | exact .inr rfl | exact .inr ⟨rfl, rfl⟩ | exact .inr ⟨rfl, rfl, rfl, rfl, rfl, rfl, rfl⟩
    · exact keeps_refl
  · refine keepsOk_store fun w2 => ?_
    refine keeps_via (keeps_restage _) rfl ?_
    exact keeps_set keeps_refl fun p => by cases p <;> first | exact .inl rfl | exact .inr rfl | exact .inr ⟨rfl, rfl⟩ | exact .inr ⟨rfl, rfl, rfl, rfl, rfl, rfl, rfl⟩
  · refine keepsOk_ok ?_
    exact keeps_set keeps_refl fun p => by cases p <;> first | exact .inl rfl | exact .inr rfl | exact .inr ⟨rfl, rfl⟩ | exact .inr ⟨rfl, rfl, rfl, rfl, rfl, rfl, rfl⟩
  · refine keepsOk_store fun w3 => ?_
    exact keeps_set keeps_refl fun p => by cases p <;> first | exact .inl rfl | exact .inr rfl | exact .inr ⟨rfl, rfl⟩ | exact .inr ⟨rfl, rfl, rfl, rfl, rfl, rfl, rfl⟩
  · refine keepsOk_ok ?_
    exact keeps_set keeps_refl fun p => by cases p <;> first | exact .inl rfl | exact .inr rfl | exact .inr ⟨rfl, rfl⟩ | exact .inr ⟨rfl, rfl, rfl, rfl, rfl, rfl, rfl⟩
  · exact keepsOk_error

theorem keeps_clearDep (d : Dev) (data : Word) :
    Keeps [.dep] d (d.clearDep data) := by
  unfold Dev.clearDep
  extract_lets b1 d2 b3
  refine keeps_through (b := d2) ?_ fun hd2 => ?_
  · unfold d2
    refine keeps_ite (fun _ => ?_) fun _ => ?_
    · exact keeps_set keeps_refl fun p => by cases p <;> first | exact .inl rfl | exact .inr rfl | exact .inr ⟨rfl, rfl⟩ | exact .inr ⟨rfl, rfl, rfl, rfl, rfl, rfl, rfl⟩
    · exact keeps_refl
  clear_value d2
  refine keeps_ite (fun _ => ?_) fun _ => ?_
  · refine keeps_set (b := d2) ?_ fun p => by cases p <;> first | exact .inl rfl | exact .inr rfl | exact .inr ⟨rfl, rfl⟩ | exact .inr ⟨rfl, rfl, rfl, rfl, rfl, rfl, rfl⟩
    exact hd2
  · exact hd2

theorem keeps_writeDep (d : Dev) (data : Word) (x2 : Nat) :
    KeepsOk [.dep, .lif] d (d.writeDep data x2) := by
  unfold Dev.writeDep
  split
  · refine keepsOk_ok ?_
    exact keeps_set keeps_refl fun p => by cases p <;> first | exact .inl rfl | exact .inr rfl | exact .inr ⟨rfl, rfl⟩ | exact .inr ⟨rfl, rfl, rfl, rfl, rfl, rfl, rfl⟩
  · refine keepsOk_store fun w1 => ?_
    exact keeps_set keeps_refl fun p => by cases p <;> first | exact .inl rfl | exact .inr rfl | exact .inr ⟨rfl, rfl⟩ | exact .inr ⟨rfl, rfl, rfl, rfl, rfl, rfl, rfl⟩
  · refine keepsOk_ok ?_
    exact keeps_set keeps_refl fun p => by cases p <;> first | exact .inl rfl | exact .inr rfl | exact .inr ⟨rfl, rfl⟩ | exact .inr ⟨rfl, rfl, rfl, rfl, rfl, rfl, rfl⟩
  · refine keepsOk_ok ?_
    exact keeps_set keeps_refl fun p => by cases p <;> first | exact .inl rfl | exact .inr rfl | exact .inr ⟨rfl, rfl⟩ | exact .inr ⟨rfl, rfl, rfl, rfl, rfl, rfl, rfl⟩
  · refine keepsOk_ok ?_
    exact keeps_set keeps_refl fun p => by cases p <;> first | exact .inl rfl | exact .inr rfl | exact .inr ⟨rfl, rfl⟩ | exact .inr ⟨rfl, rfl, rfl, rfl, rfl, rfl, rfl⟩
  · refine keepsOk_ok ?_
    refine keeps_ite (fun _ => ?_) fun _ => ?_
    · refine keeps_via (keeps_clearWmovf _ _) rfl ?_
      exact keeps_set keeps_refl fun p => by cases p <;> first | exact .inl rfl | exact .inr rfl | exact .inr ⟨rfl, rfl⟩ | exact .inr ⟨rfl, rfl, rfl, rfl, rfl, rfl, rfl⟩
    · exact keeps_refl
  · refine keepsOk_ok ?_
    refine keeps_ite (fun _ => ?_) fun _ => ?_
    · refine keeps_via (keeps_clearWmovf _ _) rfl ?_
      exact keeps_set keeps_refl fun p => by cases p <;> first | exact .inl rfl | exact .inr rfl | exact .inr ⟨rfl, rfl⟩ | exact .inr ⟨rfl, rfl, rfl, rfl, rfl, rfl, rfl⟩
    · exact keeps_refl
  · refine keepsOk_ok ?_
    refine keeps_ite (fun _ => ?_) fun _ => ?_
    · refine keeps_via (keeps_clearWmovf _ _) rfl ?_
      exact keeps_set keeps_refl fun p => by cases p <;> first | exact .inl rfl | exact .inr rfl | exact .inr ⟨rfl, rfl⟩ | exact .inr ⟨rfl, rfl, rfl, rfl, rfl, rfl, rfl⟩
    · exact keeps_refl
  · refine keepsOk_store fun w2 => ?_
    exact keeps_set keeps_refl fun p => by cases p <;> first | exact .inl rfl | exact .inr rfl | exact .inr ⟨rfl, rfl⟩ | exact .inr ⟨rfl, rfl, rfl, rfl, rfl, rfl, rfl⟩
  · refine keepsOk_ok ?_
    exact keeps_mono (keeps_clearDep _ _) rfl
  · refine keepsOk_ok ?_
    exact keeps_set keeps_refl fun p => by cases p <;> first | exact .inl rfl | exact .inr rfl | exact .inr ⟨rfl, rfl⟩ | exact .inr ⟨rfl, rfl, rfl, rfl, rfl, rfl, rfl⟩
  · refine keepsOk_ok ?_
    exact keeps_set keeps_refl fun p => by cases p <;> first | exact .inl rfl | exact .inr rfl | exact .inr ⟨rfl, rfl⟩ | exact .inr ⟨rfl, rfl, rfl, rfl, rfl, rfl, rfl⟩
  · exact keepsOk_error

set_option maxRecDepth 8000 in
theorem keeps_writeReg (d : Dev) (a : Nat) (data : Word) :
    KeepsOk [.sup, .doms, .sys, .mode, .seq, .coil, .eng, .chn, .sen, .est, .lim, .pwr, .saf, .tol, .lgr, .can0, .can1, .hst, .evt, .dep, .mem, .copies, .lif] d (d.writeReg a data) := by
  unfold Dev.writeReg
  refine keepsOk_ite (fun _ => keepsOk_error) fun _ => ?_
  refine keepsOk_ite (fun _ => keepsOk_mono (keeps_writeSys _ _ _) rfl) fun _ => ?_
  refine keepsOk_ite (fun _ => keepsOk_mono (keeps_writeEvt _ _ _) rfl) fun _ => ?_
  refine keepsOk_ite (fun _ => keepsOk_mono (keeps_writeMode _ _ _) rfl) fun _ => ?_
  refine keepsOk_ite (fun _ => keepsOk_mono (keeps_writeSup _ _ _) rfl) fun _ => ?_
  refine keepsOk_ite (fun _ => keepsOk_mono (keeps_writeEng _ _ _) rfl) fun _ => ?_
  refine keepsOk_ite (fun _ => keepsOk_mono (keeps_writeChn _ _ _) rfl) fun _ => ?_
  refine keepsOk_ite (fun _ => keepsOk_mono (keeps_writeSen _ _ _) rfl) fun _ => ?_
  refine keepsOk_ite (fun _ => keepsOk_mono (keeps_writeEst _ _ _) rfl) fun _ => ?_
  refine keepsOk_ite (fun _ => keepsOk_mono (keeps_writeLim _ _ _) rfl) fun _ => ?_
  refine keepsOk_ite (fun _ => keepsOk_mono (keeps_writePwr _ _ _) rfl) fun _ => ?_
  refine keepsOk_ite (fun _ => keepsOk_mono (keeps_writeSaf _ _ _) rfl) fun _ => ?_
  refine keepsOk_ite (fun _ => keepsOk_mono (keeps_writeTol _ _ _) rfl) fun _ => ?_
  refine keepsOk_ite (fun _ => keepsOk_mono (keeps_writeLgr _ _ _) rfl) fun _ => ?_
  refine keepsOk_ite (fun _ => keepsOk_mono (keeps_writeCan _ _ _ _) rfl) fun _ => ?_
  refine keepsOk_ite (fun _ => keepsOk_mono (keeps_writeCan _ _ _ _) rfl) fun _ => ?_
  refine keepsOk_ite (fun _ => keepsOk_mono (keeps_writeHst _ _ _) rfl) fun _ => ?_
  exact keepsOk_mono (keeps_writeDep _ _ _) rfl

end Sys2Proof.Laws
end

