-- ==== Sys2Proof/Laws/KeepsHeld.lean ====
section
/-! SUPPORT. Which parts of the device each operation of Held, Engine, Inspect, HostPort, Idle may change, each said once. -/
namespace Sys2Proof.Laws

open Sys2Proof.Machine Sys2Proof.Safety

theorem keeps_bodyPop (d : Dev) :
    Keeps [] d (bodyPop d).1 := by
  unfold bodyPop
  extract_lets n1 b2
  clear_value n1
  refine keeps_ite_fst (fun _ => ?_) fun _ => ?_
  · refine keeps_pair ?_
    exact keeps_refl
  · refine keeps_pair ?_
    refine keeps_via (keeps_restage _) rfl ?_
    exact keeps_set keeps_refl fun p => by cases p <;> first | exact .inl rfl | exact .inr rfl | exact .inr ⟨rfl, rfl⟩ | exact .inr ⟨rfl, rfl, rfl, rfl, rfl, rfl, rfl⟩

theorem keeps_bodyHstCntClr (d : Dev) :
    Keeps [.hst] d (bodyHstCntClr d).1 := by
  unfold bodyHstCntClr
  refine keeps_pair ?_
  exact keeps_set keeps_refl fun p => by cases p <;> first | exact .inl rfl | exact .inr rfl | exact .inr ⟨rfl, rfl⟩ | exact .inr ⟨rfl, rfl, rfl, rfl, rfl, rfl, rfl⟩

theorem keeps_bodyUnknown (d : Dev) :
    Keeps [] d (bodyUnknown d).1 := by
  unfold bodyUnknown
  refine keeps_pair ?_
  exact keeps_refl

set_option maxRecDepth 8000 in
theorem keeps_bodyOf (r : CmdReg) (code : Nat) (x2 : Dev) :
    Keeps [.cmds, .sup, .doms, .stamp, .sys, .mode, .seq, .coil, .eng, .insp, .chn, .sen, .est, .lim, .pwr, .saf, .tol, .lgr, .can0, .can1, .wakeDet, .inh, .hst, .evt, .dep, .mem, .copies, .lif, .man] x2 (bodyOf r code x2).1 := by
  have can : ∀ ch n f, bodyOfCan ch n = some f → ∀ d, Keeps [.cmds, .sup, .doms, .stamp, .sys, .mode, .seq, .coil, .eng, .insp, .chn, .sen, .est, .lim, .pwr, .saf, .tol, .lgr, .can0, .can1, .wakeDet, .inh, .hst, .evt, .dep, .mem, .copies, .lif, .man] d (f d).1 := by
    intro ch n f h d
    unfold bodyOfCan at h
    split at h
    · rw [← Option.some.inj h]; exact keeps_mono (keeps_bodyTxQueue _ _) rfl
    · rw [← Option.some.inj h]; exact keeps_mono (keeps_bodyTxCancel _ _) rfl
    · rw [← Option.some.inj h]; exact keeps_mono (keeps_bodyRxPop _ _) rfl
    · rw [← Option.some.inj h]; exact keeps_mono (keeps_bodyTtLoad _ _) rfl
    · rw [← Option.some.inj h]; exact keeps_mono (keeps_bodyBoRecover _ _) rfl
    · rw [← Option.some.inj h]; exact keeps_mono (keeps_bodyCanCntClr _ _) rfl
    · exact nomatch h
  have low : ∀ n f, bodyOfLow r n = some f → ∀ d, Keeps [.cmds, .sup, .doms, .stamp, .sys, .mode, .seq, .coil, .eng, .insp, .chn, .sen, .est, .lim, .pwr, .saf, .tol, .lgr, .can0, .can1, .wakeDet, .inh, .hst, .evt, .dep, .mem, .copies, .lif, .man] d (f d).1 := by
    intro n f h d
    unfold bodyOfLow at h
    split at h
    · rw [← Option.some.inj h]; exact keeps_mono (keeps_bodyWatch _) rfl
    · rw [← Option.some.inj h]; exact keeps_mono (keeps_bodyBenchEnter _) rfl
    · rw [← Option.some.inj h]; exact keeps_mono (keeps_bodyBenchExit _) rfl
    · rw [← Option.some.inj h]; exact keeps_mono (keeps_bodyLockAck _) rfl
    · rw [← Option.some.inj h]; exact keeps_mono (keeps_bodyClose _) rfl
    · rw [← Option.some.inj h]; exact keeps_mono (keeps_bodyOpen _) rfl
    · rw [← Option.some.inj h]; exact keeps_mono (keeps_bodyHold _) rfl
    · rw [← Option.some.inj h]; exact keeps_mono (keeps_bodyRelease _) rfl
    · rw [← Option.some.inj h]; exact keeps_mono (keeps_bodySetTime _) rfl
    · rw [← Option.some.inj h]; exact keeps_mono (keeps_bodyReset _ _) rfl
    · rw [← Option.some.inj h]; exact keeps_mono (keeps_bodyArmAlarm _) rfl
    · rw [← Option.some.inj h]; exact keeps_mono (keeps_bodyDisarm _) rfl
    · rw [← Option.some.inj h]; exact keeps_mono (keeps_bodyAuthNow _) rfl
    · rw [← Option.some.inj h]; exact keeps_mono (keeps_bodyStepNow _) rfl
    · rw [← Option.some.inj h]; exact keeps_mono (keeps_bodyFaultClr _) rfl
    · rw [← Option.some.inj h]; exact keeps_mono (keeps_bodyPwrClr _) rfl
    · rw [← Option.some.inj h]; exact keeps_mono (keeps_bodyCtst _) rfl
    · rw [← Option.some.inj h]; exact keeps_mono (keeps_bodyDiag _) rfl
    · rw [← Option.some.inj h]; exact keeps_mono (keeps_bodyGtest _ _) rfl
    · rw [← Option.some.inj h]; exact keeps_mono (keeps_bodyGtest _ _) rfl
    · rw [← Option.some.inj h]; exact keeps_mono (keeps_bodyGtest _ _) rfl
    · rw [← Option.some.inj h]; exact keeps_mono (keeps_bodyGtest _ _) rfl
    · exact nomatch h
  have high : ∀ n f, bodyOfHigh r n = some f → ∀ d, Keeps [.cmds, .sup, .doms, .stamp, .sys, .mode, .seq, .coil, .eng, .insp, .chn, .sen, .est, .lim, .pwr, .saf, .tol, .lgr, .can0, .can1, .wakeDet, .inh, .hst, .evt, .dep, .mem, .copies, .lif, .man] d (f d).1 := by
    intro n f h d
    unfold bodyOfHigh at h
    split at h
    · rw [← Option.some.inj h]; exact keeps_mono (keeps_bodySessionOpen _) rfl
    · rw [← Option.some.inj h]; exact keeps_mono (keeps_bodySessionClose _) rfl
    · rw [← Option.some.inj h]; exact keeps_mono (keeps_bodyResume _) rfl
    · rw [← Option.some.inj h]; exact keeps_mono (keeps_bodySnapshot _) rfl
    · rw [← Option.some.inj h]; exact keeps_mono (keeps_bodyCalOpen _) rfl
    · rw [← Option.some.inj h]; exact keeps_mono (keeps_bodyCalClose _) rfl
    · rw [← Option.some.inj h]; exact keeps_mono (keeps_bodyAck _) rfl
    · exact can _ _ _ h d
    · exact can _ _ _ h d
    · rw [← Option.some.inj h]; exact keeps_mono (keeps_bodyPop _) rfl
    · rw [← Option.some.inj h]; exact keeps_mono (keeps_bodyHstCntClr _) rfl
    · rw [← Option.some.inj h]; exact keeps_mono (keeps_bodyManErase _) rfl
    · rw [← Option.some.inj h]; exact keeps_mono (keeps_bodyManSwitch _) rfl
    · rw [← Option.some.inj h]; exact keeps_mono (keeps_bodyLogUnpin _) rfl
    · rw [← Option.some.inj h]; exact keeps_mono (keeps_bodyLifFlush _) rfl
    · rw [← Option.some.inj h]; exact keeps_mono (keeps_bodyClrK _) rfl
    · rw [← Option.some.inj h]; exact keeps_mono (keeps_bodyClrPump _) rfl
    · exact nomatch h
  unfold bodyOf
  cases hl : bodyOfLow r code with
  | some f => exact low _ _ hl _
  | none =>
    cases hh : bodyOfHigh r code with
    | some f => exact high _ _ hh _
    | none => exact keeps_refl

theorem keeps_offer (d : Dev) (r : CmdReg) (tok : Byte) (code : Byte) :
    Keeps [.cmds, .sup, .doms, .stamp, .sys, .mode, .seq, .coil, .eng, .insp, .chn, .sen, .est, .lim, .pwr, .saf, .tol, .lgr, .can0, .can1, .wakeDet, .inh, .hst, .evt, .dep, .mem, .copies, .lif, .man] d (d.offer r tok code) := by
  unfold Dev.offer
  extract_lets c1
  clear_value c1
  refine keeps_ite (fun _ => ?_) fun _ => ?_
  · exact keeps_refl
  · refine keeps_ite (fun _ => ?_) fun _ => ?_
    · exact keeps_set keeps_refl fun p => by cases p <;> first | exact .inl rfl | exact .inr rfl | exact .inr ⟨rfl, rfl⟩ | exact .inr ⟨rfl, rfl, rfl, rfl, rfl, rfl, rfl⟩
    · refine keeps_executeNow rfl ?_ fun d2 => ?_
      · exact keeps_refl
      · exact keeps_mono (keeps_bodyOf _ _ _) rfl

theorem keeps_runHeld (d : Dev) (r : CmdReg) :
    Keeps [.cmds, .sup, .doms, .stamp, .sys, .mode, .seq, .coil, .eng, .insp, .chn, .sen, .est, .lim, .pwr, .saf, .tol, .lgr, .can0, .can1, .wakeDet, .inh, .hst, .evt, .dep, .mem, .copies, .lif, .man] d (d.runHeld r) := by
  unfold Dev.runHeld
  extract_lets c1
  clear_value c1
  split
  · exact keeps_refl
  · refine keeps_executeNow rfl ?_ fun d2 => ?_
    · exact keeps_set keeps_refl fun p => by cases p <;> first | exact .inl rfl | exact .inr rfl | exact .inr ⟨rfl, rfl⟩ | exact .inr ⟨rfl, rfl, rfl, rfl, rfl, rfl, rfl⟩
    · exact keeps_mono (keeps_bodyOf _ _ _) rfl

theorem keeps_runCommands (d : Dev) :
    Keeps [.cmds, .sup, .doms, .stamp, .sys, .mode, .seq, .coil, .eng, .insp, .chn, .sen, .est, .lim, .pwr, .saf, .tol, .lgr, .can0, .can1, .wakeDet, .inh, .hst, .evt, .dep, .mem, .copies, .lif, .man] d (d.runCommands) := by
  unfold Dev.runCommands
  refine keeps_foldl ?_ fun d1 x2 => ?_
  · exact keeps_refl
  · exact keeps_mono (keeps_runHeld _ _) rfl

theorem keeps_frameModes (d : Dev) :
    Keeps [.eng] d (d.frameModes) := by
  unfold Dev.frameModes
  extract_lets keep1 b2
  clear_value keep1
  exact keeps_set keeps_refl fun p => by cases p <;> first | exact .inl rfl | exact .inr rfl | exact .inr ⟨rfl, rfl⟩ | exact .inr ⟨rfl, rfl, rfl, rfl, rfl, rfl, rfl⟩

theorem keeps_engCount (d : Dev) (c : EngCount) :
    Keeps [.eng] d (d.engCount c) := by
  unfold Dev.engCount
  exact keeps_set keeps_refl fun p => by cases p <;> first | exact .inl rfl | exact .inr rfl | exact .inr ⟨rfl, rfl⟩ | exact .inr ⟨rfl, rfl, rfl, rfl, rfl, rfl, rfl⟩

theorem keeps_lastCause (d : Dev) (r : TaskResult) (odd : Option Pass) (outcome : Nat) :
    Keeps [.eng] d (d.lastCause r odd outcome) := by
  unfold Dev.lastCause
  exact keeps_set keeps_refl fun p => by cases p <;> first | exact .inl rfl | exact .inr rfl | exact .inr ⟨rfl, rfl⟩ | exact .inr ⟨rfl, rfl, rfl, rfl, rfl, rfl, rfl⟩

theorem keeps_engineLock (d : Dev) (cause : Byte) :
    Keeps [.stamp, .mode, .seq, .coil, .lim, .pwr, .saf, .tol, .can0, .can1, .evt, .lif] d (d.engineLock cause) := by
  unfold Dev.engineLock
  exact keeps_mono (keeps_lockFault _ _ _ _ _) rfl

theorem keeps_degradeCheck (d : Dev) (p : Pass) :
    Keeps [.stamp, .mode, .seq, .coil, .eng, .lim, .pwr, .saf, .tol, .can0, .can1, .evt, .lif] d (d.degradeCheck p) := by
  unfold Dev.degradeCheck
  refine keeps_ite (fun _ => ?_) fun _ => ?_
  · extract_lets b1 d2
    refine keeps_through (b := d2) ?_ fun hd2 => ?_
    · unfold d2
      exact keeps_set keeps_refl fun p => by cases p <;> first | exact .inl rfl | exact .inr rfl | exact .inr ⟨rfl, rfl⟩ | exact .inr ⟨rfl, rfl, rfl, rfl, rfl, rfl, rfl⟩
    clear_value d2
    refine keeps_via (keeps_fault _ _ _ _ _) rfl ?_
    refine keeps_via (keeps_countDevice _ _) rfl ?_
    exact hd2
  · exact keeps_refl

theorem keeps_oddPass (d : Dev) (p : Pass) (storage : Bool) :
    Keeps [.stamp, .mode, .seq, .coil, .eng, .lim, .pwr, .saf, .tol, .can0, .can1, .evt, .lif] d (d.oddPass p storage) := by
  unfold Dev.oddPass
  extract_lets d1 d2 b3
  refine keeps_through (b := d1) ?_ fun hd1 => ?_
  · unfold d1
    refine keeps_via (keeps_faultGone _ _) rfl ?_
    exact keeps_mono (keeps_fault _ _ _ _ _) rfl
  clear_value d1
  refine keeps_through (b := d2) ?_ fun hd2 => ?_
  · unfold d2
    refine keeps_via (keeps_engCount _ _) rfl ?_
    exact hd1
  clear_value d2
  refine keeps_ite (fun _ => ?_) fun _ => ?_
  · exact hd1
  · refine keeps_via (keeps_degradeCheck _ _) rfl ?_
    refine keeps_set (b := d2) ?_ fun p => by cases p <;> first | exact .inl rfl | exact .inr rfl | exact .inr ⟨rfl, rfl⟩ | exact .inr ⟨rfl, rfl, rfl, rfl, rfl, rfl, rfl⟩
    exact hd2

theorem keeps_withhold (d : Dev) (w : Work) (r : TaskResult) :
    Keeps [.stamp, .mode, .seq, .coil, .eng, .lim, .pwr, .saf, .tol, .can0, .can1, .evt, .lif] d (d.withhold w r).1 := by
  unfold Dev.withhold
  extract_lets d1 d2 b3 d4 w5
  refine keeps_through (b := d1) ?_ fun hd1 => ?_
  · unfold d1
    exact keeps_mono (keeps_lastCause _ _ _ _) rfl
  clear_value d1
  refine keeps_through (b := d2) ?_ fun hd2 => ?_
  · unfold d2
    refine keeps_via (keeps_faultGone _ _) rfl ?_
    refine keeps_via (keeps_fault _ _ _ _ _) rfl ?_
    refine keeps_via (keeps_engCount _ _) rfl ?_
    exact hd1
  clear_value d2
  refine keeps_through (b := d4) ?_ fun hd4 => ?_
  · unfold d4
    refine keeps_set (b := d2) ?_ fun p => by cases p <;> first | exact .inl rfl | exact .inr rfl | exact .inr ⟨rfl, rfl⟩ | exact .inr ⟨rfl, rfl, rfl, rfl, rfl, rfl, rfl⟩
    exact hd2
  clear_value d4
  clear_value w5
  refine keeps_ite_fst (fun _ => ?_) fun _ => ?_
  · refine keeps_pair ?_
    exact hd1
  · refine keeps_ite_fst (fun _ => ?_) fun _ => ?_
    · refine keeps_pair ?_
      refine keeps_via (keeps_engineLock _ _) rfl ?_
      refine keeps_via (keeps_lastCause _ _ _ _) rfl ?_
      exact hd4
    · refine keeps_pair ?_
      exact hd4

theorem keeps_threeWay (d : Dev) (r : TaskResult) :
    Keeps [.stamp, .mode, .seq, .coil, .eng, .lim, .pwr, .saf, .tol, .can0, .can1, .evt, .lif] d (d.threeWay r) := by
  unfold Dev.threeWay
  refine keeps_via (keeps_engineLock _ _) rfl ?_
  exact keeps_mono (keeps_lastCause _ _ _ _) rfl

theorem keeps_takeContext (d : Dev) (r : TaskResult) (odd : Option Pass) :
    Keeps [.eng] d (d.takeContext r odd) := by
  unfold Dev.takeContext
  exact keeps_set keeps_refl fun p => by cases p <;> first | exact .inl rfl | exact .inr rfl | exact .inr ⟨rfl, rfl⟩ | exact .inr ⟨rfl, rfl, rfl, rfl, rfl, rfl, rfl⟩

theorem keeps_voteTriple (d : Dev) (w : Work) (r : TaskResult) :
    Keeps [.stamp, .mode, .seq, .coil, .eng, .lim, .pwr, .saf, .tol, .can0, .can1, .evt, .lif] d (d.voteTriple w r).1 := by
  unfold Dev.voteTriple
  split
  · refine keeps_pair ?_
    exact keeps_mono (keeps_takeContext _ _ _) rfl
  · refine keeps_pair ?_
    exact keeps_mono (keeps_threeWay _ _) rfl
  · refine keeps_pair ?_
    refine keeps_via (keeps_takeContext _ _ _) rfl ?_
    refine keeps_via (keeps_oddPass _ _ _) rfl ?_
    exact keeps_mono (keeps_lastCause _ _ _ _) rfl

theorem keeps_resolvedNow (d : Dev) :
    Keeps [.eng] d (d.resolvedNow) := by
  unfold Dev.resolvedNow
  refine keeps_via (keeps_notice _ _ _ _) rfl ?_
  exact keeps_mono (keeps_engCount _ _) rfl

theorem keeps_readHolds (d : Dev) (r : TaskResult) (ps : List Pass) :
    Keeps [.eng] d (d.readHolds r ps) := by
  unfold Dev.readHolds
  extract_lets d1 d2 e3
  refine keeps_through (b := d1) ?_ fun hd1 => ?_
  · unfold d1
    refine keeps_repeat ?_ fun d4 => ?_
    · exact keeps_refl
    · refine keeps_via (keeps_notice _ _ _ _) rfl ?_
      exact keeps_mono (keeps_engCount _ _) rfl
  clear_value d1
  refine keeps_through (b := d2) ?_ fun hd2 => ?_
  · unfold d2
    refine keeps_repeat ?_ fun d6 => ?_
    · exact hd1
    · exact keeps_mono (keeps_engCount _ _) rfl
  clear_value d2
  refine keeps_set (b := d2) ?_ fun p => by cases p <;> first | exact .inl rfl | exact .inr rfl | exact .inr ⟨rfl, rfl⟩ | exact .inr ⟨rfl, rfl, rfl, rfl, rfl, rfl, rfl⟩
  exact hd2

theorem keeps_rerunTask (d : Dev) (w : Work) (r : TaskResult) :
    Keeps [.stamp, .mode, .seq, .coil, .eng, .lim, .pwr, .saf, .tol, .can0, .can1, .evt, .lif] d (d.rerunTask w r).1 := by
  unfold Dev.rerunTask
  refine keeps_ite_fst (fun _ => ?_) fun _ => ?_
  · extract_lets again1 d2 d3
    clear_value again1
    refine keeps_through (b := d2) ?_ fun hd2 => ?_
    · unfold d2
      exact keeps_mono (keeps_readHolds _ _ _) rfl
    clear_value d2
    refine keeps_through (b := d3) ?_ fun hd3 => ?_
    · unfold d3
      refine keeps_ite (fun _ => ?_) fun _ => ?_
      · refine keeps_via (keeps_engineLock _ _) rfl ?_
        exact hd2
      · exact hd2
    clear_value d3
    refine keeps_ite_fst (fun _ => ?_) fun _ => ?_
    · refine keeps_via (keeps_withhold _ _ _) rfl ?_
      exact hd3
    · refine keeps_pair ?_
      refine keeps_via (keeps_takeContext _ _ _) rfl ?_
      refine keeps_via (keeps_resolvedNow _) rfl ?_
      refine keeps_via (keeps_lastCause _ _ _ _) rfl ?_
      exact hd3
  · extract_lets d4
    refine keeps_through (b := d4) ?_ fun hd4 => ?_
    · unfold d4
      exact keeps_mono (keeps_readHolds _ _ _) rfl
    clear_value d4
    refine keeps_ite_fst (fun _ => ?_) fun _ => ?_
    · refine keeps_pair ?_
      refine keeps_via (keeps_threeWay _ _) rfl ?_
      exact hd4
    · split
      · refine keeps_pair ?_
        refine keeps_via (keeps_threeWay _ _) rfl ?_
        exact hd4
      · refine keeps_pair ?_
        refine keeps_via (keeps_takeContext _ _ _) rfl ?_
        refine keeps_via (keeps_resolvedNow _) rfl ?_
        refine keeps_via (keeps_lastCause _ _ _ _) rfl ?_
        exact hd4
      · refine keeps_pair ?_
        refine keeps_via (keeps_takeContext _ _ _) rfl ?_
        refine keeps_via (keeps_oddPass _ _ _) rfl ?_
        refine keeps_via (keeps_resolvedNow _) rfl ?_
        refine keeps_via (keeps_lastCause _ _ _ _) rfl ?_
        exact hd4

theorem keeps_resolvePaired (d : Dev) (w : Work) (r : TaskResult) :
    Keeps [.stamp, .mode, .seq, .coil, .eng, .lim, .pwr, .saf, .tol, .can0, .can1, .evt, .lif] d (d.resolvePaired w r).1 := by
  unfold Dev.resolvePaired
  extract_lets cost1 own2 w3
  clear_value cost1
  clear_value own2
  clear_value w3
  refine keeps_ite_fst (fun _ => ?_) fun _ => ?_
  · exact keeps_mono (keeps_withhold _ _ _) rfl
  · refine keeps_ite_fst (fun _ => ?_) fun _ => ?_
    · refine keeps_pair ?_
      refine keeps_via (keeps_engineLock _ _) rfl ?_
      exact keeps_mono (keeps_lastCause _ _ _ _) rfl
    · exact keeps_mono (keeps_rerunTask _ _ _) rfl

theorem keeps_takeSplit (d : Dev) (w : Work) (r : TaskResult) :
    Keeps [.stamp, .mode, .seq, .coil, .eng, .lim, .pwr, .saf, .tol, .can0, .can1, .evt, .lif] d (d.takeSplit w r).1 := by
  unfold Dev.takeSplit
  refine keeps_ite_fst (fun _ => ?_) fun _ => ?_
  · refine keeps_pair ?_
    exact keeps_set keeps_refl fun p => by cases p <;> first | exact .inl rfl | exact .inr rfl | exact .inr ⟨rfl, rfl⟩ | exact .inr ⟨rfl, rfl, rfl, rfl, rfl, rfl, rfl⟩
  · refine keeps_via (keeps_withhold _ _ _) rfl ?_
    exact keeps_mono (keeps_engCount _ _) rfl

theorem keeps_takeResult (x : Dev × Work) (r : TaskResult) :
    Keeps [.stamp, .mode, .seq, .coil, .eng, .lim, .pwr, .saf, .tol, .can0, .can1, .evt, .lif] x.1 (Dev.takeResult x r).1 := by
  unfold Dev.takeResult
  extract_lets d1 d2 d3
  refine keeps_through (b := d1) ?_ fun hd1 => ?_
  · unfold d1
    exact keeps_mono (keeps_readHolds _ _ _) rfl
  clear_value d1
  refine keeps_through (b := d2) ?_ fun hd2 => ?_
  · unfold d2
    refine keeps_ite (fun _ => ?_) fun _ => ?_
    · refine keeps_via (keeps_engineLock _ _) rfl ?_
      exact hd1
    · exact hd1
  clear_value d2
  refine keeps_through (b := d3) ?_ fun hd3 => ?_
  · unfold d3
    refine keeps_ite (fun _ => ?_) fun _ => ?_
    · refine keeps_via (keeps_engCount _ _) rfl ?_
      exact hd2
    · exact hd2
  clear_value d3
  refine keeps_ite_fst (fun _ => ?_) fun _ => ?_
  · refine keeps_via (keeps_takeSplit _ _ _) rfl ?_
    exact hd1
  · refine keeps_ite_fst (fun _ => ?_) fun _ => ?_
    · refine keeps_pair ?_
      refine keeps_via (keeps_takeContext _ _ _) rfl ?_
      exact hd2
    · refine keeps_ite_fst (fun _ => ?_) fun _ => ?_
      · refine keeps_via (keeps_voteTriple _ _ _) rfl ?_
        exact hd3
      · refine keeps_via (keeps_resolvePaired _ _ _) rfl ?_
        exact hd3

theorem keeps_resolveAll (d : Dev) (w : Work) (rs : List TaskResult) :
    Keeps [.stamp, .mode, .seq, .coil, .eng, .lim, .pwr, .saf, .tol, .can0, .can1, .evt, .lif] d (d.resolveAll w rs).1 := by
  unfold Dev.resolveAll
  refine keeps_foldl_fst ?_ fun d1 x2 => ?_
  · refine keeps_pair ?_
    exact keeps_refl
  · refine keeps_via (keeps_takeResult _ _) rfl ?_
    exact keeps_refl

theorem keeps_disagrees (d : Dev) (a : Addr) :
    Keeps [.eng] d (d.disagrees a) := by
  unfold Dev.disagrees
  extract_lets d1 b2
  refine keeps_through (b := d1) ?_ fun hd1 => ?_
  · unfold d1
    exact keeps_mono (keeps_engCount _ _) rfl
  clear_value d1
  refine keeps_ite (fun _ => ?_) fun _ => ?_
  · exact hd1
  · refine keeps_set (b := d1) ?_ fun p => by cases p <;> first | exact .inl rfl | exact .inr rfl | exact .inr ⟨rfl, rfl⟩ | exact .inr ⟨rfl, rfl, rfl, rfl, rfl, rfl, rfl⟩
    exact hd1

theorem keeps_itemFault (d : Dev) (a : Addr) :
    Keeps [.stamp, .mode, .seq, .coil, .eng, .lim, .pwr, .saf, .tol, .can0, .can1, .evt, .lif] d (d.itemFault a) := by
  unfold Dev.itemFault
  refine keeps_via (keeps_fault _ _ _ _ _) rfl ?_
  exact keeps_set keeps_refl fun p => by cases p <;> first | exact .inl rfl | exact .inr rfl | exact .inr ⟨rfl, rfl⟩ | exact .inr ⟨rfl, rfl, rfl, rfl, rfl, rfl, rfl⟩

theorem keeps_agree (d : Dev) (items : List Addr) :
    Keeps [.stamp, .mode, .seq, .coil, .eng, .lim, .pwr, .saf, .tol, .can0, .can1, .evt, .lif] d (d.agree items) := by
  unfold Dev.agree
  extract_lets d1 before2 after3 b4 d5 fresh6 d7
  refine keeps_through (b := d1) ?_ fun hd1 => ?_
  · unfold d1
    refine keeps_foldl ?_ fun d8 x9 => ?_
    · exact keeps_refl
    · exact keeps_mono (keeps_disagrees _ _) rfl
  clear_value d1
  clear_value after3
  refine keeps_through (b := d5) ?_ fun hd5 => ?_
  · unfold d5
    refine keeps_set (b := d1) ?_ fun p => by cases p <;> first | exact .inl rfl | exact .inr rfl | exact .inr ⟨rfl, rfl⟩ | exact .inr ⟨rfl, rfl, rfl, rfl, rfl, rfl, rfl⟩
    exact hd1
  clear_value d5
  clear_value fresh6
  refine keeps_through (b := d7) ?_ fun hd7 => ?_
  · unfold d7
    refine keeps_foldl ?_ fun d10 x11 => ?_
    · exact hd5
    · exact keeps_mono (keeps_itemFault _ _) rfl
  clear_value d7
  refine keeps_ite (fun _ => ?_) fun _ => ?_
  · exact hd7
  · refine keeps_via (keeps_faultGone _ _) rfl ?_
    exact hd7

theorem keeps_traceFrame (d : Dev) (rs : List TaskResult) :
    Keeps [.insp] d (d.traceFrame rs) := by
  unfold Dev.traceFrame
  refine keeps_ite (fun _ => ?_) fun _ => ?_
  · extract_lets rs1 x2
    clear_value rs1
    clear_value x2
    exact keeps_set keeps_refl fun p => by cases p <;> first | exact .inl rfl | exact .inr rfl | exact .inr ⟨rfl, rfl⟩ | exact .inr ⟨rfl, rfl, rfl, rfl, rfl, rfl, rfl⟩
  · exact keeps_refl

theorem keeps_frameStart (d : Dev) :
    Keeps [.sup, .eng, .lim, .can0, .can1] d (d.frameStart) := by
  unfold Dev.frameStart
  extract_lets e1 b2 b3 b4 b5
  exact keeps_set keeps_refl fun p => by cases p <;> first | exact .inl rfl | exact .inr rfl | exact .inr ⟨rfl, rfl⟩ | exact .inr ⟨rfl, rfl, rfl, rfl, rfl, rfl, rfl⟩

theorem keeps_readings (d : Dev) (f : FrameInputs) (keep : Kept) :
    Keeps [.sup, .pwr] d (d.readings f keep) := by
  unfold Dev.readings
  extract_lets vmon1 b2 b3
  exact keeps_set keeps_refl fun p => by cases p <;> first | exact .inl rfl | exact .inr rfl | exact .inr ⟨rfl, rfl⟩ | exact .inr ⟨rfl, rfl, rfl, rfl, rfl, rfl, rfl⟩

theorem keeps_railsOf (d : Dev) (f : FrameInputs) (keep : Kept) :
    Keeps [.pwr] d (d.railsOf f keep) := by
  unfold Dev.railsOf
  refine keeps_ite (fun _ => ?_) fun _ => ?_
  · exact keeps_mono (keeps_railFrame _ _ _ _) rfl
  · exact keeps_mono (keeps_railFrame _ _ _ _) rfl

theorem keeps_levelsOf (d : Dev) (keep : Kept) :
    Keeps [.pwr, .saf] d (d.levelsOf keep) := by
  unfold Dev.levelsOf
  exact keeps_set keeps_refl fun p => by cases p <;> first | exact .inl rfl | exact .inr rfl | exact .inr ⟨rfl, rfl⟩ | exact .inr ⟨rfl, rfl, rfl, rfl, rfl, rfl, rfl⟩

theorem keeps_coilFrames (d : Dev) (keep : Kept) (held : Bool) :
    Keeps [.stamp, .mode, .seq, .coil, .lim, .pwr, .saf, .tol, .can0, .can1, .evt, .lif] d (d.coilFrames keep held) := by
  unfold Dev.coilFrames
  refine keeps_foldl ?_ fun d1 x2 => ?_
  · exact keeps_refl
  · extract_lets n3 d4
    refine keeps_through (b := d4) ?_ fun hd4 => ?_
    · unfold d4
      exact keeps_mono (keeps_coilFrame _ _ _) rfl
    clear_value d4
    refine keeps_ite (fun _ => ?_) fun _ => ?_
    · refine keeps_via (keeps_setCoil _ _ _) rfl ?_
      exact hd4
    · exact hd4

theorem keeps_classS (d : Dev) (f : FrameInputs) (held : Bool) :
    Keeps [.sup, .stamp, .mode, .seq, .coil, .chn, .sen, .est, .lim, .pwr, .saf, .tol, .can0, .can1, .evt, .dep, .lif] d (d.classS f held) := by
  unfold Dev.classS
  extract_lets keep1 d2 d3 d4 d5 d6 d7 d8 b9
  clear_value keep1
  refine keeps_through (b := d2) ?_ fun hd2 => ?_
  · unfold d2
    refine keeps_via (keeps_railsOf _ _ _) rfl ?_
    refine keeps_via (keeps_sensingFrame _ _) rfl ?_
    refine keeps_via (keeps_readings _ _ _) rfl ?_
    exact keeps_mono (keeps_levelsOf _ _) rfl
  clear_value d2
  refine keeps_through (b := d3) ?_ fun hd3 => ?_
  · unfold d3
    refine keeps_via (keeps_enterSnaps _ _) rfl ?_
    exact hd2
  clear_value d3
  refine keeps_through (b := d4) ?_ fun hd4 => ?_
  · unfold d4
    refine keeps_ite (fun _ => ?_) fun _ => ?_
    · exact hd3
    · refine keeps_via (keeps_ntcThresholds _) rfl ?_
      refine keeps_via (keeps_sensingFaults _) rfl ?_
      exact hd3
  clear_value d4
  refine keeps_through (b := d5) ?_ fun hd5 => ?_
  · unfold d5
    refine keeps_ite (fun _ => ?_) fun _ => ?_
    · refine keeps_via (keeps_estimateFrame _) rfl ?_
      exact hd4
    · exact hd4
  clear_value d5
  refine keeps_through (b := d6) ?_ fun hd6 => ?_
  · unfold d6
    refine keeps_via (keeps_coilFrames _ _ _) rfl ?_
    exact hd5
  clear_value d6
  refine keeps_through (b := d7) ?_ fun hd7 => ?_
  · unfold d7
    refine keeps_ite (fun _ => ?_) fun _ => ?_
    · exact hd6
    · refine keeps_via (keeps_droverFrame _) rfl ?_
      refine keeps_foldl ?_ fun d10 x11 => ?_
      · exact hd6
      · exact keeps_mono (keeps_releaseFrame _ _) rfl
  clear_value d7
  refine keeps_through (b := d8) ?_ fun hd8 => ?_
  · unfold d8
    refine keeps_ite (fun _ => ?_) fun _ => ?_
    · exact hd7
    · refine keeps_via (keeps_meterFrame _) rfl ?_
      exact hd7
  clear_value d8
  refine keeps_ite (fun _ => ?_) fun _ => ?_
  · refine keeps_via (keeps_permissionCheck _) rfl ?_
    refine keeps_set (b := d8) ?_ fun p => by cases p <;> first | exact .inl rfl | exact .inr rfl | exact .inr ⟨rfl, rfl⟩ | exact .inr ⟨rfl, rfl, rfl, rfl, rfl, rfl, rfl⟩
    exact hd8
  · refine keeps_via (keeps_refreshPermission _) rfl ?_
    exact hd8

theorem keeps_frameLoad (d : Dev) (busy : Nat) (used : Nat) :
    Keeps [.eng] d (d.frameLoad busy used) := by
  unfold Dev.frameLoad
  extract_lets total1 b2
  clear_value total1
  exact keeps_set keeps_refl fun p => by cases p <;> first | exact .inl rfl | exact .inr rfl | exact .inr ⟨rfl, rfl⟩ | exact .inr ⟨rfl, rfl, rfl, rfl, rfl, rfl, rfl⟩

theorem keeps_rebuildTime (d : Dev) :
    Keeps [] d (d.rebuildTime).1 := by
  unfold Dev.rebuildTime
  refine keeps_ite_fst (fun _ => ?_) fun _ => ?_
  · refine keeps_pair ?_
    exact keeps_mono (keeps_tick _) rfl
  · refine keeps_pair ?_
    exact keeps_refl

theorem keeps_frameWork (d : Dev) (f : FrameInputs) :
    Keeps [.cmds, .sup, .doms, .stamp, .sys, .mode, .seq, .coil, .eng, .insp, .chn, .sen, .est, .lim, .pwr, .saf, .tol, .lgr, .can0, .can1, .wakeDet, .inh, .hst, .evt, .dep, .mem, .copies, .lif, .man] d (d.frameWork f) := by
  unfold Dev.frameWork
  extract_lets d1 busy2 b3 d4 d5 r6 d7 w8 b9 d10 d11 d12 d13 d14
  refine keeps_through (b := d1) ?_ fun hd1 => ?_
  · unfold d1
    refine keeps_via (keeps_frameModes _) rfl ?_
    exact keeps_mono (keeps_frameStart _) rfl
  clear_value d1
  refine keeps_through (b := b3.1) ?_ fun hb3 => ?_
  · unfold b3
    refine keeps_via (keeps_rebuildTime _) rfl ?_
    exact hd1
  clear_value b3
  refine keeps_through (b := d4) ?_ fun hd4 => ?_
  · unfold d4
    refine keeps_ite (fun _ => ?_) fun _ => ?_
    · refine keeps_via (keeps_agree _ _) rfl ?_
      exact hb3
    · exact hb3
  clear_value d4
  refine keeps_through (b := d5) ?_ fun hd5 => ?_
  · unfold d5
    refine keeps_via (keeps_traceFrame _ _) rfl ?_
    exact hd4
  clear_value d5
  refine keeps_through (b := r6.1) ?_ fun hr6 => ?_
  · unfold r6
    refine keeps_via (keeps_resolveAll _ _ _) rfl ?_
    exact hd5
  clear_value r6
  refine keeps_through (b := d7) ?_ fun hd7 => ?_
  · unfold d7
    exact hr6
  clear_value d7
  clear_value w8
  refine keeps_through (b := d10) ?_ fun hd10 => ?_
  · unfold d10
    refine keeps_set (b := d7) ?_ fun p => by cases p <;> first | exact .inl rfl | exact .inr rfl | exact .inr ⟨rfl, rfl⟩ | exact .inr ⟨rfl, rfl, rfl, rfl, rfl, rfl, rfl⟩
    exact hd7
  clear_value d10
  refine keeps_through (b := d11) ?_ fun hd11 => ?_
  · unfold d11
    refine keeps_ite (fun _ => ?_) fun _ => ?_
    · refine keeps_via (keeps_classS _ _ _) rfl ?_
      exact hd10
    · exact hd10
  clear_value d11
  refine keeps_through (b := d12) ?_ fun hd12 => ?_
  · unfold d12
    refine keeps_via (keeps_cfgCheck _) rfl ?_
    refine keeps_via (keeps_ackFrame _) rfl ?_
    exact hd11
  clear_value d12
  refine keeps_through (b := d13) ?_ fun hd13 => ?_
  · unfold d13
    refine keeps_via (keeps_zeroCheck _) rfl ?_
    refine keeps_via (keeps_drainRecords _) rfl ?_
    refine keeps_via (keeps_endTrips _) rfl ?_
    refine keeps_via (keeps_runCommands _) rfl ?_
    exact hd12
  clear_value d13
  refine keeps_through (b := d14) ?_ fun hd14 => ?_
  · unfold d14
    refine keeps_ite (fun _ => ?_) fun _ => ?_
    · refine keeps_via (keeps_lifeFrame _) rfl ?_
      exact hd13
    · exact hd13
  clear_value d14
  refine keeps_via (keeps_frameLoad _ _ _) rfl ?_
  exact hd14

theorem keeps_publishLate (d : Dev) :
    Keeps [.eng, .can0, .can1] d (d.publishLate) := by
  unfold Dev.publishLate
  refine keeps_ite (fun _ => ?_) fun _ => ?_
  · refine keeps_via (keeps_publishLimits _) rfl ?_
    exact keeps_set keeps_refl fun p => by cases p <;> first | exact .inl rfl | exact .inr rfl | exact .inr ⟨rfl, rfl⟩ | exact .inr ⟨rfl, rfl, rfl, rfl, rfl, rfl, rfl⟩
  · exact keeps_refl

theorem keeps_classCStart (d : Dev) :
    Keeps [.eng, .pwr, .can0, .can1, .dep, .lif] d (d.classCStart) := by
  unfold Dev.classCStart
  extract_lets d1 b2
  refine keeps_through (b := d1) ?_ fun hd1 => ?_
  · unfold d1
    refine keeps_ite (fun _ => ?_) fun _ => ?_
    · exact keeps_refl
    · refine keeps_via (keeps_publishLate _) rfl ?_
      exact keeps_mono (keeps_pumpLoop _) rfl
  clear_value d1
  refine keeps_set (b := d1) ?_ fun p => by cases p <;> first | exact .inl rfl | exact .inr rfl | exact .inr ⟨rfl, rfl⟩ | exact .inr ⟨rfl, rfl, rfl, rfl, rfl, rfl, rfl⟩
  exact hd1

theorem keeps_classCPeriod (d : Dev) :
    Keeps [.eng, .pwr, .can0, .can1, .dep, .lif] d (d.classCPeriod) := by
  unfold Dev.classCPeriod
  extract_lets d1 b2
  refine keeps_through (b := d1) ?_ fun hd1 => ?_
  · unfold d1
    refine keeps_ite (fun _ => ?_) fun _ => ?_
    · exact keeps_mono (keeps_classCStart _) rfl
    · exact keeps_refl
  clear_value d1
  refine keeps_set (b := d1) ?_ fun p => by cases p <;> first | exact .inl rfl | exact .inr rfl | exact .inr ⟨rfl, rfl⟩ | exact .inr ⟨rfl, rfl, rfl, rfl, rfl, rfl, rfl⟩
  exact hd1

theorem keeps_splitEvent (d : Dev) (was : BitVec 2) (now : BitVec 2) :
    Keeps [] d (d.splitEvent was now) := by
  unfold Dev.splitEvent
  refine keeps_ite (fun _ => ?_) fun _ => ?_
  · exact keeps_mono (keeps_notice _ _ _ _) rfl
  · exact keeps_refl

theorem keeps_seamModes (d : Dev) :
    Keeps [.eng] d (d.seamModes) := by
  unfold Dev.seamModes
  extract_lets e1 held2 c3 x4 b5 left6 d7 rejoin8 cs9 b10 d11
  clear_value held2
  clear_value c3
  clear_value x4
  clear_value b5
  clear_value left6
  refine keeps_through (b := d7) ?_ fun hd7 => ?_
  · unfold d7
    exact keeps_set keeps_refl fun p => by cases p <;> first | exact .inl rfl | exact .inr rfl | exact .inr ⟨rfl, rfl⟩ | exact .inr ⟨rfl, rfl, rfl, rfl, rfl, rfl, rfl⟩
  clear_value d7
  clear_value rejoin8
  clear_value cs9
  refine keeps_through (b := d11) ?_ fun hd11 => ?_
  · unfold d11
    refine keeps_set (b := d7) ?_ fun p => by cases p <;> first | exact .inl rfl | exact .inr rfl | exact .inr ⟨rfl, rfl⟩ | exact .inr ⟨rfl, rfl, rfl, rfl, rfl, rfl, rfl⟩
    exact hd7
  clear_value d11
  refine keeps_via (keeps_splitEvent _ _ _) rfl ?_
  refine keeps_via (keeps_splitEvent _ _ _) rfl ?_
  refine keeps_via (keeps_splitEvent _ _ _) rfl ?_
  exact hd11

theorem keeps_classEOutputs (d : Dev) :
    Keeps [.eng, .est, .lim, .can0, .can1, .lif] d (d.classEOutputs) := by
  unfold Dev.classEOutputs
  refine keeps_ite (fun _ => ?_) fun _ => ?_
  · refine keeps_ite (fun _ => ?_) fun _ => ?_
    · exact keeps_mono (keeps_publishPeriod _) rfl
    · refine keeps_via (keeps_stepPeriod _) rfl ?_
      refine keeps_via (keeps_publishPeriod _) rfl ?_
      refine keeps_via (keeps_limitPeriod _) rfl ?_
      exact keeps_mono (keeps_estimatePeriod _) rfl
  · exact keeps_refl

theorem keeps_seam (d : Dev) :
    Keeps [.eng, .est, .lim, .can0, .can1, .lif] d (d.seam) := by
  unfold Dev.seam
  extract_lets d1 b2
  refine keeps_through (b := d1) ?_ fun hd1 => ?_
  · unfold d1
    refine keeps_via (keeps_seamModes _) rfl ?_
    refine keeps_via (keeps_takeEstSettings _) rfl ?_
    exact keeps_mono (keeps_classEOutputs _) rfl
  clear_value d1
  refine keeps_set (b := d1) ?_ fun p => by cases p <;> first | exact .inl rfl | exact .inr rfl | exact .inr ⟨rfl, rfl⟩ | exact .inr ⟨rfl, rfl, rfl, rfl, rfl, rfl, rfl⟩
  exact hd1

theorem keeps_dueSeam (d : Dev) :
    Keeps [.eng, .est, .lim, .can0, .can1, .lif] d (d.dueSeam) := by
  unfold Dev.dueSeam
  refine keeps_ite (fun _ => ?_) fun _ => ?_
  · exact keeps_refl
  · exact keeps_mono (keeps_seam _) rfl

theorem keeps_dueStarts (d : Dev) :
    Keeps [.eng, .est, .lim, .pwr, .can0, .can1, .dep, .lif] d (d.dueStarts) := by
  unfold Dev.dueStarts
  extract_lets d1
  refine keeps_through (b := d1) ?_ fun hd1 => ?_
  · unfold d1
    exact keeps_mono (keeps_dueSeam _) rfl
  clear_value d1
  refine keeps_ite (fun _ => ?_) fun _ => ?_
  · exact hd1
  · refine keeps_via (keeps_classCPeriod _) rfl ?_
    exact hd1

theorem keeps_runFrame (d : Dev) (f : FrameInputs) :
    Keeps [.cmds, .sup, .doms, .stamp, .sys, .mode, .seq, .coil, .eng, .insp, .chn, .sen, .est, .lim, .pwr, .saf, .tol, .lgr, .can0, .can1, .wakeDet, .inh, .hst, .evt, .dep, .mem, .copies, .lif, .man] d (d.runFrame f) := by
  unfold Dev.runFrame
  refine keeps_via (keeps_frameWork _ _) rfl ?_
  exact keeps_mono (keeps_dueStarts _) rfl

theorem keeps_injection (d : Dev) (okA : Bool) (okB : Bool) :
    Keeps [.stamp, .mode, .seq, .coil, .eng, .lim, .pwr, .saf, .tol, .can0, .can1, .evt, .lif] d (d.injection okA okB) := by
  unfold Dev.injection
  extract_lets seen1 d2 b3
  clear_value seen1
  refine keeps_through (b := d2) ?_ fun hd2 => ?_
  · unfold d2
    exact keeps_set keeps_refl fun p => by cases p <;> first | exact .inl rfl | exact .inr rfl | exact .inr ⟨rfl, rfl⟩ | exact .inr ⟨rfl, rfl, rfl, rfl, rfl, rfl, rfl⟩
  clear_value d2
  refine keeps_ite (fun _ => ?_) fun _ => ?_
  · refine keeps_set (b := d2) ?_ fun p => by cases p <;> first | exact .inl rfl | exact .inr rfl | exact .inr ⟨rfl, rfl⟩ | exact .inr ⟨rfl, rfl, rfl, rfl, rfl, rfl, rfl⟩
    exact hd2
  · refine keeps_via (keeps_engineLock _ _) rfl ?_
    exact hd2

theorem keeps_ipRefused (d : Dev) :
    Keeps [] d (ipRefused d).1 := by
  unfold ipRefused
  refine keeps_pair ?_
  exact keeps_refl

theorem keeps_ipRespond (d : Dev) (r : Option (BitVec 3 × Word)) :
    Keeps [.insp] d (d.ipRespond r) := by
  unfold Dev.ipRespond
  exact keeps_set keeps_refl fun p => by cases p <;> first | exact .inl rfl | exact .inr rfl | exact .inr ⟨rfl, rfl⟩ | exact .inr ⟨rfl, rfl, rfl, rfl, rfl, rfl, rfl⟩

theorem keeps_ipStatusBody (d : Dev) :
    Keeps [] d (ipStatusBody d).1 := by
  unfold ipStatusBody
  refine keeps_pair ?_
  exact keeps_refl

theorem keeps_haltBody (d : Dev) :
    Keeps [.insp] d (haltBody d).1 := by
  unfold haltBody
  refine keeps_ite_fst (fun _ => ?_) fun _ => ?_
  · refine keeps_pair ?_
    exact keeps_set keeps_refl fun p => by cases p <;> first | exact .inl rfl | exact .inr rfl | exact .inr ⟨rfl, rfl⟩ | exact .inr ⟨rfl, rfl, rfl, rfl, rfl, rfl, rfl⟩
  · exact keeps_mono (keeps_ipRefused _) rfl

theorem keeps_engineHalts (d : Dev) :
    Keeps [.sup, .insp, .lim, .can0, .can1] d (d.engineHalts) := by
  unfold Dev.engineHalts
  refine keeps_ite (fun _ => ?_) fun _ => ?_
  · extract_lets b1 b2 d3
    refine keeps_through (b := d3) ?_ fun hd3 => ?_
    · unfold d3
      exact keeps_set keeps_refl fun p => by cases p <;> first | exact .inl rfl | exact .inr rfl | exact .inr ⟨rfl, rfl⟩ | exact .inr ⟨rfl, rfl, rfl, rfl, rfl, rfl, rfl⟩
    clear_value d3
    refine keeps_via (keeps_zeroCheck _) rfl ?_
    refine keeps_via (keeps_notice _ _ _ _) rfl ?_
    exact hd3
  · exact keeps_refl

theorem keeps_drainReplay (d : Dev) :
    Keeps [.eng, .insp] d (d.drainReplay) := by
  unfold Dev.drainReplay
  exact keeps_set keeps_refl fun p => by cases p <;> first | exact .inl rfl | exact .inr rfl | exact .inr ⟨rfl, rfl⟩ | exact .inr ⟨rfl, rfl, rfl, rfl, rfl, rfl, rfl⟩

theorem keeps_unhalt (d : Dev) :
    Keeps [.doms, .insp, .chn, .dep] d (d.unhalt) := by
  unfold Dev.unhalt
  refine keeps_via (keeps_takeWaiting _) rfl ?_
  refine keeps_via (keeps_newPhase _) rfl ?_
  exact keeps_set keeps_refl fun p => by cases p <;> first | exact .inl rfl | exact .inr rfl | exact .inr ⟨rfl, rfl⟩ | exact .inr ⟨rfl, rfl, rfl, rfl, rfl, rfl, rfl⟩

theorem keeps_resumeBody (d : Dev) :
    Keeps [.doms, .eng, .insp, .chn, .dep] d (resumeBody d).1 := by
  unfold resumeBody
  refine keeps_ite_fst (fun _ => ?_) fun _ => ?_
  · refine keeps_pair ?_
    refine keeps_via (keeps_unhalt _) rfl ?_
    exact keeps_mono (keeps_drainReplay _) rfl
  · exact keeps_mono (keeps_ipRefused _) rfl

theorem keeps_stepBody (f : FrameInputs) (d : Dev) :
    Keeps [.cmds, .sup, .doms, .stamp, .sys, .mode, .seq, .coil, .eng, .insp, .chn, .sen, .est, .lim, .pwr, .saf, .tol, .lgr, .can0, .can1, .wakeDet, .inh, .hst, .evt, .dep, .mem, .copies, .lif, .man] d (stepBody f d).1 := by
  unfold stepBody
  refine keeps_ite_fst (fun _ => ?_) fun _ => ?_
  · refine keeps_pair ?_
    refine keeps_via (keeps_runFrame _ _) rfl ?_
    refine keeps_via (keeps_newPhase _) rfl ?_
    exact keeps_mono (keeps_drainReplay _) rfl
  · exact keeps_mono (keeps_ipRefused _) rfl

theorem keeps_readLead (a : Word) (d : Dev) :
    Keeps [.insp] d (readLead a d).1 := by
  unfold readLead
  refine keeps_ite_fst (fun _ => ?_) fun _ => ?_
  · refine keeps_pair ?_
    exact keeps_refl
  · split
    · refine keeps_ite_fst (fun _ => ?_) fun _ => ?_
      · refine keeps_pair ?_
        exact keeps_set keeps_refl fun p => by cases p <;> first | exact .inl rfl | exact .inr rfl | exact .inr ⟨rfl, rfl⟩ | exact .inr ⟨rfl, rfl, rfl, rfl, rfl, rfl, rfl⟩
      · refine keeps_pair ?_
        exact keeps_set keeps_refl fun p => by cases p <;> first | exact .inl rfl | exact .inr rfl | exact .inr ⟨rfl, rfl⟩ | exact .inr ⟨rfl, rfl, rfl, rfl, rfl, rfl, rfl⟩
    · refine keeps_pair ?_
      exact keeps_set keeps_refl fun p => by cases p <;> first | exact .inl rfl | exact .inr rfl | exact .inr ⟨rfl, rfl⟩ | exact .inr ⟨rfl, rfl, rfl, rfl, rfl, rfl, rfl⟩

theorem keeps_readSpace (a : Nat) (d : Dev) :
    Keeps [] d (readSpace a d).1 := by
  unfold readSpace
  refine keeps_ite_fst (fun _ => ?_) fun _ => ?_
  · refine keeps_pair ?_
    exact keeps_refl
  · exact keeps_mono (keeps_ipRefused _) rfl

theorem keeps_readHold (i : Nat) (d : Dev) :
    Keeps [] d (readHold i d).1 := by
  unfold readHold
  split
  · refine keeps_pair ?_
    exact keeps_refl
  · refine keeps_pair ?_
    exact keeps_mono (keeps_tick _) rfl

theorem keeps_readBody (a : Word) (d : Dev) :
    Keeps [.insp] d (readBody a d).1 := by
  unfold readBody
  refine keeps_ite_fst (fun _ => ?_) fun _ => ?_
  · exact keeps_mono (keeps_readLead _ _) rfl
  · refine keeps_ite_fst (fun _ => ?_) fun _ => ?_
    · exact keeps_mono (keeps_readHold _ _) rfl
    · refine keeps_ite_fst (fun _ => ?_) fun _ => ?_
      · exact keeps_mono (keeps_readSpace _ _) rfl
      · exact keeps_mono (keeps_ipRefused _) rfl

theorem keeps_captureLead (d : Dev) :
    Keeps [.insp] d (d.captureLead) := by
  unfold Dev.captureLead
  split
  · refine keeps_ite (fun _ => ?_) fun _ => ?_
    · exact keeps_set keeps_refl fun p => by cases p <;> first | exact .inl rfl | exact .inr rfl | exact .inr ⟨rfl, rfl⟩ | exact .inr ⟨rfl, rfl, rfl, rfl, rfl, rfl, rfl⟩
    · exact keeps_refl
  · exact keeps_refl

theorem keeps_writeBody (a : Word) (v : Word) (d : Dev) :
    Keeps [.stamp, .mode, .seq, .coil, .eng, .insp, .lim, .pwr, .saf, .tol, .can0, .can1, .evt, .lif] d (writeBody a v d).1 := by
  unfold writeBody
  refine keeps_ite_fst (fun _ => ?_) fun _ => ?_
  · exact keeps_mono (keeps_ipRefused _) rfl
  · refine keeps_ite_fst (fun _ => ?_) fun _ => ?_
    · refine keeps_pair ?_
      refine keeps_via (keeps_tick _) rfl ?_
      exact keeps_mono (keeps_engineLock _ _) rfl
    · extract_lets log1 b2 b3 d4
      clear_value log1
      clear_value b2
      refine keeps_through (b := d4) ?_ fun hd4 => ?_
      · unfold d4
        exact keeps_set keeps_refl fun p => by cases p <;> first | exact .inl rfl | exact .inr rfl | exact .inr ⟨rfl, rfl⟩ | exact .inr ⟨rfl, rfl, rfl, rfl, rfl, rfl, rfl⟩
      clear_value d4
      refine keeps_pair ?_
      refine keeps_via (keeps_notice _ _ _ _) rfl ?_
      exact hd4

theorem keeps_traceCtlBody (data : Word) (d : Dev) :
    Keeps [.insp] d (traceCtlBody data d).1 := by
  unfold traceCtlBody
  refine keeps_ite_fst (fun _ => ?_) fun _ => ?_
  · refine keeps_pair ?_
    exact keeps_set keeps_refl fun p => by cases p <;> first | exact .inl rfl | exact .inr rfl | exact .inr ⟨rfl, rfl⟩ | exact .inr ⟨rfl, rfl, rfl, rfl, rfl, rfl, rfl⟩
  · exact keeps_mono (keeps_ipRefused _) rfl

theorem keeps_tracePopBody (d : Dev) :
    Keeps [.insp] d (tracePopBody d).1 := by
  unfold tracePopBody
  refine keeps_ite_fst (fun _ => ?_) fun _ => ?_
  · split
    · exact keeps_mono (keeps_ipRefused _) rfl
    · refine keeps_pair ?_
      exact keeps_set keeps_refl fun p => by cases p <;> first | exact .inl rfl | exact .inr rfl | exact .inr ⟨rfl, rfl⟩ | exact .inr ⟨rfl, rfl, rfl, rfl, rfl, rfl, rfl⟩
  · exact keeps_mono (keeps_ipRefused _) rfl

theorem keeps_replayStatBody (d : Dev) :
    Keeps [] d (replayStatBody d).1 := by
  unfold replayStatBody
  refine keeps_pair ?_
  exact keeps_refl

theorem keeps_programWord (d : Dev) (a : Nat) (data : Word) :
    Keeps [.mem] d (d.programWord a data) := by
  unfold Dev.programWord
  extract_lets base1 n2
  clear_value base1
  clear_value n2
  exact keeps_mono (keeps_setCs1 _ _ _) rfl

theorem keeps_advance (d : Dev) (inc : Bool) :
    Keeps [.hst] d (d.advance inc) := by
  unfold Dev.advance
  refine keeps_ite (fun _ => ?_) fun _ => ?_
  · exact keeps_set keeps_refl fun p => by cases p <;> first | exact .inl rfl | exact .inr rfl | exact .inr ⟨rfl, rfl⟩ | exact .inr ⟨rfl, rfl, rfl, rfl, rfl, rfl, rfl⟩
  · exact keeps_refl

theorem keeps_perform (d : Dev) (x1 : Access) :
    Keeps [.cmds, .sup, .doms, .stamp, .sys, .mode, .seq, .coil, .eng, .insp, .chn, .sen, .est, .lim, .pwr, .saf, .tol, .lgr, .can0, .can1, .wakeDet, .inh, .hst, .evt, .dep, .mem, .copies, .lif, .man] d (d.perform x1).dev := by
  unfold Dev.perform
  split
  · extract_lets r1
    refine keeps_through (b := r1.1) ?_ fun hr1 => ?_
    · unfold r1
      exact keeps_mono (keeps_readReg _ _) rfl
    clear_value r1
    refine keeps_performed ?_
    exact hr1
  · split
    · rename_i r2 r3 r4 r5 r6 r7 r8
      refine keeps_through (b := r7) (keeps_of_ok ?_ r8) fun kr8 => ?_
      · exact keepsOk_mono (keeps_writeReg _ _ _) rfl
      extract_lets d'9
      refine keeps_through (b := d'9) ?_ fun hd'9 => ?_
      · unfold d'9
        refine keeps_via (keeps_cfgCheck _) rfl ?_
        exact kr8
      clear_value d'9
      refine keeps_performed ?_
      exact hd'9
    · refine keeps_performed ?_
      exact keeps_refl
  · refine keeps_ite_dev (fun _ => ?_) fun _ => ?_
    · refine keeps_performed ?_
      exact keeps_refl
    · refine keeps_performed ?_
      exact keeps_mono (keeps_offer _ _ _ _) rfl
  · refine keeps_performed ?_
    exact keeps_mono (keeps_advance _ _) rfl
  · refine keeps_ite_dev (fun _ => ?_) fun _ => ?_
    · extract_lets d'10
      refine keeps_through (b := d'10) ?_ fun hd'10 => ?_
      · unfold d'10
        exact keeps_mono (keeps_programWord _ _ _) rfl
      clear_value d'10
      refine keeps_performed ?_
      refine keeps_via (keeps_advance _ _) rfl ?_
      exact hd'10
    · refine keeps_performed ?_
      exact keeps_refl

theorem keeps_conclude (d : Dev) (a : Access) (frame : BitVec 4) :
    Keeps [.cmds, .sup, .doms, .stamp, .sys, .mode, .seq, .coil, .eng, .insp, .chn, .sen, .est, .lim, .pwr, .saf, .tol, .lgr, .can0, .can1, .wakeDet, .inh, .hst, .evt, .dep, .mem, .copies, .lif, .man] d (d.conclude a frame).1 := by
  unfold Dev.conclude
  extract_lets r1 d2 b3 d4
  refine keeps_through (b := r1.dev) ?_ fun hr1 => ?_
  · unfold r1
    exact keeps_mono (keeps_perform _ _) rfl
  clear_value r1
  refine keeps_through (b := d2) ?_ fun hd2 => ?_
  · unfold d2
    refine keeps_ite (fun _ => ?_) fun _ => ?_
    · exact hr1
    · refine keeps_via (keeps_frameError _ _ _ _ _) rfl ?_
      exact hr1
  clear_value d2
  refine keeps_through (b := d4) ?_ fun hd4 => ?_
  · unfold d4
    refine keeps_ite (fun _ => ?_) fun _ => ?_
    · refine keeps_set (b := d2) ?_ fun p => by cases p <;> first | exact .inl rfl | exact .inr rfl | exact .inr ⟨rfl, rfl⟩ | exact .inr ⟨rfl, rfl, rfl, rfl, rfl, rfl, rfl⟩
      exact hd2
    · exact hd2
  clear_value d4
  refine keeps_pair ?_
  exact hd4

theorem keeps_accessFrame (d : Dev) (a : Access) :
    Keeps [.cmds, .sup, .doms, .stamp, .sys, .mode, .seq, .coil, .eng, .insp, .chn, .sen, .est, .lim, .pwr, .saf, .tol, .lgr, .can0, .can1, .wakeDet, .inh, .hst, .evt, .dep, .mem, .copies, .lif, .man] d (d.accessFrame a) := by
  unfold Dev.accessFrame
  refine keeps_ite (fun _ => ?_) fun _ => ?_
  · exact keeps_refl
  · extract_lets d1 b2 d3 runs4 r5 b6
    refine keeps_through (b := d1) ?_ fun hd1 => ?_
    · unfold d1
      exact keeps_mono (keeps_numberFrame _) rfl
    clear_value d1
    refine keeps_through (b := d3) ?_ fun hd3 => ?_
    · unfold d3
      refine keeps_set (b := d1) ?_ fun p => by cases p <;> first | exact .inl rfl | exact .inr rfl | exact .inr ⟨rfl, rfl⟩ | exact .inr ⟨rfl, rfl, rfl, rfl, rfl, rfl, rfl⟩
      exact hd1
    clear_value d3
    clear_value runs4
    refine keeps_through (b := r5.1) ?_ fun hr5 => ?_
    · unfold r5
      refine keeps_via (keeps_conclude _ _ _) rfl ?_
      exact hd3
    clear_value r5
    refine keeps_ite (fun _ => ?_) fun _ => ?_
    · refine keeps_via (keeps_refuseFrame _ _ _ _) rfl ?_
      exact hd1
    · refine keeps_ite (fun _ => ?_) fun _ => ?_
      · refine keeps_via (keeps_refuseFrame _ _ _ _) rfl ?_
        exact hd1
      · refine keeps_ite (fun _ => ?_) fun _ => ?_
        · refine keeps_via (keeps_respond _ _ _ _ _) rfl ?_
          exact hr5
        · refine keeps_via (keeps_respondBusy _) rfl ?_
          refine keeps_set (b := d3) ?_ fun p => by cases p <;> first | exact .inl rfl | exact .inr rfl | exact .inr ⟨rfl, rfl⟩ | exact .inr ⟨rfl, rfl, rfl, rfl, rfl, rfl, rfl⟩
          exact hd3

theorem keeps_nopResponse (d : Dev) :
    Keeps [.hst] d (d.nopResponse) := by
  unfold Dev.nopResponse
  extract_lets x1 b2 b3
  clear_value x1
  exact keeps_set keeps_refl fun p => by cases p <;> first | exact .inl rfl | exact .inr rfl | exact .inr ⟨rfl, rfl⟩ | exact .inr ⟨rfl, rfl, rfl, rfl, rfl, rfl, rfl⟩

theorem keeps_afterAccess (d : Dev) :
    Keeps [.hst] d (d.afterAccess) := by
  unfold Dev.afterAccess
  split
  · exact keeps_mono (keeps_nopResponse _) rfl
  · exact keeps_refl
  · exact keeps_set keeps_refl fun p => by cases p <;> first | exact .inl rfl | exact .inr rfl | exact .inr ⟨rfl, rfl⟩ | exact .inr ⟨rfl, rfl, rfl, rfl, rfl, rfl, rfl⟩

theorem keeps_accessCompletes (d : Dev) :
    Keeps [.cmds, .sup, .doms, .stamp, .sys, .mode, .seq, .coil, .eng, .insp, .chn, .sen, .est, .lim, .pwr, .saf, .tol, .lgr, .can0, .can1, .wakeDet, .inh, .hst, .evt, .dep, .mem, .copies, .lif, .man] d (d.accessCompletes) := by
  unfold Dev.accessCompletes
  split
  · exact keeps_refl
  · refine keeps_ite (fun _ => ?_) fun _ => ?_
    · extract_lets b1 d2
      refine keeps_through (b := d2) ?_ fun hd2 => ?_
      · unfold d2
        exact keeps_set keeps_refl fun p => by cases p <;> first | exact .inl rfl | exact .inr rfl | exact .inr ⟨rfl, rfl⟩ | exact .inr ⟨rfl, rfl, rfl, rfl, rfl, rfl, rfl⟩
      clear_value d2
      refine keeps_via (keeps_afterAccess _) rfl ?_
      refine keeps_via (keeps_conclude _ _ _) rfl ?_
      exact hd2
    · exact keeps_refl

theorem keeps_readFrame (d : Dev) (a : Addr) (inc : optParam Bool false) :
    Keeps [.cmds, .sup, .doms, .stamp, .sys, .mode, .seq, .coil, .eng, .insp, .chn, .sen, .est, .lim, .pwr, .saf, .tol, .lgr, .can0, .can1, .wakeDet, .inh, .hst, .evt, .dep, .mem, .copies, .lif, .man] d (d.readFrame a inc) := by
  unfold Dev.readFrame
  exact keeps_mono (keeps_accessFrame _ _) rfl

theorem keeps_writeFrame (d : Dev) (a : Addr) (data : Word) (inc : optParam Bool false) :
    Keeps [.cmds, .sup, .doms, .stamp, .sys, .mode, .seq, .coil, .eng, .insp, .chn, .sen, .est, .lim, .pwr, .saf, .tol, .lgr, .can0, .can1, .wakeDet, .inh, .hst, .evt, .dep, .mem, .copies, .lif, .man] d (d.writeFrame a data inc) := by
  unfold Dev.writeFrame
  split
  · extract_lets tok1 code2
    clear_value tok1
    clear_value code2
    refine keeps_commandFrame rfl ?_ fun d3 => ?_
    · exact keeps_refl
    · exact keeps_mono (keeps_offer _ _ _ _) rfl
  · exact keeps_mono (keeps_accessFrame _ _) rfl

theorem keeps_nopFrame (d : Dev) :
    Keeps [.hst] d (d.nopFrame) := by
  unfold Dev.nopFrame
  refine keeps_ite (fun _ => ?_) fun _ => ?_
  · exact keeps_refl
  · extract_lets d1
    refine keeps_through (b := d1) ?_ fun hd1 => ?_
    · unfold d1
      exact keeps_mono (keeps_numberFrame _) rfl
    clear_value d1
    refine keeps_via (keeps_nopResponse _) rfl ?_
    refine keeps_via (keeps_respond _ _ _ _ _) rfl ?_
    exact hd1

theorem keeps_abortFrame (d : Dev) :
    Keeps [.hst] d (d.abortFrame) := by
  unfold Dev.abortFrame
  refine keeps_ite (fun _ => ?_) fun _ => ?_
  · exact keeps_refl
  · extract_lets d1 b2 d3 b4 b5
    refine keeps_through (b := d1) ?_ fun hd1 => ?_
    · unfold d1
      exact keeps_mono (keeps_numberFrame _) rfl
    clear_value d1
    refine keeps_through (b := d3) ?_ fun hd3 => ?_
    · unfold d3
      refine keeps_set (b := d1) ?_ fun p => by cases p <;> first | exact .inl rfl | exact .inr rfl | exact .inr ⟨rfl, rfl⟩ | exact .inr ⟨rfl, rfl, rfl, rfl, rfl, rfl, rfl⟩
      exact hd1
    clear_value d3
    refine keeps_through (b := b4) ?_ fun hb4 => ?_
    · unfold b4
      refine keeps_via (keeps_tick _) rfl ?_
      exact hd3
    clear_value b4
    split
    · refine keeps_via (keeps_respond _ _ _ _ _) rfl ?_
      exact hd3
    · refine keeps_ite (fun _ => ?_) fun _ => ?_
      · refine keeps_via (keeps_respond _ _ _ _ _) rfl ?_
        refine keeps_set (b := b4) ?_ fun p => by cases p <;> first | exact .inl rfl | exact .inr rfl | exact .inr ⟨rfl, rfl⟩ | exact .inr ⟨rfl, rfl, rfl, rfl, rfl, rfl, rfl⟩
        exact hb4
      · refine keeps_via (keeps_respond _ _ _ _ _) rfl ?_
        refine keeps_set (b := b4) ?_ fun p => by cases p <;> first | exact .inl rfl | exact .inr rfl | exact .inr ⟨rfl, rfl⟩ | exact .inr ⟨rfl, rfl, rfl, rfl, rfl, rfl, rfl⟩
        exact hb4

theorem keeps_badFrame (d : Dev) (raw : BitVec 48) (edges : Nat) :
    Keeps [.hst] d (d.badFrame raw edges) := by
  unfold Dev.badFrame
  extract_lets e1
  clear_value e1
  refine keeps_ite (fun _ => ?_) fun _ => ?_
  · exact keeps_refl
  · refine keeps_via (keeps_refuseFrame _ _ _ _) rfl ?_
    exact keeps_mono (keeps_numberFrame _) rfl

theorem keeps_domainStarts (d : Dev) (x : Domain) :
    Keeps [.doms, .stamp, .mode, .seq, .coil, .chn, .sen, .est, .lim, .pwr, .saf, .tol, .can0, .can1, .hst, .evt, .dep, .mem, .lif] d (d.domainStarts x) := by
  unfold Dev.domainStarts
  refine keeps_ite (fun _ => ?_) fun _ => ?_
  · extract_lets b1 d2 d3 b4
    refine keeps_through (b := d2) ?_ fun hd2 => ?_
    · unfold d2
      exact keeps_set keeps_refl fun p => by cases p <;> first | exact .inl rfl | exact .inr rfl | exact .inr ⟨rfl, rfl⟩ | exact .inr ⟨rfl, rfl, rfl, rfl, rfl, rfl, rfl⟩
    clear_value d2
    refine keeps_through (b := d3) ?_ fun hd3 => ?_
    · unfold d3
      refine keeps_ite (fun _ => ?_) fun _ => ?_
      · refine keeps_via (keeps_startSettling _) rfl ?_
        exact hd2
      · refine keeps_ite (fun _ => ?_) fun _ => ?_
        · refine keeps_via (keeps_perTakes _) rfl ?_
          exact hd2
        · exact hd2
    clear_value d3
    split
    · refine keeps_ite (fun _ => ?_) fun _ => ?_
      · refine keeps_set (b := d3) ?_ fun p => by cases p <;> first | exact .inl rfl | exact .inr rfl | exact .inr ⟨rfl, rfl⟩ | exact .inr ⟨rfl, rfl, rfl, rfl, rfl, rfl, rfl⟩
        exact hd3
      · exact hd3
    · exact hd3
  · exact keeps_refl

theorem keeps_domainStops (d : Dev) (x : Domain) :
    Keeps [.doms] d (d.domainStops x) := by
  unfold Dev.domainStops
  refine keeps_ite (fun _ => ?_) fun _ => ?_
  · exact keeps_set keeps_refl fun p => by cases p <;> first | exact .inl rfl | exact .inr rfl | exact .inr ⟨rfl, rfl⟩ | exact .inr ⟨rfl, rfl, rfl, rfl, rfl, rfl, rfl⟩
  · exact keeps_refl

theorem keeps_idle (d : Dev) :
    Keeps [.sup, .doms, .stamp, .sys, .mode, .seq, .coil, .chn, .sen, .est, .lim, .pwr, .saf, .tol, .lgr, .can0, .can1, .inh, .hst, .evt, .dep, .mem, .copies, .lif, .man] d (d.idle) := by
  unfold Dev.idle
  split
  · exact keeps_mono (keeps_musterOn _ _) rfl
  · refine keeps_via (keeps_pwmBoundary _) rfl ?_
    exact keeps_mono (keeps_rtcTick _) rfl

end Sys2Proof.Laws
end

