-- ==== Sys2Proof/Laws/KeepsCommands.lean ====
section
/-! SUPPORT. Which parts of the device each command may change, each said once. -/
namespace Sys2Proof.Laws

open Sys2Proof.Machine Sys2Proof.Safety

theorem keeps_execWatch (tok : Byte) (s : Machine.State) :
    ∃ d', execWatch tok s = .next { s with dev := d' } ∧ Keeps [.cmds, .mode, .hst] s.dev d' := by
  refine effect_keeps fun d0 => ?_
  refine keeps_hostCommand rfl ?_ fun d1 => ?_
  · exact keeps_refl
  · exact keeps_mono (keeps_bodyWatch _) rfl

theorem keeps_execBenchEnter (tok : Byte) (s : Machine.State) :
    ∃ d', execBenchEnter tok s = .next { s with dev := d' } ∧ Keeps [.cmds, .mode, .hst] s.dev d' := by
  refine effect_keeps fun d0 => ?_
  refine keeps_hostCommand rfl ?_ fun d1 => ?_
  · exact keeps_refl
  · exact keeps_mono (keeps_bodyBenchEnter _) rfl

theorem keeps_execBenchExit (tok : Byte) (s : Machine.State) :
    ∃ d', execBenchExit tok s = .next { s with dev := d' } ∧ Keeps [.cmds, .mode, .hst] s.dev d' := by
  refine effect_keeps fun d0 => ?_
  refine keeps_hostCommand rfl ?_ fun d1 => ?_
  · exact keeps_refl
  · exact keeps_mono (keeps_bodyBenchExit _) rfl

theorem keeps_execLockAck (tok : Byte) (s : Machine.State) :
    ∃ d', execLockAck tok s = .next { s with dev := d' } ∧ Keeps [.cmds, .stamp, .mode, .seq, .coil, .lim, .pwr, .saf, .tol, .hst] s.dev d' := by
  refine effect_keeps fun d0 => ?_
  refine keeps_hostCommand rfl ?_ fun d1 => ?_
  · exact keeps_refl
  · exact keeps_mono (keeps_bodyLockAck _) rfl

theorem keeps_execCloseCmd (tok : Byte) (s : Machine.State) :
    ∃ d', execCloseCmd tok s = .next { s with dev := d' } ∧ Keeps [.cmds, .stamp, .seq, .coil, .hst] s.dev d' := by
  refine effect_keeps fun d0 => ?_
  refine keeps_hostCommand rfl ?_ fun d1 => ?_
  · exact keeps_refl
  · exact keeps_mono (keeps_bodyClose _) rfl

theorem keeps_execOpenCmd (tok : Byte) (s : Machine.State) :
    ∃ d', execOpenCmd tok s = .next { s with dev := d' } ∧ Keeps [.cmds, .stamp, .seq, .coil, .lim, .pwr, .tol, .can0, .can1, .hst] s.dev d' := by
  refine effect_keeps fun d0 => ?_
  refine keeps_hostCommand rfl ?_ fun d1 => ?_
  · exact keeps_refl
  · exact keeps_mono (keeps_bodyOpen _) rfl

theorem keeps_execHoldCmd (tok : Byte) (s : Machine.State) :
    ∃ d', execHoldCmd tok s = .next { s with dev := d' } ∧ Keeps [.cmds, .stamp, .seq, .hst] s.dev d' := by
  refine effect_keeps fun d0 => ?_
  refine keeps_hostCommand rfl ?_ fun d1 => ?_
  · exact keeps_refl
  · exact keeps_mono (keeps_bodyHold _) rfl

theorem keeps_execReleaseCmd (tok : Byte) (s : Machine.State) :
    ∃ d', execReleaseCmd tok s = .next { s with dev := d' } ∧ Keeps [.cmds, .stamp, .seq, .coil, .pwr, .tol, .hst] s.dev d' := by
  refine effect_keeps fun d0 => ?_
  refine keeps_hostCommand rfl ?_ fun d1 => ?_
  · exact keeps_refl
  · exact keeps_mono (keeps_bodyRelease _) rfl

theorem keeps_execTHoldExpiry (s : Machine.State) :
    ∃ d', execTHoldExpiry s = .next { s with dev := d' } ∧ Keeps [.cmds, .stamp, .seq, .coil, .pwr, .tol, .hst] s.dev d' := by
  refine effect_keeps fun d0 => ?_
  exact keeps_mono (keeps_holdExpires _) rfl

theorem keeps_execCoilCurrentSample (k : K) (code : BitVec 12) (s : Machine.State) :
    ∃ d', execCoilCurrentSample k code s = .next { s with dev := d' } ∧ Keeps [.stamp, .mode, .seq, .coil, .lim, .pwr, .saf, .tol, .can0, .can1, .evt, .dep, .lif] s.dev d' := by
  refine effect_keeps fun d0 => ?_
  exact keeps_mono (keeps_coilSample _ _ _ _) rfl

theorem keeps_execClosingTimeout (k : K) (s : Machine.State) :
    ∃ d', execClosingTimeout k s = .next { s with dev := d' } ∧ Keeps [.stamp, .mode, .seq, .coil, .lim, .pwr, .saf, .tol, .can0, .can1, .evt, .lif] s.dev d' := by
  refine effect_keeps fun d0 => ?_
  exact keeps_mono (keeps_closingTimeout _ _) rfl

theorem keeps_execPullInEnd (k : K) (s : Machine.State) :
    ∃ d', execPullInEnd k s = .next { s with dev := d' } ∧ Keeps [.coil] s.dev d' := by
  refine effect_keeps fun d0 => ?_
  exact keeps_mono (keeps_pullInEnd _ _) rfl

theorem keeps_execBounceWindowEnd (k : K) (s : Machine.State) :
    ∃ d', execBounceWindowEnd k s = .next { s with dev := d' } ∧ Keeps [.stamp, .mode, .seq, .coil, .lim, .pwr, .saf, .tol, .can0, .can1, .evt, .lif] s.dev d' := by
  refine effect_keeps fun d0 => ?_
  exact keeps_mono (keeps_bounceWindowEnd _ _) rfl

theorem keeps_execK3ReleaseDelay (s : Machine.State) :
    ∃ d', execK3ReleaseDelay s = .next { s with dev := d' } ∧ Keeps [.coil] s.dev d' := by
  refine effect_keeps fun d0 => ?_
  exact keeps_mono (keeps_k3ReleaseDelay _) rfl

theorem keeps_execPrechargeRetryWindowEnd (s : Machine.State) :
    ∃ d', execPrechargeRetryWindowEnd s = .next { s with dev := d' } ∧ Keeps [.seq] s.dev d' := by
  refine effect_keeps fun d0 => ?_
  exact keeps_mono (keeps_retryWindowEnd _) rfl

theorem keeps_execTGraceExpiry (s : Machine.State) :
    ∃ d', execTGraceExpiry s = .next { s with dev := d' } ∧ Keeps [.stamp, .seq, .coil, .pwr, .tol] s.dev d' := by
  refine effect_keeps fun d0 => ?_
  exact keeps_mono (keeps_graceExpires _) rfl

theorem keeps_execReleaseHighSideTimeout (k : K) (s : Machine.State) :
    ∃ d', execReleaseHighSideTimeout k s = .next { s with dev := d' } ∧ Keeps [.coil] s.dev d' := by
  refine effect_keeps fun d0 => ?_
  exact keeps_mono (keeps_highSideTimeout _ _) rfl

theorem keeps_execReleaseVerdictTimeout (k : K) (s : Machine.State) :
    ∃ d', execReleaseVerdictTimeout k s = .next { s with dev := d' } ∧ Keeps [.stamp, .mode, .seq, .coil, .lim, .pwr, .saf, .tol, .can0, .can1, .evt, .dep, .lif] s.dev d' := by
  refine effect_keeps fun d0 => ?_
  exact keeps_mono (keeps_judgeAtTimeout _ _) rfl

theorem keeps_execLiveSwitchProof (k : K) (node : ProofNode) (s : Machine.State) :
    ∃ d', execLiveSwitchProof k node s = .next { s with dev := d' } ∧ Keeps [.stamp, .mode, .seq, .coil, .lim, .pwr, .saf, .tol, .can0, .can1, .evt, .lif] s.dev d' := by
  refine effect_keeps fun d0 => ?_
  exact keeps_mono (keeps_liveProof _ _ _) rfl

theorem keeps_execFeedbackCheck (k : K) (s : Machine.State) :
    ∃ d', execFeedbackCheck k s = .next { s with dev := d' } ∧ Keeps [.coil] s.dev d' := by
  refine effect_keeps fun d0 => ?_
  exact keeps_mono (keeps_feedbackCheck _ _) rfl

theorem keeps_execFeedbackCheckEnd (k : K) (s : Machine.State) :
    ∃ d', execFeedbackCheckEnd k s = .next { s with dev := d' } ∧ Keeps [.stamp, .mode, .seq, .coil, .lim, .pwr, .saf, .tol, .can0, .can1, .evt, .lif] s.dev d' := by
  refine effect_keeps fun d0 => ?_
  exact keeps_mono (keeps_feedbackCheckEnd _ _) rfl

theorem keeps_execOpenLoopExpiry (k : K) (s : Machine.State) :
    ∃ d', execOpenLoopExpiry k s = .next { s with dev := d' } ∧ Keeps [.coil] s.dev d' := by
  refine effect_keeps fun d0 => ?_
  exact keeps_mono (keeps_openLoopExpires _ _) rfl

theorem keeps_execFeedbackRestored (k : K) (s : Machine.State) :
    ∃ d', execFeedbackRestored k s = .next { s with dev := d' } ∧ Keeps [.coil, .lim] s.dev d' := by
  refine effect_keeps fun d0 => ?_
  exact keeps_mono (keeps_feedbackRestored _ _) rfl

theorem keeps_execRappUpdate (k : K) (s : Machine.State) :
    ∃ d', execRappUpdate k s = .next { s with dev := d' } ∧ Keeps [.coil] s.dev d' := by
  refine effect_keeps fun d0 => ?_
  exact keeps_mono (keeps_rappUpdate _ _) rfl

theorem keeps_execProtectionTrip (cause : Fin 8) (seen : Monitored) (s : Machine.State) :
    ∃ d', execProtectionTrip cause seen s = .next { s with dev := d' } ∧ Keeps [.stamp, .mode, .seq, .coil, .lim, .pwr, .saf, .tol, .can0, .can1, .evt, .lif] s.dev d' := by
  refine effect_keeps fun d0 => ?_
  exact keeps_mono (keeps_protectionTrip _ _ _) rfl

theorem keeps_execSoftTurnOffStep2 (s : Machine.State) :
    ∃ d', execSoftTurnOffStep2 s = .next { s with dev := d' } ∧ Keeps [.pwr] s.dev d' := by
  refine effect_keeps fun d0 => ?_
  exact keeps_mono (keeps_softStep2 _) rfl

theorem keeps_execPwrClr (tok : Byte) (s : Machine.State) :
    ∃ d', execPwrClr tok s = .next { s with dev := d' } ∧ Keeps [.cmds, .lim, .pwr, .saf, .hst] s.dev d' := by
  refine effect_keeps fun d0 => ?_
  refine keeps_hostCommand rfl ?_ fun d1 => ?_
  · exact keeps_refl
  · exact keeps_mono (keeps_bodyPwrClr _) rfl

theorem keeps_execDrvEnFall (s : Machine.State) :
    ∃ d', execDrvEnFall s = .next { s with dev := d' } ∧ Keeps [.pwr] s.dev d' := by
  refine effect_keeps fun d0 => ?_
  exact keeps_mono (keeps_drvEnFalls _) rfl

theorem keeps_execDrvEnRise (lowNs : Nat) (s : Machine.State) :
    ∃ d', execDrvEnRise lowNs s = .next { s with dev := d' } ∧ Keeps [.stamp, .mode, .seq, .coil, .lim, .pwr, .saf, .tol, .can0, .can1, .evt, .lif] s.dev d' := by
  refine effect_keeps fun d0 => ?_
  exact keeps_mono (keeps_drvEnRises _ _) rfl

theorem keeps_execDumpOn (s : Machine.State) :
    ∃ d', execDumpOn s = .next { s with dev := d' } ∧ Keeps [.pwr] s.dev d' := by
  refine effect_keeps fun d0 => ?_
  exact keeps_mono (keeps_dumpTurnsOn _) rfl

theorem keeps_execDumpOff (s : Machine.State) :
    ∃ d', execDumpOff s = .next { s with dev := d' } ∧ Keeps [.pwr] s.dev d' := by
  refine effect_keeps fun d0 => ?_
  exact keeps_mono (keeps_dumpTurnsOff _) rfl

theorem keeps_execDumpTimeout (s : Machine.State) :
    ∃ d', execDumpTimeout s = .next { s with dev := d' } ∧ Keeps [.stamp, .mode, .seq, .coil, .lim, .pwr, .saf, .tol, .can0, .can1, .evt, .lif] s.dev d' := by
  refine effect_keeps fun d0 => ?_
  exact keeps_mono (keeps_dumpTimesOut _) rfl

theorem keeps_execDumpRearm (s : Machine.State) :
    ∃ d', execDumpRearm s = .next { s with dev := d' } ∧ Keeps [.pwr] s.dev d' := by
  refine effect_keeps fun d0 => ?_
  exact keeps_mono (keeps_dumpRearms _) rfl

theorem keeps_execDumpSwitchFault (s : Machine.State) :
    ∃ d', execDumpSwitchFault s = .next { s with dev := d' } ∧ Keeps [.stamp, .mode, .seq, .coil, .lim, .pwr, .saf, .tol, .can0, .can1, .evt, .lif] s.dev d' := by
  refine effect_keeps fun d0 => ?_
  exact keeps_mono (keeps_dumpSwitchFails _) rfl

theorem keeps_execDiagPhaseEnd (n : DiagNodes) (s : Machine.State) :
    ∃ d', execDiagPhaseEnd n s = .next { s with dev := d' } ∧ Keeps [.pwr] s.dev d' := by
  refine effect_keeps fun d0 => ?_
  exact keeps_mono (keeps_diagPhaseEnds _ _) rfl

theorem keeps_execComparatorSelfTest (fails : BitVec 23) (s : Machine.State) :
    ∃ d', execComparatorSelfTest fails s = .next { s with dev := d' } ∧ Keeps [.pwr] s.dev d' := by
  refine effect_keeps fun d0 => ?_
  refine keeps_ite (fun _ => ?_) fun _ => ?_
  · exact keeps_mono (keeps_selfTest _ _) rfl
  · exact keeps_refl

theorem keeps_execOffStateDiagnostics (i : DiagInputs) (s : Machine.State) :
    ∃ d', execOffStateDiagnostics i s = .next { s with dev := d' } ∧ Keeps [.pwr] s.dev d' := by
  refine effect_keeps fun d0 => ?_
  refine keeps_ite (fun _ => ?_) fun _ => ?_
  · exact keeps_mono (keeps_runDiagnostics _ _) rfl
  · exact keeps_refl

theorem keeps_execAutoDiagnostics (s : Machine.State) :
    ∃ d', execAutoDiagnostics s = .next { s with dev := d' } ∧ Keeps [.pwr] s.dev d' := by
  refine effect_keeps fun d0 => ?_
  refine keeps_ite (fun _ => ?_) fun _ => ?_
  · exact keeps_mono (keeps_startDiag _) rfl
  · exact keeps_refl

theorem keeps_execDiag (tok : Byte) (s : Machine.State) :
    ∃ d', execDiag tok s = .next { s with dev := d' } ∧ Keeps [.cmds, .pwr, .hst] s.dev d' := by
  refine effect_keeps fun d0 => ?_
  refine keeps_hostCommand rfl ?_ fun d1 => ?_
  · exact keeps_refl
  · exact keeps_mono (keeps_bodyDiag _) rfl

theorem keeps_execCtst (tok : Byte) (s : Machine.State) :
    ∃ d', execCtst tok s = .next { s with dev := d' } ∧ Keeps [.cmds, .pwr, .hst] s.dev d' := by
  refine effect_keeps fun d0 => ?_
  refine keeps_hostCommand rfl ?_ fun d1 => ?_
  · exact keeps_refl
  · exact keeps_mono (keeps_bodyCtst _) rfl

theorem keeps_execExtPwmEdge (levels : BitVec 4) (s : Machine.State) :
    ∃ d', execExtPwmEdge levels s = .next { s with dev := d' } ∧ Keeps [.pwr, .dep, .lif] s.dev d' := by
  refine effect_keeps fun d0 => ?_
  exact keeps_mono (keeps_extEdge _ _) rfl

theorem keeps_execExtPwmRevoke (s : Machine.State) :
    ∃ d', execExtPwmRevoke s = .next { s with dev := d' } ∧ Keeps [.pwr, .dep, .lif] s.dev d' := by
  refine effect_keeps fun d0 => ?_
  exact keeps_mono (keeps_extRevoke _) rfl

theorem keeps_execTachEdge (period : Nat) (s : Machine.State) :
    ∃ d', execTachEdge period s = .next { s with dev := d' } ∧ Keeps [.pwr] s.dev d' := by
  refine effect_keeps fun d0 => ?_
  exact keeps_mono (keeps_tach _ _) rfl

theorem keeps_execTachLost (frozen : Bool) (s : Machine.State) :
    ∃ d', execTachLost frozen s = .next { s with dev := d' } ∧ Keeps [.stamp, .mode, .seq, .coil, .lim, .pwr, .saf, .tol, .can0, .can1, .evt, .dep, .lif] s.dev d' := by
  refine effect_keeps fun d0 => ?_
  exact keeps_mono (keeps_tachFails _ _) rfl

theorem keeps_execTachRecovered (s : Machine.State) :
    ∃ d', execTachRecovered s = .next { s with dev := d' } ∧ Keeps [.lim, .pwr] s.dev d' := by
  refine effect_keeps fun d0 => ?_
  exact keeps_mono (keeps_tachRecovers _) rfl

theorem keeps_execPumpCycleLimit (level : Nat) (s : Machine.State) :
    ∃ d', execPumpCycleLimit level s = .next { s with dev := d' } ∧ Keeps [.pwr] s.dev d' := by
  refine effect_keeps fun d0 => ?_
  exact keeps_mono (keeps_cycleLimit _ _) rfl

theorem keeps_execSwitchEdgeMeasured (ch : DriveChannel) (turnOn : Bool) (ns : Option Nat) (s : Machine.State) :
    ∃ d', execSwitchEdgeMeasured ch turnOn ns s = .next { s with dev := d' } ∧ Keeps [.pwr] s.dev d' := by
  refine effect_keeps fun d0 => ?_
  exact keeps_mono (keeps_edgeMeasured _ _ _ _) rfl

theorem keeps_execGuardChannelChange (ch : Fin 8) (level : Bool) (s : Machine.State) :
    ∃ d', execGuardChannelChange ch level s = .next { s with dev := d' } ∧ Keeps [.stamp, .mode, .seq, .coil, .lim, .pwr, .saf, .tol, .can0, .can1, .evt, .lif] s.dev d' := by
  refine effect_keeps fun d0 => ?_
  exact keeps_mono (keeps_guardChannel _ _ _) rfl

theorem keeps_execGuardDiscrepancy (g : Fin 4) (s : Machine.State) :
    ∃ d', execGuardDiscrepancy g s = .next { s with dev := d' } ∧ Keeps [.stamp, .mode, .seq, .coil, .lim, .pwr, .saf, .tol, .can0, .can1, .evt, .lif] s.dev d' := by
  refine effect_keeps fun d0 => ?_
  exact keeps_mono (keeps_guardDisagrees _ _) rfl

theorem keeps_execGtest (g : Fin 4) (tok : Byte) (s : Machine.State) :
    ∃ d', execGtest g tok s = .next { s with dev := d' } ∧ Keeps [.cmds, .saf, .hst] s.dev d' := by
  refine effect_keeps fun d0 => ?_
  refine keeps_hostCommand rfl ?_ fun d1 => ?_
  · exact keeps_refl
  · exact keeps_mono (keeps_bodyGtest _ _) rfl

theorem keeps_execGuardTestVerdict (g : Fin 4) (opened : Bool) (closed : Bool) (s : Machine.State) :
    ∃ d', execGuardTestVerdict g opened closed s = .next { s with dev := d' } ∧ Keeps [.saf] s.dev d' := by
  refine effect_keeps fun d0 => ?_
  exact keeps_mono (keeps_guardVerdict _ _ _ _) rfl

theorem keeps_execGuardRetest (g : Fin 4) (s : Machine.State) :
    ∃ d', execGuardRetest g s = .next { s with dev := d' } ∧ Keeps [.saf] s.dev d' := by
  refine effect_keeps fun d0 => ?_
  exact keeps_mono (keeps_guardRetest _ _) rfl

theorem keeps_execPermissionRefreshMissed (s : Machine.State) :
    ∃ d', execPermissionRefreshMissed s = .next { s with dev := d' } ∧ Keeps [.saf] s.dev d' := by
  refine effect_keeps fun d0 => ?_
  exact keeps_mono (keeps_refreshMissed _) rfl

theorem keeps_execSampleSet (density : Vector Rat 6) (unacknowledged : Bool) (s : Machine.State) :
    ∃ d', execSampleSet density unacknowledged s = .next { s with dev := d' } ∧ Keeps [.sen, .lim, .tol, .evt] s.dev d' := by
  refine effect_keeps fun d0 => ?_
  exact keeps_mono (keeps_takeSet _ _ _) rfl

theorem keeps_execInputLost (n : Fin 6) (s : Machine.State) :
    ∃ d', execInputLost n s = .next { s with dev := d' } ∧ Keeps [.sen, .lim, .evt] s.dev d' := by
  refine effect_keeps fun d0 => ?_
  exact keeps_mono (keeps_inputLost _ _) rfl

theorem keeps_execInputActiveAgain (n : Fin 6) (s : Machine.State) :
    ∃ d', execInputActiveAgain n s = .next { s with dev := d' } ∧ Keeps [.sen] s.dev d' := by
  refine effect_keeps fun d0 => ?_
  exact keeps_mono (keeps_inputActive _ _) rfl

theorem keeps_execInputFrozen (n : Fin 6) (s : Machine.State) :
    ∃ d', execInputFrozen n s = .next { s with dev := d' } ∧ Keeps [.sen, .lim, .evt] s.dev d' := by
  refine effect_keeps fun d0 => ?_
  exact keeps_mono (keeps_inputFrozen _ _) rfl

theorem keeps_execInputUnfrozen (n : Fin 6) (s : Machine.State) :
    ∃ d', execInputUnfrozen n s = .next { s with dev := d' } ∧ Keeps [.sen] s.dev d' := by
  refine effect_keeps fun d0 => ?_
  exact keeps_mono (keeps_inputUnfrozen _ _) rfl

theorem keeps_execSettlingEnd (s : Machine.State) :
    ∃ d', execSettlingEnd s = .next { s with dev := d' } ∧ Keeps [.sen] s.dev d' := by
  refine effect_keeps fun d0 => ?_
  exact keeps_mono (keeps_settlingEnd _) rfl

theorem keeps_execSarConversion (volts : Rat) (s : Machine.State) :
    ∃ d', execSarConversion volts s = .next { s with dev := d' } ∧ Keeps [.sen] s.dev d' := by
  refine effect_keeps fun d0 => ?_
  exact keeps_mono (keeps_sarConversion _ _) rfl

theorem keeps_execSessionOpen (tok : Byte) (s : Machine.State) :
    ∃ d', execSessionOpen tok s = .next { s with dev := d' } ∧ Keeps [.cmds, .coil, .est, .tol, .can0, .can1, .hst] s.dev d' := by
  refine effect_keeps fun d0 => ?_
  refine keeps_hostCommand rfl ?_ fun d1 => ?_
  · exact keeps_refl
  · exact keeps_mono (keeps_bodySessionOpen _) rfl

theorem keeps_execTolResume (tok : Byte) (s : Machine.State) :
    ∃ d', execTolResume tok s = .next { s with dev := d' } ∧ Keeps [.cmds, .coil, .tol, .hst] s.dev d' := by
  refine effect_keeps fun d0 => ?_
  refine keeps_hostCommand rfl ?_ fun d1 => ?_
  · exact keeps_refl
  · exact keeps_mono (keeps_bodyResume _) rfl

theorem keeps_execSessionClose (tok : Byte) (s : Machine.State) :
    ∃ d', execSessionClose tok s = .next { s with dev := d' } ∧ Keeps [.cmds, .doms, .seq, .coil, .tol, .lgr, .can0, .can1, .hst, .dep] s.dev d' := by
  refine effect_keeps fun d0 => ?_
  refine keeps_hostCommand rfl ?_ fun d1 => ?_
  · exact keeps_refl
  · extract_lets x2
    refine keeps_through (b := x2.1) ?_ fun hx2 => ?_
    · unfold x2
      exact keeps_mono (keeps_bodySessionClose _) rfl
    clear_value x2
    refine keeps_via (keeps_drained _ _) rfl ?_
    exact hx2

theorem keeps_execSnapshot (tok : Byte) (s : Machine.State) :
    ∃ d', execSnapshot tok s = .next { s with dev := d' } ∧ Keeps [.cmds, .doms, .tol, .lgr, .hst, .dep] s.dev d' := by
  refine effect_keeps fun d0 => ?_
  refine keeps_hostCommand rfl ?_ fun d1 => ?_
  · exact keeps_refl
  · extract_lets x2
    refine keeps_through (b := x2.1) ?_ fun hx2 => ?_
    · unfold x2
      exact keeps_mono (keeps_bodySnapshot _) rfl
    clear_value x2
    refine keeps_via (keeps_drained _ _) rfl ?_
    exact hx2

theorem keeps_execInterimRecordDue (s : Machine.State) :
    ∃ d', execInterimRecordDue s = .next { s with dev := d' } ∧ Keeps [.tol] s.dev d' := by
  refine effect_keeps fun d0 => ?_
  exact keeps_mono (keeps_interimDue _) rfl

theorem keeps_execMeterStopEnd (s : Machine.State) :
    ∃ d', execMeterStopEnd s = .next { s with dev := d' } ∧ Keeps [.tol, .can0, .can1] s.dev d' := by
  refine effect_keeps fun d0 => ?_
  exact keeps_mono (keeps_meterStopEnds _) rfl

theorem keeps_execImpulse (s : Machine.State) :
    ∃ d', execImpulse s = .next { s with dev := d' } ∧ Keeps [.tol] s.dev d' := by
  refine effect_keeps fun d0 => ?_
  exact keeps_mono (keeps_impulse _) rfl

theorem keeps_execCalOpen (tok : Byte) (s : Machine.State) :
    ∃ d', execCalOpen tok s = .next { s with dev := d' } ∧ Keeps [.cmds, .doms, .tol, .lgr, .hst, .dep] s.dev d' := by
  refine effect_keeps fun d0 => ?_
  refine keeps_hostCommand rfl ?_ fun d1 => ?_
  · exact keeps_refl
  · extract_lets x2
    refine keeps_through (b := x2.1) ?_ fun hx2 => ?_
    · unfold x2
      exact keeps_mono (keeps_bodyCalOpen _) rfl
    clear_value x2
    refine keeps_via (keeps_drained _ _) rfl ?_
    exact hx2

theorem keeps_execCalClose (tok : Byte) (s : Machine.State) :
    ∃ d', execCalClose tok s = .next { s with dev := d' } ∧ Keeps [.cmds, .doms, .tol, .lgr, .hst, .dep] s.dev d' := by
  refine effect_keeps fun d0 => ?_
  refine keeps_hostCommand rfl ?_ fun d1 => ?_
  · exact keeps_refl
  · extract_lets x2
    refine keeps_through (b := x2.1) ?_ fun hx2 => ?_
    · unfold x2
      exact keeps_mono (keeps_bodyCalClose _) rfl
    clear_value x2
    refine keeps_via (keeps_drained _ _) rfl ?_
    exact hx2

theorem keeps_execEnclosureChange (seal0 : Bool) (seal1 : Bool) (s : Machine.State) :
    ∃ d', execEnclosureChange seal0 seal1 s = .next { s with dev := d' } ∧ Keeps [.doms, .tol, .lgr, .dep] s.dev d' := by
  refine effect_keeps fun d0 => ?_
  exact keeps_mono (keeps_enclosureChange _ _ _) rfl

theorem keeps_execRecordSigned (s : Machine.State) :
    ∃ d', execRecordSigned s = .next { s with dev := d' } ∧ Keeps [.lgr] s.dev d' := by
  refine effect_keeps fun d0 => ?_
  exact keeps_mono (keeps_recordSigned _) rfl

theorem keeps_execLedgerCommit (s : Machine.State) :
    ∃ d', execLedgerCommit s = .next { s with dev := d' } ∧ Keeps [.doms, .lgr, .dep, .mem] s.dev d' := by
  refine effect_keeps fun d0 => ?_
  exact keeps_mono (keeps_ledgerCommit _) rfl

theorem keeps_execCommitRetry (s : Machine.State) :
    ∃ d', execCommitRetry s = .next { s with dev := d' } ∧ Keeps [.doms, .lgr, .dep, .mem] s.dev d' := by
  refine effect_keeps fun d0 => ?_
  exact keeps_mono (keeps_commitRetry _) rfl

theorem keeps_execLedgerCommitEnd (first : Bool) (second : Bool) (s : Machine.State) :
    ∃ d', execLedgerCommitEnd first second s = .next { s with dev := d' } ∧ Keeps [.lgr, .dep, .mem] s.dev d' := by
  refine effect_keeps fun d0 => ?_
  exact keeps_mono (keeps_ledgerCommitEnd _ _ _) rfl

theorem keeps_execAck (tok : Byte) (s : Machine.State) :
    ∃ d', execAck tok s = .next { s with dev := d' } ∧ Keeps [.cmds, .doms, .lgr, .hst, .dep, .mem, .copies] s.dev d' := by
  refine effect_keeps fun d0 => ?_
  refine keeps_hostCommand rfl ?_ fun d1 => ?_
  · exact keeps_refl
  · exact keeps_mono (keeps_bodyAck _) rfl

theorem keeps_execRecordCheck (s : Machine.State) :
    ∃ d', execRecordCheck s = .next { s with dev := d' } ∧ Keeps [.doms, .lgr] s.dev d' := by
  refine effect_keeps fun d0 => ?_
  exact keeps_mono (keeps_recordCheck _) rfl

theorem keeps_execArbitration (ch : Ch) (won : Bool) (s : Machine.State) :
    ∃ d', execArbitration ch won s = .next { s with dev := d' } ∧ Keeps [.can0, .can1] s.dev d' := by
  refine effect_keeps fun d0 => ?_
  exact keeps_mono (keeps_arbitrate _ _ _) rfl

theorem keeps_execTxAttemptEnd (ch : Ch) (sent : Bool) (s : Machine.State) :
    ∃ d', execTxAttemptEnd ch sent s = .next { s with dev := d' } ∧ Keeps [.can0, .can1, .evt] s.dev d' := by
  refine effect_keeps fun d0 => ?_
  split
  · exact keeps_refl
  · refine keeps_ite (fun _ => ?_) fun _ => ?_
    · exact keeps_refl
    · refine keeps_ite (fun _ => ?_) fun _ => ?_
      · exact keeps_mono (keeps_attemptSent _ _ _) rfl
      · exact keeps_mono (keeps_attemptFailed _ _ _) rfl

theorem keeps_execBusOff (ch : Ch) (s : Machine.State) :
    ∃ d', execBusOff ch s = .next { s with dev := d' } ∧ Keeps [.can0, .can1, .evt] s.dev d' := by
  refine effect_keeps fun d0 => ?_
  exact keeps_mono (keeps_enterBusOff _ _) rfl

theorem keeps_execBusOffRecovered (ch : Ch) (s : Machine.State) :
    ∃ d', execBusOffRecovered ch s = .next { s with dev := d' } ∧ Keeps [.can0, .can1] s.dev d' := by
  refine effect_keeps fun d0 => ?_
  extract_lets c1
  clear_value c1
  refine keeps_ite (fun _ => ?_) fun _ => ?_
  · refine keeps_via (keeps_canEvent _ _ _) rfl ?_
    exact keeps_mono (keeps_setCan _ _ _) rfl
  · exact keeps_refl

theorem keeps_execTimetableEntryDue (ch : Ch) (j : Fin 32) (s : Machine.State) :
    ∃ d', execTimetableEntryDue ch j s = .next { s with dev := d' } ∧ Keeps [.can0, .can1] s.dev d' := by
  refine effect_keeps fun d0 => ?_
  exact keeps_mono (keeps_entryDue _ _ _) rfl

theorem keeps_execStatusFrameDue (s : Machine.State) :
    ∃ d', execStatusFrameDue s = .next { s with dev := d' } ∧ Keeps [.can0, .can1] s.dev d' := by
  refine effect_keeps fun d0 => ?_
  refine keeps_ite (fun _ => ?_) fun _ => ?_
  · exact keeps_mono (keeps_publish _ _) rfl
  · exact keeps_refl

theorem keeps_execStepReqFrameDue (s : Machine.State) :
    ∃ d', execStepReqFrameDue s = .next { s with dev := d' } ∧ Keeps [.can0, .can1] s.dev d' := by
  refine effect_keeps fun d0 => ?_
  refine keeps_ite (fun _ => ?_) fun _ => ?_
  · exact keeps_mono (keeps_publish _ _) rfl
  · exact keeps_refl

theorem keeps_execCanFrameReceived (ch : Ch) (f : CanFrame) (s : Machine.State) :
    ∃ d', execCanFrameReceived ch f s = .next { s with dev := d' } ∧ Keeps [.mode, .lim, .can0, .can1, .wakeDet, .evt] s.dev d' := by
  refine effect_keeps fun d0 => ?_
  exact keeps_mono (keeps_receive _ _ _) rfl

theorem keeps_execCanErrorFrame (ch : Ch) (s : Machine.State) :
    ∃ d', execCanErrorFrame ch s = .next { s with dev := d' } ∧ Keeps [.can0, .can1, .wakeDet, .evt] s.dev d' := by
  refine effect_keeps fun d0 => ?_
  exact keeps_mono (keeps_receiveError _ _) rfl

theorem keeps_execHostMessageTimeout (ch : Ch) (s : Machine.State) :
    ∃ d', execHostMessageTimeout ch s = .next { s with dev := d' } ∧ Keeps [.stamp, .mode, .seq, .coil, .lim, .pwr, .saf, .tol, .can0, .can1, .evt, .lif] s.dev d' := by
  refine effect_keeps fun d0 => ?_
  extract_lets c1 b2 d3
  clear_value c1
  refine keeps_through (b := d3) ?_ fun hd3 => ?_
  · unfold d3
    exact keeps_mono (keeps_setCan _ _ _) rfl
  clear_value d3
  refine keeps_ite (fun _ => ?_) fun _ => ?_
  · refine keeps_via (keeps_raise _ _ _ _ _ _ _ _) rfl ?_
    exact hd3
  · exact keeps_refl

theorem keeps_execTxQueue (ch : Ch) (tok : Byte) (s : Machine.State) :
    ∃ d', execTxQueue ch tok s = .next { s with dev := d' } ∧ Keeps [.cmds, .can0, .can1, .hst] s.dev d' := by
  refine effect_keeps fun d0 => ?_
  refine keeps_hostCommand rfl ?_ fun d1 => ?_
  · exact keeps_refl
  · exact keeps_mono (keeps_bodyTxQueue _ _) rfl

theorem keeps_execTxCancel (ch : Ch) (tok : Byte) (s : Machine.State) :
    ∃ d', execTxCancel ch tok s = .next { s with dev := d' } ∧ Keeps [.cmds, .can0, .can1, .hst] s.dev d' := by
  refine effect_keeps fun d0 => ?_
  refine keeps_hostCommand rfl ?_ fun d1 => ?_
  · exact keeps_refl
  · exact keeps_mono (keeps_bodyTxCancel _ _) rfl

theorem keeps_execRxPop (ch : Ch) (tok : Byte) (s : Machine.State) :
    ∃ d', execRxPop ch tok s = .next { s with dev := d' } ∧ Keeps [.cmds, .can0, .can1, .hst] s.dev d' := by
  refine effect_keeps fun d0 => ?_
  refine keeps_hostCommand rfl ?_ fun d1 => ?_
  · exact keeps_refl
  · exact keeps_mono (keeps_bodyRxPop _ _) rfl

theorem keeps_execTtLoad (ch : Ch) (tok : Byte) (s : Machine.State) :
    ∃ d', execTtLoad ch tok s = .next { s with dev := d' } ∧ Keeps [.cmds, .can0, .can1, .hst] s.dev d' := by
  refine effect_keeps fun d0 => ?_
  refine keeps_hostCommand rfl ?_ fun d1 => ?_
  · exact keeps_refl
  · exact keeps_mono (keeps_bodyTtLoad _ _) rfl

theorem keeps_execBoRecover (ch : Ch) (tok : Byte) (s : Machine.State) :
    ∃ d', execBoRecover ch tok s = .next { s with dev := d' } ∧ Keeps [.cmds, .can0, .can1, .hst] s.dev d' := by
  refine effect_keeps fun d0 => ?_
  refine keeps_hostCommand rfl ?_ fun d1 => ?_
  · exact keeps_refl
  · exact keeps_mono (keeps_bodyBoRecover _ _) rfl

theorem keeps_execCanCntClr (ch : Ch) (tok : Byte) (s : Machine.State) :
    ∃ d', execCanCntClr ch tok s = .next { s with dev := d' } ∧ Keeps [.cmds, .can0, .can1, .hst] s.dev d' := by
  refine effect_keeps fun d0 => ?_
  refine keeps_hostCommand rfl ?_ fun d1 => ?_
  · exact keeps_refl
  · exact keeps_mono (keeps_bodyCanCntClr _ _) rfl

theorem keeps_execCrossingClear (pos : Fin 576) (th : Threshold) (s : Machine.State) :
    ∃ d', execCrossingClear pos th s = .next { s with dev := d' } ∧ Keeps [.est, .lim] s.dev d' := by
  refine effect_keeps fun d0 => ?_
  refine keeps_ite (fun _ => ?_) fun _ => ?_
  · exact keeps_refl
  · split
    · exact keeps_mono (keeps_clearCell _ _ _) rfl
    · exact keeps_mono (keeps_clearNtc _ _ _) rfl

theorem keeps_execRestFusion (s : Machine.State) :
    ∃ d', execRestFusion s = .next { s with dev := d' } ∧ Keeps [.est] s.dev d' := by
  refine effect_keeps fun d0 => ?_
  refine keeps_ite (fun _ => ?_) fun _ => ?_
  · extract_lets d1 b2
    refine keeps_through (b := d1) ?_ fun hd1 => ?_
    · unfold d1
      exact keeps_mono (keeps_fuseAll _) rfl
    clear_value d1
    refine keeps_set (b := d1) ?_ fun p => by cases p <;> first | exact .inl rfl | exact .inr rfl | exact .inr ⟨rfl, rfl⟩ | exact .inr ⟨rfl, rfl, rfl, rfl, rfl, rfl, rfl⟩
    exact hd1
  · exact keeps_refl

theorem keeps_execBurstEnd (s : Machine.State) :
    ∃ d', execBurstEnd s = .next { s with dev := d' } ∧ Keeps [.est, .can0, .can1] s.dev d' := by
  refine effect_keeps fun d0 => ?_
  refine keeps_ite (fun _ => ?_) fun _ => ?_
  · extract_lets served1 b2 d3
    refine keeps_through (b := d3) ?_ fun hd3 => ?_
    · unfold d3
      exact keeps_set keeps_refl fun p => by cases p <;> first | exact .inl rfl | exact .inr rfl | exact .inr ⟨rfl, rfl⟩ | exact .inr ⟨rfl, rfl, rfl, rfl, rfl, rfl, rfl⟩
    clear_value d3
    refine keeps_ite (fun _ => ?_) fun _ => ?_
    · refine keeps_via (keeps_withdrawStep _) rfl ?_
      exact hd3
    · exact hd3
  · exact keeps_refl

theorem keeps_execStepFitted (s : Machine.State) :
    ∃ d', execStepFitted s = .next { s with dev := d' } ∧ Keeps [.est] s.dev d' := by
  refine effect_keeps fun d0 => ?_
  refine keeps_ite (fun _ => ?_) fun _ => ?_
  · extract_lets b1 d2 d3
    refine keeps_through (b := d2) ?_ fun hd2 => ?_
    · unfold d2
      exact keeps_set keeps_refl fun p => by cases p <;> first | exact .inl rfl | exact .inr rfl | exact .inr ⟨rfl, rfl⟩ | exact .inr ⟨rfl, rfl, rfl, rfl, rfl, rfl, rfl⟩
    clear_value d2
    refine keeps_through (b := d3) ?_ fun hd3 => ?_
    · unfold d3
      refine keeps_ite (fun _ => ?_) fun _ => ?_
      · refine keeps_foldl ?_ fun d4 x5 => ?_
        · exact hd2
        · exact keeps_mono (keeps_takeFit _ _) rfl
      · exact hd2
    clear_value d3
    refine keeps_via (keeps_notice _ _ _ _) rfl ?_
    exact hd3
  · exact keeps_refl

theorem keeps_execConfidenceDecay (cell : Fin 576) (s : Machine.State) :
    ∃ d', execConfidenceDecay cell s = .next { s with dev := d' } ∧ Keeps [.est] s.dev d' := by
  refine effect_keeps fun d0 => ?_
  refine keeps_ite (fun _ => ?_) fun _ => ?_
  · exact keeps_refl
  · exact keeps_set keeps_refl fun p => by cases p <;> first | exact .inl rfl | exact .inr rfl | exact .inr ⟨rfl, rfl⟩ | exact .inr ⟨rfl, rfl, rfl, rfl, rfl, rfl, rfl⟩

theorem keeps_execStepRequestMissed (s : Machine.State) :
    ∃ d', execStepRequestMissed s = .next { s with dev := d' } ∧ Keeps [.est, .can0, .can1] s.dev d' := by
  refine effect_keeps fun d0 => ?_
  refine keeps_ite (fun _ => ?_) fun _ => ?_
  · extract_lets e1
    refine keeps_via (keeps_withdrawStep _) rfl ?_
    exact keeps_set keeps_refl fun p => by cases p <;> first | exact .inl rfl | exact .inr rfl | exact .inr ⟨rfl, rfl⟩ | exact .inr ⟨rfl, rfl, rfl, rfl, rfl, rfl, rfl⟩
  · exact keeps_refl

theorem keeps_execStepNow (tok : Byte) (s : Machine.State) :
    ∃ d', execStepNow tok s = .next { s with dev := d' } ∧ Keeps [.cmds, .est, .can0, .can1, .hst, .lif] s.dev d' := by
  refine effect_keeps fun d0 => ?_
  refine keeps_hostCommand rfl ?_ fun d1 => ?_
  · exact keeps_refl
  · exact keeps_mono (keeps_bodyStepNow _) rfl

theorem keeps_execFaultClr (tok : Byte) (s : Machine.State) :
    ∃ d', execFaultClr tok s = .next { s with dev := d' } ∧ Keeps [.cmds, .lim, .pwr, .saf, .hst] s.dev d' := by
  refine effect_keeps fun d0 => ?_
  refine keeps_hostCommand rfl ?_ fun d1 => ?_
  · exact keeps_refl
  · exact keeps_mono (keeps_bodyFaultClr _) rfl

theorem keeps_execSafetyLatchSet (src : LatchSource) (fault : Fin 39) (s : Machine.State) :
    ∃ d', execSafetyLatchSet src fault s = .next { s with dev := d' } ∧ Keeps [.stamp, .mode, .seq, .coil, .lim, .pwr, .saf, .tol, .can0, .can1, .evt, .lif] s.dev d' := by
  refine effect_keeps fun d0 => ?_
  refine keeps_ite (fun _ => ?_) fun _ => ?_
  · extract_lets n1 cause2 was3 d4 b5
    clear_value n1
    clear_value cause2
    clear_value was3
    refine keeps_through (b := d4) ?_ fun hd4 => ?_
    · unfold d4
      refine keeps_via (keeps_raise _ _ _ _ _ _ _ _) rfl ?_
      exact keeps_mono (keeps_tick _) rfl
    clear_value d4
    refine keeps_set (b := d4) ?_ fun p => by cases p <;> first | exact .inl rfl | exact .inr rfl | exact .inr ⟨rfl, rfl⟩ | exact .inr ⟨rfl, rfl, rfl, rfl, rfl, rfl, rfl⟩
    exact hd4
  · exact keeps_refl

theorem keeps_execSnap (s : Machine.State) :
    ∃ d', execSnap s = .next { s with dev := d' } ∧ Keeps [.doms, .chn, .est] s.dev d' := by
  refine effect_keeps fun d0 => ?_
  refine keeps_ite (fun _ => ?_) fun _ => ?_
  · extract_lets d1
    refine keeps_through (b := d1) ?_ fun hd1 => ?_
    · unfold d1
      exact keeps_mono (keeps_callChain _) rfl
    clear_value d1
    refine keeps_ite (fun _ => ?_) fun _ => ?_
    · refine keeps_via (keeps_snap _) rfl ?_
      exact hd1
    · exact hd1
  · exact keeps_refl

theorem keeps_execChainTransactionStart (req : ChainRequest) (s : Machine.State) :
    ∃ d', execChainTransactionStart req s = .next { s with dev := d' } ∧ Keeps [.doms, .chn, .dep] s.dev d' := by
  refine effect_keeps fun d0 => ?_
  refine keeps_ite (fun _ => ?_) fun _ => ?_
  · exact keeps_refl
  · extract_lets d1
    refine keeps_through (b := d1) ?_ fun hd1 => ?_
    · unfold d1
      exact keeps_mono (keeps_callChain _) rfl
    clear_value d1
    refine keeps_ite (fun _ => ?_) fun _ => ?_
    · exact hd1
    · refine keeps_ite (fun _ => ?_) fun _ => ?_
      · refine keeps_via (keeps_broadcast _ _ _) rfl ?_
        exact hd1
      · refine keeps_via (keeps_startRequest _ _) rfl ?_
        exact hd1

theorem keeps_execChainAttemptFailed (tag : Fin 32) (s : Machine.State) :
    ∃ d', execChainAttemptFailed tag s = .next { s with dev := d' } ∧ Keeps [.doms, .stamp, .mode, .seq, .coil, .chn, .lim, .pwr, .saf, .tol, .can0, .can1, .evt, .dep, .lif] s.dev d' := by
  refine effect_keeps fun d0 => ?_
  split
  · refine keeps_ite (fun _ => ?_) fun _ => ?_
    · exact keeps_mono (keeps_attemptFails _ _) rfl
    · exact keeps_refl
  · exact keeps_refl

theorem keeps_execNotReadyRepeat (tag : Fin 32) (s : Machine.State) :
    ∃ d', execNotReadyRepeat tag s = .next { s with dev := d' } ∧ Keeps [.chn] s.dev d' := by
  refine effect_keeps fun d0 => ?_
  split
  · refine keeps_ite (fun _ => ?_) fun _ => ?_
    · exact keeps_mono (keeps_sendTag _ _ _) rfl
    · exact keeps_refl
  · exact keeps_refl

theorem keeps_execChainResponse (port : Port) (f : ChainFrame) (s : Machine.State) :
    ∃ d', execChainResponse port f s = .next { s with dev := d' } ∧ Keeps [.doms, .stamp, .mode, .seq, .coil, .chn, .est, .lim, .pwr, .saf, .tol, .can0, .can1, .evt, .dep, .lif] s.dev d' := by
  refine effect_keeps fun d0 => ?_
  extract_lets held1 b2
  clear_value held1
  refine keeps_ite (fun _ => ?_) fun _ => ?_
  · exact keeps_refl
  · refine keeps_ite (fun _ => ?_) fun _ => ?_
    · refine keeps_via (keeps_chainResponse _ _ _) rfl ?_
      exact keeps_set keeps_refl fun p => by cases p <;> first | exact .inl rfl | exact .inr rfl | exact .inr ⟨rfl, rfl⟩ | exact .inr ⟨rfl, rfl, rfl, rfl, rfl, rfl, rfl⟩
    · exact keeps_set keeps_refl fun p => by cases p <;> first | exact .inl rfl | exact .inr rfl | exact .inr ⟨rfl, rfl⟩ | exact .inr ⟨rfl, rfl, rfl, rfl, rfl, rfl, rfl⟩

theorem keeps_execAuthentication (stage : Fin 32) (r : AuthReply) (s : Machine.State) :
    ∃ d', execAuthentication stage r s = .next { s with dev := d' } ∧ Keeps [.doms, .stamp, .mode, .seq, .coil, .chn, .est, .lim, .pwr, .saf, .tol, .can0, .can1, .evt, .dep, .lif] s.dev d' := by
  refine effect_keeps fun d0 => ?_
  refine keeps_ite (fun _ => ?_) fun _ => ?_
  · exact keeps_mono (keeps_authenticate _ _ _) rfl
  · exact keeps_refl

theorem keeps_execAuthTimeout (stage : Fin 32) (s : Machine.State) :
    ∃ d', execAuthTimeout stage s = .next { s with dev := d' } ∧ Keeps [.doms, .stamp, .mode, .seq, .coil, .chn, .est, .lim, .pwr, .saf, .tol, .can0, .can1, .evt, .dep, .lif] s.dev d' := by
  refine effect_keeps fun d0 => ?_
  extract_lets st1
  clear_value st1
  refine keeps_ite (fun _ => ?_) fun _ => ?_
  · exact keeps_mono (keeps_authFails _ _ _) rfl
  · exact keeps_refl

theorem keeps_execAuthPeriodic (stage : Fin 32) (s : Machine.State) :
    ∃ d', execAuthPeriodic stage s = .next { s with dev := d' } ∧ Keeps [.doms, .chn, .dep] s.dev d' := by
  refine effect_keeps fun d0 => ?_
  extract_lets st1
  clear_value st1
  refine keeps_ite (fun _ => ?_) fun _ => ?_
  · refine keeps_via (keeps_challenge _ _) rfl ?_
    exact keeps_mono (keeps_callChain _) rfl
  · exact keeps_refl

theorem keeps_execAuthNow (tok : Byte) (s : Machine.State) :
    ∃ d', execAuthNow tok s = .next { s with dev := d' } ∧ Keeps [.cmds, .doms, .chn, .hst, .dep] s.dev d' := by
  refine effect_keeps fun d0 => ?_
  refine keeps_hostCommand rfl ?_ fun d1 => ?_
  · exact keeps_refl
  · exact keeps_mono (keeps_bodyAuthNow _) rfl

theorem keeps_execStageStale (stage : Fin 32) (s : Machine.State) :
    ∃ d', execStageStale stage s = .next { s with dev := d' } ∧ Keeps [.doms, .stamp, .mode, .seq, .coil, .chn, .lim, .pwr, .saf, .tol, .can0, .can1, .evt, .dep, .lif] s.dev d' := by
  refine effect_keeps fun d0 => ?_
  extract_lets st1 cancel2 d3 d4
  clear_value st1
  clear_value cancel2
  refine keeps_through (b := d3) ?_ fun hd3 => ?_
  · unfold d3
    refine keeps_foldl ?_ fun d5 x6 => ?_
    · exact keeps_refl
    · exact keeps_mono (keeps_freeTag _ _) rfl
  clear_value d3
  refine keeps_through (b := d4) ?_ fun hd4 => ?_
  · unfold d4
    refine keeps_via (keeps_openStageEpisode _ _) rfl ?_
    refine keeps_via (keeps_setStage _ _ _) rfl ?_
    exact hd3
  clear_value d4
  refine keeps_ite (fun _ => ?_) fun _ => ?_
  · refine keeps_via (keeps_stageFault _ _ _ _) rfl ?_
    refine keeps_via (keeps_countChain _ _ _) rfl ?_
    exact hd4
  · exact keeps_refl

theorem keeps_execRingBreak (lastA : BitVec 6) (firstB : BitVec 6) (s : Machine.State) :
    ∃ d', execRingBreak lastA firstB s = .next { s with dev := d' } ∧ Keeps [.stamp, .mode, .seq, .coil, .chn, .lim, .pwr, .saf, .tol, .can0, .can1, .evt, .dep, .lif] s.dev d' := by
  refine effect_keeps fun d0 => ?_
  extract_lets held1 b2
  clear_value held1
  refine keeps_ite (fun _ => ?_) fun _ => ?_
  · exact keeps_refl
  · refine keeps_ite (fun _ => ?_) fun _ => ?_
    · refine keeps_via (keeps_ringBreaks _ _ _) rfl ?_
      exact keeps_set keeps_refl fun p => by cases p <;> first | exact .inl rfl | exact .inr rfl | exact .inr ⟨rfl, rfl⟩ | exact .inr ⟨rfl, rfl, rfl, rfl, rfl, rfl, rfl⟩
    · exact keeps_set keeps_refl fun p => by cases p <;> first | exact .inl rfl | exact .inr rfl | exact .inr ⟨rfl, rfl⟩ | exact .inr ⟨rfl, rfl, rfl, rfl, rfl, rfl, rfl⟩

theorem keeps_execRingProbe (r : ProbeResult) (s : Machine.State) :
    ∃ d', execRingProbe r s = .next { s with dev := d' } ∧ Keeps [.doms, .stamp, .mode, .seq, .coil, .chn, .est, .lim, .pwr, .saf, .tol, .can0, .can1, .evt, .dep, .lif] s.dev d' := by
  refine effect_keeps fun d0 => ?_
  extract_lets d1
  refine keeps_through (b := d1) ?_ fun hd1 => ?_
  · unfold d1
    exact keeps_mono (keeps_callChain _) rfl
  clear_value d1
  refine keeps_ite (fun _ => ?_) fun _ => ?_
  · refine keeps_via (keeps_ringProbe _ _) rfl ?_
    exact hd1
  · exact hd1

theorem keeps_execBalanceRefresh (masks : Vector (BitVec 18) 32) (s : Machine.State) :
    ∃ d', execBalanceRefresh masks s = .next { s with dev := d' } ∧ Keeps [.doms, .chn, .dep] s.dev d' := by
  refine effect_keeps fun d0 => ?_
  refine keeps_ite (fun _ => ?_) fun _ => ?_
  · refine keeps_foldl ?_ fun d1 x2 => ?_
    · exact keeps_mono (keeps_callChain _) rfl
    · refine keeps_ite (fun _ => ?_) fun _ => ?_
      · exact keeps_mono (keeps_startRequest _ _) rfl
      · exact keeps_refl
  · exact keeps_refl

theorem keeps_execManErase (tok : Byte) (s : Machine.State) :
    ∃ d', execManErase tok s = .next { s with dev := d' } ∧ Keeps [.cmds, .doms, .hst, .dep, .mem, .copies] s.dev d' := by
  refine effect_keeps fun d0 => ?_
  refine keeps_hostCommand rfl ?_ fun d1 => ?_
  · exact keeps_refl
  · exact keeps_mono (keeps_bodyManErase _) rfl

theorem keeps_execManSwitch (tok : Byte) (s : Machine.State) :
    ∃ d', execManSwitch tok s = .next { s with dev := d' } ∧ Keeps [.cmds, .doms, .hst, .dep, .mem, .copies] s.dev d' := by
  refine effect_keeps fun d0 => ?_
  refine keeps_hostCommand rfl ?_ fun d1 => ?_
  · exact keeps_refl
  · exact keeps_mono (keeps_bodyManSwitch _) rfl

theorem keeps_execEventLogWrite (s : Machine.State) :
    ∃ d', execEventLogWrite s = .next { s with dev := d' } ∧ Keeps [.doms, .evt, .dep, .mem, .copies] s.dev d' := by
  refine effect_keeps fun d0 => ?_
  extract_lets d1 d2
  refine keeps_through (b := d1) ?_ fun hd1 => ?_
  · unfold d1
    refine keeps_ite (fun _ => ?_) fun _ => ?_
    · exact keeps_refl
    · exact keeps_mono (keeps_needDepot _) rfl
  clear_value d1
  refine keeps_through (b := d2) ?_ fun hd2 => ?_
  · unfold d2
    refine keeps_via (keeps_queueTx _ _) rfl ?_
    exact hd1
  clear_value d2
  refine keeps_ite (fun _ => ?_) fun _ => ?_
  · refine keeps_ite (fun _ => ?_) fun _ => ?_
    · refine keeps_via (keeps_writeBuffer _) rfl ?_
      exact hd2
    · exact hd2
  · exact hd1

theorem keeps_execLogUnpin (tok : Byte) (s : Machine.State) :
    ∃ d', execLogUnpin tok s = .next { s with dev := d' } ∧ Keeps [.cmds, .doms, .hst, .dep, .mem, .copies] s.dev d' := by
  refine effect_keeps fun d0 => ?_
  refine keeps_hostCommand rfl ?_ fun d1 => ?_
  · exact keeps_refl
  · exact keeps_mono (keeps_bodyLogUnpin _) rfl

theorem keeps_execLifetimeFlushDue (s : Machine.State) :
    ∃ d', execLifetimeFlushDue s = .next { s with dev := d' } ∧ Keeps [.doms, .dep, .mem, .copies, .lif] s.dev d' := by
  refine effect_keeps fun d0 => ?_
  exact keeps_mono (keeps_flushTurn _) rfl

theorem keeps_execLifFlush (tok : Byte) (s : Machine.State) :
    ∃ d', execLifFlush tok s = .next { s with dev := d' } ∧ Keeps [.cmds, .doms, .hst, .dep, .mem, .copies, .lif] s.dev d' := by
  refine effect_keeps fun d0 => ?_
  refine keeps_hostCommand rfl ?_ fun d1 => ?_
  · exact keeps_refl
  · exact keeps_mono (keeps_bodyLifFlush _) rfl

theorem keeps_execClrK (tok : Byte) (s : Machine.State) :
    ∃ d', execClrK tok s = .next { s with dev := d' } ∧ Keeps [.cmds, .coil, .lim, .hst, .lif] s.dev d' := by
  refine effect_keeps fun d0 => ?_
  refine keeps_hostCommand rfl ?_ fun d1 => ?_
  · exact keeps_refl
  · exact keeps_mono (keeps_bodyClrK _) rfl

theorem keeps_execClrPump (tok : Byte) (s : Machine.State) :
    ∃ d', execClrPump tok s = .next { s with dev := d' } ∧ Keeps [.cmds, .hst, .lif] s.dev d' := by
  refine effect_keeps fun d0 => ?_
  refine keeps_hostCommand rfl ?_ fun d1 => ?_
  · exact keeps_refl
  · exact keeps_mono (keeps_bodyClrPump _) rfl

theorem keeps_execDepotTransactionStart (s : Machine.State) :
    ∃ d', execDepotTransactionStart s = .next { s with dev := d' } ∧ Keeps [.doms, .lgr, .evt, .dep, .mem, .copies, .lif] s.dev d' := by
  refine effect_keeps fun d0 => ?_
  refine keeps_ite (fun _ => ?_) fun _ => ?_
  · exact keeps_refl
  · extract_lets b1 d2 c3
    refine keeps_through (b := d2) ?_ fun hd2 => ?_
    · unfold d2
      exact keeps_set keeps_refl fun p => by cases p <;> first | exact .inl rfl | exact .inr rfl | exact .inr ⟨rfl, rfl⟩ | exact .inr ⟨rfl, rfl, rfl, rfl, rfl, rfl, rfl⟩
    clear_value d2
    refine keeps_through (b := c3) ?_ fun hc3 => ?_
    · unfold c3
      refine keeps_ite (fun _ => ?_) fun _ => ?_
      · exact hd2
      · refine keeps_via (keeps_startCommit _) rfl ?_
        exact hd2
    clear_value c3
    refine keeps_ite (fun _ => ?_) fun _ => ?_
    · exact hc3
    · split
      · exact hd2
      · refine keeps_via (keeps_startTx _ _) rfl ?_
        exact hd2

theorem keeps_execDepotTransactionEnd (ok : Bool) (s : Machine.State) :
    ∃ d', execDepotTransactionEnd ok s = .next { s with dev := d' } ∧ Keeps [.dep, .mem, .lif] s.dev d' := by
  refine effect_keeps fun d0 => ?_
  extract_lets held1 b2
  clear_value held1
  refine keeps_ite (fun _ => ?_) fun _ => ?_
  · refine keeps_via (keeps_txEnds _ _) rfl ?_
    exact keeps_set keeps_refl fun p => by cases p <;> first | exact .inl rfl | exact .inr rfl | exact .inr ⟨rfl, rfl⟩ | exact .inr ⟨rfl, rfl, rfl, rfl, rfl, rfl, rfl⟩
  · exact keeps_set keeps_refl fun p => by cases p <;> first | exact .inl rfl | exact .inr rfl | exact .inr ⟨rfl, rfl⟩ | exact .inr ⟨rfl, rfl, rfl, rfl, rfl, rfl, rfl⟩

theorem keeps_execAoSourceHandover (toBackup : Bool) (s : Machine.State) :
    ∃ d', execAoSourceHandover toBackup s = .next { s with dev := d' } ∧ Keeps [.sup] s.dev d' := by
  refine effect_keeps fun d0 => ?_
  exact keeps_set keeps_refl fun p => by cases p <;> first | exact .inl rfl | exact .inr rfl | exact .inr ⟨rfl, rfl⟩ | exact .inr ⟨rfl, rfl, rfl, rfl, rfl, rfl, rfl⟩

theorem keeps_execBackupCellLow (absent : Bool) (s : Machine.State) :
    ∃ d', execBackupCellLow absent s = .next { s with dev := d' } ∧ Keeps [.sup] s.dev d' := by
  refine effect_keeps fun d0 => ?_
  refine keeps_ite (fun _ => ?_) fun _ => ?_
  · refine keeps_via (keeps_raiseVbkAbsent _) rfl ?_
    exact keeps_mono (keeps_raiseVbkLow _) rfl
  · exact keeps_mono (keeps_raiseVbkLow _) rfl

theorem keeps_execBackupCellReplaced (full : Bool) (s : Machine.State) :
    ∃ d', execBackupCellReplaced full s = .next { s with dev := d' } ∧ Keeps [.sup] s.dev d' := by
  refine effect_keeps fun d0 => ?_
  exact keeps_set keeps_refl fun p => by cases p <;> first | exact .inl rfl | exact .inr rfl | exact .inr ⟨rfl, rfl⟩ | exact .inr ⟨rfl, rfl, rfl, rfl, rfl, rfl, rfl⟩

theorem keeps_execCrystalFailover (s : Machine.State) :
    ∃ d', execCrystalFailover s = .next { s with dev := d' } ∧ Keeps [.sup, .tol] s.dev d' := by
  refine effect_keeps fun d0 => ?_
  refine keeps_via (keeps_setTimeValid _ _) rfl ?_
  exact keeps_set keeps_refl fun p => by cases p <;> first | exact .inl rfl | exact .inr rfl | exact .inr ⟨rfl, rfl⟩ | exact .inr ⟨rfl, rfl, rfl, rfl, rfl, rfl, rfl⟩

theorem keeps_execCrystalReturn (s : Machine.State) :
    ∃ d', execCrystalReturn s = .next { s with dev := d' } ∧ Keeps [.sup] s.dev d' := by
  refine effect_keeps fun d0 => ?_
  exact keeps_set keeps_refl fun p => by cases p <;> first | exact .inl rfl | exact .inr rfl | exact .inr ⟨rfl, rfl⟩ | exact .inr ⟨rfl, rfl, rfl, rfl, rfl, rfl, rfl⟩

theorem keeps_execRtcCorrection (temp : Rat) (s : Machine.State) :
    ∃ d', execRtcCorrection temp s = .next { s with dev := d' } ∧ Keeps [.sup] s.dev d' := by
  refine effect_keeps fun d0 => ?_
  split
  · exact keeps_refl
  · refine keeps_ite (fun _ => ?_) fun _ => ?_
    · exact keeps_refl
    · extract_lets r1 b2
      clear_value r1
      exact keeps_set keeps_refl fun p => by cases p <;> first | exact .inl rfl | exact .inr rfl | exact .inr ⟨rfl, rfl⟩ | exact .inr ⟨rfl, rfl, rfl, rfl, rfl, rfl, rfl⟩

theorem keeps_execAlarm (s : Machine.State) :
    ∃ d', execAlarm s = .next { s with dev := d' } ∧ Keeps [.sup] s.dev d' := by
  refine effect_keeps fun d0 => ?_
  split
  · refine keeps_ite (fun _ => ?_) fun _ => ?_
    · exact keeps_set keeps_refl fun p => by cases p <;> first | exact .inl rfl | exact .inr rfl | exact .inr ⟨rfl, rfl⟩ | exact .inr ⟨rfl, rfl, rfl, rfl, rfl, rfl, rfl⟩
    · exact keeps_refl
  · exact keeps_refl

theorem keeps_execSetTime (tok : Byte) (s : Machine.State) :
    ∃ d', execSetTime tok s = .next { s with dev := d' } ∧ Keeps [.cmds, .sup, .seq, .chn, .est, .tol, .hst] s.dev d' := by
  refine effect_keeps fun d0 => ?_
  refine keeps_hostCommand rfl ?_ fun d1 => ?_
  · exact keeps_refl
  · exact keeps_mono (keeps_bodySetTime _) rfl

theorem keeps_execArmAlarm (tok : Byte) (s : Machine.State) :
    ∃ d', execArmAlarm tok s = .next { s with dev := d' } ∧ Keeps [.cmds, .sup, .hst] s.dev d' := by
  refine effect_keeps fun d0 => ?_
  refine keeps_hostCommand rfl ?_ fun d1 => ?_
  · exact keeps_refl
  · exact keeps_mono (keeps_bodyArmAlarm _) rfl

theorem keeps_execDisarm (tok : Byte) (s : Machine.State) :
    ∃ d', execDisarm tok s = .next { s with dev := d' } ∧ Keeps [.cmds, .sup, .hst] s.dev d' := by
  refine effect_keeps fun d0 => ?_
  refine keeps_hostCommand rfl ?_ fun d1 => ?_
  · exact keeps_refl
  · exact keeps_mono (keeps_bodyDisarm _) rfl

theorem keeps_execEnergyShadowWrite (s : Machine.State) :
    ∃ d', execEnergyShadowWrite s = .next { s with dev := d' } ∧ Keeps [.doms, .dep, .mem, .copies] s.dev d' := by
  refine effect_keeps fun d0 => ?_
  refine keeps_ite (fun _ => ?_) fun _ => ?_
  · extract_lets d1
    refine keeps_through (b := d1) ?_ fun hd1 => ?_
    · unfold d1
      exact keeps_mono (keeps_writeEnergy _) rfl
    clear_value d1
    refine keeps_ite (fun _ => ?_) fun _ => ?_
    · refine keeps_via (keeps_depotWrite _ _) rfl ?_
      exact hd1
    · exact hd1
  · exact keeps_refl

theorem keeps_execFinalShadowWrite (s : Machine.State) :
    ∃ d', execFinalShadowWrite s = .next { s with dev := d' } ∧ Keeps [.doms, .dep, .mem, .copies] s.dev d' := by
  refine effect_keeps fun d0 => ?_
  refine keeps_ite (fun _ => ?_) fun _ => ?_
  · exact keeps_mono (keeps_writeEnergy _) rfl
  · exact keeps_refl

theorem keeps_execPowerFailWarning (s : Machine.State) :
    ∃ d', execPowerFailWarning s = .next { s with dev := d' } ∧ Keeps [.sup, .doms, .stamp, .mode, .seq, .coil, .lim, .pwr, .saf, .tol, .lgr, .can0, .can1, .evt, .dep, .mem, .copies, .lif] s.dev d' := by
  refine effect_keeps fun d0 => ?_
  exact keeps_mono (keeps_pfWarning _) rfl

theorem keeps_execFinalCommitComplete (s : Machine.State) :
    ∃ d', execFinalCommitComplete s = .next { s with dev := d' } ∧ Keeps [.sup, .doms, .lgr, .dep, .mem, .copies] s.dev d' := by
  refine effect_keeps fun d0 => ?_
  refine keeps_ite (fun _ => ?_) fun _ => ?_
  · exact keeps_refl
  · split
    · exact keeps_refl
    · refine keeps_via (keeps_enterHoldPf _) rfl ?_
      exact keeps_mono (keeps_finalCommit _) rfl
    · refine keeps_via (keeps_enterHoldPf _) rfl ?_
      exact keeps_mono (keeps_shadowCommit _) rfl

theorem keeps_execPfWarnClear (s : Machine.State) :
    ∃ d', execPfWarnClear s = .next { s with dev := d' } ∧ Keeps [.sup, .tol] s.dev d' := by
  refine effect_keeps fun d0 => ?_
  extract_lets d1 b2
  refine keeps_through (b := d1) ?_ fun hd1 => ?_
  · unfold d1
    refine keeps_ite (fun _ => ?_) fun _ => ?_
    · exact keeps_mono (keeps_markSession _ _) rfl
    · exact keeps_refl
  clear_value d1
  refine keeps_set (b := d1) ?_ fun p => by cases p <;> first | exact .inl rfl | exact .inr rfl | exact .inr ⟨rfl, rfl⟩ | exact .inr ⟨rfl, rfl, rfl, rfl, rfl, rfl, rfl⟩
  exact hd1

theorem keeps_execPowerGood (m : MusterInputs) (s : Machine.State) :
    ∃ d', execPowerGood m s = .next { s with dev := d' } ∧ Keeps [.sup, .doms, .stamp, .sys, .mode, .seq, .coil, .chn, .sen, .est, .lim, .pwr, .saf, .tol, .lgr, .can0, .can1, .inh, .hst, .evt, .dep, .mem, .copies, .lif, .man] s.dev d' := by
  refine effect_keeps fun d0 => ?_
  refine keeps_ite (fun _ => ?_) fun _ => ?_
  · refine keeps_via (keeps_startUp _ _) rfl ?_
    exact keeps_set keeps_refl fun p => by cases p <;> first | exact .inl rfl | exact .inr rfl | exact .inr ⟨rfl, rfl⟩ | exact .inr ⟨rfl, rfl, rfl, rfl, rfl, rfl, rfl⟩
  · exact keeps_refl

theorem keeps_execBrownOut (s : Machine.State) :
    ∃ d', execBrownOut s = .next { s with dev := d' } ∧ Keeps [.cmds, .sup, .doms, .stamp, .sys, .mode, .seq, .coil, .eng, .insp, .chn, .sen, .est, .lim, .pwr, .saf, .tol, .lgr, .can0, .can1, .wakeDet, .inh, .hst, .evt, .dep, .copies, .lif, .man] s.dev d' := by
  refine effect_keeps fun d0 => ?_
  exact keeps_mono (keeps_brownOut _) rfl

theorem keeps_execPinReset (m : MusterInputs) (s : Machine.State) :
    ∃ d', execPinReset m s = .next { s with dev := d' } ∧ Keeps [.cmds, .sup, .doms, .stamp, .sys, .mode, .seq, .coil, .eng, .insp, .chn, .sen, .est, .lim, .pwr, .saf, .tol, .lgr, .can0, .can1, .wakeDet, .inh, .hst, .evt, .dep, .mem, .copies, .lif, .man] s.dev d' := by
  refine effect_keeps fun d0 => ?_
  refine keeps_ite (fun _ => ?_) fun _ => ?_
  · refine keeps_via (keeps_startUp _ _) rfl ?_
    exact keeps_mono (keeps_resetWith _ _) rfl
  · exact keeps_refl

theorem keeps_execRetentionLoss (m : MusterInputs) (s : Machine.State) :
    ∃ d', execRetentionLoss m s = .next { s with dev := d' } ∧ Keeps [.cmds, .sup, .doms, .stamp, .sys, .mode, .seq, .coil, .eng, .insp, .chn, .sen, .est, .lim, .pwr, .saf, .tol, .lgr, .can0, .can1, .wakeDet, .inh, .hst, .evt, .dep, .mem, .copies, .lif, .man] s.dev d' := by
  refine effect_keeps fun d0 => ?_
  exact keeps_mono (keeps_retentionLost _ _) rfl

theorem keeps_execPowerFailRecovery (m : MusterInputs) (s : Machine.State) :
    ∃ d', execPowerFailRecovery m s = .next { s with dev := d' } ∧ Keeps [.cmds, .sup, .doms, .stamp, .sys, .mode, .seq, .coil, .eng, .insp, .chn, .sen, .est, .lim, .pwr, .saf, .tol, .lgr, .can0, .can1, .wakeDet, .inh, .hst, .evt, .dep, .mem, .copies, .lif, .man] s.dev d' := by
  refine effect_keeps fun d0 => ?_
  refine keeps_ite (fun _ => ?_) fun _ => ?_
  · refine keeps_via (keeps_startUp _ _) rfl ?_
    exact keeps_mono (keeps_resetWith _ _) rfl
  · exact keeps_refl

theorem keeps_execMainClockFailure (m : MusterInputs) (s : Machine.State) :
    ∃ d', execMainClockFailure m s = .next { s with dev := d' } ∧ Keeps [.cmds, .sup, .doms, .stamp, .sys, .mode, .seq, .coil, .eng, .insp, .chn, .sen, .est, .lim, .pwr, .saf, .tol, .lgr, .can0, .can1, .wakeDet, .inh, .hst, .evt, .dep, .mem, .copies, .lif, .man] s.dev d' := by
  refine effect_keeps fun d0 => ?_
  exact keeps_mono (keeps_clockFails _ _) rfl

theorem keeps_execFrameWatchdogTrip (m : MusterInputs) (s : Machine.State) :
    ∃ d', execFrameWatchdogTrip m s = .next { s with dev := d' } ∧ Keeps [.cmds, .sup, .doms, .stamp, .sys, .mode, .seq, .coil, .eng, .insp, .chn, .sen, .est, .lim, .pwr, .saf, .tol, .lgr, .can0, .can1, .wakeDet, .inh, .hst, .evt, .dep, .mem, .copies, .lif, .man] s.dev d' := by
  refine effect_keeps fun d0 => ?_
  exact keeps_mono (keeps_watchdogTrips _ _) rfl

theorem keeps_execResetCmd (tok : Byte) (m : MusterInputs) (s : Machine.State) :
    ∃ d', execResetCmd tok m s = .next { s with dev := d' } ∧ Keeps [.cmds, .sup, .doms, .stamp, .sys, .mode, .seq, .coil, .eng, .insp, .chn, .sen, .est, .lim, .pwr, .saf, .tol, .lgr, .can0, .can1, .wakeDet, .inh, .hst, .evt, .dep, .mem, .copies, .lif, .man] s.dev d' := by
  refine effect_keeps fun d0 => ?_
  refine keeps_hostCommand rfl ?_ fun d1 => ?_
  · exact keeps_refl
  · exact keeps_mono (keeps_bodyReset _ _) rfl

theorem keeps_execWatchSweep (snaps : List SnapReading) (s : Machine.State) :
    ∃ d', execWatchSweep snaps s = .next { s with dev := d' } ∧ Keeps [.chn, .est, .lif] s.dev d' := by
  refine effect_keeps fun d0 => ?_
  refine keeps_ite (fun _ => ?_) fun _ => ?_
  · exact keeps_mono (keeps_sweep _ _) rfl
  · exact keeps_refl

theorem keeps_execWake (src : WakeSource) (m : MusterInputs) (s : Machine.State) :
    ∃ d', execWake src m s = .next { s with dev := d' } ∧ Keeps [.sup, .doms, .stamp, .sys, .mode, .seq, .coil, .chn, .sen, .est, .lim, .pwr, .saf, .tol, .lgr, .can0, .can1, .wakeDet, .inh, .hst, .evt, .dep, .mem, .copies, .lif, .man] s.dev d' := by
  refine effect_keeps fun d0 => ?_
  exact keeps_mono (keeps_wake _ _ _) rfl

theorem keeps_execCall (f : CanFrame) (m : MusterInputs) (s : Machine.State) :
    ∃ d', execCall f m s = .next { s with dev := d' } ∧ Keeps [.sup, .doms, .stamp, .sys, .mode, .seq, .coil, .chn, .sen, .est, .lim, .pwr, .saf, .tol, .lgr, .can0, .can1, .wakeDet, .inh, .hst, .evt, .dep, .mem, .copies, .lif, .man] s.dev d' := by
  refine effect_keeps fun d0 => ?_
  extract_lets b1 d2
  refine keeps_through (b := d2) ?_ fun hd2 => ?_
  · unfold d2
    refine keeps_ite (fun _ => ?_) fun _ => ?_
    · exact keeps_set keeps_refl fun p => by cases p <;> first | exact .inl rfl | exact .inr rfl | exact .inr ⟨rfl, rfl⟩ | exact .inr ⟨rfl, rfl, rfl, rfl, rfl, rfl, rfl⟩
    · exact keeps_refl
  clear_value d2
  refine keeps_ite (fun _ => ?_) fun _ => ?_
  · refine keeps_via (keeps_wake _ _ _) rfl ?_
    exact hd2
  · exact hd2

theorem keeps_execPop (tok : Byte) (s : Machine.State) :
    ∃ d', execPop tok s = .next { s with dev := d' } ∧ Keeps [.cmds, .hst] s.dev d' := by
  refine effect_keeps fun d0 => ?_
  refine keeps_hostCommand rfl ?_ fun d1 => ?_
  · exact keeps_refl
  · exact keeps_mono (keeps_bodyPop _) rfl

theorem keeps_execHstCntClr (tok : Byte) (s : Machine.State) :
    ∃ d', execHstCntClr tok s = .next { s with dev := d' } ∧ Keeps [.cmds, .hst] s.dev d' := by
  refine effect_keeps fun d0 => ?_
  refine keeps_hostCommand rfl ?_ fun d1 => ?_
  · exact keeps_refl
  · exact keeps_mono (keeps_bodyHstCntClr _) rfl

theorem keeps_execSeam (s : Machine.State) :
    ∃ d', execSeam s = .next { s with dev := d' } ∧ Keeps [.eng, .est, .lim, .can0, .can1, .lif] s.dev d' := by
  refine effect_keeps fun d0 => ?_
  refine keeps_ite (fun _ => ?_) fun _ => ?_
  · exact keeps_mono (keeps_dueSeam _) rfl
  · exact keeps_refl

theorem keeps_execClassCPeriod (s : Machine.State) :
    ∃ d', execClassCPeriod s = .next { s with dev := d' } ∧ Keeps [.eng, .est, .lim, .pwr, .can0, .can1, .dep, .lif] s.dev d' := by
  refine effect_keeps fun d0 => ?_
  refine keeps_ite (fun _ => ?_) fun _ => ?_
  · exact keeps_mono (keeps_dueStarts _) rfl
  · exact keeps_refl

theorem keeps_execEngineFrame (f : FrameInputs) (s : Machine.State) :
    ∃ d', execEngineFrame f s = .next { s with dev := d' } ∧ Keeps [.cmds, .sup, .doms, .stamp, .sys, .mode, .seq, .coil, .eng, .insp, .chn, .sen, .est, .lim, .pwr, .saf, .tol, .lgr, .can0, .can1, .wakeDet, .inh, .hst, .evt, .dep, .mem, .copies, .lif, .man] s.dev d' := by
  refine effect_keeps fun d0 => ?_
  refine keeps_ite (fun _ => ?_) fun _ => ?_
  · exact keeps_mono (keeps_runFrame _ _) rfl
  · exact keeps_refl

theorem keeps_execInjectionTest (okA : Bool) (okB : Bool) (s : Machine.State) :
    ∃ d', execInjectionTest okA okB s = .next { s with dev := d' } ∧ Keeps [.stamp, .mode, .seq, .coil, .eng, .lim, .pwr, .saf, .tol, .can0, .can1, .evt, .lif] s.dev d' := by
  refine effect_keeps fun d0 => ?_
  refine keeps_ite (fun _ => ?_) fun _ => ?_
  · exact keeps_mono (keeps_injection _ _ _) rfl
  · exact keeps_refl

theorem keeps_execIpStatus (op : BitVec 4) (crc : Byte) (s : Machine.State) :
    ∃ d', execIpStatus op crc s = .next { s with dev := d' } ∧ Keeps [.insp] s.dev d' := by
  refine effect_keeps fun d0 => ?_
  refine keeps_ip rfl ?_ fun d1 => ?_
  · exact keeps_refl
  · refine keeps_ite_fst (fun _ => ?_) fun _ => ?_
    · exact keeps_mono (keeps_ipStatusBody _) rfl
    · exact keeps_mono (keeps_ipRefused _) rfl

theorem keeps_execHalt (crc : Byte) (s : Machine.State) :
    ∃ d', execHalt crc s = .next { s with dev := d' } ∧ Keeps [.insp] s.dev d' := by
  refine effect_keeps fun d0 => ?_
  refine keeps_ip rfl ?_ fun d1 => ?_
  · exact keeps_refl
  · exact keeps_mono (keeps_haltBody _) rfl

theorem keeps_execEngineHalt (s : Machine.State) :
    ∃ d', execEngineHalt s = .next { s with dev := d' } ∧ Keeps [.sup, .insp, .lim, .can0, .can1] s.dev d' := by
  refine effect_keeps fun d0 => ?_
  exact keeps_mono (keeps_engineHalts _) rfl

theorem keeps_execIpResume (crc : Byte) (s : Machine.State) :
    ∃ d', execIpResume crc s = .next { s with dev := d' } ∧ Keeps [.doms, .eng, .insp, .chn, .dep] s.dev d' := by
  refine effect_keeps fun d0 => ?_
  refine keeps_ip rfl ?_ fun d1 => ?_
  · exact keeps_refl
  · exact keeps_mono (keeps_resumeBody _) rfl

theorem keeps_execIpStep (crc : Byte) (f : FrameInputs) (s : Machine.State) :
    ∃ d', execIpStep crc f s = .next { s with dev := d' } ∧ Keeps [.cmds, .sup, .doms, .stamp, .sys, .mode, .seq, .coil, .eng, .insp, .chn, .sen, .est, .lim, .pwr, .saf, .tol, .lgr, .can0, .can1, .wakeDet, .inh, .hst, .evt, .dep, .mem, .copies, .lif, .man] s.dev d' := by
  refine effect_keeps fun d0 => ?_
  refine keeps_ip rfl ?_ fun d1 => ?_
  · exact keeps_refl
  · exact keeps_mono (keeps_stepBody _ _) rfl

theorem keeps_execIpRead (addr : Word) (crc : Byte) (s : Machine.State) :
    ∃ d', execIpRead addr crc s = .next { s with dev := d' } ∧ Keeps [.insp] s.dev d' := by
  refine effect_keeps fun d0 => ?_
  refine keeps_ip rfl ?_ fun d1 => ?_
  · exact keeps_refl
  · exact keeps_mono (keeps_readBody _ _) rfl

theorem keeps_execLeadViewCapture (s : Machine.State) :
    ∃ d', execLeadViewCapture s = .next { s with dev := d' } ∧ Keeps [.insp] s.dev d' := by
  refine effect_keeps fun d0 => ?_
  exact keeps_mono (keeps_captureLead _) rfl

theorem keeps_execIpWrite (addr : Word) (data : Word) (crc : Byte) (s : Machine.State) :
    ∃ d', execIpWrite addr data crc s = .next { s with dev := d' } ∧ Keeps [.stamp, .mode, .seq, .coil, .eng, .insp, .lim, .pwr, .saf, .tol, .can0, .can1, .evt, .lif] s.dev d' := by
  refine effect_keeps fun d0 => ?_
  refine keeps_ip rfl ?_ fun d1 => ?_
  · exact keeps_refl
  · exact keeps_mono (keeps_writeBody _ _ _) rfl

theorem keeps_execTraceCtl (data : Word) (crc : Byte) (s : Machine.State) :
    ∃ d', execTraceCtl data crc s = .next { s with dev := d' } ∧ Keeps [.insp] s.dev d' := by
  refine effect_keeps fun d0 => ?_
  refine keeps_ip rfl ?_ fun d1 => ?_
  · exact keeps_refl
  · exact keeps_mono (keeps_traceCtlBody _ _) rfl

theorem keeps_execTracePop (crc : Byte) (s : Machine.State) :
    ∃ d', execTracePop crc s = .next { s with dev := d' } ∧ Keeps [.insp] s.dev d' := by
  refine effect_keeps fun d0 => ?_
  refine keeps_ip rfl ?_ fun d1 => ?_
  · exact keeps_refl
  · exact keeps_mono (keeps_tracePopBody _) rfl

theorem keeps_execReplayStat (crc : Byte) (s : Machine.State) :
    ∃ d', execReplayStat crc s = .next { s with dev := d' } ∧ Keeps [.insp] s.dev d' := by
  refine effect_keeps fun d0 => ?_
  refine keeps_ip rfl ?_ fun d1 => ?_
  · exact keeps_refl
  · exact keeps_mono (keeps_replayStatBody _) rfl

theorem keeps_execAccessComplete (s : Machine.State) :
    ∃ d', execAccessComplete s = .next { s with dev := d' } ∧ Keeps [.cmds, .sup, .doms, .stamp, .sys, .mode, .seq, .coil, .eng, .insp, .chn, .sen, .est, .lim, .pwr, .saf, .tol, .lgr, .can0, .can1, .wakeDet, .inh, .hst, .evt, .dep, .mem, .copies, .lif, .man] s.dev d' := by
  refine effect_keeps fun d0 => ?_
  exact keeps_mono (keeps_accessCompletes _) rfl

theorem keeps_execRegisterWrite (addr : Addr) (data : Word) (s : Machine.State) :
    ∃ d', execRegisterWrite addr data s = .next { s with dev := d' } ∧ Keeps [.cmds, .sup, .doms, .stamp, .sys, .mode, .seq, .coil, .eng, .insp, .chn, .sen, .est, .lim, .pwr, .saf, .tol, .lgr, .can0, .can1, .wakeDet, .inh, .hst, .evt, .dep, .mem, .copies, .lif, .man] s.dev d' := by
  refine effect_keeps fun d0 => ?_
  exact keeps_mono (keeps_writeFrame _ _ _ _) rfl

theorem keeps_execWindowAccessInc (addr : Addr) (write : Option Word) (s : Machine.State) :
    ∃ d', execWindowAccessInc addr write s = .next { s with dev := d' } ∧ Keeps [.cmds, .sup, .doms, .stamp, .sys, .mode, .seq, .coil, .eng, .insp, .chn, .sen, .est, .lim, .pwr, .saf, .tol, .lgr, .can0, .can1, .wakeDet, .inh, .hst, .evt, .dep, .mem, .copies, .lif, .man] s.dev d' := by
  refine effect_keeps fun d0 => ?_
  split
  · exact keeps_mono (keeps_writeFrame _ _ _ _) rfl
  · exact keeps_mono (keeps_readFrame _ _ _) rfl

theorem keeps_execUnknownCommand (reg : CmdReg) (tok : Byte) (code : Byte) (s : Machine.State) :
    ∃ d', execUnknownCommand reg tok code s = .next { s with dev := d' } ∧ Keeps [.cmds, .sup, .doms, .stamp, .sys, .mode, .seq, .coil, .eng, .insp, .chn, .sen, .est, .lim, .pwr, .saf, .tol, .lgr, .can0, .can1, .wakeDet, .inh, .hst, .evt, .dep, .mem, .copies, .lif, .man] s.dev d' := by
  refine effect_keeps fun d0 => ?_
  refine keeps_hostCommand rfl ?_ fun d1 => ?_
  · exact keeps_refl
  · extract_lets x2
    refine keeps_through (b := x2.1) ?_ fun hx2 => ?_
    · unfold x2
      exact keeps_mono (keeps_bodyOf _ _ _) rfl
    clear_value x2
    refine keeps_ite_fst (fun _ => ?_) fun _ => ?_
    · refine keeps_via (keeps_drained _ _) rfl ?_
      exact hx2
    · exact hx2

theorem keeps_execNop (s : Machine.State) :
    ∃ d', execNop s = .next { s with dev := d' } ∧ Keeps [.hst] s.dev d' := by
  refine effect_keeps fun d0 => ?_
  exact keeps_mono (keeps_nopFrame _) rfl

theorem keeps_execAbort (s : Machine.State) :
    ∃ d', execAbort s = .next { s with dev := d' } ∧ Keeps [.hst] s.dev d' := by
  refine effect_keeps fun d0 => ?_
  exact keeps_mono (keeps_abortFrame _) rfl

theorem keeps_execBadFrame (raw : BitVec 48) (edges : Nat) (s : Machine.State) :
    ∃ d', execBadFrame raw edges s = .next { s with dev := d' } ∧ Keeps [.hst] s.dev d' := by
  refine effect_keeps fun d0 => ?_
  exact keeps_mono (keeps_badFrame _ _ _) rfl

theorem keeps_execDomainStarted (dom : Domain) (s : Machine.State) :
    ∃ d', execDomainStarted dom s = .next { s with dev := d' } ∧ Keeps [.doms, .stamp, .mode, .seq, .coil, .chn, .sen, .est, .lim, .pwr, .saf, .tol, .can0, .can1, .hst, .evt, .dep, .mem, .lif] s.dev d' := by
  refine effect_keeps fun d0 => ?_
  exact keeps_mono (keeps_domainStarts _ _) rfl

theorem keeps_execWatchEntryComplete (s : Machine.State) :
    ∃ d', execWatchEntryComplete s = .next { s with dev := d' } ∧ Keeps [.sup, .doms, .mode, .chn, .est, .pwr, .saf, .wakeDet, .inh, .evt, .dep] s.dev d' := by
  refine effect_keeps fun d0 => ?_
  refine keeps_ite (fun _ => ?_) fun _ => ?_
  · exact keeps_mono (keeps_enterWatch _) rfl
  · exact keeps_refl

theorem keeps_execDomainStop (dom : Domain) (s : Machine.State) :
    ∃ d', execDomainStop dom s = .next { s with dev := d' } ∧ Keeps [.doms] s.dev d' := by
  refine effect_keeps fun d0 => ?_
  exact keeps_mono (keeps_domainStops _ _) rfl

end Sys2Proof.Laws
end

