-- ==== Sys2Proof/Laws/HostPort.lean ====
section
/-! SUPPORT. What a frame that makes an access does, said once. -/
namespace Sys2Proof.Laws

open Sys2Proof.Machine Sys2Proof.Safety

theorem conclude_of (d : Dev) (a : Access) (frame : BitVec 4) (r : Performed) (h : d.perform a = r) (hf : a.fetchable = true) :
    d.conclude a frame =
      (let x := if r.err = 0 then r.dev else r.dev.frameError r.err frame a.opcode a.address
       ({ x with hst := { x.hst with fetch := some (BitVec.ofNat 3 r.err, r.data) } }, r.err, r.data)) := by
  unfold Dev.conclude
  rw [h]
  dsimp only
  rw [if_pos hf]

theorem perform_write_ok {d d' : Dev} {a : Addr} {data : Word} (h : d.writeReg a.toNat data = .ok d') :
    d.perform (.write a data) = { dev := d'.cfgCheck, err := 0, data := d'.cfgCheck.peek a.toNat } := by
  unfold Dev.perform
  dsimp only
  generalize d.writeReg a.toNat data = r at h
  subst h
  rfl

theorem perform_write_error {d : Dev} {a : Addr} {data : Word} {e : Nat} (h : d.writeReg a.toNat data = .error e) :
    d.perform (.write a data) = { dev := d, err := e, data := 0 } := by
  unfold Dev.perform
  dsimp only
  generalize d.writeReg a.toNat data = r at h
  subst h
  rfl

/-- A completed WRITE as its frame is answered. -/
theorem concludeWrite (d : Dev) (a : Addr) (data : Word) (frame : BitVec 4) :
    (d.conclude (.write a data) frame).1.respond (BitVec.ofNat 3 (d.conclude (.write a data) frame).2.1) false 0
      (d.conclude (.write a data) frame).2.2 =
    (match d.writeReg a.toNat data with
      | .ok d' => answered d'.cfgCheck 0 (d'.cfgCheck.peek a.toNat)
      | .error e => if e = 0 then answered d 0 0 else answered (d.frameError e frame 2 a.toNat) (BitVec.ofNat 3 e) 0) := by
  cases h : d.writeReg a.toNat data with
  | ok d' =>
    rw [conclude_of d (.write a data) frame _ (perform_write_ok h) rfl]
    dsimp only
    rw [if_pos rfl]
    generalize d'.cfgCheck.peek a.toNat = v
    simp only [Dev.respond, answered]
    rfl
  | error e =>
    rw [conclude_of d (.write a data) frame _ (perform_write_error h) rfl]
    by_cases he : e = 0
    · subst he
      simp only [Dev.respond, answered, if_true]; rfl
    · simp only [he, if_false, Dev.respond, answered, Access.opcode, Access.address, Bool.false_eq_true]

/-- A register served at once answers a WRITE with what the write does. -/
theorem writeFrame_serves {d : Dev} {a : Addr} (h : serves d a.toNat) (hc : cmdAt a.toNat = none) (hw : a ≠ 0x212)
    (hl : registerListed a.toNat = true) (data : Word) :
    d.writeFrame a data = (match (framed d).writeReg a.toNat data with
      | .ok d' => answered d'.cfgCheck 0 (d'.cfgCheck.peek a.toNat)
      | .error e => if e = 0 then answered (framed d) 0 0 else answered ((framed d).frameError e (d.hst.frame + 1) 2 a.toNat) (BitVec.ofNat 3 e) 0) := by
  obtain ⟨ha, hn, hs, hr⟩ := h
  unfold Dev.writeFrame
  rw [hc]
  dsimp only
  rw [if_neg hw]
  unfold Dev.accessFrame
  rw [if_neg (by simp [ha])]
  dsimp only
  rw [if_neg (by simp [Dev.addressBad, hl])]
  rw [if_neg (show ¬ d.numberFrame.hst.access.isSome = true by simp [Dev.numberFrame, hn])]
  have hrun : (({ d.numberFrame with hst := { d.numberFrame.hst with fetch := none } } : Dev).runsFor
      (({ d.numberFrame with hst := { d.numberFrame.hst with fetch := none } } : Dev).accessNeeds (.write a data)) &&
      !({ d.numberFrame with hst := { d.numberFrame.hst with fetch := none } } : Dev).slowAccess (.write a data)) = true := by
    rw [Bool.and_eq_true]
    exact ⟨hr, by show (!inAlwaysOn a.toNat) = true; rw [hs]; rfl⟩
  rw [if_pos hrun]
  show (Dev.respond ((framed d).conclude (.write a data) (d.hst.frame + 1)).1 _ false 0 _) = _
  exact concludeWrite ..

/-- A WRITE that its register takes. -/
theorem writes_ok {s : State} {a : Addr} {data : Word} {n : Nat} (f : Dev → Dev) (hn : a.toNat = n) (h : serves s.dev n)
    (hc : cmdAt n = none) (hw : n ≠ 0x212) (hl : registerListed n = true)
    (hr : (framed s.dev).writeReg n data = .ok (f (framed s.dev))) :
    s.writes a data = .next { s with dev := written s.dev n f } := by
  subst hn
  unfold State.writes State.effect
  dsimp only
  rw [writeFrame_serves h hc (by intro e; subst e; exact hw rfl) hl, hr]
  rfl

/-- A WRITE that its register refuses. -/
theorem writes_error {s : State} {a : Addr} {data : Word} {n e : Nat} (hn : a.toNat = n) (h : serves s.dev n)
    (hc : cmdAt n = none) (hw : n ≠ 0x212) (hl : registerListed n = true) (he : e ≠ 0)
    (hr : (framed s.dev).writeReg n data = .error e) : s.writes a data = .next { s with dev := writeRefused s.dev n e } := by
  subst hn
  unfold State.writes State.effect
  dsimp only
  rw [writeFrame_serves h hc (by intro e; subst e; exact hw rfl) hl, hr]
  dsimp only
  rw [if_neg he]
  rfl

/-! ### Settings -/

/-- A settings write that is in range and not locked is taken. -/
theorem store_ok {d : Dev} {old data rw rwl : Word} {r : Bool} {set : Word → Dev} (hr : r = true)
    (hl : d.lockRefuses old data rwl = false) : d.store old data rw rwl r set = .ok (set (mergeBits old data rw)) := by
  unfold Dev.store
  rw [hr, hl]; rfl

/-- A settings write out of range or locked is refused. -/
theorem store_refused {d : Dev} {old data rw rwl : Word} {r : Bool} {set : Word → Dev}
    (h : r = false ∨ d.lockRefuses old data rwl = true) : d.store old data rw rwl r set = .error 4 := by
  unfold Dev.store
  rcases h with h | h
  · rw [h]; rfl
  · rw [h]; cases r <;> rfl

@[simp] theorem lockRefuses_zero (d : Dev) (a b : Word) : d.lockRefuses a b 0 = false := by simp [Dev.lockRefuses]

theorem inField_iff (d : Word) (a b c e : Nat) : inField d a b c e = true ↔ c ≤ field d a b ∧ field d a b ≤ e := by
  simp [inField]

theorem writeReg_modecfg (d : Dev) (w : Word) : d.writeReg 0x081 w =
    d.store d.eng.modecfg w 0x0000FF 0x0000F0 (modecfgOk w) fun w => { d with eng := { d.eng with modecfg := w } } := by
  simp [Dev.writeReg, registerListed, Dev.writeEng]

theorem writeReg_retrycfg (d : Dev) (w : Word) : d.writeReg 0x0A2 w =
    d.store d.chn.retrycfg w 0xFFFF07 0 (inField w 16 8 1 100 &&
        ({ d.chn with retrycfg := mergeBits d.chn.retrycfg w 0xFFFF07 } : Chn).retryOk)
      fun _ => { d with chn := { d.chn with retrycfg := mergeBits d.chn.retrycfg w 0xFFFF07 } } := by
  simp [Dev.writeReg, registerListed, Dev.writeChn]

theorem writeReg_stalecfg (d : Dev) (w : Word) : d.writeReg 0x0A3 w =
    d.store d.chn.stalecfg w 0x000FFF 0x000FFF (inField w 0 12 200 2000 &&
        ({ d.chn with stalecfg := mergeBits d.chn.stalecfg w 0x000FFF } : Chn).retryOk)
      fun _ => { d with chn := { d.chn with stalecfg := mergeBits d.chn.stalecfg w 0x000FFF } } := by
  simp [Dev.writeReg, registerListed, Dev.writeChn]

theorem writeReg_sencfg (d : Dev) (w : Word) : d.writeReg 0x0C0 w =
    d.store d.sen.cfg w 0x0000FF 0x0000FF (inField w 0 2 0 2) d.setSenCfg := by
  simp [Dev.writeReg, registerListed, Dev.writeSen]

theorem writeReg_depcfg (d : Dev) (w : Word) : d.writeReg 0x221 w =
    d.store d.dep.cfg w 0x00010F 0x00000F (inField w 0 2 0 2) fun w => { d with dep := { d.dep with cfg := w } } := by
  simp [Dev.writeReg, registerListed, Dev.writeDep]

theorem writeReg_can (d : Dev) (w : Word) (ch : Ch) (o : Nat) (h : o < 0x1E) :
    d.writeReg (canBase ch + o) w = d.writeCan ch w o := by
  cases ch
  · have e : canBase .can0 + o = 0x1C0 + o := rfl
    have hl : registerListed (0x1C0 + o) = true := by
      have : decide (448 ≤ 448 + o) = true ∧ decide (448 + o ≤ 509) = true := by simp; omega
      simp [registerListed, this]
    rw [e]
    unfold Dev.writeReg
    rw [hl]
    repeat first | rw [if_neg (by omega)] | rw [if_neg (by decide)]
    rw [if_pos (by omega), Nat.add_sub_cancel_left]
  · have e : canBase .can1 + o = 0x1E0 + o := rfl
    have hl : registerListed (0x1E0 + o) = true := by
      have : decide (448 ≤ 480 + o) = true ∧ decide (480 + o ≤ 509) = true := by simp; omega
      simp [registerListed, this]
    rw [e]
    unfold Dev.writeReg
    rw [hl]
    repeat first | rw [if_neg (by omega)] | rw [if_neg (by decide)]
    rw [if_pos (by omega), Nat.add_sub_cancel_left]

theorem writeReg_cancfg (d : Dev) (w : Word) (ch : Ch) : d.writeReg (canBase ch) w =
    d.store (d.can ch).cfg w 0xFC000F 0xFC000F
      ({ d.can ch with cfg := mergeBits (d.can ch).cfg w 0xFC000F } : Can).retryOk
      fun _ => d.setCan ch { d.can ch with cfg := mergeBits (d.can ch).cfg w 0xFC000F } :=
  (writeReg_can d w ch 0 (by decide)).trans rfl

theorem writeReg_pubcfg (d : Dev) (w : Word) (ch : Ch) : d.writeReg (canBase ch + 0x1B) w =
    d.store (d.can ch).pubcfg w 0x3F07FF 0x3F07FF true fun w =>
      if w = (d.can ch).pubcfg then d
      else d.setCan ch ((Can.programMailboxes { d.can ch with pubcfg := w } (bit (d.can ch).pubcfg 21)).dropDisabled) :=
  (writeReg_can d w ch 0x1B (by decide)).trans rfl

theorem writeCan_ok {d : Dev} {ch : Ch} {w : Word} {o : Nat} {n : Can} (h0 : o ≠ 0) (h1 : o ≠ 0x0E) (h2 : o ≠ 0x1B)
    (h : (d.can ch).write (decide (ch = Ch.can0)) w o = .ok n) :
    d.writeCan ch w o = .ok ((d.setCan ch n).afterCanWrite ch w o) := by
  unfold Dev.writeCan
  dsimp only
  split
  · exact absurd rfl h0
  · exact absurd rfl h1
  · exact absurd rfl h2
  · rw [h]

theorem writeCan_error {d : Dev} {ch : Ch} {w : Word} {o e : Nat} (h0 : o ≠ 0) (h1 : o ≠ 0x0E) (h2 : o ≠ 0x1B)
    (h : (d.can ch).write (decide (ch = Ch.can0)) w o = .error e) : d.writeCan ch w o = .error e := by
  unfold Dev.writeCan
  dsimp only
  split
  · exact absurd rfl h0
  · exact absurd rfl h1
  · exact absurd rfl h2
  · rw [h]

theorem cmdAt_can (ch : Ch) (o : Nat) (h : o < 0x1E) (h5 : o ≠ 5) : cmdAt (canBase ch + o) = none := by
  unfold cmdAt
  rw [List.find?_eq_none]
  intro r _
  simp only [decide_eq_true_eq]
  cases ch <;> cases r <;> simp [canBase, cmdAddr] <;> omega

/-- A low field replaced reads back. -/
theorem field_replaced (w : Word) (m : Nat) (h : m < 32) : field ((w &&& ~~~0x00001F) ||| word m) 0 5 = m := by
  unfold field word
  rw [Nat.shiftRight_zero, BitVec.toNat_or, Nat.or_mod_two_pow, BitVec.toNat_and, Nat.and_mod_two_pow]
  rw [show (~~~(0x00001F : BitVec 24)).toNat % 2 ^ 5 = 0 by decide, Nat.and_zero, Nat.zero_or, BitVec.toNat_ofNat]
  omega

end Sys2Proof.Laws
end

