-- ==== Sys2Proof/Laws/KeepsWrites.lean ====
section
/-! SUPPORT. Which parts of the device an access to a named register or window may change, each said once. -/
namespace Sys2Proof.Laws

open Sys2Proof.Machine Sys2Proof.Safety

theorem keeps_conclude_of {ps : List Page} {d : Dev} {a : Access} {n : BitVec 4} (w : within [.hst] ps = true)
    (h : Keeps ps d (d.perform a).dev) : Keeps ps d (d.conclude a n).1 := by
  unfold Dev.conclude
  extract_lets r d1 b d2
  refine keeps_through (b := d1) ?_ fun hd1 => ?_
  · unfold d1
    refine keeps_ite (fun _ => h) fun _ => ?_
    exact keeps_via (keeps_frameError _ _ _ _ _) w h
  clear_value d1
  refine keeps_pair ?_
  unfold d2
  exact keeps_ite (fun _ => keeps_via keeps_hst w hd1) fun _ => hd1

theorem keeps_accessFrame_of {ps : List Page} {d : Dev} {a : Access} (w : within [.hst] ps = true)
    (h : ∀ x, Keeps ps x (x.perform a).dev) : Keeps ps d (d.accessFrame a) := by
  unfold Dev.accessFrame
  refine keeps_ite (fun _ => keeps_refl) fun _ => ?_
  have n : Keeps ps d d.numberFrame := keeps_mono (keeps_numberFrame _) w
  have m : Keeps ps d { d.numberFrame with hst := { d.numberFrame.hst with fetch := none } } := keeps_via keeps_hst w n
  refine keeps_ite (fun _ => keeps_via (keeps_refuseFrame _ _ _ _) w n) fun _ => ?_
  refine keeps_ite (fun _ => keeps_via (keeps_refuseFrame _ _ _ _) w n) fun _ => ?_
  refine keeps_ite (fun _ => ?_) fun _ => keeps_via (keeps_respondBusy _) w (keeps_via keeps_hst w m)
  exact keeps_via (keeps_respond _ _ _ _ _) w (keeps_trans m (keeps_conclude_of w (h _)))

theorem keeps_performWrite {ps : List Page} {d : Dev} {a : Addr} {data : Word} (w : within [.hst] ps = true)
    (h : KeepsOk ps d (d.writeReg a.toNat data)) : Keeps ps d (d.perform (.write a data)).dev := by
  cases e : d.writeReg a.toNat data with
  | ok x => rw [perform_write_ok e]; exact keeps_via (keeps_cfgCheck _) w (keeps_of_ok h e)
  | error c => rw [perform_write_error e]; exact keeps_refl

theorem keeps_performRead (d : Dev) (i : Bool) : Keeps [.hst] d (d.perform (.winRead i)).dev := keeps_advance d i

theorem keeps_performWindow {d : Dev} {a : Access} (h : (∃ i, a = .winRead i) ∨ ∃ i v, a = .winWrite i v) :
    Keeps [.hst, .mem] d (d.perform a).dev := by
  rcases h with ⟨i, rfl⟩ | ⟨i, v, rfl⟩
  · exact keeps_mono (keeps_advance _ _) rfl
  · unfold Dev.perform
    refine keeps_ite_dev (fun _ => ?_) fun _ => keeps_refl
    exact keeps_via (keeps_advance _ _) rfl (keeps_mono (keeps_programWord _ _ _) rfl)

/-- A WRITE frame at a register that is no command register. -/
theorem keeps_writeFrame_of {ps : List Page} {d : Dev} {a : Addr} {data : Word} (hc : cmdAt a.toNat = none)
    (hw : a ≠ 0x212) (w : within [.hst] ps = true) (h : ∀ x : Dev, KeepsOk ps x (x.writeReg a.toNat data)) :
    Keeps ps d (d.writeFrame a data) := by
  unfold Dev.writeFrame
  rw [hc]
  show Keeps ps d (d.accessFrame (if a = 0x212 then .winWrite false data else .write a data))
  rw [if_neg hw]
  exact keeps_accessFrame_of w fun x => keeps_performWrite w (h x)

theorem writes_keeps {ps : List Page} {s : State} {a : Addr} {data : Word} (hc : cmdAt a.toNat = none) (hw : a ≠ 0x212)
    (w : within [.hst] ps = true) (h : ∀ x : Dev, KeepsOk ps x (x.writeReg a.toNat data)) :
    ∃ d', s.writes a data = .next { s with dev := d' } ∧ Keeps ps s.dev d' :=
  ⟨_, rfl, keeps_writeFrame_of hc hw w h⟩

set_option maxRecDepth 8000 in
theorem keepsOk_regEng {d : Dev} {n : Nat} {data : Word} (h : 0x080 ≤ n ∧ n < 0x0a0) : KeepsOk [.eng] d (d.writeReg n data) := by
  have k := h.1; have l := h.2
  unfold Dev.writeReg
  refine keepsOk_ite (fun _ => keepsOk_error) fun _ => ?_
  iterate 4 refine keepsOk_ite (fun g => absurd g (by omega)) fun _ => ?_
  exact keepsOk_ite (fun _ => keeps_writeEng _ _ _) fun g => absurd (by omega) g

set_option maxRecDepth 8000 in
theorem keepsOk_regChn {d : Dev} {n : Nat} {data : Word} (h : 0x0a0 ≤ n ∧ n < 0x0c0) : KeepsOk [.chn] d (d.writeReg n data) := by
  have k := h.1; have l := h.2
  unfold Dev.writeReg
  refine keepsOk_ite (fun _ => keepsOk_error) fun _ => ?_
  iterate 5 refine keepsOk_ite (fun g => absurd g (by omega)) fun _ => ?_
  exact keepsOk_ite (fun _ => keeps_writeChn _ _ _) fun g => absurd (by omega) g

set_option maxRecDepth 8000 in
theorem keepsOk_regSen {d : Dev} {n : Nat} {data : Word} (h : 0x0c0 ≤ n ∧ n < 0x0e0) : KeepsOk [.sen] d (d.writeReg n data) := by
  have k := h.1; have l := h.2
  unfold Dev.writeReg
  refine keepsOk_ite (fun _ => keepsOk_error) fun _ => ?_
  iterate 6 refine keepsOk_ite (fun g => absurd g (by omega)) fun _ => ?_
  exact keepsOk_ite (fun _ => keeps_writeSen _ _ _) fun g => absurd (by omega) g

set_option maxRecDepth 8000 in
theorem keepsOk_regEst {d : Dev} {n : Nat} {data : Word} (h : 0x0e0 ≤ n ∧ n < 0x100) : KeepsOk [.est] d (d.writeReg n data) := by
  have k := h.1; have l := h.2
  unfold Dev.writeReg
  refine keepsOk_ite (fun _ => keepsOk_error) fun _ => ?_
  iterate 7 refine keepsOk_ite (fun g => absurd g (by omega)) fun _ => ?_
  exact keepsOk_ite (fun _ => keeps_writeEst _ _ _) fun g => absurd (by omega) g

set_option maxRecDepth 8000 in
theorem keepsOk_regLim {d : Dev} {n : Nat} {data : Word} (h : 0x100 ≤ n ∧ n < 0x120) : KeepsOk [.lim] d (d.writeReg n data) := by
  have k := h.1; have l := h.2
  unfold Dev.writeReg
  refine keepsOk_ite (fun _ => keepsOk_error) fun _ => ?_
  iterate 8 refine keepsOk_ite (fun g => absurd g (by omega)) fun _ => ?_
  exact keepsOk_ite (fun _ => keeps_writeLim _ _ _) fun g => absurd (by omega) g

set_option maxRecDepth 8000 in
theorem keepsOk_regPwr {d : Dev} {n : Nat} {data : Word} (h : 0x120 ≤ n ∧ n < 0x160) : KeepsOk [.coil, .pwr] d (d.writeReg n data) := by
  have k := h.1; have l := h.2
  unfold Dev.writeReg
  refine keepsOk_ite (fun _ => keepsOk_error) fun _ => ?_
  iterate 9 refine keepsOk_ite (fun g => absurd g (by omega)) fun _ => ?_
  exact keepsOk_ite (fun _ => keeps_writePwr _ _ _) fun g => absurd (by omega) g

set_option maxRecDepth 8000 in
theorem keepsOk_regSaf {d : Dev} {n : Nat} {data : Word} (h : 0x160 ≤ n ∧ n < 0x180) : KeepsOk [.saf] d (d.writeReg n data) := by
  have k := h.1; have l := h.2
  unfold Dev.writeReg
  refine keepsOk_ite (fun _ => keepsOk_error) fun _ => ?_
  iterate 10 refine keepsOk_ite (fun g => absurd g (by omega)) fun _ => ?_
  exact keepsOk_ite (fun _ => keeps_writeSaf _ _ _) fun g => absurd (by omega) g

set_option maxRecDepth 8000 in
theorem keepsOk_regTol {d : Dev} {n : Nat} {data : Word} (h : 0x180 ≤ n ∧ n < 0x1a0) : KeepsOk [.doms, .tol, .lgr, .dep, .mem, .copies] d (d.writeReg n data) := by
  have k := h.1; have l := h.2
  unfold Dev.writeReg
  refine keepsOk_ite (fun _ => keepsOk_error) fun _ => ?_
  iterate 11 refine keepsOk_ite (fun g => absurd g (by omega)) fun _ => ?_
  exact keepsOk_ite (fun _ => keeps_writeTol _ _ _) fun g => absurd (by omega) g

set_option maxRecDepth 8000 in
theorem keepsOk_regCan0 {d : Dev} {n : Nat} {data : Word} (h : 0x1c0 ≤ n ∧ n < 0x1e0) : KeepsOk [.can0, .can1] d (d.writeReg n data) := by
  have k := h.1; have l := h.2
  unfold Dev.writeReg
  refine keepsOk_ite (fun _ => keepsOk_error) fun _ => ?_
  iterate 13 refine keepsOk_ite (fun g => absurd g (by omega)) fun _ => ?_
  exact keepsOk_ite (fun _ => keeps_writeCan _ _ _ _) fun g => absurd (by omega) g

set_option maxRecDepth 8000 in
theorem keepsOk_regCan1 {d : Dev} {n : Nat} {data : Word} (h : 0x1e0 ≤ n ∧ n < 0x200) : KeepsOk [.can0, .can1] d (d.writeReg n data) := by
  have k := h.1; have l := h.2
  unfold Dev.writeReg
  refine keepsOk_ite (fun _ => keepsOk_error) fun _ => ?_
  iterate 14 refine keepsOk_ite (fun g => absurd g (by omega)) fun _ => ?_
  exact keepsOk_ite (fun _ => keeps_writeCan _ _ _ _) fun g => absurd (by omega) g

set_option maxRecDepth 8000 in
theorem keepsOk_regHst {d : Dev} {n : Nat} {data : Word} (h : 0x200 ≤ n ∧ n < 0x220) : KeepsOk [.hst] d (d.writeReg n data) := by
  have k := h.1; have l := h.2
  unfold Dev.writeReg
  refine keepsOk_ite (fun _ => keepsOk_error) fun _ => ?_
  iterate 15 refine keepsOk_ite (fun g => absurd g (by omega)) fun _ => ?_
  exact keepsOk_ite (fun _ => keeps_writeHst _ _ _) fun g => absurd (by omega) g

set_option maxRecDepth 8000 in
theorem keepsOk_regDep {d : Dev} {n : Nat} {data : Word} (h : 0x220 ≤ n) : KeepsOk [.dep, .lif] d (d.writeReg n data) := by
  unfold Dev.writeReg
  refine keepsOk_ite (fun _ => keepsOk_error) fun _ => ?_
  iterate 16 refine keepsOk_ite (fun g => absurd g (by omega)) fun _ => ?_
  exact keeps_writeDep _ _ _

theorem keeps_execPwrKnew (data : Word) (s : State) :
    ∃ d', execPwrKnew data s = .next { s with dev := d' } ∧ Keeps [.coil, .pwr, .hst] s.dev d' := by
  exact writes_keeps (ps := [.coil, .pwr, .hst]) (by rfl) (by decide) rfl fun x => keepsOk_mono (keepsOk_regPwr (by decide)) rfl

theorem keeps_execEngModecfgWrite (data : Word) (s : State) :
    ∃ d', execEngModecfgWrite data s = .next { s with dev := d' } ∧ Keeps [.eng, .hst] s.dev d' := by
  exact writes_keeps (ps := [.eng, .hst]) (by rfl) (by decide) rfl fun x => keepsOk_mono (keepsOk_regEng (by decide)) rfl

theorem keeps_execIpDisable (data : Word) (s : State) :
    ∃ d', execIpDisable data s = .next { s with dev := d' } ∧ Keeps [.eng, .hst] s.dev d' := by
  exact writes_keeps (ps := [.eng, .hst]) (by rfl) (by decide) rfl fun x => keepsOk_mono (keepsOk_regEng (by decide)) rfl

theorem keeps_execEngClrDisagree (s : State) :
    ∃ d', execEngClrDisagree s = .next { s with dev := d' } ∧ Keeps [.eng, .hst] s.dev d' := by
  exact writes_keeps (ps := [.eng, .hst]) (by rfl) (by decide) rfl fun x => keepsOk_mono (keepsOk_regEng (by decide)) rfl

theorem keeps_execEngClrLoad (s : State) :
    ∃ d', execEngClrLoad s = .next { s with dev := d' } ∧ Keeps [.eng, .hst] s.dev d' := by
  exact writes_keeps (ps := [.eng, .hst]) (by rfl) (by decide) rfl fun x => keepsOk_mono (keepsOk_regEng (by decide)) rfl

theorem keeps_execEngClrEcc (s : State) :
    ∃ d', execEngClrEcc s = .next { s with dev := d' } ∧ Keeps [.eng, .hst] s.dev d' := by
  exact writes_keeps (ps := [.eng, .hst]) (by rfl) (by decide) rfl fun x => keepsOk_mono (keepsOk_regEng (by decide)) rfl

theorem keeps_execEngClrOdd (s : State) :
    ∃ d', execEngClrOdd s = .next { s with dev := d' } ∧ Keeps [.eng, .hst] s.dev d' := by
  exact writes_keeps (ps := [.eng, .hst]) (by rfl) (by decide) rfl fun x => keepsOk_mono (keepsOk_regEng (by decide)) rfl

theorem keeps_execEngClrMismatch (s : State) :
    ∃ d', execEngClrMismatch s = .next { s with dev := d' } ∧ Keeps [.eng, .hst] s.dev d' := by
  exact writes_keeps (ps := [.eng, .hst]) (by rfl) (by decide) rfl fun x => keepsOk_mono (keepsOk_regEng (by decide)) rfl

theorem keeps_execChnRetrycfgWrite (stale : Bool) (data : Word) (s : State) :
    ∃ d', execChnRetrycfgWrite stale data s = .next { s with dev := d' } ∧ Keeps [.chn, .hst] s.dev d' := by
  cases stale <;> exact writes_keeps (ps := [.chn, .hst]) (by rfl) (by decide) rfl fun x => keepsOk_mono (keepsOk_regChn (by decide)) rfl

theorem keeps_execChnClrLoss (s : State) :
    ∃ d', execChnClrLoss s = .next { s with dev := d' } ∧ Keeps [.chn, .hst] s.dev d' := by
  exact writes_keeps (ps := [.chn, .hst]) (by rfl) (by decide) rfl fun x => keepsOk_mono (keepsOk_regChn (by decide)) rfl

theorem keeps_execChnClrRetry (s : State) :
    ∃ d', execChnClrRetry s = .next { s with dev := d' } ∧ Keeps [.chn, .hst] s.dev d' := by
  exact writes_keeps (ps := [.chn, .hst]) (by rfl) (by decide) rfl fun x => keepsOk_mono (keepsOk_regChn (by decide)) rfl

theorem keeps_execChnClrErr (s : State) :
    ∃ d', execChnClrErr s = .next { s with dev := d' } ∧ Keeps [.chn, .hst] s.dev d' := by
  exact writes_keeps (ps := [.chn, .hst]) (by rfl) (by decide) rfl fun x => keepsOk_mono (keepsOk_regChn (by decide)) rfl

theorem keeps_execChnClrPeak (s : State) :
    ∃ d', execChnClrPeak s = .next { s with dev := d' } ∧ Keeps [.chn, .hst] s.dev d' := by
  exact writes_keeps (ps := [.chn, .hst]) (by rfl) (by decide) rfl fun x => keepsOk_mono (keepsOk_regChn (by decide)) rfl

theorem keeps_execSenCfgWrite (data : Word) (s : State) :
    ∃ d', execSenCfgWrite data s = .next { s with dev := d' } ∧ Keeps [.sen, .hst] s.dev d' := by
  exact writes_keeps (ps := [.sen, .hst]) (by rfl) (by decide) rfl fun x => keepsOk_mono (keepsOk_regSen (by decide)) rfl

theorem keeps_execSenClrCnt (s : State) :
    ∃ d', execSenClrCnt s = .next { s with dev := d' } ∧ Keeps [.sen, .hst] s.dev d' := by
  exact writes_keeps (ps := [.sen, .hst]) (by rfl) (by decide) rfl fun x => keepsOk_mono (keepsOk_regSen (by decide)) rfl

theorem keeps_execEstClrStep (s : State) :
    ∃ d', execEstClrStep s = .next { s with dev := d' } ∧ Keeps [.est, .hst] s.dev d' := by
  exact writes_keeps (ps := [.est, .hst]) (by rfl) (by decide) rfl fun x => keepsOk_mono (keepsOk_regEst (by decide)) rfl

theorem keeps_execEstClrFit (s : State) :
    ∃ d', execEstClrFit s = .next { s with dev := d' } ∧ Keeps [.est, .hst] s.dev d' := by
  exact writes_keeps (ps := [.est, .hst]) (by rfl) (by decide) rfl fun x => keepsOk_mono (keepsOk_regEst (by decide)) rfl

theorem keeps_execLimClrUl (s : State) :
    ∃ d', execLimClrUl s = .next { s with dev := d' } ∧ Keeps [.lim, .hst] s.dev d' := by
  exact writes_keeps (ps := [.lim, .hst]) (by rfl) (by decide) rfl fun x => keepsOk_mono (keepsOk_regLim (by decide)) rfl

theorem keeps_execExtRevokedClear (s : State) :
    ∃ d', execExtRevokedClear s = .next { s with dev := d' } ∧ Keeps [.coil, .pwr, .hst] s.dev d' := by
  exact writes_keeps (ps := [.coil, .pwr, .hst]) (by rfl) (by decide) rfl fun x => keepsOk_mono (keepsOk_regPwr (by decide)) rfl

theorem keeps_execPwrCntclr (s : State) :
    ∃ d', execPwrCntclr s = .next { s with dev := d' } ∧ Keeps [.coil, .pwr, .hst] s.dev d' := by
  exact writes_keeps (ps := [.coil, .pwr, .hst]) (by rfl) (by decide) rfl fun x => keepsOk_mono (keepsOk_regPwr (by decide)) rfl

theorem keeps_execSafClrCnt (s : State) :
    ∃ d', execSafClrCnt s = .next { s with dev := d' } ∧ Keeps [.saf, .hst] s.dev d' := by
  exact writes_keeps (ps := [.saf, .hst]) (by rfl) (by decide) rfl fun x => keepsOk_mono (keepsOk_regSaf (by decide)) rfl

theorem keeps_execTolTagWrite (k : Fin 6) (data : Word) (s : State) :
    ∃ d', execTolTagWrite k data s = .next { s with dev := d' } ∧ Keeps [.doms, .tol, .lgr, .hst, .dep, .mem, .copies] s.dev d' := by
  match k with
  | 0 => exact writes_keeps (ps := [.doms, .tol, .lgr, .hst, .dep, .mem, .copies]) (by rfl) (by decide) rfl fun x => keepsOk_mono (keepsOk_regTol (by decide)) rfl
  | 1 => exact writes_keeps (ps := [.doms, .tol, .lgr, .hst, .dep, .mem, .copies]) (by rfl) (by decide) rfl fun x => keepsOk_mono (keepsOk_regTol (by decide)) rfl
  | 2 => exact writes_keeps (ps := [.doms, .tol, .lgr, .hst, .dep, .mem, .copies]) (by rfl) (by decide) rfl fun x => keepsOk_mono (keepsOk_regTol (by decide)) rfl
  | 3 => exact writes_keeps (ps := [.doms, .tol, .lgr, .hst, .dep, .mem, .copies]) (by rfl) (by decide) rfl fun x => keepsOk_mono (keepsOk_regTol (by decide)) rfl
  | 4 => exact writes_keeps (ps := [.doms, .tol, .lgr, .hst, .dep, .mem, .copies]) (by rfl) (by decide) rfl fun x => keepsOk_mono (keepsOk_regTol (by decide)) rfl
  | 5 => exact writes_keeps (ps := [.doms, .tol, .lgr, .hst, .dep, .mem, .copies]) (by rfl) (by decide) rfl fun x => keepsOk_mono (keepsOk_regTol (by decide)) rfl

theorem keeps_execTxdatWrite (ch : Ch) (data : Word) (s : State) :
    ∃ d', execTxdatWrite ch data s = .next { s with dev := d' } ∧ Keeps [.can0, .can1, .hst] s.dev d' := by
  cases ch
  · exact writes_keeps (ps := [.can0, .can1, .hst]) (by rfl) (by decide) rfl fun x => keepsOk_mono (keepsOk_regCan0 (by decide)) rfl
  · exact writes_keeps (ps := [.can0, .can1, .hst]) (by rfl) (by decide) rfl fun x => keepsOk_mono (keepsOk_regCan1 (by decide)) rfl

theorem keeps_execPubcfgWrite (ch : Ch) (data : Word) (s : State) :
    ∃ d', execPubcfgWrite ch data s = .next { s with dev := d' } ∧ Keeps [.can0, .can1, .hst] s.dev d' := by
  cases ch
  · exact writes_keeps (ps := [.can0, .can1, .hst]) (by rfl) (by decide) rfl fun x => keepsOk_mono (keepsOk_regCan0 (by decide)) rfl
  · exact writes_keeps (ps := [.can0, .can1, .hst]) (by rfl) (by decide) rfl fun x => keepsOk_mono (keepsOk_regCan1 (by decide)) rfl

theorem keeps_execCanRetryConfigWrite (ch : Ch) (hcfg : Bool) (data : Word) (s : State) :
    ∃ d', execCanRetryConfigWrite ch hcfg data s = .next { s with dev := d' } ∧ Keeps [.can0, .can1, .hst] s.dev d' := by
  cases ch
  · cases hcfg <;> exact writes_keeps (ps := [.can0, .can1, .hst]) (by rfl) (by decide) rfl fun x => keepsOk_mono (keepsOk_regCan0 (by decide)) rfl
  · cases hcfg <;> exact writes_keeps (ps := [.can0, .can1, .hst]) (by rfl) (by decide) rfl fun x => keepsOk_mono (keepsOk_regCan1 (by decide)) rfl

theorem keeps_execDepCfgWrite (data : Word) (s : State) :
    ∃ d', execDepCfgWrite data s = .next { s with dev := d' } ∧ Keeps [.hst, .dep, .lif] s.dev d' := by
  exact writes_keeps (ps := [.hst, .dep, .lif]) (by rfl) (by decide) rfl fun x => keepsOk_mono (keepsOk_regDep (by decide)) rfl

theorem keeps_execDepClrErr (s : State) :
    ∃ d', execDepClrErr s = .next { s with dev := d' } ∧ Keeps [.hst, .dep, .lif] s.dev d' := by
  exact writes_keeps (ps := [.hst, .dep, .lif]) (by rfl) (by decide) rfl fun x => keepsOk_mono (keepsOk_regDep (by decide)) rfl

theorem keeps_execDepClrShed (s : State) :
    ∃ d', execDepClrShed s = .next { s with dev := d' } ∧ Keeps [.hst, .dep, .lif] s.dev d' := by
  exact writes_keeps (ps := [.hst, .dep, .lif]) (by rfl) (by decide) rfl fun x => keepsOk_mono (keepsOk_regDep (by decide)) rfl

theorem keeps_execRxdatRead (ch : Ch) (s : State) :
    ∃ d', execRxdatRead ch s = .next { s with dev := d' } ∧ Keeps [.can0, .can1, .hst] s.dev d' := by
  refine effect_keeps fun d0 => ?_
  have r : ∀ x : Dev, ∀ a : Nat, Keeps [.can0, .can1, .hst] x (x.readReg a).1 := fun x a => keeps_mono (keeps_readReg _ _) rfl
  unfold Dev.readFrame
  cases ch
  · rw [if_neg (by decide)]; exact keeps_accessFrame_of rfl fun x => r x _
  · rw [if_neg (by decide)]; exact keeps_accessFrame_of rfl fun x => r x _

theorem keeps_execRegisterRead (addr : Addr) (s : State) :
    ∃ d', execRegisterRead addr s = .next { s with dev := d' } ∧ Keeps [.can0, .can1, .hst] s.dev d' := by
  refine effect_keeps fun d0 => ?_
  unfold Dev.readFrame
  split
  · exact keeps_accessFrame_of rfl fun x => keeps_mono (keeps_performRead _ _) rfl
  · exact keeps_accessFrame_of rfl fun x => keeps_mono (qs := [.can0, .can1, .hst]) (keeps_readReg x _) rfl

theorem keeps_execWinSelWrite (data : Word) (s : State) :
    ∃ d', execWinSelWrite data s = .next { s with dev := d' } ∧ Keeps [.hst] s.dev d' := by
  exact writes_keeps (ps := [.hst]) (by rfl) (by decide) rfl fun x => keepsOk_mono (keepsOk_regHst (by decide)) rfl

theorem keeps_execManifestWindowWrite (data : Word) (s : State) :
    ∃ d', execManifestWindowWrite data s = .next { s with dev := d' } ∧ Keeps [.hst, .mem] s.dev d' := by
  refine effect_keeps fun d0 => ?_
  exact keeps_ite (fun _ => keeps_accessFrame_of rfl fun x => keeps_performWindow (.inr ⟨_, _, rfl⟩)) fun _ => keeps_refl

theorem keeps_execRwsWrite (addr : Addr) (data : Word) (s : State) :
    ∃ d', execRwsWrite addr data s = .next { s with dev := d' } ∧ Keeps [.doms, .tol, .lgr, .hst, .dep, .mem, .copies] s.dev d' := by
  refine effect_keeps fun d0 => ?_
  refine keeps_ite (fun h => ?_) fun _ => keeps_refl
  have c : cmdAt addr.toNat = none := by
    simp only [cmdAt, List.find?_eq_none]
    intro r _ g
    have g := of_decide_eq_true g
    cases r <;> simp only [cmdAddr] at g <;> omega
  refine keeps_writeFrame_of c (by intro e; subst e; exact absurd h.2 (by decide)) rfl fun x => ?_
  exact keepsOk_mono (keepsOk_regTol ⟨by omega, by omega⟩) rfl

theorem keeps_execWatermarkConfigWrite (addr : Addr) (data : Word) (s : State) :
    ∃ d', execWatermarkConfigWrite addr data s = .next { s with dev := d' } ∧ Keeps [.can0, .can1, .hst, .dep, .lif] s.dev d' := by
  refine effect_keeps fun d0 => ?_
  refine keeps_ite (fun h => ?_) fun _ => keeps_refl
  have e : ∀ n ∈ watermarkConfigs, cmdAt n = none ∧ n ≠ 0x212 ∧ ∀ x : Dev, KeepsOk [.can0, .can1, .hst, .dep, .lif] x (x.writeReg n data) := by
    intro n hn
    simp only [watermarkConfigs, List.mem_cons, List.not_mem_nil, or_false] at hn
    rcases hn with rfl | rfl | rfl | rfl
    · exact ⟨by rfl, by decide, fun x => keepsOk_mono (keepsOk_regHst (by decide)) rfl⟩
    · exact ⟨by rfl, by decide, fun x => keepsOk_mono (keepsOk_regCan0 (by decide)) rfl⟩
    · exact ⟨by rfl, by decide, fun x => keepsOk_mono (keepsOk_regCan1 (by decide)) rfl⟩
    · exact ⟨by rfl, by decide, fun x => keepsOk_mono (keepsOk_regDep (by decide)) rfl⟩
  obtain ⟨a, b, c⟩ := e addr.toNat (by simpa using h)
  exact keeps_writeFrame_of a (by intro q; subst q; exact b rfl) rfl c

theorem keeps_execWatermarkClear (addr : Addr) (data : Word) (s : State) :
    ∃ d', execWatermarkClear addr data s = .next { s with dev := d' } ∧ Keeps [.can0, .can1, .hst, .dep, .lif] s.dev d' := by
  refine effect_keeps fun d0 => ?_
  refine keeps_ite (fun h => ?_) fun _ => keeps_refl
  have e : ∀ n ∈ watermarkRegisters, cmdAt n = none ∧ n ≠ 0x212 ∧ ∀ x : Dev, KeepsOk [.can0, .can1, .hst, .dep, .lif] x (x.writeReg n data) := by
    intro n hn
    simp only [watermarkRegisters, List.mem_cons, List.not_mem_nil, or_false] at hn
    rcases hn with rfl | rfl | rfl | rfl | rfl | rfl | rfl | rfl
    · exact ⟨by rfl, by decide, fun x => keepsOk_mono (keepsOk_regHst (by decide)) rfl⟩
    · exact ⟨by rfl, by decide, fun x => keepsOk_mono (keepsOk_regCan0 (by decide)) rfl⟩
    · exact ⟨by rfl, by decide, fun x => keepsOk_mono (keepsOk_regCan0 (by decide)) rfl⟩
    · exact ⟨by rfl, by decide, fun x => keepsOk_mono (keepsOk_regCan1 (by decide)) rfl⟩
    · exact ⟨by rfl, by decide, fun x => keepsOk_mono (keepsOk_regCan1 (by decide)) rfl⟩
    · exact ⟨by rfl, by decide, fun x => keepsOk_mono (keepsOk_regDep (by decide)) rfl⟩
    · exact ⟨by rfl, by decide, fun x => keepsOk_mono (keepsOk_regDep (by decide)) rfl⟩
    · exact ⟨by rfl, by decide, fun x => keepsOk_mono (keepsOk_regDep (by decide)) rfl⟩
  obtain ⟨a, b, c⟩ := e addr.toNat (by simpa using h)
  exact keeps_writeFrame_of a (by intro q; subst q; exact b rfl) rfl c

end Sys2Proof.Laws
end

