-- ==== Sys2Proof/Laws/Preserve.lean ====
section
/-! SUPPORT. Composing the preservation of an invariant over a chain of operations. -/
namespace Sys2Proof.Laws

open Sys2Proof.Machine Sys2Proof.Safety

/-- What holds of the first device holds of the second. -/
def Pres (I : Dev → Prop) (a b : Dev) : Prop := I a → I b

/-- An invariant that looks at the named parts only. -/
def Respects (I : Dev → Prop) (fs : List Page) : Prop := ∀ a b : Dev, (∀ p ∈ fs, same p a b) → I a → I b

/-- The lists have no part in common. -/
def apart (ps fs : List Page) : Bool := fs.all fun f => !ps.contains f

variable {I : Dev → Prop} {a b c : Dev}

theorem pres_refl : Pres I a a := id

theorem pres_trans (h : Pres I a b) (g : Pres I b c) : Pres I a c := g ∘ h

theorem pres_through (h : Pres I a b) (k : Pres I a b → Pres I a c) : Pres I a c := k h

theorem pres_keeps {ps fs : List Page} (r : Respects I fs) (g : Keeps ps b c) (i : apart ps fs = true) (h : Pres I a b) :
    Pres I a c := fun x => r b c (fun p m => (g p).resolve_left fun q => by
      have := List.all_eq_true.mp i p m
      simp only [List.contains_eq_mem, decide_eq_true q, Bool.not_true] at this
      cases this) (h x)

theorem pres_ite {p : Prop} [Decidable p] (h : p → Pres I a b) (g : ¬p → Pres I a c) : Pres I a (if p then b else c) := by
  split
  · exact h ‹_›
  · exact g ‹_›

theorem pres_ite_fst {α : Type} {b c : Dev × α} {p : Prop} [Decidable p] (h : p → Pres I a b.1) (g : ¬p → Pres I a c.1) :
    Pres I a (if p then b else c).1 := by
  split
  · exact h ‹_›
  · exact g ‹_›

theorem pres_ite_dev {b c : Performed} {p : Prop} [Decidable p] (h : p → Pres I a b.dev) (g : ¬p → Pres I a c.dev) :
    Pres I a (if p then b else c).dev := by
  split
  · exact h ‹_›
  · exact g ‹_›

theorem pres_pair {α : Type} {x : α} (h : Pres I a b) : Pres I a (b, x).1 := h

theorem pres_performed {e : Nat} {v : Word} (h : Pres I a b) : Pres I a (Performed.mk b e v).dev := h

theorem pres_set (h : Pres I a b) (i : I b → I c) : Pres I a c := i ∘ h

theorem pres_fst {α : Type} {x : α} {e : Dev × α} (h : Pres I a e.1) (g : e = (b, x)) : Pres I a b := by
  rw [g] at h; exact h

theorem pres_foldl {α : Type} {f : Dev → α → Dev} {l : List α} (i : Pres I a b) (h : ∀ d x, Pres I d (f d x)) :
    Pres I a (l.foldl f b) := by
  induction l generalizing b with
  | nil => exact i
  | cons x l ih => exact ih (pres_trans i (h b x))

theorem pres_foldl_fst {α β : Type} {f : Dev × β → α → Dev × β} {l : List α} {b : Dev × β} (i : Pres I a b.1)
    (h : ∀ x y, Pres I x.1 (f x y).1) : Pres I a (l.foldl f b).1 := by
  induction l generalizing b with
  | nil => exact i
  | cons x l ih => exact ih (pres_trans i (h b x))

theorem pres_repeat {f : Dev → Dev} {n : Nat} (i : Pres I a b) (h : ∀ d, Pres I d (f d)) :
    Pres I a (Nat.repeat f n b) := by
  induction n with
  | zero => exact i
  | succ n ih => exact pres_trans ih (h _)

/-- A write that is not refused preserves the invariant. -/
def PresOk (I : Dev → Prop) (a : Dev) : Written → Prop
  | .ok b => Pres I a b
  | .error _ => True

theorem presOk_ok (h : Pres I a b) : PresOk I a (.ok b) := h

theorem presOk_error {e : Nat} : PresOk I a (.error e) := trivial

theorem presOk_keeps {ps fs : List Page} {e : Written} (r : Respects I fs) (g : KeepsOk ps a e) (i : apart ps fs = true) :
    PresOk I a e := by
  cases e with
  | ok b => exact pres_keeps r g i pres_refl
  | error _ => trivial

theorem presOk_ite {b c : Written} {p : Prop} [Decidable p] (h : p → PresOk I a b) (g : ¬p → PresOk I a c) :
    PresOk I a (if p then b else c) := by
  split
  · exact h ‹_›
  · exact g ‹_›

theorem presOk_store {d : Dev} {old data rw rwl : Word} {ok : Bool} {set : Word → Dev} (h : ∀ w, Pres I a (set w)) :
    PresOk I a (d.store old data rw rwl ok set) := by
  unfold Dev.store
  exact presOk_ite (fun _ => trivial) fun _ => presOk_ite (fun _ => trivial) fun _ => h _

theorem pres_of_ok {e : Written} (h : PresOk I a e) (g : e = .ok b) : Pres I a b := by subst g; exact h

/-- The invariant does not look at the host port and the command registers. -/
def Ports (I : Dev → Prop) : Prop :=
  (∀ d h, I d → I { d with hst := h }) ∧ (∀ d h, I d → I { d with cmds := h }) ∧ ∀ d h, I d → I { d with insp := h }

theorem pres_hst {h : Hst} (w : Ports I) (i : Pres I a b) : Pres I a { b with hst := h } := fun x => w.1 _ _ (i x)

theorem pres_executeNow {r : CmdReg} {tok : Byte} {body : Dev → Executed} (w : Ports I) (i : Pres I a b)
    (h : ∀ d, Pres I d (body d).1) : Pres I a (b.executeNow r tok body) := by
  unfold Dev.executeNow
  refine pres_ite (fun _ => i) fun _ => pres_trans (pres_trans i (h b)) ?_
  show Pres I _ (Dev.finish ..)
  unfold Dev.finish
  split
  · exact pres_refl
  · exact w.2.1 _ _

theorem pres_commandFrame {r : CmdReg} {tok : Byte} {code op : Nat} {take : Dev → Dev} (w : Ports I) (i : Pres I a b)
    (h : ∀ d, Pres I d (take d)) : Pres I a (b.commandFrame r tok code op take) := by
  have rf : ∀ (d : Dev) (e o x : Nat), Pres I a d → Pres I a (d.refuseFrame e o x) := fun d e o x k =>
    pres_hst w (pres_hst w k)
  have n : Pres I a b.numberFrame := pres_hst w i
  have m : Pres I a { b.numberFrame with hst := { b.numberFrame.hst with fetch := none } } := pres_hst w n
  unfold Dev.commandFrame
  refine pres_ite (fun _ => i) fun _ => pres_ite (fun _ => rf _ _ _ _ n) fun _ => pres_ite (fun _ => rf _ _ _ _ n) fun _ => ?_
  refine pres_ite (fun _ => ?_) fun _ => ?_
  · exact pres_hst w (pres_hst w m)
  · exact pres_trans (pres_hst w m) (h _)

theorem pres_hostCommand {r : CmdReg} {tok : Byte} {code : Nat} {body : Dev → Executed} (w : Ports I) (i : Pres I a b)
    (h : ∀ d, Pres I d (body d).1) : Pres I a (b.hostCommand r tok code body) :=
  pres_commandFrame w i fun _ => pres_executeNow w pres_refl h

theorem pres_ip {op : Nat} {addr data : Word} {crc : Byte} {run : Dev → IpResult} (w : Ports I) (i : Pres I a b)
    (h : ∀ d, Pres I d (run d).1) : Pres I a (b.ip op addr data crc run) := by
  unfold Dev.ip
  exact pres_ite (fun _ => pres_trans i (w.2.2 _ _)) fun _ => pres_ite (fun _ => pres_trans i (w.2.2 _ _)) fun _ =>
    pres_trans i (pres_trans (h b) (w.2.2 _ _))

theorem effect_pres {s : State} {f : Dev → Dev} (h : ∀ d, Pres I d (f d)) :
    ∃ d', s.effect f = .next { s with dev := d' } ∧ Pres I s.dev d' := ⟨_, rfl, h _⟩

/-! ### The depot memories -/

/-- Both depot memories are in their canonical form. -/
def Canon (d : Dev) : Prop := Mem.wf cs0Default d.dep.cs0 = true ∧ Mem.wf cs1Default d.dep.cs1 = true

theorem canon_respects : Respects Canon [.mem] := fun a b h c => by
  obtain ⟨e, f⟩ : b.dep.cs0 = a.dep.cs0 ∧ b.dep.cs1 = a.dep.cs1 := h .mem (by simp)
  unfold Canon
  rw [e, f]; exact c

theorem canon_setCs0 (d : Dev) (x : Nat) (bs : List Byte) : Pres Canon d (d.setCs0 x bs) := fun h =>
  ⟨writeBytes_wf _ _ _ _ h.1, h.2⟩

theorem canon_setCs1 (d : Dev) (x : Nat) (bs : List Byte) : Pres Canon d (d.setCs1 x bs) := fun h =>
  ⟨h.1, writeBytes_wf _ _ _ _ h.2⟩

theorem canon_eraseCs1 (d : Dev) (x n : Nat) : Pres Canon d (d.eraseCs1 x n) := fun h => ⟨h.1, erase_wf _ _ _ _ h.2⟩

theorem canon_ports : Ports Canon := ⟨fun _ _ => id, fun _ _ => id, fun _ _ => id⟩

/-! ### Class S -/

/-- Class S is configured and acts as Paired or Triple, never as Split. -/
def ClassS (d : Dev) : Prop := field d.eng.modecfg 6 2 ≤ 1 ∧ d.eng.sAct ≠ split

theorem classS_respects : Respects ClassS [.eng] := fun a b h c => by
  have e : b.eng = a.eng := h .eng (by simp)
  unfold ClassS
  rw [e]; exact c

theorem classS_resetWith (d : Dev) (bits : Word) : Pres ClassS d (d.resetWith bits) := fun _ => by
  show field (0x000040 : Word) 6 2 ≤ 1 ∧ (1 : BitVec 2) ≠ split
  decide

theorem classS_frameModes (d : Dev) : Pres ClassS d d.frameModes := fun h => ⟨h.1, by
  show d.modeAtPeriod .s ≠ split
  have a : d.eng.act .s ≠ split := h.2
  have b : d.requested .s ≠ split := by
    show BitVec.ofNat 2 (field d.eng.modecfg 6 2) ≠ split
    have := h.1
    intro e
    have e := congrArg BitVec.toNat e
    rw [BitVec.toNat_ofNat, show split.toNat = 2 from rfl] at e
    omega
  unfold Dev.modeAtPeriod
  dsimp only
  rw [if_neg a, if_neg b]
  split
  · decide
  · exact b⟩

theorem classS_engCount (d : Dev) (c : EngCount) : Pres ClassS d (d.engCount c) := by cases c <;> exact id

theorem field_merged (old w : Word) : field (mergeBits old w 0x0000FF) 6 2 = field w 6 2 := by
  unfold field mergeBits
  rw [BitVec.toNat_or, Nat.shiftRight_or_distrib, Nat.or_mod_two_pow, BitVec.toNat_and, Nat.shiftRight_and_distrib,
    Nat.and_mod_two_pow, show (~~~(0x0000FF : BitVec 24)).toNat >>> 6 % 2 ^ 2 = 0 by decide, Nat.and_zero, Nat.zero_or,
    BitVec.toNat_and, Nat.shiftRight_and_distrib, Nat.and_mod_two_pow,
    show (0x0000FF : BitVec 24).toNat >>> 6 % 2 ^ 2 = 2 ^ 2 - 1 by decide, Nat.and_two_pow_sub_one_eq_mod, Nat.mod_mod]

theorem classS_writeEng (d : Dev) (data : Word) (x : Nat) : PresOk ClassS d (d.writeEng data x) := by
  unfold Dev.writeEng
  split
  · unfold Dev.store
    refine presOk_ite (fun _ => trivial) fun h => presOk_ite (fun _ => trivial) fun _ => fun c => ⟨?_, c.2⟩
    show field (mergeBits d.eng.modecfg data 0x0000FF) 6 2 ≤ 1
    rw [field_merged]
    simp [modecfgOk] at h
    exact h.2
  · exact id
  · intro h
    have e : (d.eng.clear data).modecfg = d.eng.modecfg ∧ (d.eng.clear data).sAct = d.eng.sAct := by
      unfold Eng.clear
      constructor <;> dsimp only <;> (repeat' split) <;> rfl
    show field (d.eng.clear data).modecfg 6 2 ≤ 1 ∧ (d.eng.clear data).sAct ≠ split
    rw [e.1, e.2]; exact h
  · exact id
  · trivial

theorem classS_ports : Ports ClassS := ⟨fun _ _ => id, fun _ _ => id, fun _ _ => id⟩

end Sys2Proof.Laws
end

