-- ==== Sys2Proof/Laws/Canon.lean ====
section
/-! SUPPORT. Every operation that may write the depot memories keeps their canonical form. -/
namespace Sys2Proof.Laws

open Sys2Proof.Machine Sys2Proof.Safety

theorem canon_doJob (d : Dev) (x1 : DepotJob) :
    Pres Canon d (d.doJob x1) := by
  unfold Dev.doJob
  split
  · exact canon_setCs0 _ _ _
  · exact pres_set pres_refl id
  · exact pres_set pres_refl id
  · exact pres_set pres_refl id
  · exact canon_eraseCs1 _ _ _

theorem canon_depotWrite (d : Dev) (j : DepotJob) :
    Pres Canon d (d.depotWrite j) := by
  unfold Dev.depotWrite
  extract_lets d1 b2
  refine pres_through (b := d1) ?_ fun hd1 => ?_
  · unfold d1
    refine pres_keeps canon_respects (keeps_queueTx _ _) rfl ?_
    exact pres_refl
  clear_value d1
  refine pres_ite (fun _ => ?_) fun _ => ?_
  · refine pres_trans ?_ (canon_doJob _ _)
    exact hd1
  · refine pres_set (b := d1) ?_ id
    exact hd1

theorem canon_writeHeader (d : Dev) (next : Nat) :
    Pres Canon d (d.writeHeader next) := by
  unfold Dev.writeHeader
  extract_lets gen1 b2 d3
  clear_value gen1
  refine pres_through (b := d3) ?_ fun hd3 => ?_
  · unfold d3
    exact pres_set pres_refl id
  clear_value d3
  refine pres_trans ?_ (canon_setCs0 _ _ _)
  exact hd3

theorem canon_queueHeader (d : Dev) (next : Nat) :
    Pres Canon d (d.queueHeader next) := by
  unfold Dev.queueHeader
  extract_lets gen1 b2 d3
  clear_value gen1
  refine pres_through (b := d3) ?_ fun hd3 => ?_
  · unfold d3
    exact pres_set pres_refl id
  clear_value d3
  refine pres_trans ?_ (canon_depotWrite _ _)
  exact hd3

theorem canon_writeSealed (d : Dev) :
    Pres Canon d (d.writeSealed) := by
  unfold Dev.writeSealed
  extract_lets b1 d2
  refine pres_through (b := d2) ?_ fun hd2 => ?_
  · unfold d2
    exact pres_set pres_refl id
  clear_value d2
  refine pres_trans ?_ (canon_depotWrite _ _)
  exact hd2

theorem canon_changeSealed (d : Dev) (addr : Nat) (old : Word) (new : Word) (set : Toll → Toll) :
    Pres Canon d (d.changeSealed addr old new set) := by
  unfold Dev.changeSealed
  extract_lets b1 d2
  clear_value b1
  refine pres_through (b := d2) ?_ fun hd2 => ?_
  · unfold d2
    exact pres_set pres_refl id
  clear_value d2
  refine pres_keeps canon_respects (keeps_dueAudit _ _ _) rfl ?_
  refine pres_trans ?_ (canon_writeSealed _)
  exact hd2

theorem canon_startCommit (d : Dev) :
    Pres Canon d (d.startCommit) := by
  unfold Dev.startCommit
  split
  · exact pres_refl
  · refine pres_ite (fun _ => ?_) fun _ => ?_
    · exact pres_refl
    · extract_lets d1 d2 b3 b4
      refine pres_through (b := d1) ?_ fun hd1 => ?_
      · unfold d1
        refine pres_keeps canon_respects (keeps_needDepot _) rfl ?_
        exact pres_refl
      clear_value d1
      refine pres_through (b := d2) ?_ fun hd2 => ?_
      · unfold d2
        refine pres_trans ?_ (canon_setCs0 _ _ _)
        refine pres_trans ?_ (canon_setCs0 _ _ _)
        exact hd1
      clear_value d2
      refine pres_ite (fun _ => ?_) fun _ => ?_
      · refine pres_set (b := d2) ?_ id
        exact hd2
      · exact hd1

theorem canon_ledgerCommit (d : Dev) :
    Pres Canon d (d.ledgerCommit) := by
  unfold Dev.ledgerCommit
  refine pres_ite (fun _ => ?_) fun _ => ?_
  · exact pres_refl
  · exact canon_startCommit _

theorem canon_commitRetry (d : Dev) :
    Pres Canon d (d.commitRetry) := by
  unfold Dev.commitRetry
  refine pres_ite (fun _ => ?_) fun _ => ?_
  · exact canon_startCommit _
  · exact pres_refl

theorem canon_commitDone (d : Dev) (r : Sealed) (rest : List Sealed) :
    Pres Canon d (d.commitDone r rest) := by
  unfold Dev.commitDone
  extract_lets d1 b2 d3
  refine pres_through (b := d1) ?_ fun hd1 => ?_
  · unfold d1
    exact canon_setCs0 _ _ _
  clear_value d1
  refine pres_through (b := d3) ?_ fun hd3 => ?_
  · unfold d3
    refine pres_set (b := d1) ?_ id
    exact hd1
  clear_value d3
  refine pres_keeps canon_respects (keeps_notice _ _ _ _) rfl ?_
  refine pres_keeps canon_respects (keeps_endCommit _) rfl ?_
  refine pres_trans ?_ (canon_writeHeader _ _)
  exact hd3

theorem canon_ledgerCommitEnd (d : Dev) (first : Bool) (second : Bool) :
    Pres Canon d (d.ledgerCommitEnd first second) := by
  unfold Dev.ledgerCommitEnd
  refine pres_ite (fun _ => ?_) fun _ => ?_
  · exact pres_refl
  · split
    · refine pres_keeps canon_respects (keeps_endCommit _) rfl ?_
      exact pres_refl
    · extract_lets d1 d2 b3 d4
      refine pres_through (b := d1) ?_ fun hd1 => ?_
      · unfold d1
        refine pres_ite (fun _ => ?_) fun _ => ?_
        · exact pres_refl
        · refine pres_keeps canon_respects (keeps_countCs0Error _) rfl ?_
          exact pres_refl
      clear_value d1
      refine pres_through (b := d2) ?_ fun hd2 => ?_
      · unfold d2
        refine pres_keeps canon_respects (keeps_endCommit _) rfl ?_
        refine pres_keeps canon_respects (keeps_countCs0Error _) rfl ?_
        exact hd1
      clear_value d2
      refine pres_through (b := d4) ?_ fun hd4 => ?_
      · unfold d4
        refine pres_set (b := d2) ?_ id
        exact hd2
      clear_value d4
      refine pres_ite (fun _ => ?_) fun _ => ?_
      · refine pres_trans ?_ (canon_commitDone _ _ _)
        exact hd1
      · refine pres_keeps canon_respects (keeps_notice _ _ _ _) rfl ?_
        exact hd4

theorem canon_applyAck (d : Dev) (v : Nat) :
    Pres Canon d (d.applyAck v) := by
  unfold Dev.applyAck
  extract_lets before1 b2 d3
  refine pres_through (b := d3) ?_ fun hd3 => ?_
  · unfold d3
    exact pres_set pres_refl id
  clear_value d3
  refine pres_keeps canon_respects (keeps_lowCheck _ _) rfl ?_
  refine pres_trans ?_ (canon_queueHeader _ _)
  exact hd3

theorem canon_bodyAck (d : Dev) :
    Pres Canon d (bodyAck d).1 := by
  unfold bodyAck
  extract_lets v1 b2
  refine pres_ite_fst (fun _ => ?_) fun _ => ?_
  · refine pres_pair ?_
    exact pres_refl
  · refine pres_ite_fst (fun _ => ?_) fun _ => ?_
    · refine pres_pair ?_
      exact pres_refl
    · refine pres_ite_fst (fun _ => ?_) fun _ => ?_
      · refine pres_pair ?_
        exact pres_set pres_refl id
      · refine pres_pair ?_
        exact canon_applyAck _ _

theorem canon_ackFrame (d : Dev) :
    Pres Canon d (d.ackFrame) := by
  unfold Dev.ackFrame
  split
  · refine pres_ite (fun _ => ?_) fun _ => ?_
    · exact pres_refl
    · exact canon_applyAck _ _
  · exact pres_refl

theorem canon_reseal (d : Dev) (h : Nat) (found : Byte) (cause : Nat) :
    Pres Canon d (d.reseal h found cause) := by
  unfold Dev.reseal
  extract_lets b1 d2 b3 b4 d5
  clear_value b1
  refine pres_through (b := d2) ?_ fun hd2 => ?_
  · unfold d2
    exact canon_setCs0 _ _ _
  clear_value d2
  refine pres_through (b := d5) ?_ fun hd5 => ?_
  · unfold d5
    refine pres_set (b := d2) ?_ id
    exact hd2
  clear_value d5
  refine pres_trans ?_ (canon_writeHeader _ _)
  exact hd5

theorem canon_acceptSlot (d : Dev) (h : Nat) :
    Pres Canon d (d.acceptSlot h) := by
  unfold Dev.acceptSlot
  refine pres_trans ?_ (canon_writeHeader _ _)
  exact pres_set pres_refl id

theorem canon_examine (x0 : Nat) (x1 : Nat) (x2 : Dev) :
    Pres Canon x2 (Dev.examine x0 x1 x2).1 := by
  induction x0 generalizing x1 x2
  · unfold Dev.examine
    refine pres_pair ?_
    exact pres_refl
  · rename_i x0 ih
    unfold Dev.examine
    extract_lets b1 marker2 seq3 crc4 d5
    clear_value b1
    refine pres_through (b := d5) ?_ fun hd5 => ?_
    · unfold d5
      exact canon_acceptSlot _ _
    clear_value d5
    refine pres_ite_fst (fun _ => ?_) fun _ => ?_
    · refine pres_ite_fst (fun _ => ?_) fun _ => ?_
      · refine pres_trans ?_ (ih _ _)
        refine pres_ite (fun _ => ?_) fun _ => ?_
        · exact hd5
        · refine pres_keeps canon_respects (keeps_findCorrupt _) rfl ?_
          refine pres_keeps canon_respects (keeps_judgeRecord _ _ _) rfl ?_
          exact hd5
      · refine pres_ite_fst (fun _ => ?_) fun _ => ?_
        · refine pres_ite_fst (fun _ => ?_) fun _ => ?_
          · refine pres_pair ?_
            exact pres_refl
          · refine pres_trans ?_ (ih _ _)
            refine pres_keeps canon_respects (keeps_findCorrupt _) rfl ?_
            refine pres_keeps canon_respects (keeps_judgeRecord _ _ _) rfl ?_
            exact canon_acceptSlot _ _
        · refine pres_pair ?_
          exact pres_refl
    · refine pres_ite_fst (fun _ => ?_) fun _ => ?_
      · refine pres_pair ?_
        exact pres_refl
      · refine pres_pair ?_
        exact canon_reseal _ _ _ _

theorem canon_recoverLedger (d : Dev) (life : Option (Nat × Nat)) :
    Pres Canon d (d.recoverLedger life) := by
  unfold Dev.recoverLedger
  extract_lets r1 x2 b3 b4
  refine pres_through (b := r1.1) ?_ fun hr1 => ?_
  · unfold r1
    refine pres_keeps canon_respects (keeps_findHead _ _) rfl ?_
    exact pres_refl
  clear_value r1
  refine pres_through (b := x2.1) ?_ fun hx2 => ?_
  · unfold x2
    refine pres_trans ?_ (canon_examine _ _ _)
    exact hr1
  clear_value x2
  refine pres_through (b := b3) ?_ fun hb3 => ?_
  · unfold b3
    exact hx2
  clear_value b3
  refine pres_set (b := b3) ?_ id
  exact hb3

theorem canon_writePointer (d : Dev) (slot : Nat) :
    Pres Canon d (d.writePointer slot) := by
  unfold Dev.writePointer
  extract_lets r1 b2
  clear_value r1
  clear_value b2
  exact canon_depotWrite _ _

theorem canon_bodyManErase (d : Dev) :
    Pres Canon d (bodyManErase d).1 := by
  unfold bodyManErase
  refine pres_ite_fst (fun _ => ?_) fun _ => ?_
  · refine pres_pair ?_
    exact pres_refl
  · refine pres_ite_fst (fun _ => ?_) fun _ => ?_
    · refine pres_pair ?_
      exact pres_refl
    · refine pres_pair ?_
      exact canon_depotWrite _ _

theorem canon_bodyManSwitch (d : Dev) :
    Pres Canon d (bodyManSwitch d).1 := by
  unfold bodyManSwitch
  refine pres_ite_fst (fun _ => ?_) fun _ => ?_
  · refine pres_pair ?_
    exact pres_refl
  · refine pres_ite_fst (fun _ => ?_) fun _ => ?_
    · refine pres_pair ?_
      exact pres_refl
    · extract_lets d1
      refine pres_through (b := d1) ?_ fun hd1 => ?_
      · unfold d1
        refine pres_keeps canon_respects (keeps_needDepot _) rfl ?_
        exact pres_refl
      clear_value d1
      split
      · refine pres_ite_fst (fun _ => ?_) fun _ => ?_
        · refine pres_pair ?_
          refine pres_trans ?_ (canon_writePointer _ _)
          exact hd1
        · refine pres_pair ?_
          exact hd1
      · refine pres_pair ?_
        exact hd1

theorem canon_copyForward (d : Dev) (old : Nat × List Byte) :
    Pres Canon d (d.copyForward old) := by
  unfold Dev.copyForward
  extract_lets n1 d2 b3
  clear_value n1
  refine pres_through (b := d2) ?_ fun hd2 => ?_
  · unfold d2
    exact canon_setCs1 _ _ _
  clear_value d2
  refine pres_set (b := d2) ?_ id
  exact hd2

theorem canon_enterSector (d : Dev) (n : Nat) :
    Pres Canon d (d.enterSector n) := by
  unfold Dev.enterSector
  refine pres_ite (fun _ => ?_) fun _ => ?_
  · extract_lets olds1 d2 b3 d4
    clear_value olds1
    refine pres_through (b := d2) ?_ fun hd2 => ?_
    · unfold d2
      exact canon_eraseCs1 _ _ _
    clear_value d2
    refine pres_through (b := d4) ?_ fun hd4 => ?_
    · unfold d4
      refine pres_set (b := d2) ?_ id
      exact hd2
    clear_value d4
    refine pres_foldl ?_ fun d5 x6 => ?_
    · exact hd4
    · exact canon_copyForward _ _
  · exact pres_set pres_refl id

theorem canon_nextSlot (x0 : Nat) (x1 : Dev) :
    Pres Canon x1 (Dev.nextSlot x0 x1) := by
  induction x0 generalizing x1
  · unfold Dev.nextSlot
    exact pres_refl
  · rename_i x0 ih
    unfold Dev.nextSlot
    extract_lets n1 d2
    clear_value n1
    refine pres_through (b := d2) ?_ fun hd2 => ?_
    · unfold d2
      exact canon_enterSector _ _
    clear_value d2
    refine pres_ite (fun _ => ?_) fun _ => ?_
    · refine pres_trans ?_ (ih _)
      exact hd2
    · exact hd2

theorem canon_writeLog (d : Dev) (x : LogEntry) :
    Pres Canon d (d.writeLog x) := by
  unfold Dev.writeLog
  extract_lets d1 n2 d3 b4 d5
  refine pres_through (b := d1) ?_ fun hd1 => ?_
  · unfold d1
    exact canon_nextSlot _ _
  clear_value d1
  clear_value n2
  refine pres_through (b := d3) ?_ fun hd3 => ?_
  · unfold d3
    refine pres_trans ?_ (canon_setCs1 _ _ _)
    exact hd1
  clear_value d3
  refine pres_through (b := d5) ?_ fun hd5 => ?_
  · unfold d5
    refine pres_set (b := d3) ?_ id
    exact hd3
  clear_value d5
  refine pres_ite (fun _ => ?_) fun _ => ?_
  · refine pres_keeps canon_respects (keeps_pin _ _) rfl ?_
    exact hd5
  · exact hd5

theorem canon_saveLogState (d : Dev) :
    Pres Canon d (d.saveLogState) := by
  unfold Dev.saveLogState
  exact canon_depotWrite _ _

theorem canon_writeBuffer (d : Dev) :
    Pres Canon d (d.writeBuffer) := by
  unfold Dev.writeBuffer
  extract_lets sec1 done2 n3 now4 b5 d6
  clear_value sec1
  clear_value done2
  clear_value n3
  clear_value now4
  refine pres_through (b := d6) ?_ fun hd6 => ?_
  · unfold d6
    exact pres_set pres_refl id
  clear_value d6
  refine pres_trans ?_ (canon_saveLogState _)
  refine pres_foldl ?_ fun d7 x8 => ?_
  · exact hd6
  · exact canon_writeLog _ _

theorem canon_unpinTo (d : Dev) (v : Nat) :
    Pres Canon d (d.unpinTo v) := by
  unfold Dev.unpinTo
  refine pres_ite (fun _ => ?_) fun _ => ?_
  · exact pres_refl
  · refine pres_trans ?_ (canon_saveLogState _)
    exact pres_set pres_refl id

theorem canon_bodyLogUnpin (d : Dev) :
    Pres Canon d (bodyLogUnpin d).1 := by
  unfold bodyLogUnpin
  refine pres_pair ?_
  exact canon_unpinTo _ _

theorem canon_writeHistory (d : Dev) :
    Pres Canon d (d.writeHistory) := by
  unfold Dev.writeHistory
  extract_lets h1 copy2 gen3 d4 b5
  clear_value h1
  clear_value gen3
  refine pres_through (b := d4) ?_ fun hd4 => ?_
  · unfold d4
    refine pres_trans ?_ (canon_setCs1 _ _ _)
    exact canon_eraseCs1 _ _ _
  clear_value d4
  refine pres_ite (fun _ => ?_) fun _ => ?_
  · exact pres_refl
  · refine pres_set (b := d4) ?_ id
    exact hd4

theorem canon_flush (d : Dev) :
    Pres Canon d (d.flush) := by
  unfold Dev.flush
  extract_lets d1 undo2 total3 gen4 copy5 d6 b7 b8 d9 d10 b11
  refine pres_through (b := d1) ?_ fun hd1 => ?_
  · unfold d1
    refine pres_keeps canon_respects (keeps_needDepot _) rfl ?_
    exact pres_refl
  clear_value d1
  clear_value total3
  clear_value gen4
  refine pres_through (b := d6) ?_ fun hd6 => ?_
  · unfold d6
    refine pres_trans ?_ (canon_setCs1 _ _ _)
    exact hd1
  clear_value d6
  refine pres_through (b := d9) ?_ fun hd9 => ?_
  · unfold d9
    refine pres_set (b := d6) ?_ id
    exact hd6
  clear_value d9
  refine pres_through (b := d10) ?_ fun hd10 => ?_
  · unfold d10
    refine pres_keeps canon_respects (keeps_queueTx _ _) rfl ?_
    refine pres_trans ?_ (canon_writeHistory _)
    exact hd9
  clear_value d10
  refine pres_set (b := d10) ?_ id
  exact hd10

theorem canon_abandonFlush (d : Dev) :
    Pres Canon d (d.abandonFlush) := by
  unfold Dev.abandonFlush
  split
  · exact pres_refl
  · extract_lets d1 d2 b3 b4
    refine pres_through (b := d1) ?_ fun hd1 => ?_
    · unfold d1
      exact canon_eraseCs1 _ _ _
    clear_value d1
    refine pres_through (b := d2) ?_ fun hd2 => ?_
    · unfold d2
      refine pres_ite (fun _ => ?_) fun _ => ?_
      · exact hd1
      · refine pres_trans ?_ (canon_eraseCs1 _ _ _)
        exact hd1
    clear_value d2
    refine pres_set (b := d2) ?_ id
    exact hd2

theorem canon_flushTurn (d : Dev) :
    Pres Canon d (d.flushTurn) := by
  unfold Dev.flushTurn
  extract_lets b1 d2 d3
  refine pres_through (b := d2) ?_ fun hd2 => ?_
  · unfold d2
    exact pres_set pres_refl id
  clear_value d2
  refine pres_through (b := d3) ?_ fun hd3 => ?_
  · unfold d3
    refine pres_keeps canon_respects (keeps_needDepot _) rfl ?_
    exact hd2
  clear_value d3
  refine pres_ite (fun _ => ?_) fun _ => ?_
  · exact hd2
  · refine pres_ite (fun _ => ?_) fun _ => ?_
    · refine pres_trans ?_ (canon_flush _)
      exact hd3
    · refine pres_keeps canon_respects (keeps_queueTx _ _) rfl ?_
      exact hd3

theorem canon_bodyLifFlush (d : Dev) :
    Pres Canon d (bodyLifFlush d).1 := by
  unfold bodyLifFlush
  refine pres_pair ?_
  exact canon_flushTurn _

theorem canon_earlyFlush (d : Dev) :
    Pres Canon d (d.earlyFlush) := by
  unfold Dev.earlyFlush
  refine pres_ite (fun _ => ?_) fun _ => ?_
  · exact canon_flushTurn _
  · exact pres_refl

theorem canon_lifeFrame (d : Dev) :
    Pres Canon d (d.lifeFrame) := by
  unfold Dev.lifeFrame
  extract_lets d1 b2 d3 b4
  refine pres_through (b := d1) ?_ fun hd1 => ?_
  · unfold d1
    refine pres_trans ?_ (canon_earlyFlush _)
    refine pres_keeps canon_respects (keeps_pumpTime _) rfl ?_
    exact pres_refl
  clear_value d1
  refine pres_through (b := d3) ?_ fun hd3 => ?_
  · unfold d3
    refine pres_keeps canon_respects (keeps_minute _) rfl ?_
    refine pres_set (b := d1) ?_ id
    exact hd1
  clear_value d3
  refine pres_ite (fun _ => ?_) fun _ => ?_
  · refine pres_set (b := d1) ?_ id
    exact hd1
  · refine pres_ite (fun _ => ?_) fun _ => ?_
    · refine pres_set (b := d3) ?_ id
      exact hd3
    · refine pres_keeps canon_respects (keeps_hour _) rfl ?_
      refine pres_set (b := d3) ?_ id
      exact hd3

theorem canon_startTx (d : Dev) (t : DepotTx) :
    Pres Canon d (d.startTx t) := by
  unfold Dev.startTx
  extract_lets js1 b2 d3 d4 d5 d6 b7
  clear_value js1
  refine pres_through (b := d3) ?_ fun hd3 => ?_
  · unfold d3
    exact pres_set pres_refl id
  clear_value d3
  refine pres_through (b := d4) ?_ fun hd4 => ?_
  · unfold d4
    refine pres_foldl ?_ fun d8 x9 => ?_
    · exact hd3
    · exact canon_doJob _ _
  clear_value d4
  refine pres_through (b := d5) ?_ fun hd5 => ?_
  · unfold d5
    refine pres_ite (fun _ => ?_) fun _ => ?_
    · refine pres_trans ?_ (canon_writeBuffer _)
      exact hd4
    · exact hd4
  clear_value d5
  refine pres_through (b := d6) ?_ fun hd6 => ?_
  · unfold d6
    refine pres_ite (fun _ => ?_) fun _ => ?_
    · refine pres_trans ?_ (canon_flush _)
      exact hd5
    · exact hd5
  clear_value d6
  refine pres_set (b := d6) ?_ id
  exact hd6

theorem canon_programFailed (d : Dev) (t : DepotTx) :
    Pres Canon d (d.programFailed t) := by
  unfold Dev.programFailed
  split
  · extract_lets d1 b2
    refine pres_through (b := d1) ?_ fun hd1 => ?_
    · unfold d1
      refine pres_keeps canon_respects (keeps_countCs1Error _) rfl ?_
      exact pres_refl
    clear_value d1
    refine pres_set (b := d1) ?_ id
    exact hd1
  · extract_lets d3 b4
    refine pres_through (b := d3) ?_ fun hd3 => ?_
    · unfold d3
      refine pres_trans ?_ (canon_eraseCs1 _ _ _)
      refine pres_keeps canon_respects (keeps_countCs1Error _) rfl ?_
      exact pres_refl
    clear_value d3
    refine pres_set (b := d3) ?_ id
    exact hd3
  · exact pres_refl

theorem canon_txEnds (d : Dev) (ok : Bool) :
    Pres Canon d (d.txEnds ok) := by
  unfold Dev.txEnds
  split
  · exact pres_refl
  · exact pres_refl
  · exact pres_refl
  · extract_lets b1 d2
    refine pres_through (b := d2) ?_ fun hd2 => ?_
    · unfold d2
      refine pres_keeps canon_respects (keeps_flushOver _ _) rfl ?_
      exact pres_set pres_refl id
    clear_value d2
    refine pres_ite (fun _ => ?_) fun _ => ?_
    · exact hd2
    · refine pres_trans ?_ (canon_programFailed _ _)
      exact hd2

theorem canon_takeDepot (d : Dev) :
    Pres Canon d (d.takeDepot) := by
  unfold Dev.takeDepot
  extract_lets p1 d2
  refine pres_through (b := d2) ?_ fun hd2 => ?_
  · unfold d2
    refine pres_keeps canon_respects (keeps_overrunNotice _ _ _) rfl ?_
    exact pres_set pres_refl id
  clear_value d2
  refine pres_foldl ?_ fun d3 x4 => ?_
  · exact hd2
  · exact canon_txEnds _ _

theorem canon_perTakes (d : Dev) :
    Pres Canon d (d.perTakes) := by
  unfold Dev.perTakes
  refine pres_keeps canon_respects (keeps_takeHeldSet _) rfl ?_
  refine pres_trans ?_ (canon_takeDepot _)
  refine pres_keeps canon_respects (keeps_takeChain _) rfl ?_
  exact pres_refl

theorem canon_writeEnergy (d : Dev) :
    Pres Canon d (d.writeEnergy) := by
  unfold Dev.writeEnergy
  exact canon_depotWrite _ _

theorem canon_pfRun (d : Dev) :
    Pres Canon d (d.pfRun) := by
  unfold Dev.pfRun
  extract_lets b1 d2 d3 d4 b5
  refine pres_through (b := d2) ?_ fun hd2 => ?_
  · unfold d2
    exact pres_set pres_refl id
  clear_value d2
  refine pres_through (b := d3) ?_ fun hd3 => ?_
  · unfold d3
    refine pres_keeps canon_respects (keeps_zeroCheck _) rfl ?_
    refine pres_keeps canon_respects (keeps_pfNotice _) rfl ?_
    refine pres_keeps canon_respects (keeps_countDevice _ _) rfl ?_
    refine pres_keeps canon_respects (keeps_needDepot _) rfl ?_
    exact hd2
  clear_value d3
  refine pres_through (b := d4) ?_ fun hd4 => ?_
  · unfold d4
    refine pres_trans ?_ (canon_abandonFlush _)
    refine pres_keeps canon_respects (keeps_pfSuspend _) rfl ?_
    refine pres_keeps canon_respects (keeps_fault _ _ _ _ _) rfl ?_
    exact hd3
  clear_value d4
  refine pres_set (b := d4) ?_ id
  exact hd4

theorem canon_pfMuster (d : Dev) :
    Pres Canon d (d.pfMuster) := by
  unfold Dev.pfMuster
  extract_lets d1 b2
  refine pres_through (b := d1) ?_ fun hd1 => ?_
  · unfold d1
    refine pres_keeps canon_respects (keeps_needDepot _) rfl ?_
    exact pres_refl
  clear_value d1
  refine pres_trans ?_ (canon_abandonFlush _)
  refine pres_keeps canon_respects (keeps_pfNotice _) rfl ?_
  refine pres_set (b := d1) ?_ id
  exact hd1

theorem canon_pfWarning (d : Dev) :
    Pres Canon d (d.pfWarning) := by
  unfold Dev.pfWarning
  refine pres_ite (fun _ => ?_) fun _ => ?_
  · exact pres_refl
  · extract_lets b1 d2
    refine pres_through (b := d2) ?_ fun hd2 => ?_
    · unfold d2
      exact pres_set pres_refl id
    clear_value d2
    split
    · exact hd2
    · refine pres_ite (fun _ => ?_) fun _ => ?_
      · refine pres_keeps canon_respects (keeps_zeroCheck _) rfl ?_
        exact hd2
      · refine pres_trans ?_ (canon_pfRun _)
        exact hd2
    · refine pres_ite (fun _ => ?_) fun _ => ?_
      · exact hd2
      · refine pres_trans ?_ (canon_pfMuster _)
        exact hd2

theorem canon_commitAll (x0 : Nat) (x1 : Dev) :
    Pres Canon x1 (Dev.commitAll x0 x1) := by
  induction x0 generalizing x1
  · unfold Dev.commitAll
    exact pres_refl
  · rename_i x0 ih
    unfold Dev.commitAll
    extract_lets d1
    refine pres_through (b := d1) ?_ fun hd1 => ?_
    · unfold d1
      refine pres_keeps canon_respects (keeps_recordSigned _) rfl ?_
      exact pres_refl
    clear_value d1
    split
    · exact hd1
    · refine pres_ite (fun _ => ?_) fun _ => ?_
      · refine pres_trans ?_ (ih _)
        refine pres_trans ?_ (canon_commitDone _ _ _)
        refine pres_trans ?_ (canon_setCs0 _ _ _)
        exact hd1
      · exact hd1

theorem canon_finalCommit (d : Dev) :
    Pres Canon d (d.finalCommit) := by
  unfold Dev.finalCommit
  extract_lets d1 b2 d3
  refine pres_through (b := d1) ?_ fun hd1 => ?_
  · unfold d1
    refine pres_trans ?_ (canon_commitAll _ _)
    refine pres_keeps canon_respects (keeps_needDepot _) rfl ?_
    exact pres_refl
  clear_value d1
  refine pres_through (b := d3) ?_ fun hd3 => ?_
  · unfold d3
    refine pres_set (b := d1) ?_ id
    exact hd1
  clear_value d3
  refine pres_keeps canon_respects (keeps_writeCounters _) rfl ?_
  refine pres_trans ?_ (canon_doJob _ _)
  exact hd3

theorem canon_clockStep (d : Dev) (m : MusterInputs) :
    Pres Canon d (d.clockStep m) := by
  unfold Dev.clockStep
  extract_lets lock1 b2 d3 b4 b5 b6 d7 d8 d9
  clear_value lock1
  refine pres_through (b := d3) ?_ fun hd3 => ?_
  · unfold d3
    exact pres_set pres_refl id
  clear_value d3
  refine pres_through (b := d7) ?_ fun hd7 => ?_
  · unfold d7
    refine pres_set (b := d3) ?_ id
    exact hd3
  clear_value d7
  refine pres_through (b := d8) ?_ fun hd8 => ?_
  · unfold d8
    refine pres_trans ?_ (canon_perTakes _)
    exact hd7
  clear_value d8
  refine pres_through (b := d9) ?_ fun hd9 => ?_
  · unfold d9
    refine pres_ite (fun _ => ?_) fun _ => ?_
    · refine pres_keeps canon_respects (keeps_notice _ _ _ _) rfl ?_
      exact hd8
    · exact hd8
  clear_value d9
  refine pres_ite (fun _ => ?_) fun _ => ?_
  · refine pres_keeps canon_respects (keeps_musterStop _ _ _) rfl ?_
    exact hd3
  · refine pres_ite (fun _ => ?_) fun _ => ?_
    · refine pres_keeps canon_respects (keeps_musterStop _ _ _) rfl ?_
      exact hd3
    · refine pres_ite (fun _ => ?_) fun _ => ?_
      · refine pres_keeps canon_respects (keeps_pfNotice _) rfl ?_
        exact hd9
      · exact hd9

theorem canon_sealStep (d : Dev) :
    Pres Canon d (d.sealStep) := by
  unfold Dev.sealStep
  extract_lets b1 b2 t3 b4
  clear_value b1
  clear_value t3
  refine pres_ite (fun _ => ?_) fun _ => ?_
  · split
    · exact pres_refl
    · extract_lets t5
      clear_value t5
      refine pres_trans ?_ (canon_writeSealed _)
      exact pres_set pres_refl id
  · refine pres_ite (fun _ => ?_) fun _ => ?_
    · exact pres_set pres_refl id
    · exact pres_set pres_refl id

theorem canon_ledgerStep (d : Dev) :
    Pres Canon d (d.ledgerStep) := by
  unfold Dev.ledgerStep
  refine pres_trans ?_ (canon_recoverLedger _ _)
  exact canon_sealStep _

theorem canon_loadCounters (d : Dev) :
    Pres Canon d (d.loadCounters) := by
  unfold Dev.loadCounters
  split
  · exact pres_refl
  · extract_lets b1 b2 d3 d4 b5
    refine pres_through (b := d3) ?_ fun hd3 => ?_
    · unfold d3
      refine pres_ite (fun _ => ?_) fun _ => ?_
      · exact pres_set pres_refl id
      · exact pres_refl
    clear_value d3
    refine pres_through (b := d4) ?_ fun hd4 => ?_
    · unfold d4
      refine pres_ite (fun _ => ?_) fun _ => ?_
      · refine pres_keeps canon_respects (keeps_countDevice _ _) rfl ?_
        exact hd3
      · exact hd3
    clear_value d4
    refine pres_ite (fun _ => ?_) fun _ => ?_
    · exact hd4
    · refine pres_trans ?_ (canon_flush _)
      refine pres_set (b := d4) ?_ id
      exact hd4

theorem canon_checkDigest (d : Dev) :
    Pres Canon d (d.checkDigest) := by
  unfold Dev.checkDigest
  refine pres_ite (fun _ => ?_) fun _ => ?_
  · exact pres_refl
  · extract_lets old1 b2 d3
    refine pres_through (b := d3) ?_ fun hd3 => ?_
    · unfold d3
      exact pres_set pres_refl id
    clear_value d3
    refine pres_keeps canon_respects (keeps_freezeAudit _ _ _) rfl ?_
    refine pres_trans ?_ (canon_writeSealed _)
    exact hd3

theorem canon_counterStep (d : Dev) :
    Pres Canon d (d.counterStep) := by
  unfold Dev.counterStep
  extract_lets d1 d2 b3 d4
  refine pres_through (b := d1) ?_ fun hd1 => ?_
  · unfold d1
    refine pres_trans ?_ (canon_loadCounters _)
    refine pres_keeps canon_respects (keeps_loadHistory _) rfl ?_
    refine pres_keeps canon_respects (keeps_loadLife _) rfl ?_
    refine pres_keeps canon_respects (keeps_loadShadows _) rfl ?_
    exact pres_refl
  clear_value d1
  refine pres_through (b := d2) ?_ fun hd2 => ?_
  · unfold d2
    refine pres_foldl ?_ fun d5 x6 => ?_
    · exact hd1
    · refine pres_keeps canon_respects (keeps_countResetOpening _ _) rfl ?_
      exact pres_refl
  clear_value d2
  refine pres_through (b := d4) ?_ fun hd4 => ?_
  · unfold d4
    refine pres_set (b := d2) ?_ id
    exact hd2
  clear_value d4
  refine pres_keeps canon_respects (keeps_drainRecords _) rfl ?_
  refine pres_keeps canon_respects (keeps_openingAudit _) rfl ?_
  refine pres_trans ?_ (canon_checkDigest _)
  exact hd4

theorem canon_watchDue (d : Dev) :
    Pres Canon d (d.watchDue) := by
  unfold Dev.watchDue
  extract_lets d1
  refine pres_through (b := d1) ?_ fun hd1 => ?_
  · unfold d1
    refine pres_ite (fun _ => ?_) fun _ => ?_
    · exact canon_flush _
    · exact pres_refl
  clear_value d1
  refine pres_keeps canon_respects (keeps_drainRecords _) rfl ?_
  refine pres_keeps canon_respects (keeps_openingAudit _) rfl ?_
  exact hd1

theorem canon_estimateStep (d : Dev) (m : MusterInputs) :
    Pres Canon d (d.estimateStep m) := by
  unfold Dev.estimateStep
  extract_lets d1
  refine pres_through (b := d1) ?_ fun hd1 => ?_
  · unfold d1
    refine pres_foldl ?_ fun d2 x3 => ?_
    · exact pres_refl
    · refine pres_keeps canon_respects (keeps_firstSnap _ _) rfl ?_
      exact pres_refl
  clear_value d1
  refine pres_trans ?_ (canon_watchDue _)
  refine pres_ite (fun _ => ?_) fun _ => ?_
  · refine pres_keeps canon_respects (keeps_resumeEstimates _) rfl ?_
    exact hd1
  · refine pres_keeps canon_respects (keeps_startEstimates _) rfl ?_
    exact hd1

theorem canon_musterStep (d : Dev) (m : MusterInputs) :
    Pres Canon d (d.musterStep m) := by
  unfold Dev.musterStep
  split
  · refine pres_keeps canon_respects (keeps_startStep _ _) rfl ?_
    exact pres_refl
  · exact canon_clockStep _ _
  · refine pres_keeps canon_respects (keeps_otpStep _ _) rfl ?_
    exact pres_refl
  · refine pres_keeps canon_respects (keeps_engineStep _ _) rfl ?_
    exact pres_refl
  · refine pres_keeps canon_respects (keeps_depotStep _ _) rfl ?_
    exact pres_refl
  · refine pres_keeps canon_respects (keeps_patchStep _) rfl ?_
    exact pres_refl
  · refine pres_keeps canon_respects (keeps_manifestStep _) rfl ?_
    exact pres_refl
  · exact canon_ledgerStep _
  · exact canon_counterStep _
  · refine pres_keeps canon_respects (keeps_sensingStep _) rfl ?_
    exact pres_refl
  · refine pres_keeps canon_respects (keeps_diagStep _ _) rfl ?_
    exact pres_refl
  · refine pres_keeps canon_respects (keeps_guardStep _ _) rfl ?_
    exact pres_refl
  · refine pres_keeps canon_respects (keeps_chainStep _ _) rfl ?_
    exact pres_refl
  · refine pres_keeps canon_respects (keeps_authStep _ _) rfl ?_
    exact pres_refl
  · exact canon_estimateStep _ _
  · refine pres_keeps canon_respects (keeps_runStep _ _) rfl ?_
    exact pres_refl

theorem canon_musterFrom (x0 : Nat) (x1 : MusterInputs) (x2 : Dev) :
    Pres Canon x2 (Dev.musterFrom x0 x1 x2) := by
  induction x0 generalizing x1 x2
  · unfold Dev.musterFrom
    exact pres_refl
  · rename_i x0 ih
    unfold Dev.musterFrom
    extract_lets n1 d2 b3 d4 d5 b6
    refine pres_through (b := d2) ?_ fun hd2 => ?_
    · unfold d2
      exact canon_musterStep _ _
    clear_value d2
    refine pres_through (b := d4) ?_ fun hd4 => ?_
    · unfold d4
      refine pres_set (b := d2) ?_ id
      exact hd2
    clear_value d4
    refine pres_through (b := d5) ?_ fun hd5 => ?_
    · unfold d5
      refine pres_ite (fun _ => ?_) fun _ => ?_
      · refine pres_keeps canon_respects (keeps_found _ _ _) rfl ?_
        exact hd4
      · exact hd4
    clear_value d5
    refine pres_ite (fun _ => ?_) fun _ => ?_
    · exact hd2
    · refine pres_ite (fun _ => ?_) fun _ => ?_
      · refine pres_set (b := d5) ?_ id
        exact hd5
      · refine pres_trans ?_ (ih _ _)
        exact hd5

theorem canon_musterOn (d : Dev) (m : MusterInputs) :
    Pres Canon d (d.musterOn m) := by
  unfold Dev.musterOn
  refine pres_trans ?_ (canon_musterFrom _ _ _)
  exact pres_set pres_refl id

theorem canon_startUp (d : Dev) (m : MusterInputs) :
    Pres Canon d (d.startUp m) := by
  unfold Dev.startUp
  refine pres_ite (fun _ => ?_) fun _ => ?_
  · exact pres_set pres_refl id
  · refine pres_trans ?_ (canon_musterFrom _ _ _)
    exact pres_set pres_refl id

theorem canon_retentionLost (d : Dev) (m : MusterInputs) :
    Pres Canon d (d.retentionLost m) := by
  unfold Dev.retentionLost
  extract_lets b1 d2
  refine pres_through (b := d2) ?_ fun hd2 => ?_
  · unfold d2
    exact pres_set pres_refl id
  clear_value d2
  refine pres_ite (fun _ => ?_) fun _ => ?_
  · refine pres_trans ?_ (canon_startUp _ _)
    refine pres_keeps canon_respects (keeps_resetWith _ _) rfl ?_
    exact hd2
  · exact hd2

theorem canon_clockFails (d : Dev) (m : MusterInputs) :
    Pres Canon d (d.clockFails m) := by
  unfold Dev.clockFails
  refine pres_ite (fun _ => ?_) fun _ => ?_
  · refine pres_trans ?_ (canon_startUp _ _)
    refine pres_keeps canon_respects (keeps_resetWith _ _) rfl ?_
    refine pres_keeps canon_respects (keeps_countDevice _ _) rfl ?_
    exact pres_refl
  · exact pres_refl

theorem canon_watchdogTrips (d : Dev) (m : MusterInputs) :
    Pres Canon d (d.watchdogTrips m) := by
  unfold Dev.watchdogTrips
  refine pres_ite (fun _ => ?_) fun _ => ?_
  · refine pres_trans ?_ (canon_startUp _ _)
    refine pres_keeps canon_respects (keeps_resetWith _ _) rfl ?_
    refine pres_keeps canon_respects (keeps_countDevice _ _) rfl ?_
    exact pres_refl
  · exact pres_refl

theorem canon_bodyReset (m : Option MusterInputs) (d : Dev) :
    Pres Canon d (bodyReset m d).1 := by
  unfold bodyReset
  refine pres_ite_fst (fun _ => ?_) fun _ => ?_
  · refine pres_pair ?_
    exact pres_refl
  · extract_lets d1
    refine pres_through (b := d1) ?_ fun hd1 => ?_
    · unfold d1
      refine pres_keeps canon_respects (keeps_resetWith _ _) rfl ?_
      exact pres_refl
    clear_value d1
    split
    · refine pres_pair ?_
      refine pres_trans ?_ (canon_startUp _ _)
      exact hd1
    · refine pres_pair ?_
      exact hd1

theorem canon_resume (d : Dev) (m : MusterInputs) :
    Pres Canon d (d.resume m) := by
  unfold Dev.resume
  extract_lets b1 b2 b3 b4 d5 d6
  refine pres_through (b := d5) ?_ fun hd5 => ?_
  · unfold d5
    exact pres_set pres_refl id
  clear_value d5
  refine pres_through (b := d6) ?_ fun hd6 => ?_
  · unfold d6
    refine pres_ite (fun _ => ?_) fun _ => ?_
    · refine pres_trans ?_ (canon_pfMuster _)
      exact hd5
    · exact hd5
  clear_value d6
  refine pres_trans ?_ (canon_musterFrom _ _ _)
  exact hd6

theorem canon_wake (d : Dev) (src : WakeSource) (m : MusterInputs) :
    Pres Canon d (d.wake src m) := by
  unfold Dev.wake
  refine pres_ite (fun _ => ?_) fun _ => ?_
  · exact pres_refl
  · refine pres_ite (fun _ => ?_) fun _ => ?_
    · extract_lets d1 b2
      refine pres_through (b := d1) ?_ fun hd1 => ?_
      · unfold d1
        refine pres_keeps canon_respects (keeps_wakeCause _ _) rfl ?_
        refine pres_keeps canon_respects (keeps_wakeCause _ _) rfl ?_
        exact pres_refl
      clear_value d1
      refine pres_keeps canon_respects (keeps_notice _ _ _ _) rfl ?_
      refine pres_set (b := d1) ?_ id
      exact hd1
    · split
      · refine pres_trans ?_ (canon_resume _ _)
        refine pres_keeps canon_respects (keeps_wakeCause _ _) rfl ?_
        exact pres_refl
      · refine pres_ite (fun _ => ?_) fun _ => ?_
        · refine pres_keeps canon_respects (keeps_wakeCause _ _) rfl ?_
          exact pres_refl
        · exact pres_refl
      · exact pres_refl

theorem canon_storeSealed (d : Dev) (addr : Nat) (old : Word) (data : Word) (rws : Word) (rw : Word) (inRange : Bool) (set : Word → Toll → Toll) :
    PresOk Canon d (d.storeSealed addr old data rws rw inRange set) := by
  unfold Dev.storeSealed
  extract_lets new1
  clear_value new1
  refine presOk_ite (fun _ => ?_) fun _ => ?_
  · exact presOk_error
  · refine presOk_ite (fun _ => ?_) fun _ => ?_
    · refine presOk_ok ?_
      exact pres_set pres_refl id
    · refine presOk_ite (fun _ => ?_) fun _ => ?_
      · refine presOk_ok ?_
        exact canon_changeSealed _ _ _ _ _
      · exact presOk_error

theorem canon_writeTol (d : Dev) (data : Word) (x2 : Nat) :
    PresOk Canon d (d.writeTol data x2) := by
  unfold Dev.writeTol
  split
  · refine presOk_ok ?_
    exact pres_set pres_refl id
  · exact presOk_keeps canon_respects (keeps_storeTag _ _ _) rfl
  · exact presOk_keeps canon_respects (keeps_storeTag _ _ _) rfl
  · exact presOk_keeps canon_respects (keeps_storeTag _ _ _) rfl
  · exact presOk_keeps canon_respects (keeps_storeTag _ _ _) rfl
  · exact presOk_keeps canon_respects (keeps_storeTag _ _ _) rfl
  · exact presOk_keeps canon_respects (keeps_storeTag _ _ _) rfl
  · exact canon_storeSealed _ _ _ _ _ _ _ _
  · exact canon_storeSealed _ _ _ _ _ _ _ _
  · exact canon_storeSealed _ _ _ _ _ _ _ _
  · exact canon_storeSealed _ _ _ _ _ _ _ _
  · exact canon_storeSealed _ _ _ _ _ _ _ _
  · exact canon_storeSealed _ _ _ _ _ _ _ _
  · exact canon_storeSealed _ _ _ _ _ _ _ _
  · refine presOk_store fun w1 => ?_
    exact pres_set pres_refl id
  · refine presOk_ok ?_
    exact pres_set pres_refl id
  · exact presOk_error

set_option maxRecDepth 8000 in
theorem canon_writeReg (d : Dev) (a : Nat) (data : Word) :
    PresOk Canon d (d.writeReg a data) := by
  unfold Dev.writeReg
  refine presOk_ite (fun _ => presOk_error) fun _ => ?_
  refine presOk_ite (fun _ => presOk_keeps canon_respects (keeps_writeSys _ _ _) rfl) fun _ => ?_
  refine presOk_ite (fun _ => presOk_keeps canon_respects (keeps_writeEvt _ _ _) rfl) fun _ => ?_
  refine presOk_ite (fun _ => presOk_keeps canon_respects (keeps_writeMode _ _ _) rfl) fun _ => ?_
  refine presOk_ite (fun _ => presOk_keeps canon_respects (keeps_writeSup _ _ _) rfl) fun _ => ?_
  refine presOk_ite (fun _ => presOk_keeps canon_respects (keeps_writeEng _ _ _) rfl) fun _ => ?_
  refine presOk_ite (fun _ => presOk_keeps canon_respects (keeps_writeChn _ _ _) rfl) fun _ => ?_
  refine presOk_ite (fun _ => presOk_keeps canon_respects (keeps_writeSen _ _ _) rfl) fun _ => ?_
  refine presOk_ite (fun _ => presOk_keeps canon_respects (keeps_writeEst _ _ _) rfl) fun _ => ?_
  refine presOk_ite (fun _ => presOk_keeps canon_respects (keeps_writeLim _ _ _) rfl) fun _ => ?_
  refine presOk_ite (fun _ => presOk_keeps canon_respects (keeps_writePwr _ _ _) rfl) fun _ => ?_
  refine presOk_ite (fun _ => presOk_keeps canon_respects (keeps_writeSaf _ _ _) rfl) fun _ => ?_
  refine presOk_ite (fun _ => canon_writeTol _ _ _) fun _ => ?_
  refine presOk_ite (fun _ => presOk_keeps canon_respects (keeps_writeLgr _ _ _) rfl) fun _ => ?_
  refine presOk_ite (fun _ => presOk_keeps canon_respects (keeps_writeCan _ _ _ _) rfl) fun _ => ?_
  refine presOk_ite (fun _ => presOk_keeps canon_respects (keeps_writeCan _ _ _ _) rfl) fun _ => ?_
  refine presOk_ite (fun _ => presOk_keeps canon_respects (keeps_writeHst _ _ _) rfl) fun _ => ?_
  exact presOk_keeps canon_respects (keeps_writeDep _ _ _) rfl

set_option maxRecDepth 8000 in
theorem canon_bodyOf (r : CmdReg) (code : Nat) (x2 : Dev) :
    Pres Canon x2 (bodyOf r code x2).1 := by
  have can : ∀ ch n f, bodyOfCan ch n = some f → ∀ d, Pres Canon d (f d).1 := by
    intro ch n f h d
    unfold bodyOfCan at h
    split at h
    · rw [← Option.some.inj h]; exact pres_keeps canon_respects (keeps_bodyTxQueue _ _) rfl pres_refl
    · rw [← Option.some.inj h]; exact pres_keeps canon_respects (keeps_bodyTxCancel _ _) rfl pres_refl
    · rw [← Option.some.inj h]; exact pres_keeps canon_respects (keeps_bodyRxPop _ _) rfl pres_refl
    · rw [← Option.some.inj h]; exact pres_keeps canon_respects (keeps_bodyTtLoad _ _) rfl pres_refl
    · rw [← Option.some.inj h]; exact pres_keeps canon_respects (keeps_bodyBoRecover _ _) rfl pres_refl
    · rw [← Option.some.inj h]; exact pres_keeps canon_respects (keeps_bodyCanCntClr _ _) rfl pres_refl
    · exact nomatch h
  have low : ∀ n f, bodyOfLow r n = some f → ∀ d, Pres Canon d (f d).1 := by
    intro n f h d
    unfold bodyOfLow at h
    split at h
    · rw [← Option.some.inj h]; exact pres_keeps canon_respects (keeps_bodyWatch _) rfl pres_refl
    · rw [← Option.some.inj h]; exact pres_keeps canon_respects (keeps_bodyBenchEnter _) rfl pres_refl
    · rw [← Option.some.inj h]; exact pres_keeps canon_respects (keeps_bodyBenchExit _) rfl pres_refl
    · rw [← Option.some.inj h]; exact pres_keeps canon_respects (keeps_bodyLockAck _) rfl pres_refl
    · rw [← Option.some.inj h]; exact pres_keeps canon_respects (keeps_bodyClose _) rfl pres_refl
    · rw [← Option.some.inj h]; exact pres_keeps canon_respects (keeps_bodyOpen _) rfl pres_refl
    · rw [← Option.some.inj h]; exact pres_keeps canon_respects (keeps_bodyHold _) rfl pres_refl
    · rw [← Option.some.inj h]; exact pres_keeps canon_respects (keeps_bodyRelease _) rfl pres_refl
    · rw [← Option.some.inj h]; exact pres_keeps canon_respects (keeps_bodySetTime _) rfl pres_refl
    · rw [← Option.some.inj h]; exact canon_bodyReset _ _
    · rw [← Option.some.inj h]; exact pres_keeps canon_respects (keeps_bodyArmAlarm _) rfl pres_refl
    · rw [← Option.some.inj h]; exact pres_keeps canon_respects (keeps_bodyDisarm _) rfl pres_refl
    · rw [← Option.some.inj h]; exact pres_keeps canon_respects (keeps_bodyAuthNow _) rfl pres_refl
    · rw [← Option.some.inj h]; exact pres_keeps canon_respects (keeps_bodyStepNow _) rfl pres_refl
    · rw [← Option.some.inj h]; exact pres_keeps canon_respects (keeps_bodyFaultClr _) rfl pres_refl
    · rw [← Option.some.inj h]; exact pres_keeps canon_respects (keeps_bodyPwrClr _) rfl pres_refl
    · rw [← Option.some.inj h]; exact pres_keeps canon_respects (keeps_bodyCtst _) rfl pres_refl
    · rw [← Option.some.inj h]; exact pres_keeps canon_respects (keeps_bodyDiag _) rfl pres_refl
    · rw [← Option.some.inj h]; exact pres_keeps canon_respects (keeps_bodyGtest _ _) rfl pres_refl
    · rw [← Option.some.inj h]; exact pres_keeps canon_respects (keeps_bodyGtest _ _) rfl pres_refl
    · rw [← Option.some.inj h]; exact pres_keeps canon_respects (keeps_bodyGtest _ _) rfl pres_refl
    · rw [← Option.some.inj h]; exact pres_keeps canon_respects (keeps_bodyGtest _ _) rfl pres_refl
    · exact nomatch h
  have high : ∀ n f, bodyOfHigh r n = some f → ∀ d, Pres Canon d (f d).1 := by
    intro n f h d
    unfold bodyOfHigh at h
    split at h
    · rw [← Option.some.inj h]; exact pres_keeps canon_respects (keeps_bodySessionOpen _) rfl pres_refl
    · rw [← Option.some.inj h]; exact pres_keeps canon_respects (keeps_bodySessionClose _) rfl pres_refl
    · rw [← Option.some.inj h]; exact pres_keeps canon_respects (keeps_bodyResume _) rfl pres_refl
    · rw [← Option.some.inj h]; exact pres_keeps canon_respects (keeps_bodySnapshot _) rfl pres_refl
    · rw [← Option.some.inj h]; exact pres_keeps canon_respects (keeps_bodyCalOpen _) rfl pres_refl
    · rw [← Option.some.inj h]; exact pres_keeps canon_respects (keeps_bodyCalClose _) rfl pres_refl
    · rw [← Option.some.inj h]; exact canon_bodyAck _
    · exact can _ _ _ h d
    · exact can _ _ _ h d
    · rw [← Option.some.inj h]; exact pres_keeps canon_respects (keeps_bodyPop _) rfl pres_refl
    · rw [← Option.some.inj h]; exact pres_keeps canon_respects (keeps_bodyHstCntClr _) rfl pres_refl
    · rw [← Option.some.inj h]; exact canon_bodyManErase _
    · rw [← Option.some.inj h]; exact canon_bodyManSwitch _
    · rw [← Option.some.inj h]; exact canon_bodyLogUnpin _
    · rw [← Option.some.inj h]; exact canon_bodyLifFlush _
    · rw [← Option.some.inj h]; exact pres_keeps canon_respects (keeps_bodyClrK _) rfl pres_refl
    · rw [← Option.some.inj h]; exact pres_keeps canon_respects (keeps_bodyClrPump _) rfl pres_refl
    · exact nomatch h
  unfold bodyOf
  cases hl : bodyOfLow r code with
  | some f => exact low _ _ hl _
  | none =>
    cases hh : bodyOfHigh r code with
    | some f => exact high _ _ hh _
    | none => exact pres_refl

theorem canon_offer (d : Dev) (r : CmdReg) (tok : Byte) (code : Byte) :
    Pres Canon d (d.offer r tok code) := by
  unfold Dev.offer
  extract_lets c1
  clear_value c1
  refine pres_ite (fun _ => ?_) fun _ => ?_
  · exact pres_refl
  · refine pres_ite (fun _ => ?_) fun _ => ?_
    · exact pres_set pres_refl id
    · refine pres_executeNow (by exact canon_ports) ?_ fun d2 => ?_
      · exact pres_refl
      · exact canon_bodyOf _ _ _

theorem canon_runHeld (d : Dev) (r : CmdReg) :
    Pres Canon d (d.runHeld r) := by
  unfold Dev.runHeld
  extract_lets c1
  clear_value c1
  split
  · exact pres_refl
  · refine pres_executeNow (by exact canon_ports) ?_ fun d2 => ?_
    · exact pres_set pres_refl id
    · exact canon_bodyOf _ _ _

theorem canon_runCommands (d : Dev) :
    Pres Canon d (d.runCommands) := by
  unfold Dev.runCommands
  refine pres_foldl ?_ fun d1 x2 => ?_
  · exact pres_refl
  · exact canon_runHeld _ _

theorem canon_frameWork (d : Dev) (f : FrameInputs) :
    Pres Canon d (d.frameWork f) := by
  unfold Dev.frameWork
  extract_lets d1 busy2 b3 d4 d5 r6 d7 w8 b9 d10 d11 d12 d13 d14
  refine pres_through (b := d1) ?_ fun hd1 => ?_
  · unfold d1
    refine pres_keeps canon_respects (keeps_frameModes _) rfl ?_
    refine pres_keeps canon_respects (keeps_frameStart _) rfl ?_
    exact pres_refl
  clear_value d1
  refine pres_through (b := b3.1) ?_ fun hb3 => ?_
  · unfold b3
    refine pres_keeps canon_respects (keeps_rebuildTime _) rfl ?_
    exact hd1
  clear_value b3
  refine pres_through (b := d4) ?_ fun hd4 => ?_
  · unfold d4
    refine pres_ite (fun _ => ?_) fun _ => ?_
    · refine pres_keeps canon_respects (keeps_agree _ _) rfl ?_
      exact hb3
    · exact hb3
  clear_value d4
  refine pres_through (b := d5) ?_ fun hd5 => ?_
  · unfold d5
    refine pres_keeps canon_respects (keeps_traceFrame _ _) rfl ?_
    exact hd4
  clear_value d5
  refine pres_through (b := r6.1) ?_ fun hr6 => ?_
  · unfold r6
    refine pres_keeps canon_respects (keeps_resolveAll _ _ _) rfl ?_
    exact hd5
  clear_value r6
  refine pres_through (b := d7) ?_ fun hd7 => ?_
  · unfold d7
    exact hr6
  clear_value d7
  clear_value w8
  refine pres_through (b := d10) ?_ fun hd10 => ?_
  · unfold d10
    refine pres_set (b := d7) ?_ id
    exact hd7
  clear_value d10
  refine pres_through (b := d11) ?_ fun hd11 => ?_
  · unfold d11
    refine pres_ite (fun _ => ?_) fun _ => ?_
    · refine pres_keeps canon_respects (keeps_classS _ _ _) rfl ?_
      exact hd10
    · exact hd10
  clear_value d11
  refine pres_through (b := d12) ?_ fun hd12 => ?_
  · unfold d12
    refine pres_keeps canon_respects (keeps_cfgCheck _) rfl ?_
    refine pres_trans ?_ (canon_ackFrame _)
    exact hd11
  clear_value d12
  refine pres_through (b := d13) ?_ fun hd13 => ?_
  · unfold d13
    refine pres_keeps canon_respects (keeps_zeroCheck _) rfl ?_
    refine pres_keeps canon_respects (keeps_drainRecords _) rfl ?_
    refine pres_keeps canon_respects (keeps_endTrips _) rfl ?_
    refine pres_trans ?_ (canon_runCommands _)
    exact hd12
  clear_value d13
  refine pres_through (b := d14) ?_ fun hd14 => ?_
  · unfold d14
    refine pres_ite (fun _ => ?_) fun _ => ?_
    · refine pres_trans ?_ (canon_lifeFrame _)
      exact hd13
    · exact hd13
  clear_value d14
  refine pres_keeps canon_respects (keeps_frameLoad _ _ _) rfl ?_
  exact hd14

theorem canon_runFrame (d : Dev) (f : FrameInputs) :
    Pres Canon d (d.runFrame f) := by
  unfold Dev.runFrame
  refine pres_trans ?_ (canon_frameWork _ _)
  refine pres_keeps canon_respects (keeps_dueStarts _) rfl ?_
  exact pres_refl

theorem canon_stepBody (f : FrameInputs) (d : Dev) :
    Pres Canon d (stepBody f d).1 := by
  unfold stepBody
  refine pres_ite_fst (fun _ => ?_) fun _ => ?_
  · refine pres_pair ?_
    refine pres_trans ?_ (canon_runFrame _ _)
    refine pres_keeps canon_respects (keeps_newPhase _) rfl ?_
    refine pres_keeps canon_respects (keeps_drainReplay _) rfl ?_
    exact pres_refl
  · refine pres_keeps canon_respects (keeps_ipRefused _) rfl ?_
    exact pres_refl

theorem canon_programWord (d : Dev) (a : Nat) (data : Word) :
    Pres Canon d (d.programWord a data) := by
  unfold Dev.programWord
  extract_lets base1 n2
  clear_value base1
  clear_value n2
  exact canon_setCs1 _ _ _

theorem canon_perform (d : Dev) (x1 : Access) :
    Pres Canon d (d.perform x1).dev := by
  unfold Dev.perform
  split
  · extract_lets r1
    refine pres_through (b := r1.1) ?_ fun hr1 => ?_
    · unfold r1
      refine pres_keeps canon_respects (keeps_readReg _ _) rfl ?_
      exact pres_refl
    clear_value r1
    refine pres_performed ?_
    exact hr1
  · split
    · rename_i r2 r3 r4 r5 r6 r7 r8
      refine pres_through (b := r7) (pres_of_ok ?_ r8) fun kr8 => ?_
      · exact canon_writeReg _ _ _
      extract_lets d'9
      refine pres_through (b := d'9) ?_ fun hd'9 => ?_
      · unfold d'9
        refine pres_keeps canon_respects (keeps_cfgCheck _) rfl ?_
        exact kr8
      clear_value d'9
      refine pres_performed ?_
      exact hd'9
    · refine pres_performed ?_
      exact pres_refl
  · refine pres_ite_dev (fun _ => ?_) fun _ => ?_
    · refine pres_performed ?_
      exact pres_refl
    · refine pres_performed ?_
      exact canon_offer _ _ _ _
  · refine pres_performed ?_
    refine pres_keeps canon_respects (keeps_advance _ _) rfl ?_
    exact pres_refl
  · refine pres_ite_dev (fun _ => ?_) fun _ => ?_
    · extract_lets d'10
      refine pres_through (b := d'10) ?_ fun hd'10 => ?_
      · unfold d'10
        exact canon_programWord _ _ _
      clear_value d'10
      refine pres_performed ?_
      refine pres_keeps canon_respects (keeps_advance _ _) rfl ?_
      exact hd'10
    · refine pres_performed ?_
      exact pres_refl

theorem canon_conclude (d : Dev) (a : Access) (frame : BitVec 4) :
    Pres Canon d (d.conclude a frame).1 := by
  unfold Dev.conclude
  extract_lets r1 d2 b3 d4
  refine pres_through (b := r1.dev) ?_ fun hr1 => ?_
  · unfold r1
    exact canon_perform _ _
  clear_value r1
  refine pres_through (b := d2) ?_ fun hd2 => ?_
  · unfold d2
    refine pres_ite (fun _ => ?_) fun _ => ?_
    · exact hr1
    · refine pres_keeps canon_respects (keeps_frameError _ _ _ _ _) rfl ?_
      exact hr1
  clear_value d2
  refine pres_through (b := d4) ?_ fun hd4 => ?_
  · unfold d4
    refine pres_ite (fun _ => ?_) fun _ => ?_
    · refine pres_set (b := d2) ?_ id
      exact hd2
    · exact hd2
  clear_value d4
  refine pres_pair ?_
  exact hd4

theorem canon_accessFrame (d : Dev) (a : Access) :
    Pres Canon d (d.accessFrame a) := by
  unfold Dev.accessFrame
  refine pres_ite (fun _ => ?_) fun _ => ?_
  · exact pres_refl
  · extract_lets d1 b2 d3 runs4 r5 b6
    refine pres_through (b := d1) ?_ fun hd1 => ?_
    · unfold d1
      refine pres_keeps canon_respects (keeps_numberFrame _) rfl ?_
      exact pres_refl
    clear_value d1
    refine pres_through (b := d3) ?_ fun hd3 => ?_
    · unfold d3
      refine pres_set (b := d1) ?_ id
      exact hd1
    clear_value d3
    clear_value runs4
    refine pres_through (b := r5.1) ?_ fun hr5 => ?_
    · unfold r5
      refine pres_trans ?_ (canon_conclude _ _ _)
      exact hd3
    clear_value r5
    refine pres_ite (fun _ => ?_) fun _ => ?_
    · refine pres_keeps canon_respects (keeps_refuseFrame _ _ _ _) rfl ?_
      exact hd1
    · refine pres_ite (fun _ => ?_) fun _ => ?_
      · refine pres_keeps canon_respects (keeps_refuseFrame _ _ _ _) rfl ?_
        exact hd1
      · refine pres_ite (fun _ => ?_) fun _ => ?_
        · refine pres_keeps canon_respects (keeps_respond _ _ _ _ _) rfl ?_
          exact hr5
        · refine pres_keeps canon_respects (keeps_respondBusy _) rfl ?_
          refine pres_set (b := d3) ?_ id
          exact hd3

theorem canon_accessCompletes (d : Dev) :
    Pres Canon d (d.accessCompletes) := by
  unfold Dev.accessCompletes
  split
  · exact pres_refl
  · refine pres_ite (fun _ => ?_) fun _ => ?_
    · extract_lets b1 d2
      refine pres_through (b := d2) ?_ fun hd2 => ?_
      · unfold d2
        exact pres_set pres_refl id
      clear_value d2
      refine pres_keeps canon_respects (keeps_afterAccess _) rfl ?_
      refine pres_trans ?_ (canon_conclude _ _ _)
      exact hd2
    · exact pres_refl

theorem canon_readFrame (d : Dev) (a : Addr) (inc : optParam Bool false) :
    Pres Canon d (d.readFrame a inc) := by
  unfold Dev.readFrame
  exact canon_accessFrame _ _

theorem canon_writeFrame (d : Dev) (a : Addr) (data : Word) (inc : optParam Bool false) :
    Pres Canon d (d.writeFrame a data inc) := by
  unfold Dev.writeFrame
  split
  · extract_lets tok1 code2
    clear_value tok1
    clear_value code2
    refine pres_commandFrame (by exact canon_ports) ?_ fun d3 => ?_
    · exact pres_refl
    · exact canon_offer _ _ _ _
  · exact canon_accessFrame _ _

theorem canon_domainStarts (d : Dev) (x : Domain) :
    Pres Canon d (d.domainStarts x) := by
  unfold Dev.domainStarts
  refine pres_ite (fun _ => ?_) fun _ => ?_
  · extract_lets b1 d2 d3 b4
    refine pres_through (b := d2) ?_ fun hd2 => ?_
    · unfold d2
      exact pres_set pres_refl id
    clear_value d2
    refine pres_through (b := d3) ?_ fun hd3 => ?_
    · unfold d3
      refine pres_ite (fun _ => ?_) fun _ => ?_
      · refine pres_keeps canon_respects (keeps_startSettling _) rfl ?_
        exact hd2
      · refine pres_ite (fun _ => ?_) fun _ => ?_
        · refine pres_trans ?_ (canon_perTakes _)
          exact hd2
        · exact hd2
    clear_value d3
    split
    · refine pres_ite (fun _ => ?_) fun _ => ?_
      · refine pres_set (b := d3) ?_ id
        exact hd3
      · exact hd3
    · exact hd3
  · exact pres_refl

theorem canon_idle (d : Dev) :
    Pres Canon d (d.idle) := by
  unfold Dev.idle
  split
  · exact canon_musterOn _ _
  · refine pres_keeps canon_respects (keeps_pwmBoundary _) rfl ?_
    refine pres_keeps canon_respects (keeps_rtcTick _) rfl ?_
    exact pres_refl

/-! ### Commands -/

theorem canon_execLedgerCommit (s : Machine.State) :
    ∃ d', execLedgerCommit s = .next { s with dev := d' } ∧ Pres Canon s.dev d' := by
  refine effect_pres fun d0 => ?_
  exact canon_ledgerCommit _

theorem canon_execCommitRetry (s : Machine.State) :
    ∃ d', execCommitRetry s = .next { s with dev := d' } ∧ Pres Canon s.dev d' := by
  refine effect_pres fun d0 => ?_
  exact canon_commitRetry _

theorem canon_execLedgerCommitEnd (first : Bool) (second : Bool) (s : Machine.State) :
    ∃ d', execLedgerCommitEnd first second s = .next { s with dev := d' } ∧ Pres Canon s.dev d' := by
  refine effect_pres fun d0 => ?_
  exact canon_ledgerCommitEnd _ _ _

theorem canon_execAck (tok : Byte) (s : Machine.State) :
    ∃ d', execAck tok s = .next { s with dev := d' } ∧ Pres Canon s.dev d' := by
  refine effect_pres fun d0 => ?_
  refine pres_hostCommand (by exact canon_ports) ?_ fun d1 => ?_
  · exact pres_refl
  · exact canon_bodyAck _

theorem canon_execManErase (tok : Byte) (s : Machine.State) :
    ∃ d', execManErase tok s = .next { s with dev := d' } ∧ Pres Canon s.dev d' := by
  refine effect_pres fun d0 => ?_
  refine pres_hostCommand (by exact canon_ports) ?_ fun d1 => ?_
  · exact pres_refl
  · exact canon_bodyManErase _

theorem canon_execManSwitch (tok : Byte) (s : Machine.State) :
    ∃ d', execManSwitch tok s = .next { s with dev := d' } ∧ Pres Canon s.dev d' := by
  refine effect_pres fun d0 => ?_
  refine pres_hostCommand (by exact canon_ports) ?_ fun d1 => ?_
  · exact pres_refl
  · exact canon_bodyManSwitch _

theorem canon_execEventLogWrite (s : Machine.State) :
    ∃ d', execEventLogWrite s = .next { s with dev := d' } ∧ Pres Canon s.dev d' := by
  refine effect_pres fun d0 => ?_
  extract_lets d1 d2
  refine pres_through (b := d1) ?_ fun hd1 => ?_
  · unfold d1
    refine pres_ite (fun _ => ?_) fun _ => ?_
    · exact pres_refl
    · refine pres_keeps canon_respects (keeps_needDepot _) rfl ?_
      exact pres_refl
  clear_value d1
  refine pres_through (b := d2) ?_ fun hd2 => ?_
  · unfold d2
    refine pres_keeps canon_respects (keeps_queueTx _ _) rfl ?_
    exact hd1
  clear_value d2
  refine pres_ite (fun _ => ?_) fun _ => ?_
  · refine pres_ite (fun _ => ?_) fun _ => ?_
    · refine pres_trans ?_ (canon_writeBuffer _)
      exact hd2
    · exact hd2
  · exact hd1

theorem canon_execLogUnpin (tok : Byte) (s : Machine.State) :
    ∃ d', execLogUnpin tok s = .next { s with dev := d' } ∧ Pres Canon s.dev d' := by
  refine effect_pres fun d0 => ?_
  refine pres_hostCommand (by exact canon_ports) ?_ fun d1 => ?_
  · exact pres_refl
  · exact canon_bodyLogUnpin _

theorem canon_execLifetimeFlushDue (s : Machine.State) :
    ∃ d', execLifetimeFlushDue s = .next { s with dev := d' } ∧ Pres Canon s.dev d' := by
  refine effect_pres fun d0 => ?_
  exact canon_flushTurn _

theorem canon_execLifFlush (tok : Byte) (s : Machine.State) :
    ∃ d', execLifFlush tok s = .next { s with dev := d' } ∧ Pres Canon s.dev d' := by
  refine effect_pres fun d0 => ?_
  refine pres_hostCommand (by exact canon_ports) ?_ fun d1 => ?_
  · exact pres_refl
  · exact canon_bodyLifFlush _

theorem canon_execDepotTransactionStart (s : Machine.State) :
    ∃ d', execDepotTransactionStart s = .next { s with dev := d' } ∧ Pres Canon s.dev d' := by
  refine effect_pres fun d0 => ?_
  refine pres_ite (fun _ => ?_) fun _ => ?_
  · exact pres_refl
  · extract_lets b1 d2 c3
    refine pres_through (b := d2) ?_ fun hd2 => ?_
    · unfold d2
      exact pres_set pres_refl id
    clear_value d2
    refine pres_through (b := c3) ?_ fun hc3 => ?_
    · unfold c3
      refine pres_ite (fun _ => ?_) fun _ => ?_
      · exact hd2
      · refine pres_trans ?_ (canon_startCommit _)
        exact hd2
    clear_value c3
    refine pres_ite (fun _ => ?_) fun _ => ?_
    · exact hc3
    · split
      · exact hd2
      · refine pres_trans ?_ (canon_startTx _ _)
        exact hd2

theorem canon_execDepotTransactionEnd (ok : Bool) (s : Machine.State) :
    ∃ d', execDepotTransactionEnd ok s = .next { s with dev := d' } ∧ Pres Canon s.dev d' := by
  refine effect_pres fun d0 => ?_
  extract_lets held1 b2
  clear_value held1
  refine pres_ite (fun _ => ?_) fun _ => ?_
  · refine pres_trans ?_ (canon_txEnds _ _)
    exact pres_set pres_refl id
  · exact pres_set pres_refl id

theorem canon_execEnergyShadowWrite (s : Machine.State) :
    ∃ d', execEnergyShadowWrite s = .next { s with dev := d' } ∧ Pres Canon s.dev d' := by
  refine effect_pres fun d0 => ?_
  refine pres_ite (fun _ => ?_) fun _ => ?_
  · extract_lets d1
    refine pres_through (b := d1) ?_ fun hd1 => ?_
    · unfold d1
      exact canon_writeEnergy _
    clear_value d1
    refine pres_ite (fun _ => ?_) fun _ => ?_
    · refine pres_trans ?_ (canon_depotWrite _ _)
      exact hd1
    · exact hd1
  · exact pres_refl

theorem canon_execFinalShadowWrite (s : Machine.State) :
    ∃ d', execFinalShadowWrite s = .next { s with dev := d' } ∧ Pres Canon s.dev d' := by
  refine effect_pres fun d0 => ?_
  refine pres_ite (fun _ => ?_) fun _ => ?_
  · exact canon_writeEnergy _
  · exact pres_refl

theorem canon_execPowerFailWarning (s : Machine.State) :
    ∃ d', execPowerFailWarning s = .next { s with dev := d' } ∧ Pres Canon s.dev d' := by
  refine effect_pres fun d0 => ?_
  exact canon_pfWarning _

theorem canon_execFinalCommitComplete (s : Machine.State) :
    ∃ d', execFinalCommitComplete s = .next { s with dev := d' } ∧ Pres Canon s.dev d' := by
  refine effect_pres fun d0 => ?_
  refine pres_ite (fun _ => ?_) fun _ => ?_
  · exact pres_refl
  · split
    · exact pres_refl
    · refine pres_keeps canon_respects (keeps_enterHoldPf _) rfl ?_
      exact canon_finalCommit _
    · refine pres_keeps canon_respects (keeps_enterHoldPf _) rfl ?_
      refine pres_keeps canon_respects (keeps_shadowCommit _) rfl ?_
      exact pres_refl

theorem canon_execPowerGood (m : MusterInputs) (s : Machine.State) :
    ∃ d', execPowerGood m s = .next { s with dev := d' } ∧ Pres Canon s.dev d' := by
  refine effect_pres fun d0 => ?_
  refine pres_ite (fun _ => ?_) fun _ => ?_
  · refine pres_trans ?_ (canon_startUp _ _)
    exact pres_set pres_refl id
  · exact pres_refl

theorem canon_execPinReset (m : MusterInputs) (s : Machine.State) :
    ∃ d', execPinReset m s = .next { s with dev := d' } ∧ Pres Canon s.dev d' := by
  refine effect_pres fun d0 => ?_
  refine pres_ite (fun _ => ?_) fun _ => ?_
  · refine pres_trans ?_ (canon_startUp _ _)
    refine pres_keeps canon_respects (keeps_resetWith _ _) rfl ?_
    exact pres_refl
  · exact pres_refl

theorem canon_execRetentionLoss (m : MusterInputs) (s : Machine.State) :
    ∃ d', execRetentionLoss m s = .next { s with dev := d' } ∧ Pres Canon s.dev d' := by
  refine effect_pres fun d0 => ?_
  exact canon_retentionLost _ _

theorem canon_execPowerFailRecovery (m : MusterInputs) (s : Machine.State) :
    ∃ d', execPowerFailRecovery m s = .next { s with dev := d' } ∧ Pres Canon s.dev d' := by
  refine effect_pres fun d0 => ?_
  refine pres_ite (fun _ => ?_) fun _ => ?_
  · refine pres_trans ?_ (canon_startUp _ _)
    refine pres_keeps canon_respects (keeps_resetWith _ _) rfl ?_
    exact pres_refl
  · exact pres_refl

theorem canon_execMainClockFailure (m : MusterInputs) (s : Machine.State) :
    ∃ d', execMainClockFailure m s = .next { s with dev := d' } ∧ Pres Canon s.dev d' := by
  refine effect_pres fun d0 => ?_
  exact canon_clockFails _ _

theorem canon_execFrameWatchdogTrip (m : MusterInputs) (s : Machine.State) :
    ∃ d', execFrameWatchdogTrip m s = .next { s with dev := d' } ∧ Pres Canon s.dev d' := by
  refine effect_pres fun d0 => ?_
  exact canon_watchdogTrips _ _

theorem canon_execResetCmd (tok : Byte) (m : MusterInputs) (s : Machine.State) :
    ∃ d', execResetCmd tok m s = .next { s with dev := d' } ∧ Pres Canon s.dev d' := by
  refine effect_pres fun d0 => ?_
  refine pres_hostCommand (by exact canon_ports) ?_ fun d1 => ?_
  · exact pres_refl
  · exact canon_bodyReset _ _

theorem canon_execWake (src : WakeSource) (m : MusterInputs) (s : Machine.State) :
    ∃ d', execWake src m s = .next { s with dev := d' } ∧ Pres Canon s.dev d' := by
  refine effect_pres fun d0 => ?_
  exact canon_wake _ _ _

theorem canon_execCall (f : CanFrame) (m : MusterInputs) (s : Machine.State) :
    ∃ d', execCall f m s = .next { s with dev := d' } ∧ Pres Canon s.dev d' := by
  refine effect_pres fun d0 => ?_
  extract_lets b1 d2
  refine pres_through (b := d2) ?_ fun hd2 => ?_
  · unfold d2
    refine pres_ite (fun _ => ?_) fun _ => ?_
    · exact pres_set pres_refl id
    · exact pres_refl
  clear_value d2
  refine pres_ite (fun _ => ?_) fun _ => ?_
  · refine pres_trans ?_ (canon_wake _ _ _)
    exact hd2
  · exact hd2

theorem canon_execEngineFrame (f : FrameInputs) (s : Machine.State) :
    ∃ d', execEngineFrame f s = .next { s with dev := d' } ∧ Pres Canon s.dev d' := by
  refine effect_pres fun d0 => ?_
  refine pres_ite (fun _ => ?_) fun _ => ?_
  · exact canon_runFrame _ _
  · exact pres_refl

theorem canon_execIpStep (crc : Byte) (f : FrameInputs) (s : Machine.State) :
    ∃ d', execIpStep crc f s = .next { s with dev := d' } ∧ Pres Canon s.dev d' := by
  refine effect_pres fun d0 => ?_
  refine pres_ip (by exact canon_ports) ?_ fun d1 => ?_
  · exact pres_refl
  · exact canon_stepBody _ _

theorem canon_execAccessComplete (s : Machine.State) :
    ∃ d', execAccessComplete s = .next { s with dev := d' } ∧ Pres Canon s.dev d' := by
  refine effect_pres fun d0 => ?_
  exact canon_accessCompletes _

theorem canon_execRegisterWrite (addr : Addr) (data : Word) (s : Machine.State) :
    ∃ d', execRegisterWrite addr data s = .next { s with dev := d' } ∧ Pres Canon s.dev d' := by
  refine effect_pres fun d0 => ?_
  exact canon_writeFrame _ _ _ _

theorem canon_execWindowAccessInc (addr : Addr) (write : Option Word) (s : Machine.State) :
    ∃ d', execWindowAccessInc addr write s = .next { s with dev := d' } ∧ Pres Canon s.dev d' := by
  refine effect_pres fun d0 => ?_
  split
  · exact canon_writeFrame _ _ _ _
  · exact canon_readFrame _ _ _

theorem canon_execManifestWindowWrite (data : Word) (s : Machine.State) :
    ∃ d', execManifestWindowWrite data s = .next { s with dev := d' } ∧ Pres Canon s.dev d' := by
  refine effect_pres fun d0 => ?_
  refine pres_ite (fun _ => ?_) fun _ => ?_
  · exact canon_accessFrame _ _
  · exact pres_refl

theorem canon_execUnknownCommand (reg : CmdReg) (tok : Byte) (code : Byte) (s : Machine.State) :
    ∃ d', execUnknownCommand reg tok code s = .next { s with dev := d' } ∧ Pres Canon s.dev d' := by
  refine effect_pres fun d0 => ?_
  refine pres_hostCommand (by exact canon_ports) ?_ fun d1 => ?_
  · exact pres_refl
  · extract_lets x2
    refine pres_through (b := x2.1) ?_ fun hx2 => ?_
    · unfold x2
      exact canon_bodyOf _ _ _
    clear_value x2
    refine pres_ite_fst (fun _ => ?_) fun _ => ?_
    · refine pres_keeps canon_respects (keeps_drained _ _) rfl ?_
      exact hx2
    · exact hx2

theorem canon_execRwsWrite (addr : Addr) (data : Word) (s : Machine.State) :
    ∃ d', execRwsWrite addr data s = .next { s with dev := d' } ∧ Pres Canon s.dev d' := by
  refine effect_pres fun d0 => ?_
  refine pres_ite (fun _ => ?_) fun _ => ?_
  · exact canon_writeFrame _ _ _ _
  · exact pres_refl

theorem canon_execDomainStarted (dom : Domain) (s : Machine.State) :
    ∃ d', execDomainStarted dom s = .next { s with dev := d' } ∧ Pres Canon s.dev d' := by
  refine effect_pres fun d0 => ?_
  exact canon_domainStarts _ _

theorem canon_execTolTagWrite (k : Fin 6) (data : Word) (s : State) :
    ∃ d', execTolTagWrite k data s = .next { s with dev := d' } ∧ Pres Canon s.dev d' :=
  ⟨_, rfl, canon_writeFrame _ _ _⟩

end Sys2Proof.Laws
end

