-- ==== Sys2Proof/Laws/ClassS.lean ====
section
/-! SUPPORT. Every operation that may write the engine's page keeps class S out of Split. -/
namespace Sys2Proof.Laws

open Sys2Proof.Machine Sys2Proof.Safety

theorem classS_publishPeriod (d : Dev) :
    Pres ClassS d (d.publishPeriod) := by
  unfold Dev.publishPeriod
  refine pres_ite (fun _ => ?_) fun _ => ?_
  · exact pres_set pres_refl id
  · refine pres_keeps classS_respects (keeps_publishLimits _) rfl ?_
    exact pres_set pres_refl id

theorem classS_brownOut (d : Dev) :
    Pres ClassS d (d.brownOut) := by
  unfold Dev.brownOut
  refine pres_ite (fun _ => ?_) fun _ => ?_
  · extract_lets d1 b2 b3
    refine pres_through (b := d1) ?_ fun hd1 => ?_
    · unfold d1
      exact classS_resetWith _ _
    clear_value d1
    refine pres_set (b := d1) ?_ id
    exact hd1
  · exact pres_refl

theorem classS_retentionLost (d : Dev) (m : MusterInputs) :
    Pres ClassS d (d.retentionLost m) := by
  unfold Dev.retentionLost
  extract_lets b1 d2
  refine pres_through (b := d2) ?_ fun hd2 => ?_
  · unfold d2
    exact pres_set pres_refl id
  clear_value d2
  refine pres_ite (fun _ => ?_) fun _ => ?_
  · refine pres_keeps classS_respects (keeps_startUp _ _) rfl ?_
    refine pres_trans ?_ (classS_resetWith _ _)
    exact hd2
  · exact hd2

theorem classS_clockFails (d : Dev) (m : MusterInputs) :
    Pres ClassS d (d.clockFails m) := by
  unfold Dev.clockFails
  refine pres_ite (fun _ => ?_) fun _ => ?_
  · refine pres_keeps classS_respects (keeps_startUp _ _) rfl ?_
    refine pres_trans ?_ (classS_resetWith _ _)
    refine pres_keeps classS_respects (keeps_countDevice _ _) rfl ?_
    exact pres_refl
  · exact pres_refl

theorem classS_watchdogTrips (d : Dev) (m : MusterInputs) :
    Pres ClassS d (d.watchdogTrips m) := by
  unfold Dev.watchdogTrips
  refine pres_ite (fun _ => ?_) fun _ => ?_
  · refine pres_keeps classS_respects (keeps_startUp _ _) rfl ?_
    refine pres_trans ?_ (classS_resetWith _ _)
    refine pres_keeps classS_respects (keeps_countDevice _ _) rfl ?_
    exact pres_refl
  · exact pres_refl

theorem classS_bodyReset (m : Option MusterInputs) (d : Dev) :
    Pres ClassS d (bodyReset m d).1 := by
  unfold bodyReset
  refine pres_ite_fst (fun _ => ?_) fun _ => ?_
  · refine pres_pair ?_
    exact pres_refl
  · extract_lets d1
    refine pres_through (b := d1) ?_ fun hd1 => ?_
    · unfold d1
      exact classS_resetWith _ _
    clear_value d1
    split
    · refine pres_pair ?_
      refine pres_keeps classS_respects (keeps_startUp _ _) rfl ?_
      exact hd1
    · refine pres_pair ?_
      exact hd1

set_option maxRecDepth 8000 in
theorem classS_writeReg (d : Dev) (a : Nat) (data : Word) :
    PresOk ClassS d (d.writeReg a data) := by
  unfold Dev.writeReg
  refine presOk_ite (fun _ => presOk_error) fun _ => ?_
  refine presOk_ite (fun _ => presOk_keeps classS_respects (keeps_writeSys _ _ _) rfl) fun _ => ?_
  refine presOk_ite (fun _ => presOk_keeps classS_respects (keeps_writeEvt _ _ _) rfl) fun _ => ?_
  refine presOk_ite (fun _ => presOk_keeps classS_respects (keeps_writeMode _ _ _) rfl) fun _ => ?_
  refine presOk_ite (fun _ => presOk_keeps classS_respects (keeps_writeSup _ _ _) rfl) fun _ => ?_
  refine presOk_ite (fun _ => classS_writeEng _ _ _) fun _ => ?_
  refine presOk_ite (fun _ => presOk_keeps classS_respects (keeps_writeChn _ _ _) rfl) fun _ => ?_
  refine presOk_ite (fun _ => presOk_keeps classS_respects (keeps_writeSen _ _ _) rfl) fun _ => ?_
  refine presOk_ite (fun _ => presOk_keeps classS_respects (keeps_writeEst _ _ _) rfl) fun _ => ?_
  refine presOk_ite (fun _ => presOk_keeps classS_respects (keeps_writeLim _ _ _) rfl) fun _ => ?_
  refine presOk_ite (fun _ => presOk_keeps classS_respects (keeps_writePwr _ _ _) rfl) fun _ => ?_
  refine presOk_ite (fun _ => presOk_keeps classS_respects (keeps_writeSaf _ _ _) rfl) fun _ => ?_
  refine presOk_ite (fun _ => presOk_keeps classS_respects (keeps_writeTol _ _ _) rfl) fun _ => ?_
  refine presOk_ite (fun _ => presOk_keeps classS_respects (keeps_writeLgr _ _ _) rfl) fun _ => ?_
  refine presOk_ite (fun _ => presOk_keeps classS_respects (keeps_writeCan _ _ _ _) rfl) fun _ => ?_
  refine presOk_ite (fun _ => presOk_keeps classS_respects (keeps_writeCan _ _ _ _) rfl) fun _ => ?_
  refine presOk_ite (fun _ => presOk_keeps classS_respects (keeps_writeHst _ _ _) rfl) fun _ => ?_
  exact presOk_keeps classS_respects (keeps_writeDep _ _ _) rfl

set_option maxRecDepth 8000 in
theorem classS_bodyOf (r : CmdReg) (code : Nat) (x2 : Dev) :
    Pres ClassS x2 (bodyOf r code x2).1 := by
  have can : ∀ ch n f, bodyOfCan ch n = some f → ∀ d, Pres ClassS d (f d).1 := by
    intro ch n f h d
    unfold bodyOfCan at h
    split at h
    · rw [← Option.some.inj h]; exact pres_keeps classS_respects (keeps_bodyTxQueue _ _) rfl pres_refl
    · rw [← Option.some.inj h]; exact pres_keeps classS_respects (keeps_bodyTxCancel _ _) rfl pres_refl
    · rw [← Option.some.inj h]; exact pres_keeps classS_respects (keeps_bodyRxPop _ _) rfl pres_refl
    · rw [← Option.some.inj h]; exact pres_keeps classS_respects (keeps_bodyTtLoad _ _) rfl pres_refl
    · rw [← Option.some.inj h]; exact pres_keeps classS_respects (keeps_bodyBoRecover _ _) rfl pres_refl
    · rw [← Option.some.inj h]; exact pres_keeps classS_respects (keeps_bodyCanCntClr _ _) rfl pres_refl
    · exact nomatch h
  have low : ∀ n f, bodyOfLow r n = some f → ∀ d, Pres ClassS d (f d).1 := by
    intro n f h d
    unfold bodyOfLow at h
    split at h
    · rw [← Option.some.inj h]; exact pres_keeps classS_respects (keeps_bodyWatch _) rfl pres_refl
    · rw [← Option.some.inj h]; exact pres_keeps classS_respects (keeps_bodyBenchEnter _) rfl pres_refl
    · rw [← Option.some.inj h]; exact pres_keeps classS_respects (keeps_bodyBenchExit _) rfl pres_refl
    · rw [← Option.some.inj h]; exact pres_keeps classS_respects (keeps_bodyLockAck _) rfl pres_refl
    · rw [← Option.some.inj h]; exact pres_keeps classS_respects (keeps_bodyClose _) rfl pres_refl
    · rw [← Option.some.inj h]; exact pres_keeps classS_respects (keeps_bodyOpen _) rfl pres_refl
    · rw [← Option.some.inj h]; exact pres_keeps classS_respects (keeps_bodyHold _) rfl pres_refl
    · rw [← Option.some.inj h]; exact pres_keeps classS_respects (keeps_bodyRelease _) rfl pres_refl
    · rw [← Option.some.inj h]; exact pres_keeps classS_respects (keeps_bodySetTime _) rfl pres_refl
    · rw [← Option.some.inj h]; exact classS_bodyReset _ _
    · rw [← Option.some.inj h]; exact pres_keeps classS_respects (keeps_bodyArmAlarm _) rfl pres_refl
    · rw [← Option.some.inj h]; exact pres_keeps classS_respects (keeps_bodyDisarm _) rfl pres_refl
    · rw [← Option.some.inj h]; exact pres_keeps classS_respects (keeps_bodyAuthNow _) rfl pres_refl
    · rw [← Option.some.inj h]; exact pres_keeps classS_respects (keeps_bodyStepNow _) rfl pres_refl
    · rw [← Option.some.inj h]; exact pres_keeps classS_respects (keeps_bodyFaultClr _) rfl pres_refl
    · rw [← Option.some.inj h]; exact pres_keeps classS_respects (keeps_bodyPwrClr _) rfl pres_refl
    · rw [← Option.some.inj h]; exact pres_keeps classS_respects (keeps_bodyCtst _) rfl pres_refl
    · rw [← Option.some.inj h]; exact pres_keeps classS_respects (keeps_bodyDiag _) rfl pres_refl
    · rw [← Option.some.inj h]; exact pres_keeps classS_respects (keeps_bodyGtest _ _) rfl pres_refl
    · rw [← Option.some.inj h]; exact pres_keeps classS_respects (keeps_bodyGtest _ _) rfl pres_refl
    · rw [← Option.some.inj h]; exact pres_keeps classS_respects (keeps_bodyGtest _ _) rfl pres_refl
    · rw [← Option.some.inj h]; exact pres_keeps classS_respects (keeps_bodyGtest _ _) rfl pres_refl
    · exact nomatch h
  have high : ∀ n f, bodyOfHigh r n = some f → ∀ d, Pres ClassS d (f d).1 := by
    intro n f h d
    unfold bodyOfHigh at h
    split at h
    · rw [← Option.some.inj h]; exact pres_keeps classS_respects (keeps_bodySessionOpen _) rfl pres_refl
    · rw [← Option.some.inj h]; exact pres_keeps classS_respects (keeps_bodySessionClose _) rfl pres_refl
    · rw [← Option.some.inj h]; exact pres_keeps classS_respects (keeps_bodyResume _) rfl pres_refl
    · rw [← Option.some.inj h]; exact pres_keeps classS_respects (keeps_bodySnapshot _) rfl pres_refl
    · rw [← Option.some.inj h]; exact pres_keeps classS_respects (keeps_bodyCalOpen _) rfl pres_refl
    · rw [← Option.some.inj h]; exact pres_keeps classS_respects (keeps_bodyCalClose _) rfl pres_refl
    · rw [← Option.some.inj h]; exact pres_keeps classS_respects (keeps_bodyAck _) rfl pres_refl
    · exact can _ _ _ h d
    · exact can _ _ _ h d
    · rw [← Option.some.inj h]; exact pres_keeps classS_respects (keeps_bodyPop _) rfl pres_refl
    · rw [← Option.some.inj h]; exact pres_keeps classS_respects (keeps_bodyHstCntClr _) rfl pres_refl
    · rw [← Option.some.inj h]; exact pres_keeps classS_respects (keeps_bodyManErase _) rfl pres_refl
    · rw [← Option.some.inj h]; exact pres_keeps classS_respects (keeps_bodyManSwitch _) rfl pres_refl
    · rw [← Option.some.inj h]; exact pres_keeps classS_respects (keeps_bodyLogUnpin _) rfl pres_refl
    · rw [← Option.some.inj h]; exact pres_keeps classS_respects (keeps_bodyLifFlush _) rfl pres_refl
    · rw [← Option.some.inj h]; exact pres_keeps classS_respects (keeps_bodyClrK _) rfl pres_refl
    · rw [← Option.some.inj h]; exact pres_keeps classS_respects (keeps_bodyClrPump _) rfl pres_refl
    · exact nomatch h
  unfold bodyOf
  cases hl : bodyOfLow r code with
  | some f => exact low _ _ hl _
  | none =>
    cases hh : bodyOfHigh r code with
    | some f => exact high _ _ hh _
    | none => exact pres_refl

theorem classS_offer (d : Dev) (r : CmdReg) (tok : Byte) (code : Byte) :
    Pres ClassS d (d.offer r tok code) := by
  unfold Dev.offer
  extract_lets c1
  clear_value c1
  refine pres_ite (fun _ => ?_) fun _ => ?_
  · exact pres_refl
  · refine pres_ite (fun _ => ?_) fun _ => ?_
    · exact pres_set pres_refl id
    · refine pres_executeNow (by exact classS_ports) ?_ fun d2 => ?_
      · exact pres_refl
      · exact classS_bodyOf _ _ _

theorem classS_runHeld (d : Dev) (r : CmdReg) :
    Pres ClassS d (d.runHeld r) := by
  unfold Dev.runHeld
  extract_lets c1
  clear_value c1
  split
  · exact pres_refl
  · refine pres_executeNow (by exact classS_ports) ?_ fun d2 => ?_
    · exact pres_set pres_refl id
    · exact classS_bodyOf _ _ _

theorem classS_runCommands (d : Dev) :
    Pres ClassS d (d.runCommands) := by
  unfold Dev.runCommands
  refine pres_foldl ?_ fun d1 x2 => ?_
  · exact pres_refl
  · exact classS_runHeld _ _

theorem classS_lastCause (d : Dev) (r : TaskResult) (odd : Option Pass) (outcome : Nat) :
    Pres ClassS d (d.lastCause r odd outcome) := by
  unfold Dev.lastCause
  exact pres_set pres_refl id

theorem classS_degradeCheck (d : Dev) (p : Pass) :
    Pres ClassS d (d.degradeCheck p) := by
  unfold Dev.degradeCheck
  refine pres_ite (fun _ => ?_) fun _ => ?_
  · extract_lets b1 d2
    refine pres_through (b := d2) ?_ fun hd2 => ?_
    · unfold d2
      exact pres_set pres_refl id
    clear_value d2
    refine pres_keeps classS_respects (keeps_fault _ _ _ _ _) rfl ?_
    refine pres_keeps classS_respects (keeps_countDevice _ _) rfl ?_
    exact hd2
  · exact pres_refl

theorem classS_oddPass (d : Dev) (p : Pass) (storage : Bool) :
    Pres ClassS d (d.oddPass p storage) := by
  unfold Dev.oddPass
  extract_lets d1 d2 b3
  refine pres_through (b := d1) ?_ fun hd1 => ?_
  · unfold d1
    refine pres_keeps classS_respects (keeps_faultGone _ _) rfl ?_
    refine pres_keeps classS_respects (keeps_fault _ _ _ _ _) rfl ?_
    exact pres_refl
  clear_value d1
  refine pres_through (b := d2) ?_ fun hd2 => ?_
  · unfold d2
    refine pres_trans ?_ (classS_engCount _ _)
    exact hd1
  clear_value d2
  refine pres_ite (fun _ => ?_) fun _ => ?_
  · exact hd1
  · refine pres_trans ?_ (classS_degradeCheck _ _)
    refine pres_set (b := d2) ?_ id
    exact hd2

theorem classS_withhold (d : Dev) (w : Work) (r : TaskResult) :
    Pres ClassS d (d.withhold w r).1 := by
  unfold Dev.withhold
  extract_lets d1 d2 b3 d4 w5
  refine pres_through (b := d1) ?_ fun hd1 => ?_
  · unfold d1
    exact classS_lastCause _ _ _ _
  clear_value d1
  refine pres_through (b := d2) ?_ fun hd2 => ?_
  · unfold d2
    refine pres_keeps classS_respects (keeps_faultGone _ _) rfl ?_
    refine pres_keeps classS_respects (keeps_fault _ _ _ _ _) rfl ?_
    refine pres_trans ?_ (classS_engCount _ _)
    exact hd1
  clear_value d2
  refine pres_through (b := d4) ?_ fun hd4 => ?_
  · unfold d4
    refine pres_set (b := d2) ?_ id
    exact hd2
  clear_value d4
  clear_value w5
  refine pres_ite_fst (fun _ => ?_) fun _ => ?_
  · refine pres_pair ?_
    exact hd1
  · refine pres_ite_fst (fun _ => ?_) fun _ => ?_
    · refine pres_pair ?_
      refine pres_keeps classS_respects (keeps_engineLock _ _) rfl ?_
      refine pres_trans ?_ (classS_lastCause _ _ _ _)
      exact hd4
    · refine pres_pair ?_
      exact hd4

theorem classS_threeWay (d : Dev) (r : TaskResult) :
    Pres ClassS d (d.threeWay r) := by
  unfold Dev.threeWay
  refine pres_keeps classS_respects (keeps_engineLock _ _) rfl ?_
  exact classS_lastCause _ _ _ _

theorem classS_takeContext (d : Dev) (r : TaskResult) (odd : Option Pass) :
    Pres ClassS d (d.takeContext r odd) := by
  unfold Dev.takeContext
  exact pres_set pres_refl id

theorem classS_voteTriple (d : Dev) (w : Work) (r : TaskResult) :
    Pres ClassS d (d.voteTriple w r).1 := by
  unfold Dev.voteTriple
  split
  · refine pres_pair ?_
    exact classS_takeContext _ _ _
  · refine pres_pair ?_
    exact classS_threeWay _ _
  · refine pres_pair ?_
    refine pres_trans ?_ (classS_takeContext _ _ _)
    refine pres_trans ?_ (classS_oddPass _ _ _)
    exact classS_lastCause _ _ _ _

theorem classS_resolvedNow (d : Dev) :
    Pres ClassS d (d.resolvedNow) := by
  unfold Dev.resolvedNow
  refine pres_keeps classS_respects (keeps_notice _ _ _ _) rfl ?_
  exact classS_engCount _ _

theorem classS_readHolds (d : Dev) (r : TaskResult) (ps : List Pass) :
    Pres ClassS d (d.readHolds r ps) := by
  unfold Dev.readHolds
  extract_lets d1 d2 e3
  refine pres_through (b := d1) ?_ fun hd1 => ?_
  · unfold d1
    refine pres_repeat ?_ fun d4 => ?_
    · exact pres_refl
    · refine pres_keeps classS_respects (keeps_notice _ _ _ _) rfl ?_
      exact classS_engCount _ _
  clear_value d1
  refine pres_through (b := d2) ?_ fun hd2 => ?_
  · unfold d2
    refine pres_repeat ?_ fun d6 => ?_
    · exact hd1
    · exact classS_engCount _ _
  clear_value d2
  refine pres_set (b := d2) ?_ id
  exact hd2

theorem classS_rerunTask (d : Dev) (w : Work) (r : TaskResult) :
    Pres ClassS d (d.rerunTask w r).1 := by
  unfold Dev.rerunTask
  refine pres_ite_fst (fun _ => ?_) fun _ => ?_
  · extract_lets again1 d2 d3
    clear_value again1
    refine pres_through (b := d2) ?_ fun hd2 => ?_
    · unfold d2
      exact classS_readHolds _ _ _
    clear_value d2
    refine pres_through (b := d3) ?_ fun hd3 => ?_
    · unfold d3
      refine pres_ite (fun _ => ?_) fun _ => ?_
      · refine pres_keeps classS_respects (keeps_engineLock _ _) rfl ?_
        exact hd2
      · exact hd2
    clear_value d3
    refine pres_ite_fst (fun _ => ?_) fun _ => ?_
    · refine pres_trans ?_ (classS_withhold _ _ _)
      exact hd3
    · refine pres_pair ?_
      refine pres_trans ?_ (classS_takeContext _ _ _)
      refine pres_trans ?_ (classS_resolvedNow _)
      refine pres_trans ?_ (classS_lastCause _ _ _ _)
      exact hd3
  · extract_lets d4
    refine pres_through (b := d4) ?_ fun hd4 => ?_
    · unfold d4
      exact classS_readHolds _ _ _
    clear_value d4
    refine pres_ite_fst (fun _ => ?_) fun _ => ?_
    · refine pres_pair ?_
      refine pres_trans ?_ (classS_threeWay _ _)
      exact hd4
    · split
      · refine pres_pair ?_
        refine pres_trans ?_ (classS_threeWay _ _)
        exact hd4
      · refine pres_pair ?_
        refine pres_trans ?_ (classS_takeContext _ _ _)
        refine pres_trans ?_ (classS_resolvedNow _)
        refine pres_trans ?_ (classS_lastCause _ _ _ _)
        exact hd4
      · refine pres_pair ?_
        refine pres_trans ?_ (classS_takeContext _ _ _)
        refine pres_trans ?_ (classS_oddPass _ _ _)
        refine pres_trans ?_ (classS_resolvedNow _)
        refine pres_trans ?_ (classS_lastCause _ _ _ _)
        exact hd4

theorem classS_resolvePaired (d : Dev) (w : Work) (r : TaskResult) :
    Pres ClassS d (d.resolvePaired w r).1 := by
  unfold Dev.resolvePaired
  extract_lets cost1 own2 w3
  clear_value cost1
  clear_value own2
  clear_value w3
  refine pres_ite_fst (fun _ => ?_) fun _ => ?_
  · exact classS_withhold _ _ _
  · refine pres_ite_fst (fun _ => ?_) fun _ => ?_
    · refine pres_pair ?_
      refine pres_keeps classS_respects (keeps_engineLock _ _) rfl ?_
      exact classS_lastCause _ _ _ _
    · exact classS_rerunTask _ _ _

theorem classS_takeSplit (d : Dev) (w : Work) (r : TaskResult) :
    Pres ClassS d (d.takeSplit w r).1 := by
  unfold Dev.takeSplit
  refine pres_ite_fst (fun _ => ?_) fun _ => ?_
  · refine pres_pair ?_
    exact pres_set pres_refl id
  · refine pres_trans ?_ (classS_withhold _ _ _)
    exact classS_engCount _ _

theorem classS_takeResult (x : Dev × Work) (r : TaskResult) :
    Pres ClassS x.1 (Dev.takeResult x r).1 := by
  unfold Dev.takeResult
  extract_lets d1 d2 d3
  refine pres_through (b := d1) ?_ fun hd1 => ?_
  · unfold d1
    exact classS_readHolds _ _ _
  clear_value d1
  refine pres_through (b := d2) ?_ fun hd2 => ?_
  · unfold d2
    refine pres_ite (fun _ => ?_) fun _ => ?_
    · refine pres_keeps classS_respects (keeps_engineLock _ _) rfl ?_
      exact hd1
    · exact hd1
  clear_value d2
  refine pres_through (b := d3) ?_ fun hd3 => ?_
  · unfold d3
    refine pres_ite (fun _ => ?_) fun _ => ?_
    · refine pres_trans ?_ (classS_engCount _ _)
      exact hd2
    · exact hd2
  clear_value d3
  refine pres_ite_fst (fun _ => ?_) fun _ => ?_
  · refine pres_trans ?_ (classS_takeSplit _ _ _)
    exact hd1
  · refine pres_ite_fst (fun _ => ?_) fun _ => ?_
    · refine pres_pair ?_
      refine pres_trans ?_ (classS_takeContext _ _ _)
      exact hd2
    · refine pres_ite_fst (fun _ => ?_) fun _ => ?_
      · refine pres_trans ?_ (classS_voteTriple _ _ _)
        exact hd3
      · refine pres_trans ?_ (classS_resolvePaired _ _ _)
        exact hd3

theorem classS_resolveAll (d : Dev) (w : Work) (rs : List TaskResult) :
    Pres ClassS d (d.resolveAll w rs).1 := by
  unfold Dev.resolveAll
  refine pres_foldl_fst ?_ fun d1 x2 => ?_
  · refine pres_pair ?_
    exact pres_refl
  · refine pres_trans ?_ (classS_takeResult _ _)
    exact pres_refl

theorem classS_disagrees (d : Dev) (a : Addr) :
    Pres ClassS d (d.disagrees a) := by
  unfold Dev.disagrees
  extract_lets d1 b2
  refine pres_through (b := d1) ?_ fun hd1 => ?_
  · unfold d1
    exact classS_engCount _ _
  clear_value d1
  refine pres_ite (fun _ => ?_) fun _ => ?_
  · exact hd1
  · refine pres_set (b := d1) ?_ id
    exact hd1

theorem classS_itemFault (d : Dev) (a : Addr) :
    Pres ClassS d (d.itemFault a) := by
  unfold Dev.itemFault
  refine pres_keeps classS_respects (keeps_fault _ _ _ _ _) rfl ?_
  exact pres_set pres_refl id

theorem classS_agree (d : Dev) (items : List Addr) :
    Pres ClassS d (d.agree items) := by
  unfold Dev.agree
  extract_lets d1 before2 after3 b4 d5 fresh6 d7
  refine pres_through (b := d1) ?_ fun hd1 => ?_
  · unfold d1
    refine pres_foldl ?_ fun d8 x9 => ?_
    · exact pres_refl
    · exact classS_disagrees _ _
  clear_value d1
  clear_value after3
  refine pres_through (b := d5) ?_ fun hd5 => ?_
  · unfold d5
    refine pres_set (b := d1) ?_ id
    exact hd1
  clear_value d5
  clear_value fresh6
  refine pres_through (b := d7) ?_ fun hd7 => ?_
  · unfold d7
    refine pres_foldl ?_ fun d10 x11 => ?_
    · exact hd5
    · exact classS_itemFault _ _
  clear_value d7
  refine pres_ite (fun _ => ?_) fun _ => ?_
  · exact hd7
  · refine pres_keeps classS_respects (keeps_faultGone _ _) rfl ?_
    exact hd7

theorem classS_frameStart (d : Dev) :
    Pres ClassS d (d.frameStart) := by
  unfold Dev.frameStart
  extract_lets e1 b2 b3 b4 b5
  exact pres_set pres_refl id

theorem classS_frameLoad (d : Dev) (busy : Nat) (used : Nat) :
    Pres ClassS d (d.frameLoad busy used) := by
  unfold Dev.frameLoad
  extract_lets total1 b2
  clear_value total1
  exact pres_set pres_refl id

theorem classS_frameWork (d : Dev) (f : FrameInputs) :
    Pres ClassS d (d.frameWork f) := by
  unfold Dev.frameWork
  extract_lets d1 busy2 b3 d4 d5 r6 d7 w8 b9 d10 d11 d12 d13 d14
  refine pres_through (b := d1) ?_ fun hd1 => ?_
  · unfold d1
    refine pres_trans ?_ (classS_frameModes _)
    exact classS_frameStart _
  clear_value d1
  refine pres_through (b := b3.1) ?_ fun hb3 => ?_
  · unfold b3
    refine pres_keeps classS_respects (keeps_rebuildTime _) rfl ?_
    exact hd1
  clear_value b3
  refine pres_through (b := d4) ?_ fun hd4 => ?_
  · unfold d4
    refine pres_ite (fun _ => ?_) fun _ => ?_
    · refine pres_trans ?_ (classS_agree _ _)
      exact hb3
    · exact hb3
  clear_value d4
  refine pres_through (b := d5) ?_ fun hd5 => ?_
  · unfold d5
    refine pres_keeps classS_respects (keeps_traceFrame _ _) rfl ?_
    exact hd4
  clear_value d5
  refine pres_through (b := r6.1) ?_ fun hr6 => ?_
  · unfold r6
    refine pres_trans ?_ (classS_resolveAll _ _ _)
    exact hd5
  clear_value r6
  refine pres_through (b := d7) ?_ fun hd7 => ?_
  · unfold d7
    exact hr6
  clear_value d7
  clear_value w8
  refine pres_through (b := d10) ?_ fun hd10 => ?_
  · unfold d10
    refine pres_set (b := d7) ?_ id
    exact hd7
  clear_value d10
  refine pres_through (b := d11) ?_ fun hd11 => ?_
  · unfold d11
    refine pres_ite (fun _ => ?_) fun _ => ?_
    · refine pres_keeps classS_respects (keeps_classS _ _ _) rfl ?_
      exact hd10
    · exact hd10
  clear_value d11
  refine pres_through (b := d12) ?_ fun hd12 => ?_
  · unfold d12
    refine pres_keeps classS_respects (keeps_cfgCheck _) rfl ?_
    refine pres_keeps classS_respects (keeps_ackFrame _) rfl ?_
    exact hd11
  clear_value d12
  refine pres_through (b := d13) ?_ fun hd13 => ?_
  · unfold d13
    refine pres_keeps classS_respects (keeps_zeroCheck _) rfl ?_
    refine pres_keeps classS_respects (keeps_drainRecords _) rfl ?_
    refine pres_keeps classS_respects (keeps_endTrips _) rfl ?_
    refine pres_trans ?_ (classS_runCommands _)
    exact hd12
  clear_value d13
  refine pres_through (b := d14) ?_ fun hd14 => ?_
  · unfold d14
    refine pres_ite (fun _ => ?_) fun _ => ?_
    · refine pres_keeps classS_respects (keeps_lifeFrame _) rfl ?_
      exact hd13
    · exact hd13
  clear_value d14
  refine pres_trans ?_ (classS_frameLoad _ _ _)
  exact hd14

theorem classS_publishLate (d : Dev) :
    Pres ClassS d (d.publishLate) := by
  unfold Dev.publishLate
  refine pres_ite (fun _ => ?_) fun _ => ?_
  · refine pres_keeps classS_respects (keeps_publishLimits _) rfl ?_
    exact pres_set pres_refl id
  · exact pres_refl

theorem classS_classCStart (d : Dev) :
    Pres ClassS d (d.classCStart) := by
  unfold Dev.classCStart
  extract_lets d1 b2
  refine pres_through (b := d1) ?_ fun hd1 => ?_
  · unfold d1
    refine pres_ite (fun _ => ?_) fun _ => ?_
    · exact pres_refl
    · refine pres_trans ?_ (classS_publishLate _)
      refine pres_keeps classS_respects (keeps_pumpLoop _) rfl ?_
      exact pres_refl
  clear_value d1
  refine pres_set (b := d1) ?_ id
  exact hd1

theorem classS_classCPeriod (d : Dev) :
    Pres ClassS d (d.classCPeriod) := by
  unfold Dev.classCPeriod
  extract_lets d1 b2
  refine pres_through (b := d1) ?_ fun hd1 => ?_
  · unfold d1
    refine pres_ite (fun _ => ?_) fun _ => ?_
    · exact classS_classCStart _
    · exact pres_refl
  clear_value d1
  refine pres_set (b := d1) ?_ id
  exact hd1

theorem classS_seamModes (d : Dev) :
    Pres ClassS d (d.seamModes) := by
  unfold Dev.seamModes
  extract_lets e1 held2 c3 x4 b5 left6 d7 rejoin8 cs9 b10 d11
  clear_value held2
  clear_value c3
  clear_value x4
  clear_value b5
  clear_value left6
  refine pres_through (b := d7) ?_ fun hd7 => ?_
  · unfold d7
    exact pres_set pres_refl id
  clear_value d7
  clear_value rejoin8
  clear_value cs9
  refine pres_through (b := d11) ?_ fun hd11 => ?_
  · unfold d11
    refine pres_set (b := d7) ?_ id
    exact hd7
  clear_value d11
  refine pres_keeps classS_respects (keeps_splitEvent _ _ _) rfl ?_
  refine pres_keeps classS_respects (keeps_splitEvent _ _ _) rfl ?_
  refine pres_keeps classS_respects (keeps_splitEvent _ _ _) rfl ?_
  exact hd11

theorem classS_classEOutputs (d : Dev) :
    Pres ClassS d (d.classEOutputs) := by
  unfold Dev.classEOutputs
  refine pres_ite (fun _ => ?_) fun _ => ?_
  · refine pres_ite (fun _ => ?_) fun _ => ?_
    · exact classS_publishPeriod _
    · refine pres_keeps classS_respects (keeps_stepPeriod _) rfl ?_
      refine pres_trans ?_ (classS_publishPeriod _)
      refine pres_keeps classS_respects (keeps_limitPeriod _) rfl ?_
      refine pres_keeps classS_respects (keeps_estimatePeriod _) rfl ?_
      exact pres_refl
  · exact pres_refl

theorem classS_seam (d : Dev) :
    Pres ClassS d (d.seam) := by
  unfold Dev.seam
  extract_lets d1 b2
  refine pres_through (b := d1) ?_ fun hd1 => ?_
  · unfold d1
    refine pres_trans ?_ (classS_seamModes _)
    refine pres_keeps classS_respects (keeps_takeEstSettings _) rfl ?_
    exact classS_classEOutputs _
  clear_value d1
  refine pres_set (b := d1) ?_ id
  exact hd1

theorem classS_dueSeam (d : Dev) :
    Pres ClassS d (d.dueSeam) := by
  unfold Dev.dueSeam
  refine pres_ite (fun _ => ?_) fun _ => ?_
  · exact pres_refl
  · exact classS_seam _

theorem classS_dueStarts (d : Dev) :
    Pres ClassS d (d.dueStarts) := by
  unfold Dev.dueStarts
  extract_lets d1
  refine pres_through (b := d1) ?_ fun hd1 => ?_
  · unfold d1
    exact classS_dueSeam _
  clear_value d1
  refine pres_ite (fun _ => ?_) fun _ => ?_
  · exact hd1
  · refine pres_trans ?_ (classS_classCPeriod _)
    exact hd1

theorem classS_runFrame (d : Dev) (f : FrameInputs) :
    Pres ClassS d (d.runFrame f) := by
  unfold Dev.runFrame
  refine pres_trans ?_ (classS_frameWork _ _)
  exact classS_dueStarts _

theorem classS_injection (d : Dev) (okA : Bool) (okB : Bool) :
    Pres ClassS d (d.injection okA okB) := by
  unfold Dev.injection
  extract_lets seen1 d2 b3
  clear_value seen1
  refine pres_through (b := d2) ?_ fun hd2 => ?_
  · unfold d2
    exact pres_set pres_refl id
  clear_value d2
  refine pres_ite (fun _ => ?_) fun _ => ?_
  · refine pres_set (b := d2) ?_ id
    exact hd2
  · refine pres_keeps classS_respects (keeps_engineLock _ _) rfl ?_
    exact hd2

theorem classS_drainReplay (d : Dev) :
    Pres ClassS d (d.drainReplay) := by
  unfold Dev.drainReplay
  exact pres_set pres_refl id

theorem classS_resumeBody (d : Dev) :
    Pres ClassS d (resumeBody d).1 := by
  unfold resumeBody
  refine pres_ite_fst (fun _ => ?_) fun _ => ?_
  · refine pres_pair ?_
    refine pres_keeps classS_respects (keeps_unhalt _) rfl ?_
    exact classS_drainReplay _
  · refine pres_keeps classS_respects (keeps_ipRefused _) rfl ?_
    exact pres_refl

theorem classS_stepBody (f : FrameInputs) (d : Dev) :
    Pres ClassS d (stepBody f d).1 := by
  unfold stepBody
  refine pres_ite_fst (fun _ => ?_) fun _ => ?_
  · refine pres_pair ?_
    refine pres_trans ?_ (classS_runFrame _ _)
    refine pres_keeps classS_respects (keeps_newPhase _) rfl ?_
    exact classS_drainReplay _
  · refine pres_keeps classS_respects (keeps_ipRefused _) rfl ?_
    exact pres_refl

theorem classS_writeBody (a : Word) (v : Word) (d : Dev) :
    Pres ClassS d (writeBody a v d).1 := by
  unfold writeBody
  refine pres_ite_fst (fun _ => ?_) fun _ => ?_
  · refine pres_keeps classS_respects (keeps_ipRefused _) rfl ?_
    exact pres_refl
  · refine pres_ite_fst (fun _ => ?_) fun _ => ?_
    · refine pres_pair ?_
      refine pres_keeps classS_respects (keeps_tick _) rfl ?_
      refine pres_keeps classS_respects (keeps_engineLock _ _) rfl ?_
      exact pres_refl
    · extract_lets log1 b2 b3 d4
      clear_value log1
      clear_value b2
      refine pres_through (b := d4) ?_ fun hd4 => ?_
      · unfold d4
        exact pres_set pres_refl id
      clear_value d4
      refine pres_pair ?_
      refine pres_keeps classS_respects (keeps_notice _ _ _ _) rfl ?_
      exact hd4

theorem classS_perform (d : Dev) (x1 : Access) :
    Pres ClassS d (d.perform x1).dev := by
  unfold Dev.perform
  split
  · extract_lets r1
    refine pres_through (b := r1.1) ?_ fun hr1 => ?_
    · unfold r1
      refine pres_keeps classS_respects (keeps_readReg _ _) rfl ?_
      exact pres_refl
    clear_value r1
    refine pres_performed ?_
    exact hr1
  · split
    · rename_i r2 r3 r4 r5 r6 r7 r8
      refine pres_through (b := r7) (pres_of_ok ?_ r8) fun kr8 => ?_
      · exact classS_writeReg _ _ _
      extract_lets d'9
      refine pres_through (b := d'9) ?_ fun hd'9 => ?_
      · unfold d'9
        refine pres_keeps classS_respects (keeps_cfgCheck _) rfl ?_
        exact kr8
      clear_value d'9
      refine pres_performed ?_
      exact hd'9
    · refine pres_performed ?_
      exact pres_refl
  · refine pres_ite_dev (fun _ => ?_) fun _ => ?_
    · refine pres_performed ?_
      exact pres_refl
    · refine pres_performed ?_
      exact classS_offer _ _ _ _
  · refine pres_performed ?_
    refine pres_keeps classS_respects (keeps_advance _ _) rfl ?_
    exact pres_refl
  · refine pres_ite_dev (fun _ => ?_) fun _ => ?_
    · extract_lets d'10
      refine pres_through (b := d'10) ?_ fun hd'10 => ?_
      · unfold d'10
        refine pres_keeps classS_respects (keeps_programWord _ _ _) rfl ?_
        exact pres_refl
      clear_value d'10
      refine pres_performed ?_
      refine pres_keeps classS_respects (keeps_advance _ _) rfl ?_
      exact hd'10
    · refine pres_performed ?_
      exact pres_refl

theorem classS_conclude (d : Dev) (a : Access) (frame : BitVec 4) :
    Pres ClassS d (d.conclude a frame).1 := by
  unfold Dev.conclude
  extract_lets r1 d2 b3 d4
  refine pres_through (b := r1.dev) ?_ fun hr1 => ?_
  · unfold r1
    exact classS_perform _ _
  clear_value r1
  refine pres_through (b := d2) ?_ fun hd2 => ?_
  · unfold d2
    refine pres_ite (fun _ => ?_) fun _ => ?_
    · exact hr1
    · refine pres_keeps classS_respects (keeps_frameError _ _ _ _ _) rfl ?_
      exact hr1
  clear_value d2
  refine pres_through (b := d4) ?_ fun hd4 => ?_
  · unfold d4
    refine pres_ite (fun _ => ?_) fun _ => ?_
    · refine pres_set (b := d2) ?_ id
      exact hd2
    · exact hd2
  clear_value d4
  refine pres_pair ?_
  exact hd4

theorem classS_accessFrame (d : Dev) (a : Access) :
    Pres ClassS d (d.accessFrame a) := by
  unfold Dev.accessFrame
  refine pres_ite (fun _ => ?_) fun _ => ?_
  · exact pres_refl
  · extract_lets d1 b2 d3 runs4 r5 b6
    refine pres_through (b := d1) ?_ fun hd1 => ?_
    · unfold d1
      refine pres_keeps classS_respects (keeps_numberFrame _) rfl ?_
      exact pres_refl
    clear_value d1
    refine pres_through (b := d3) ?_ fun hd3 => ?_
    · unfold d3
      refine pres_set (b := d1) ?_ id
      exact hd1
    clear_value d3
    clear_value runs4
    refine pres_through (b := r5.1) ?_ fun hr5 => ?_
    · unfold r5
      refine pres_trans ?_ (classS_conclude _ _ _)
      exact hd3
    clear_value r5
    refine pres_ite (fun _ => ?_) fun _ => ?_
    · refine pres_keeps classS_respects (keeps_refuseFrame _ _ _ _) rfl ?_
      exact hd1
    · refine pres_ite (fun _ => ?_) fun _ => ?_
      · refine pres_keeps classS_respects (keeps_refuseFrame _ _ _ _) rfl ?_
        exact hd1
      · refine pres_ite (fun _ => ?_) fun _ => ?_
        · refine pres_keeps classS_respects (keeps_respond _ _ _ _ _) rfl ?_
          exact hr5
        · refine pres_keeps classS_respects (keeps_respondBusy _) rfl ?_
          refine pres_set (b := d3) ?_ id
          exact hd3

theorem classS_accessCompletes (d : Dev) :
    Pres ClassS d (d.accessCompletes) := by
  unfold Dev.accessCompletes
  split
  · exact pres_refl
  · refine pres_ite (fun _ => ?_) fun _ => ?_
    · extract_lets b1 d2
      refine pres_through (b := d2) ?_ fun hd2 => ?_
      · unfold d2
        exact pres_set pres_refl id
      clear_value d2
      refine pres_keeps classS_respects (keeps_afterAccess _) rfl ?_
      refine pres_trans ?_ (classS_conclude _ _ _)
      exact hd2
    · exact pres_refl

theorem classS_readFrame (d : Dev) (a : Addr) (inc : optParam Bool false) :
    Pres ClassS d (d.readFrame a inc) := by
  unfold Dev.readFrame
  exact classS_accessFrame _ _

theorem classS_writeFrame (d : Dev) (a : Addr) (data : Word) (inc : optParam Bool false) :
    Pres ClassS d (d.writeFrame a data inc) := by
  unfold Dev.writeFrame
  split
  · extract_lets tok1 code2
    clear_value tok1
    clear_value code2
    refine pres_commandFrame (by exact classS_ports) ?_ fun d3 => ?_
    · exact pres_refl
    · exact classS_offer _ _ _ _
  · exact classS_accessFrame _ _

/-! ### Commands -/

theorem classS_execBrownOut (s : Machine.State) :
    ∃ d', execBrownOut s = .next { s with dev := d' } ∧ Pres ClassS s.dev d' := by
  refine effect_pres fun d0 => ?_
  exact classS_brownOut _

theorem classS_execPinReset (m : MusterInputs) (s : Machine.State) :
    ∃ d', execPinReset m s = .next { s with dev := d' } ∧ Pres ClassS s.dev d' := by
  refine effect_pres fun d0 => ?_
  refine pres_ite (fun _ => ?_) fun _ => ?_
  · refine pres_keeps classS_respects (keeps_startUp _ _) rfl ?_
    exact classS_resetWith _ _
  · exact pres_refl

theorem classS_execRetentionLoss (m : MusterInputs) (s : Machine.State) :
    ∃ d', execRetentionLoss m s = .next { s with dev := d' } ∧ Pres ClassS s.dev d' := by
  refine effect_pres fun d0 => ?_
  exact classS_retentionLost _ _

theorem classS_execPowerFailRecovery (m : MusterInputs) (s : Machine.State) :
    ∃ d', execPowerFailRecovery m s = .next { s with dev := d' } ∧ Pres ClassS s.dev d' := by
  refine effect_pres fun d0 => ?_
  refine pres_ite (fun _ => ?_) fun _ => ?_
  · refine pres_keeps classS_respects (keeps_startUp _ _) rfl ?_
    exact classS_resetWith _ _
  · exact pres_refl

theorem classS_execMainClockFailure (m : MusterInputs) (s : Machine.State) :
    ∃ d', execMainClockFailure m s = .next { s with dev := d' } ∧ Pres ClassS s.dev d' := by
  refine effect_pres fun d0 => ?_
  exact classS_clockFails _ _

theorem classS_execFrameWatchdogTrip (m : MusterInputs) (s : Machine.State) :
    ∃ d', execFrameWatchdogTrip m s = .next { s with dev := d' } ∧ Pres ClassS s.dev d' := by
  refine effect_pres fun d0 => ?_
  exact classS_watchdogTrips _ _

theorem classS_execResetCmd (tok : Byte) (m : MusterInputs) (s : Machine.State) :
    ∃ d', execResetCmd tok m s = .next { s with dev := d' } ∧ Pres ClassS s.dev d' := by
  refine effect_pres fun d0 => ?_
  refine pres_hostCommand (by exact classS_ports) ?_ fun d1 => ?_
  · exact pres_refl
  · exact classS_bodyReset _ _

theorem classS_execSeam (s : Machine.State) :
    ∃ d', execSeam s = .next { s with dev := d' } ∧ Pres ClassS s.dev d' := by
  refine effect_pres fun d0 => ?_
  refine pres_ite (fun _ => ?_) fun _ => ?_
  · exact classS_dueSeam _
  · exact pres_refl

theorem classS_execClassCPeriod (s : Machine.State) :
    ∃ d', execClassCPeriod s = .next { s with dev := d' } ∧ Pres ClassS s.dev d' := by
  refine effect_pres fun d0 => ?_
  refine pres_ite (fun _ => ?_) fun _ => ?_
  · exact classS_dueStarts _
  · exact pres_refl

theorem classS_execEngineFrame (f : FrameInputs) (s : Machine.State) :
    ∃ d', execEngineFrame f s = .next { s with dev := d' } ∧ Pres ClassS s.dev d' := by
  refine effect_pres fun d0 => ?_
  refine pres_ite (fun _ => ?_) fun _ => ?_
  · exact classS_runFrame _ _
  · exact pres_refl

theorem classS_execInjectionTest (okA : Bool) (okB : Bool) (s : Machine.State) :
    ∃ d', execInjectionTest okA okB s = .next { s with dev := d' } ∧ Pres ClassS s.dev d' := by
  refine effect_pres fun d0 => ?_
  refine pres_ite (fun _ => ?_) fun _ => ?_
  · exact classS_injection _ _ _
  · exact pres_refl

theorem classS_execIpResume (crc : Byte) (s : Machine.State) :
    ∃ d', execIpResume crc s = .next { s with dev := d' } ∧ Pres ClassS s.dev d' := by
  refine effect_pres fun d0 => ?_
  refine pres_ip (by exact classS_ports) ?_ fun d1 => ?_
  · exact pres_refl
  · exact classS_resumeBody _

theorem classS_execIpStep (crc : Byte) (f : FrameInputs) (s : Machine.State) :
    ∃ d', execIpStep crc f s = .next { s with dev := d' } ∧ Pres ClassS s.dev d' := by
  refine effect_pres fun d0 => ?_
  refine pres_ip (by exact classS_ports) ?_ fun d1 => ?_
  · exact pres_refl
  · exact classS_stepBody _ _

theorem classS_execIpWrite (addr : Word) (data : Word) (crc : Byte) (s : Machine.State) :
    ∃ d', execIpWrite addr data crc s = .next { s with dev := d' } ∧ Pres ClassS s.dev d' := by
  refine effect_pres fun d0 => ?_
  refine pres_ip (by exact classS_ports) ?_ fun d1 => ?_
  · exact pres_refl
  · exact classS_writeBody _ _ _

theorem classS_execAccessComplete (s : Machine.State) :
    ∃ d', execAccessComplete s = .next { s with dev := d' } ∧ Pres ClassS s.dev d' := by
  refine effect_pres fun d0 => ?_
  exact classS_accessCompletes _

theorem classS_execRegisterWrite (addr : Addr) (data : Word) (s : Machine.State) :
    ∃ d', execRegisterWrite addr data s = .next { s with dev := d' } ∧ Pres ClassS s.dev d' := by
  refine effect_pres fun d0 => ?_
  exact classS_writeFrame _ _ _ _

theorem classS_execWindowAccessInc (addr : Addr) (write : Option Word) (s : Machine.State) :
    ∃ d', execWindowAccessInc addr write s = .next { s with dev := d' } ∧ Pres ClassS s.dev d' := by
  refine effect_pres fun d0 => ?_
  split
  · exact classS_writeFrame _ _ _ _
  · exact classS_readFrame _ _ _

theorem classS_execUnknownCommand (reg : CmdReg) (tok : Byte) (code : Byte) (s : Machine.State) :
    ∃ d', execUnknownCommand reg tok code s = .next { s with dev := d' } ∧ Pres ClassS s.dev d' := by
  refine effect_pres fun d0 => ?_
  refine pres_hostCommand (by exact classS_ports) ?_ fun d1 => ?_
  · exact pres_refl
  · extract_lets x2
    refine pres_through (b := x2.1) ?_ fun hx2 => ?_
    · unfold x2
      exact classS_bodyOf _ _ _
    clear_value x2
    refine pres_ite_fst (fun _ => ?_) fun _ => ?_
    · refine pres_keeps classS_respects (keeps_drained _ _) rfl ?_
      exact hx2
    · exact hx2

theorem classS_execEngModecfgWrite (data : Word) (s : State) :
    ∃ d', execEngModecfgWrite data s = .next { s with dev := d' } ∧ Pres ClassS s.dev d' :=
  ⟨_, rfl, classS_writeFrame _ _ _⟩

theorem classS_execIpDisable (data : Word) (s : State) :
    ∃ d', execIpDisable data s = .next { s with dev := d' } ∧ Pres ClassS s.dev d' :=
  ⟨_, rfl, classS_writeFrame _ _ _⟩

theorem classS_execEngClrDisagree (s : State) :
    ∃ d', execEngClrDisagree s = .next { s with dev := d' } ∧ Pres ClassS s.dev d' :=
  ⟨_, rfl, classS_writeFrame _ _ _⟩

theorem classS_execEngClrLoad (s : State) :
    ∃ d', execEngClrLoad s = .next { s with dev := d' } ∧ Pres ClassS s.dev d' :=
  ⟨_, rfl, classS_writeFrame _ _ _⟩

theorem classS_execEngClrEcc (s : State) :
    ∃ d', execEngClrEcc s = .next { s with dev := d' } ∧ Pres ClassS s.dev d' :=
  ⟨_, rfl, classS_writeFrame _ _ _⟩

theorem classS_execEngClrOdd (s : State) :
    ∃ d', execEngClrOdd s = .next { s with dev := d' } ∧ Pres ClassS s.dev d' :=
  ⟨_, rfl, classS_writeFrame _ _ _⟩

theorem classS_execEngClrMismatch (s : State) :
    ∃ d', execEngClrMismatch s = .next { s with dev := d' } ∧ Pres ClassS s.dev d' :=
  ⟨_, rfl, classS_writeFrame _ _ _⟩

end Sys2Proof.Laws
end

