-- ==== Sys2Proof/Laws/Supply.lean ====
section
/-! SUPPORT. What the operations on supplies and time do, each said once. -/
namespace Sys2Proof.Laws

open Sys2Proof.Machine Sys2Proof.Safety

theorem eventsOnly_of_eq {a b : Dev} (h : a = b) : eventsOnly a b := h ▸ eventsOnly_refl a

/-- An event that fires only while a condition holds. -/
theorem noticeIf_eventsOnly (d : Dev) (b : Bool) (src sub inst : Nat) :
    eventsOnly d (if b then d.notice src sub inst else d) := by
  split
  · exact notice_eventsOnly _ _ _ _
  · exact eventsOnly_refl _

theorem raiseVbkLow_ends (d : Dev) : eventsOnly { d with sup := { d.sup with vbkLow := true } } d.raiseVbkLow := by
  unfold Dev.raiseVbkLow
  split
  · rename_i h
    exact eventsOnly_of_eq (by rw [← h])
  · exact noticeIf_eventsOnly _ _ _ _ _

theorem raiseVbkLow_fires (d : Dev) (ha : d.alive = true) (h : d.sup.vbkLow = false) : fired 3 d.raiseVbkLow := by
  simp only [Dev.raiseVbkLow, h, Bool.false_eq_true, if_false]
  rw [if_pos (show ({ d with sup := { d.sup with vbkLow := true } } : Dev).alive = true from ha)]
  exact notice_fired _ _ _ _ (by decide)

theorem raiseVbkAbsent_ends (d : Dev) :
    eventsOnly { d with sup := { d.sup with vbkAbsent := true } } d.raiseVbkAbsent := by
  unfold Dev.raiseVbkAbsent
  split
  · rename_i h
    exact eventsOnly_of_eq (by rw [← h])
  · exact noticeIf_eventsOnly _ _ _ _ _

theorem raiseVbkAbsent_fires (d : Dev) (ha : d.alive = true) (h : d.sup.vbkAbsent = false) :
    fired 3 d.raiseVbkAbsent := by
  simp only [Dev.raiseVbkAbsent, h, Bool.false_eq_true, if_false]
  rw [if_pos (show ({ d with sup := { d.sup with vbkAbsent := true } } : Dev).alive = true from ha)]
  exact notice_fired _ _ _ _ (by decide)

/-- A page replaced on both sides. -/
theorem eventsOnly_sup_put {a b : Dev} (h : eventsOnly a b) (x : Sup) :
    eventsOnly { a with sup := x } { b with sup := x } := by
  obtain ⟨e, s⟩ := h
  refine ⟨?_, s⟩
  rw [e]

/-- The time becomes valid or invalid: a session is marked for its next record (R409), and the event fires. -/
theorem setTimeValid_ends (d : Dev) (b : Bool) (h : d.sup.timeValid ≠ b) :
    eventsOnly { d with
      sup := { d.sup with timeValid := b }
      tol := { d.tol with marks := if d.tol.hasSession then d.tol.marks ||| 1 else d.tol.marks } }
      (d.setTimeValid b) ∧ (d.alive = true → fired 4 (d.setTimeValid b)) := by
  have key : d.setTimeValid b = if d.alive then ({ d with
      sup := { d.sup with timeValid := b }
      tol := { d.tol with marks := if d.tol.hasSession then d.tol.marks ||| 1 else d.tol.marks } } : Dev).notice 4 0 0
      else { d with
      sup := { d.sup with timeValid := b }
      tol := { d.tol with marks := if d.tol.hasSession then d.tol.marks ||| 1 else d.tol.marks } } := by
    unfold Dev.setTimeValid
    rw [if_neg h]
    dsimp only
    cases hs : d.tol.hasSession
    · rw [if_neg Bool.false_ne_true, if_neg Bool.false_ne_true]; rfl
    · rw [if_pos rfl, if_pos rfl]; rfl
  rw [key]
  refine ⟨noticeIf_eventsOnly _ _ _ _ _, fun ha => ?_⟩
  rw [if_pos ha]
  exact notice_fired _ _ _ _ (by decide)

theorem setTimeValid_same (d : Dev) (b : Bool) (h : d.sup.timeValid = b) : d.setTimeValid b = d := if_pos h

theorem setTimeValid_noSession (d : Dev) (b : Bool) (hs : d.tol.hasSession = false) :
    eventsOnly { d with sup := { d.sup with timeValid := b } } (d.setTimeValid b) := by
  by_cases h : d.sup.timeValid = b
  · rw [setTimeValid_same d b h, ← h]; exact eventsOnly_refl _
  · have := (setTimeValid_ends d b h).1
    rw [hs, if_neg Bool.false_ne_true] at this
    exact this

end Sys2Proof.Laws
end

