-- ==== Sys2Proof/Laws/Vectors.lean ====
section
/-! SUPPORT. Reading an element of a vector after one has been replaced or changed. -/
namespace Sys2Proof.Laws

open Sys2Proof.Machine

theorem get_set_self {α : Type} {n : Nat} (v : Vector α n) (i : Fin n) (a : α) : (v.set i a).get i = a :=
  Vector.getElem_set_self (xs := v) (x := a) i.isLt

theorem get_set_ne {α : Type} {n : Nat} (v : Vector α n) {i j : Fin n} (h : j ≠ i) (a : α) :
    (v.set i a).get j = v.get j := by
  exact Vector.getElem_set_ne (xs := v) (x := a) i.isLt j.isLt fun e => h (Fin.ext e.symm)

@[simp] theorem get_upd_self {α : Type} {n : Nat} (v : Vector α n) (i : Fin n) (a : α) :
    (upd v i a).get i = a := get_set_self v i a

theorem get_upd_ne {α : Type} {n : Nat} (v : Vector α n) {i j : Fin n} (h : j ≠ i) (a : α) :
    (upd v i a).get j = v.get j := get_set_ne v h a

@[simp] theorem get_modify_self {α : Type} {n : Nat} (v : Vector α n) (i : Fin n) (f : α → α) :
    (Machine.modify v i f).get i = f (v.get i) := get_set_self v i _

theorem get_modify_ne {α : Type} {n : Nat} (v : Vector α n) {i j : Fin n} (h : j ≠ i) (f : α → α) :
    (Machine.modify v i f).get j = v.get j := get_set_ne v h _

theorem get_foldl_modify {α : Type} {n : Nat} (f : Fin n → α → α) (l : List (Fin n)) (v : Vector α n) (p : Fin n) (h : p ∉ l) :
    (l.foldl (fun v p => modify v p (f p)) v).get p = v.get p := by
  induction l generalizing v with
  | nil => rfl
  | cons a l ih =>
    simp only [List.mem_cons, not_or] at h
    rw [List.foldl_cons, ih _ h.2, get_modify_ne _ h.1]

theorem get_foldl_modify_mem {α : Type} {n : Nat} (f : Fin n → α → α) (l : List (Fin n)) (v : Vector α n) (p : Fin n) (h : p ∈ l) (nd : l.Nodup) :
    (l.foldl (fun v p => modify v p (f p)) v).get p = f p (v.get p) := by
  induction l generalizing v with
  | nil => cases h
  | cons a l ih =>
    rw [List.nodup_cons] at nd
    rw [List.foldl_cons]
    by_cases e : p = a
    · subst e
      rw [get_foldl_modify f l _ p nd.1, get_modify_self]
    · rw [ih _ (by simpa [e] using h) nd.2, get_modify_ne _ e]


end Sys2Proof.Laws
end

