-- ==== Sys2Proof/Laws/Reaction.lean ====
section
/-! SUPPORT. What the drover's transitions and the shared reactions do, each said once. -/
namespace Sys2Proof.Laws

open Sys2Proof.Machine Sys2Proof.Safety

/-- The rest-time stamp after the drover has entered a state (R151). -/
def stampOf (d : Dev) (s : Drover) : Option Time :=
  if (s = .openS ∨ s = .lockout) ∧ d.poleClosed = true then some d.sup.rtc else d.sup.restStamp

/-- The drover enters another state: its event, and the rest-time stamp where R151 sets it. -/
theorem moveDrover_ends (d : Dev) (s : Drover) (code : Nat) (h : d.seq.drover ≠ s) :
    eventsOnly { d with sup := { d.sup with restStamp := stampOf d s }, seq := { d.seq with drover := s } }
      (d.moveDrover s code) ∧ fired 1 (d.moveDrover s code) := by
  have key : d.moveDrover s code =
      ({ d with sup := { d.sup with restStamp := stampOf d s }, seq := { d.seq with drover := s } } : Dev).notice 1 code 0 := by
    unfold Dev.moveDrover stampOf
    rw [if_neg h]
    dsimp only
    by_cases hs : (s = .openS ∨ s = .lockout) ∧ d.poleClosed = true
    · rw [if_pos hs, if_pos hs]
    · rw [if_neg hs, if_neg hs]
  rw [key]
  exact ⟨notice_eventsOnly _ _ _ _, notice_fired _ _ _ _ (by decide)⟩

theorem setDrover_ends (d : Dev) (s : Drover) (h : d.seq.drover ≠ s) :
    eventsOnly { d with sup := { d.sup with restStamp := stampOf d s }, seq := { d.seq with drover := s } }
      (d.setDrover s) ∧ fired 1 (d.setDrover s) := moveDrover_ends d s 0 h

theorem moveDrover_same (d : Dev) (code : Nat) : d.moveDrover d.seq.drover code = d := by simp [Dev.moveDrover]

theorem setDrover_same (d : Dev) : d.setDrover d.seq.drover = d := moveDrover_same d 0

@[simp] theorem moveDrover_drover (d : Dev) (s : Drover) (code : Nat) : (d.moveDrover s code).seq.drover = s := by
  by_cases h : d.seq.drover = s
  · subst h; rw [moveDrover_same]
  · rw [eventsOnly_seq (moveDrover_ends d s code h).1]

@[simp] theorem setDrover_drover (d : Dev) (s : Drover) : (d.setDrover s).seq.drover = s := moveDrover_drover d s 0

theorem setDrover_seq (d : Dev) (s : Drover) : (d.setDrover s).seq = { d.seq with drover := s } := by
  by_cases h : d.seq.drover = s
  · subst h; rw [setDrover_same]
  · rw [eventsOnly_seq (setDrover_ends d s h).1]

theorem cfgFold_eventsOnly (p : Nat → Bool) (l : List Nat) (d : Dev) :
    eventsOnly d (l.foldl (fun d n => if p n then d.notice 63 0 n else d) d) := by
  induction l generalizing d with
  | nil => exact eventsOnly_refl d
  | cons n l ih => exact eventsOnly_trans (noticeIf_eventsOnly d _ _ _ _) (ih _)

/-- The relations of R488 are checked: HST_CFGINC takes what they give. -/
theorem cfgCheck_ends (d : Dev) : eventsOnly { d with hst := { d.hst with cfginc := d.cfgInc } } d.cfgCheck :=
  cfgFold_eventsOnly _ _ _

/-- The pages that a fault's end, a latch's clearing and a drover's transition leave alone. -/
theorem faultGone_mode (d : Dev) (f : Nat) : (d.faultGone f).mode = d.mode ∧ (d.faultGone f).cmds = d.cmds ∧
    (d.faultGone f).coil = d.coil := by
  unfold Dev.faultGone
  split
  · dsimp only
    split
    · unfold Dev.noticeIn; simp
    · exact ⟨rfl, rfl, rfl⟩
  · exact ⟨rfl, rfl, rfl⟩

theorem moveDrover_other (d : Dev) (s : Drover) (n : Nat) : (d.moveDrover s n).mode = d.mode ∧
    (d.moveDrover s n).cmds = d.cmds ∧ (d.moveDrover s n).coil = d.coil ∧ (d.moveDrover s n).lim = d.lim ∧
    (d.moveDrover s n).saf = d.saf ∧ (d.moveDrover s n).pwr = d.pwr ∧ (d.moveDrover s n).tol = d.tol ∧
    (d.moveDrover s n).lgr = d.lgr ∧ (d.moveDrover s n).est = d.est ∧ (d.moveDrover s n).chn = d.chn ∧
    (d.moveDrover s n).insp = d.insp := by
  by_cases h : d.seq.drover = s
  · subst h; rw [moveDrover_same]; simp
  · rw [(moveDrover_ends d s n h).1.1]; simp

theorem setDrover_other (d : Dev) (s : Drover) : (d.setDrover s).mode = d.mode ∧ (d.setDrover s).cmds = d.cmds ∧
    (d.setDrover s).coil = d.coil ∧ (d.setDrover s).lim = d.lim ∧ (d.setDrover s).saf = d.saf ∧
    (d.setDrover s).pwr = d.pwr ∧ (d.setDrover s).tol = d.tol ∧ (d.setDrover s).lgr = d.lgr ∧
    (d.setDrover s).est = d.est ∧ (d.setDrover s).chn = d.chn ∧ (d.setDrover s).insp = d.insp := moveDrover_other d s 0

theorem tryClearLatch_other (d : Dev) : d.tryClearLatch.seq = d.seq ∧ d.tryClearLatch.mode = d.mode ∧
    d.tryClearLatch.cmds = d.cmds ∧ d.tryClearLatch.coil = d.coil := by
  unfold Dev.tryClearLatch
  dsimp only
  split <;> exact ⟨rfl, rfl, rfl, rfl⟩

/-- A pull-in changes its channel alone. -/
theorem pullIn_other (d : Dev) (k : K) : ∃ c, d.pullIn k = { d with coil := d.coil.set k c } ∧ c.phase = .signature ∧ c.hi = d.gatesOn ∧ c.lo = d.gatesOn := by
  exact ⟨_, rfl, rfl, rfl, rfl⟩

/-- The channel but for a feedback check that runs on it. -/
def unchecked (c : Coil) : Coil := { c with raising := false }

theorem stopChecks_get (d : Dev) (j : K) : d.stopChecks.coil.get j = unchecked (d.coil.get j) := by
  unfold Dev.stopChecks unchecked
  simp only [Vector.get, Vector.toArray_map, Array.getElem_map]
  rfl

/-- A release changes its channel alone, which is then released or releasing, and stops feedback checks (R346). -/
theorem release_other (d : Dev) (k : K) : ∃ v, d.release k = { d with coil := v } ∧
    (∀ j, j ≠ k → unchecked (v.get j) = unchecked (d.coil.get j)) ∧
    ((v.get k).phase = .released ∨ (v.get k).phase = .releasing) := by
  unfold Dev.release
  dsimp only
  split
  · rename_i h; exact ⟨d.coil, rfl, fun _ _ => rfl, h⟩
  · refine ⟨_, rfl, ?_, ?_⟩
    · intro j hj
      rw [get_modify_ne _ hj, stopChecks_get]
      rfl
    · right; rw [get_modify_self]

theorem unchecked_phase {a b : Coil} (h : unchecked a = unchecked b) : a.phase = b.phase := by
  have : (unchecked a).phase = (unchecked b).phase := by rw [h]
  exact this

theorem countAbort_other (d : Dev) : ∃ x y, d.countAbort = { d with seq := { d.seq with aborts := x, retryBlocked := y } } := by
  unfold Dev.countAbort
  split
  · exact ⟨_, _, rfl⟩
  · exact ⟨_, _, rfl⟩

/-- K3, K2 and K1 are released: each is then released or releasing, and K4 stays as it is. -/
theorem releaseThree_spec (d : Dev) : ∃ v, ((d.release 2).release 1).release 0 = { d with coil := v } ∧
    (∀ k : K, k ≠ 3 → (v.get k).phase = .released ∨ (v.get k).phase = .releasing) ∧
    unchecked (v.get 3) = unchecked (d.coil.get 3) := by
  obtain ⟨v2, e2, f2, g2⟩ := release_other d 2
  obtain ⟨v1, e1, f1, g1⟩ := release_other (d.release 2) 1
  obtain ⟨v0, e0, f0, g0⟩ := release_other ((d.release 2).release 1) 0
  rw [e2] at f1
  rw [e1, e2] at f0
  refine ⟨v0, by rw [e0, e1, e2], ?_, ?_⟩
  · intro k hk
    match k with
    | 0 => exact g0
    | 1 => rw [unchecked_phase (f0 1 (by decide))]; exact g1
    | 2 => rw [unchecked_phase (f0 2 (by decide)), unchecked_phase (f1 2 (by decide))]; exact g2
    | 3 => exact absurd rfl hk
  · rw [f0 3 (by decide), f1 3 (by decide), f2 3 (by decide)]

/-- An aborted pre-charge ends in OPEN with K1, K2 and K3 releasing. -/
theorem abortPrecharge_spec (d : Dev) (code : Nat) : (d.abortPrecharge code).seq.drover = .openS ∧
    (∀ k : K, k ≠ 3 → ((d.abortPrecharge code).coil.get k).phase = .released ∨
      ((d.abortPrecharge code).coil.get k).phase = .releasing) ∧
    unchecked ((d.abortPrecharge code).coil.get 3) = unchecked (d.coil.get 3) ∧ (d.abortPrecharge code).cmds = d.cmds := by
  have h0 : d.countAbort.coil = d.coil ∧ d.countAbort.cmds = d.cmds := by
    obtain ⟨x, y, e⟩ := countAbort_other d
    rw [e]
    exact ⟨rfl, rfl⟩
  obtain ⟨v, e, f, g⟩ := releaseThree_spec d.countAbort
  have key : ∃ q : Dev, d.abortPrecharge code = q.moveDrover .openS code ∧ q.coil = v ∧ q.cmds = d.cmds := by
    unfold Dev.abortPrecharge
    refine ⟨_, rfl, ?_, ?_⟩
    · rw [e]; split <;> rfl
    · rw [e, ← h0.2]; split <;> rfl
  obtain ⟨q, e1, e2, e3⟩ := key
  have o := moveDrover_other q .openS code
  rw [e1, o.2.2.1, o.2.1, e2, e3, g, h0.1]
  exact ⟨moveDrover_drover _ _ _, f, rfl, rfl⟩

/-- The releases that fell due in HOLD change channels only. -/
theorem dueReleases_other (d : Dev) : ∃ v, d.dueReleases = { d with coil := v } := by
  have step : ∀ (l : List K) (d : Dev), ∃ v, l.foldl (fun d k =>
      if (d.coil.get k).olDue then (d.setCoil k fun c => { c with olDue := false }).release k else d) d =
      { d with coil := v } := by
    intro l
    induction l with
    | nil => intro d; exact ⟨d.coil, rfl⟩
    | cons k l ih =>
      intro d
      rw [List.foldl_cons]
      split
      · obtain ⟨v, e, -⟩ := release_other (d.setCoil k fun c => { c with olDue := false }) k
        obtain ⟨w, e'⟩ := ih ((d.setCoil k fun c => { c with olDue := false }).release k)
        exact ⟨w, by rw [e', e]; rfl⟩
      · exact ih d
  exact step _ d

/-- None is due: nothing happens. -/
theorem dueReleases_none (d : Dev) (h : ∀ k : K, (d.coil.get k).olDue = false) : d.dueReleases = d := by
  have step : ∀ (l : List K), l.foldl (fun d k =>
      if (d.coil.get k).olDue then (d.setCoil k fun c => { c with olDue := false }).release k else d) d = d := by
    intro l
    induction l with
    | nil => rfl
    | cons k l ih => rw [List.foldl_cons, if_neg (by rw [h k]; decide)]; exact ih
  exact step _

theorem publishOn_keeps (d : Dev) (f : OwnFrame) (ch : Ch) : (d.publishOn f ch).seq = d.seq ∧ (d.publishOn f ch).lim = d.lim ∧ (d.publishOn f ch).coil = d.coil ∧ (d.publishOn f ch).cmds = d.cmds := by
  unfold Dev.publishOn
  dsimp only
  split
  · cases ch <;> exact ⟨rfl, rfl, rfl, rfl⟩
  · exact ⟨rfl, rfl, rfl, rfl⟩

theorem publishLimits_keeps (d : Dev) : d.publishLimits.seq = d.seq ∧ d.publishLimits.lim = d.lim ∧ d.publishLimits.coil = d.coil ∧ d.publishLimits.cmds = d.cmds := by
  unfold Dev.publishLimits Dev.publish
  split
  · simp [publishOn_keeps]
  · simp

/-- A zero cause leaves all six limits zero. -/
theorem zeroCheck_spec (d : Dev) : d.zeroCheck.seq = d.seq ∧ d.zeroCheck.coil = d.coil ∧ d.zeroCheck.cmds = d.cmds ∧ (d.zcause ≠ 0 → d.zeroCheck.limitsZero = true) := by
  unfold Dev.zeroCheck
  split
  · dsimp only
    have h := publishLimits_keeps ({ d with lim := { d.lim with chg := .replicate 3 0, dis := .replicate 3 0 } } : Dev)
    refine ⟨by rw [notice_seq, h.1], by rw [notice_coil, h.2.2.1], by rw [notice_cmds, h.2.2.2], fun _ => ?_⟩
    unfold Dev.limitsZero
    rw [notice_lim, h.2.1]
    rfl
  · rename_i h
    refine ⟨rfl, rfl, rfl, fun hz => ?_⟩
    simpa [hz] using h

/-- BREAKING begins with the limits zero and T_grace running, with every contactor held but those whose release HOLD kept
back. -/
theorem enterBreaking_spec (d : Dev) : d.enterBreaking.seq.drover = .breaking ∧ d.enterBreaking.seq.grace = true ∧
    ((∀ k : K, (d.coil.get k).olDue = false) → d.enterBreaking.coil = d.stopChecks.coil) ∧
    d.enterBreaking.cmds = d.cmds ∧ d.enterBreaking.limitsZero = true := by
  unfold Dev.enterBreaking
  dsimp only
  generalize hx : ({ d.capture.seqIdle.stopChecks with seq := { d.capture.seqIdle.stopChecks.seq with grace := true } } : Dev) = x
  have hg : x.seq.grace = true ∧ x.coil = d.stopChecks.coil ∧ x.cmds = d.cmds := by rw [← hx]; exact ⟨rfl, rfl, rfl⟩
  obtain ⟨v, ev⟩ := dueReleases_other (x.setDrover .breaking)
  have ks := keepsCore_suspendSession (x.setDrover .breaking).dueReleases
  have z := zeroCheck_spec ((x.setDrover .breaking).dueReleases.suspendSession)
  have o := setDrover_other x .breaking
  have hs : (x.setDrover .breaking).dueReleases.seq = (x.setDrover .breaking).seq := by rw [ev]
  refine ⟨?_, ?_, fun hk => ?_, ?_, ?_⟩
  · rw [z.1, ks.seq, hs, setDrover_drover]
  · rw [z.1, ks.seq, hs, setDrover_seq]; exact hg.1
  · have hn : ∀ k : K, ((x.setDrover .breaking).coil.get k).olDue = false := by
      intro k
      rw [o.2.2.1, hg.2.1, stopChecks_get]
      exact hk k
    rw [z.2.1, ks.coil, dueReleases_none _ hn, o.2.2.1, hg.2.1]
  · rw [z.2.2.1, ks.cmds, ev]; show (x.setDrover .breaking).cmds = _; rw [o.2.1, hg.2.2]
  · apply z.2.2.2
    unfold Dev.zcause
    rw [ks.seq, hs, setDrover_drover]
    split
    · decide
    · split
      · decide
      · simp


/-! ### Raising a fault -/

/-- `b` has the pages of `a` that recording and reporting a fault leaves alone. -/
structure KeepsReport (a b : Dev) : Prop where
  cmds : b.cmds = a.cmds
  sup : b.sup = a.sup
  sys : b.sys = a.sys
  mode : b.mode = a.mode
  seq : b.seq = a.seq
  coil : b.coil = a.coil
  insp : b.insp = a.insp
  chn : b.chn = a.chn
  sen : b.sen = a.sen
  est : b.est = a.est
  pwr : b.pwr = a.pwr
  saf : b.saf = a.saf
  tol : b.tol = a.tol
  lgr : b.lgr = a.lgr
  man : b.man = a.man

theorem KeepsReport.refl (a : Dev) : KeepsReport a a := by constructor <;> rfl

theorem KeepsReport.trans {a b c : Dev} (h : KeepsReport a b) (g : KeepsReport b c) : KeepsReport a c :=
  ⟨g.1.trans h.1, g.2.trans h.2, g.3.trans h.3, g.4.trans h.4, g.5.trans h.5, g.6.trans h.6, g.7.trans h.7,
   g.8.trans h.8, g.9.trans h.9, g.10.trans h.10, g.11.trans h.11, g.12.trans h.12, g.13.trans h.13, g.14.trans h.14,
   g.15.trans h.15⟩

theorem KeepsReport.events {a b : Dev} (h : eventsOnly a b) : KeepsReport a b :=
  ⟨eventsOnly_cmds h, eventsOnly_sup h, eventsOnly_sys h, eventsOnly_mode h, eventsOnly_seq h, eventsOnly_coil h,
   eventsOnly_insp h, eventsOnly_chn h, eventsOnly_sen h, eventsOnly_est h, eventsOnly_pwr h, eventsOnly_saf h,
   eventsOnly_tol h, eventsOnly_lgr h, eventsOnly_man h⟩

theorem faultEpisode_keeps (d : Dev) (f inst : Nat) (g : Option Nat) :
    KeepsReport d (d.faultEpisode f inst g).1 ∧ (d.faultEpisode f inst g).1.lim = d.lim := by
  unfold Dev.faultEpisode
  dsimp only
  split <;> first
    | exact ⟨.refl d, rfl⟩
    | exact ⟨by constructor <;> rfl, rfl⟩

/-- The lim page with a fault recorded. -/
def recorded (l : Lim) (f : Nat) (cls : FaultClass) (already : Bool) (ep inst : Nat) : Lim :=
  let bit : BitVec 39 := BitVec.ofNat 39 (2 ^ f)
  { l with
    active := l.active ||| bit, latched := if cls = FaultClass.d then l.latched ||| bit else l.latched
    last := if already then l.last else f
    episodes := (l.noteEpisode { fault := f, inst := inst, id := ep }).episodes
    frameFaults := l.frameFaults ++ [(f, inst, ep)] }

/-- What a fault does once it is recorded and reported: nothing more in class A and B, the drover's reaction in class C
where it was not active before, the open-now path in class D. -/
def react (d : Dev) (cls : FaultClass) (f : Nat) (latch : LatchSource) (cause : Byte) (already fresh : Bool) (ep : Nat) : Dev :=
  match cls with
  | .a | .b => d
  | .c => if already then d else d.classCReact
  | .d =>
    let d := if fresh && !already then d.countDevice 13 else d
    let d := if d.lockoutFlag f && decide (d.seq.drover ≠ Drover.lockout) && decide (d.mode.lockDue = 0) then
      { d with mode := { d.mode with lockFault := f } } else d
    d.openNow latch (if d.lockoutFlag f then some (if f = 26 ∨ f = 38 then cause else 0x08) else none) ep

theorem eventIf_eventsOnly (d : Dev) (b : Bool) (src sub cls inst ep : Nat) (data : Word) :
    eventsOnly d (if b then d.event src sub cls inst ep data else d) := by
  split
  · exact event_eventsOnly ..
  · exact eventsOnly_refl d

/-- A fault that is raised is recorded, reported, and acted on by its class. -/
theorem raise_spec (d : Dev) (f : Nat) (latch : LatchSource) (cause : Byte) (src sub inst : Nat) (given : Option Nat) :
    ∃ q, d.raise f latch cause src sub inst given =
        react q (d.faultClass f) f latch cause (d.faultBits.getLsbD f) (d.faultEpisode f inst given).2.2
          (d.faultEpisode f inst given).2.1 ∧
      KeepsReport d q ∧ q.lim = recorded d.lim f (d.faultClass f) (d.faultBits.getLsbD f)
        (d.faultEpisode f inst given).2.1 inst := by
  obtain ⟨k, l⟩ := faultEpisode_keeps d f inst given
  let l' := recorded (d.faultEpisode f inst given).1.lim f (d.faultClass f) (d.faultBits.getLsbD f)
    (d.faultEpisode f inst given).2.1 inst
  let p : Dev := { (d.faultEpisode f inst given).1 with lim := l' }
  have hp : KeepsReport d p := k.trans (by constructor <;> rfl)
  have hl : p.lim = recorded d.lim f (d.faultClass f) (d.faultBits.getLsbD f) (d.faultEpisode f inst given).2.1 inst := by
    show recorded (d.faultEpisode f inst given).1.lim _ _ _ _ _ = _
    rw [l]
  obtain ⟨q, e, hq⟩ : ∃ q, d.raise f latch cause src sub inst given =
      react q (d.faultClass f) f latch cause (d.faultBits.getLsbD f) (d.faultEpisode f inst given).2.2
        (d.faultEpisode f inst given).2.1 ∧
      eventsOnly p q := by
    refine ⟨_, rfl, ?_⟩
    refine eventsOnly_trans (eventsOnly_trans ?_ (eventIf_eventsOnly ..)) (eventIf_eventsOnly ..)
    split
    · exact eventsOnly_refl _
    · exact event_eventsOnly ..
  exact ⟨q, e, hp.trans (.events hq), (eventsOnly_lim hq).trans hl⟩

/-! ### The power-fail warning and class C -/

theorem pfNotice_ends (d : Dev) : ∃ a b, eventsOnly { d with sup := { d.sup with pfEvent := a, pfEventDue := b } } d.pfNotice := by
  unfold Dev.pfNotice
  split
  · exact ⟨d.sup.pfEvent, d.sup.pfEventDue, eventsOnly_refl _⟩
  · split
    · exact ⟨_, _, notice_eventsOnly _ _ _ _⟩
    · exact ⟨_, _, eventsOnly_refl _⟩

theorem publishOn_other (d : Dev) (f : OwnFrame) (ch : Ch) : (d.publishOn f ch).sup = d.sup ∧ (d.publishOn f ch).man = d.man ∧ (d.publishOn f ch).saf = d.saf ∧ (d.publishOn f ch).sen = d.sen ∧ (d.publishOn f ch).mode = d.mode ∧ (d.publishOn f ch).insp = d.insp := by
  unfold Dev.publishOn
  dsimp only
  split
  · cases ch <;> exact ⟨rfl, rfl, rfl, rfl, rfl, rfl⟩
  · exact ⟨rfl, rfl, rfl, rfl, rfl, rfl⟩

theorem zeroCheck_other (d : Dev) : d.zeroCheck.sup = d.sup ∧ d.zeroCheck.man = d.man ∧ d.zeroCheck.saf = d.saf ∧ d.zeroCheck.sen = d.sen ∧ d.zeroCheck.lim.active = d.lim.active ∧ d.zeroCheck.lim.latched = d.lim.latched := by
  unfold Dev.zeroCheck
  split
  · dsimp only
    have h := publishLimits_keeps ({ d with lim := { d.lim with chg := .replicate 3 0, dis := .replicate 3 0 } } : Dev)
    unfold Dev.publishLimits Dev.publish at *
    refine ⟨?_, ?_, ?_, ?_, ?_, ?_⟩
    · rw [notice_sup]; split <;> simp [publishOn_other]
    · rw [notice_man]; split <;> simp [publishOn_other]
    · rw [notice_saf]; split <;> simp [publishOn_other]
    · rw [notice_sen]; split <;> simp [publishOn_other]
    · rw [notice_lim, h.2.1]
    · rw [notice_lim, h.2.1]
  · exact ⟨rfl, rfl, rfl, rfl, rfl, rfl⟩

theorem zeroCheck_warning (d : Dev) (h : d.sup.pfWarn = true) : d.zeroCheck.limitsZero = true := by
  apply (zeroCheck_spec d).2.2.2
  unfold Dev.zcause
  rw [h]
  split
  · decide
  · split
    · decide
    · split
      · decide
      · simp

/-- `b` has the supplies of `a` but for the rest-time stamp, its manifest, safety and sensing pages, and its active
faults: what the reactions of class C leave alone. -/
structure KeepsUnderC (a b : Dev) : Prop where
  sup : b.sup = { a.sup with restStamp := b.sup.restStamp }
  man : b.man = a.man
  saf : b.saf = a.saf
  sen : b.sen = a.sen
  act : b.lim.active = a.lim.active

theorem KeepsUnderC.trans {a b c : Dev} (h : KeepsUnderC a b) (g : KeepsUnderC b c) : KeepsUnderC a c :=
  ⟨by rw [g.sup, h.sup], g.man.trans h.man, g.saf.trans h.saf, g.sen.trans h.sen, g.act.trans h.act⟩

theorem zeroCheck_under (d : Dev) : KeepsUnderC d d.zeroCheck := by
  obtain ⟨a, b, c, e, f, _⟩ := zeroCheck_other d
  exact ⟨by rw [a], b, c, e, f⟩

theorem moveDrover_under (d : Dev) (s : Drover) (n : Nat) : KeepsUnderC d (d.moveDrover s n) := by
  by_cases h : d.seq.drover = s
  · subst h; rw [moveDrover_same]; constructor <;> rfl
  · have e := (moveDrover_ends d s n h).1
    exact ⟨by rw [eventsOnly_sup e], by rw [eventsOnly_man e], by rw [eventsOnly_saf e], by rw [eventsOnly_sen e], by rw [eventsOnly_lim e]⟩

theorem setDrover_under (d : Dev) (s : Drover) : KeepsUnderC d (d.setDrover s) := moveDrover_under d s 0

theorem core_under {a b : Dev} (h : KeepsCore a b) : KeepsUnderC a b := ⟨by rw [h.sup], h.man, h.saf, h.sen, by rw [h.lim]⟩

theorem countAbort_under (d : Dev) : KeepsUnderC d d.countAbort := by
  obtain ⟨x, y, e⟩ := countAbort_other d
  rw [e]; constructor <;> rfl

theorem abortPrecharge_under (d : Dev) (code : Nat) : KeepsUnderC d (d.abortPrecharge code) := by
  obtain ⟨v, e, -, -⟩ := releaseThree_spec d.countAbort
  have key : ∃ q : Dev, d.abortPrecharge code = q.moveDrover .openS code ∧ KeepsUnderC d.countAbort q := by
    unfold Dev.abortPrecharge
    refine ⟨_, rfl, ?_⟩
    rw [e]; split <;> constructor <;> rfl
  obtain ⟨q, e1, e2⟩ := key
  rw [e1]
  exact ((countAbort_under d).trans e2).trans (moveDrover_under _ _ _)

theorem enterBreaking_under (d : Dev) : KeepsUnderC d d.enterBreaking := by
  have key : ∃ q : Dev, d.enterBreaking = ((q.setDrover .breaking).dueReleases.suspendSession).zeroCheck ∧ KeepsUnderC d q :=
    ⟨_, rfl, by constructor <;> rfl⟩
  obtain ⟨q, e1, e2⟩ := key
  have e3 : KeepsUnderC (q.setDrover .breaking) (q.setDrover .breaking).dueReleases := by
    obtain ⟨v, ev⟩ := dueReleases_other (q.setDrover .breaking)
    rw [ev]; constructor <;> rfl
  rw [e1]
  exact (((e2.trans (setDrover_under _ _)).trans e3).trans (core_under (keepsCore_suspendSession _))).trans (zeroCheck_under _)

theorem classCReact_under (d : Dev) : KeepsUnderC d d.classCReact := by
  unfold Dev.classCReact
  split
  · exact (abortPrecharge_under _ _).trans (zeroCheck_under _)
  · exact enterBreaking_under _
  · exact enterBreaking_under _
  · split
    · exact (setDrover_under _ _).trans (zeroCheck_under _)
    · exact enterBreaking_under _
  · exact zeroCheck_under _

theorem classCReact_zero (d : Dev) (h : d.sup.pfWarn = true) : d.classCReact.limitsZero = true := by
  unfold Dev.classCReact
  split
  · exact zeroCheck_warning _ (by rw [(abortPrecharge_under d 0).sup]; exact h)
  · exact (enterBreaking_spec d).2.2.2.2
  · exact (enterBreaking_spec d).2.2.2.2
  · split
    · exact zeroCheck_warning _ (by rw [(setDrover_under d .openS).sup]; exact h)
    · exact (enterBreaking_spec d).2.2.2.2
  · exact zeroCheck_warning _ h

theorem faultClass35 (d : Dev) : d.faultClass 35 = .c := by
  unfold Dev.faultClass
  split
  · rename_i s _
    cases hs : s.cls <;> simp [faultRow]
  · rfl


end Sys2Proof.Laws
end

