-- ==== Sys2Proof/Laws/Faults.lean ====
section
/-! SUPPORT. What a raised fault leaves: its bit, the open-now path of class D, LOCKOUT, and the opening of class C. -/
namespace Sys2Proof.Laws

open Sys2Proof.Machine Sys2Proof.Safety

/-- A part that a frame does not name is the same. -/
theorem keeps_same {ps : List Page} {a b : Dev} (h : Keeps ps a b) (p : Page) (m : ps.contains p = false) : same p a b :=
  (h p).resolve_left fun w => by simp_all

/-- What the open-now path guarantees of the latch, the gates and the recorded faults. -/
structure OpenedNow (a b : Dev) : Prop where
  latch : b.saf.latch = true
  granted : b.saf.granted = false
  coils : ∀ j : K, (b.coil.get j).phase = .released ∨ ((b.coil.get j).hi = false ∧ (b.coil.get j).lo = false)
  active : b.lim.active = a.lim.active
  latched : b.lim.latched = a.lim.latched
  released : ∀ j : K, (a.coil.get j).phase = .released → unchecked (b.coil.get j) = unchecked (a.coil.get j)

/-- The latch keeps the pump's gates off. -/
theorem pumpGates_latched (d : Dev) (h : d.saf.latch = true) : d.pumpGates = 0 := by
  unfold Dev.pumpGates
  rw [if_pos (by simp [Dev.pumpMayRun, Dev.gatesOn, h])]

theorem OpenedNow.pump {a b : Dev} (h : OpenedNow a b) : b.pumpGates = 0 := pumpGates_latched b h.latch

theorem get_ofFn {α : Type} {n : Nat} (f : Fin n → α) (i : Fin n) : (Vector.ofFn f).get i = f i := by
  show (Vector.ofFn f)[i.val] = f i
  simp

theorem coilsOff_get (d : Dev) (j : K) :
    ((d.coilsOff.coil.get j).phase = .released ∨ ((d.coilsOff.coil.get j).hi = false ∧ (d.coilsOff.coil.get j).lo = false)) ∧
    ((d.coil.get j).phase = .released → unchecked (d.coilsOff.coil.get j) = unchecked (d.coil.get j)) := by
  unfold Dev.coilsOff
  simp only [get_ofFn]
  split
  · rename_i h; exact ⟨.inl h, fun _ => rfl⟩
  · rename_i h
    refine ⟨?_, fun h' => absurd h' h⟩
    split
    · exact .inr ⟨rfl, rfl⟩
    · exact .inr ⟨rfl, rfl⟩

theorem withdraw_granted (d : Dev) : d.withdraw.saf.granted = false ∧ d.withdraw.saf.latch = d.saf.latch := by
  unfold Dev.withdraw
  split
  · rw [notice_saf]; exact ⟨rfl, rfl⟩
  · rename_i h; exact ⟨by simpa using h, rfl⟩

theorem setLatch_opened (d : Dev) (src : LatchSource) : OpenedNow d (d.setLatch src) := by
  have hl : (d.setLatch src).lim = d.lim := keeps_same (keeps_setLatch d src) .lim rfl
  have key : ∃ q : Dev, q.saf.latch = true ∧ q.coil = d.coil ∧ ∃ st,
      d.setLatch src = (if !d.saf.latch then
        (({ q.coilsOff with pwr := { q.coilsOff.pwr with duty := 0, softStep := st } } : Dev).withdraw).notice 49 0 0
        else ({ q.coilsOff with pwr := { q.coilsOff.pwr with duty := 0, softStep := st } } : Dev).withdraw) := by
    refine ⟨_, ?_, ?_, _, rfl⟩ <;> rfl
  obtain ⟨q, hq, hc, st, e⟩ := key
  have w := withdraw_granted ({ q.coilsOff with pwr := { q.coilsOff.pwr with duty := 0, softStep := st } } : Dev)
  have ks := keeps_withdraw ({ q.coilsOff with pwr := { q.coilsOff.pwr with duty := 0, softStep := st } } : Dev)
  have kc : same .coil _ _ := keeps_same ks .coil rfl
  have kp : same .pwr _ _ := keeps_same ks .pwr rfl
  simp only [same] at kc kp
  have hs : q.coilsOff.saf = q.saf := keeps_same (keeps_coilsOff q) .saf rfl
  have g : ∀ j, _ := fun j => coilsOff_get q j
  refine ⟨?_, ?_, ?_, by rw [hl], by rw [hl], ?_⟩
  · rw [e]; split
    · rw [notice_saf, w.2]; show q.coilsOff.saf.latch = true; rw [hs, hq]
    · rw [w.2]; show q.coilsOff.saf.latch = true; rw [hs, hq]
  · rw [e]; split
    · rw [notice_saf, w.1]
    · rw [w.1]
  · intro j; rw [e]; split
    · rw [notice_coil, kc]; exact (g j).1
    · rw [kc]; exact (g j).1
  · intro j hj; rw [e]; split
    · rw [notice_coil, kc, ← hc]; exact (g j).2 (by rw [hc]; exact hj)
    · rw [kc, ← hc]; exact (g j).2 (by rw [hc]; exact hj)

theorem openedNow_on {a b c : Dev} {ps : List Page} (h : OpenedNow a b) (k : Keeps ps b c)
    (m : (ps.contains .saf || ps.contains .pwr || ps.contains .coil || ps.contains .lim) = false) : OpenedNow a c := by
  simp only [Bool.or_eq_false_iff] at m
  have s1 : c.saf = b.saf := keeps_same k .saf m.1.1.1
  have s2 : c.pwr = b.pwr := keeps_same k .pwr m.1.1.2
  have s3 : c.coil = b.coil := keeps_same k .coil m.1.2
  have s4 : c.lim = b.lim := keeps_same k .lim m.2
  exact ⟨by rw [s1]; exact h.latch, by rw [s1]; exact h.granted, by rw [s3]; exact h.coils,
    by rw [s4]; exact h.active, by rw [s4]; exact h.latched, by rw [s3]; exact h.released⟩

theorem openedNow_zeroCheck {a b : Dev} (h : OpenedNow a b) : OpenedNow a b.zeroCheck := by
  have k := keeps_zeroCheck b
  have s1 : b.zeroCheck.saf = b.saf := keeps_same k .saf rfl
  have s2 : b.zeroCheck.pwr = b.pwr := keeps_same k .pwr rfl
  have s3 : b.zeroCheck.coil = b.coil := keeps_same k .coil rfl
  have z := zeroCheck_other b
  exact ⟨by rw [s1]; exact h.latch, by rw [s1]; exact h.granted, by rw [s3]; exact h.coils,
    by rw [z.2.2.2.2.1]; exact h.active, by rw [z.2.2.2.2.2]; exact h.latched, by rw [s3]; exact h.released⟩

/-- The open-now path: the device before its last step, with the lock cause taken. -/
theorem openNow_shape (d : Dev) (src : LatchSource) (lock : Option Byte) (ep : Nat) :
    ∃ q : Dev, OpenedNow d q ∧ Keeps [.seq, .coil, .pwr, .saf, .tol, .lgr, .dep] d q ∧ q.seq.drover = d.seq.drover ∧
      d.openNow src lock ep = (match lock with
        | some cause => q.enterLockout cause ep
        | none => if q.inRun && decide (q.seq.drover ≠ Drover.lockout) then q.seqIdle.setDrover .openS else q).zeroCheck := by
  obtain ⟨q, hq, e0⟩ : ∃ q : Seq, q.drover = d.seq.drover ∧
      (if d.seq.drover = Drover.precharge then d.countAbort else d.captureOpening) = { d with seq := q } := by
    split
    · obtain ⟨a, b, e⟩ := countAbort_other d
      rw [e]
      exact ⟨{ d.seq with aborts := a, retryBlocked := b }, rfl, rfl⟩
    · unfold Dev.captureOpening
      split
      · exact ⟨d.capture.seq, rfl, rfl⟩
      · exact ⟨d.capture.seq, rfl, rfl⟩
      · split
        · exact ⟨d.seq, rfl, rfl⟩
        · exact ⟨d.capture.seq, rfl, rfl⟩
      · exact ⟨d.seq, rfl, rfl⟩
  generalize hd1 : ({ d with seq := q } : Dev) = d1 at e0
  have h1 : OpenedNow d (d1.setLatch src) := by
    have := setLatch_opened d1 src
    subst hd1
    exact ⟨this.1, this.2, this.3, this.4, this.5, this.6⟩
  generalize hd2 : ({ d1.setLatch src with pwr := { (d1.setLatch src).pwr with passedSince := false } } : Dev) = d2
  have h2 : OpenedNow d d2 := by
    subst hd2
    exact ⟨h1.1, h1.2, h1.3, h1.4, h1.5, h1.6⟩
  have h3 : OpenedNow d d2.suspendSession := openedNow_on h2 (keeps_suspendSession d2) rfl
  have k1 : Keeps [.seq] d d1 := by subst hd1; exact keeps_set keeps_refl fun p => by cases p <;> first | exact .inl rfl | exact .inr rfl | exact .inr ⟨rfl, rfl⟩ | exact .inr ⟨rfl, rfl, rfl, rfl, rfl, rfl, rfl⟩
  have k2 : Keeps [.seq, .coil, .pwr, .saf] d d2 := by
    subst hd2
    refine keeps_set (b := d1.setLatch src) ?_ fun p => by cases p <;> first | exact .inl rfl | exact .inr rfl | exact .inr ⟨rfl, rfl⟩ | exact .inr ⟨rfl, rfl, rfl, rfl, rfl, rfl, rfl⟩
    exact keeps_via (keeps_setLatch _ _) rfl (keeps_mono k1 rfl)
  have k3 : Keeps [.seq, .coil, .pwr, .saf, .tol, .lgr, .dep] d d2.suspendSession :=
    keeps_via (keeps_suspendSession _) rfl (keeps_mono k2 rfl)
  have hs : d2.suspendSession.seq = d1.seq := by
    rw [show d2.suspendSession.seq = d2.seq from keeps_same (keeps_suspendSession d2) .seq rfl]
    subst hd2
    exact keeps_same (keeps_setLatch d1 src) .seq rfl
  generalize hd4 : (if (d2.suspendSession.coil.get 3).phase = CoilPhase.released ∧ (d2.suspendSession.coil.get 3).stuck = false then d2.suspendSession.tollK4Open else d2.suspendSession) = d4
  have h4 : OpenedNow d d4 ∧ Keeps [.seq, .coil, .pwr, .saf, .tol, .lgr, .dep] d d4 ∧ d4.seq = d1.seq := by
    subst hd4
    split
    · exact ⟨openedNow_on h3 (keeps_tollK4Open _) rfl, keeps_via (keeps_tollK4Open _) rfl k3,
        (keeps_same (keeps_tollK4Open _) .seq rfl).trans hs⟩
    · exact ⟨h3, k3, hs⟩
  refine ⟨d4, h4.1, h4.2.1, ?_, ?_⟩
  · rw [h4.2.2]; subst hd1; exact hq
  · unfold Dev.openNow
    rw [e0]
    dsimp only
    rw [hd2, hd4]
    all_goals rfl

theorem openNow_opened (d : Dev) (src : LatchSource) (lock : Option Byte) (ep : Nat) :
    OpenedNow d (d.openNow src lock ep) := by
  obtain ⟨q, h, -, -, e⟩ := openNow_shape d src lock ep
  rw [e]
  cases lock with
  | some cause => exact openedNow_zeroCheck (openedNow_on h (keeps_enterLockout q cause ep) rfl)
  | none =>
    dsimp only
    split
    · exact openedNow_zeroCheck (openedNow_on (openedNow_on h (keeps_seqIdle q) rfl) (keeps_setDrover _ _) rfl)
    · exact openedNow_zeroCheck h

/-- The bit of a fault. -/
theorem bit_self (x : BitVec 39) {f : Nat} (h : f < 39) : (x ||| BitVec.ofNat 39 (2 ^ f)).getLsbD f = true := by
  rw [BitVec.getLsbD_or, BitVec.getLsbD_ofNat, Nat.testBit_two_pow_self]
  simp only [h, decide_true, Bool.and_self, Bool.or_true]

theorem recorded_active (l : Lim) {f : Nat} (h : f < 39) (cls : FaultClass) (already : Bool) (ep inst : Nat) :
    (recorded l f cls already ep inst).active.getLsbD f = true := bit_self _ h

theorem recorded_latched (l : Lim) {f : Nat} (h : f < 39) (already : Bool) (ep inst : Nat) :
    (recorded l f .d already ep inst).latched.getLsbD f = true := bit_self _ h

/-- A raised fault is active. -/
theorem raise_active (d : Dev) {f : Nat} (h : f < 39) (latch : LatchSource) (cause : Byte) (src sub inst : Nat) (given : Option Nat) :
    (d.raise f latch cause src sub inst given).lim.active.getLsbD f = true := by
  obtain ⟨q, e, -, l⟩ := raise_spec d f latch cause src sub inst given
  have hq : q.lim.active.getLsbD f = true := by rw [l]; exact recorded_active _ h _ _ _ _
  rw [e]
  generalize d.faultClass f = cls
  generalize d.faultBits.getLsbD f = al
  generalize (d.faultEpisode f inst given).2.2 = fr
  unfold react
  cases cls
  · exact hq
  · exact hq
  · dsimp only
    split
    · exact hq
    · rw [(classCReact_under q).act]; exact hq
  · dsimp only
    rw [(openNow_opened _ _ _ _).active]
    split <;> split <;> exact hq

/-- A fault of class D is latched, the safety latch is set and every gate is off. -/
theorem raise_d (d : Dev) {f : Nat} (h : f < 39) (hd : d.faultClass f = .d) (latch : LatchSource) (cause : Byte) (src sub inst : Nat)
    (given : Option Nat) : ∃ q x ep, KeepsReport d q ∧
      d.raise f latch cause src sub inst given = x.openNow latch
        (if d.lockoutFlag f then some (if f = 26 ∨ f = 38 then cause else 0x08) else none) ep ∧
      Keeps [.mode, .lif] q x ∧ x.mode.lockCause = d.mode.lockCause ∧ x.mode.mode = d.mode.mode ∧ x.lim.active.getLsbD f = true ∧ x.lim.latched.getLsbD f = true := by
  obtain ⟨q, e, kr, l⟩ := raise_spec d f latch cause src sub inst given
  rw [hd] at e l
  have hf : q.lockoutFlag f = d.lockoutFlag f := by unfold Dev.lockoutFlag Dev.faultSetting; rw [kr.man]
  refine ⟨q, if (if ((d.faultEpisode f inst given).2.2 && !d.faultBits.getLsbD f) = true then q.countDevice 13 else q).lockoutFlag f && decide ((if ((d.faultEpisode f inst given).2.2 && !d.faultBits.getLsbD f) = true then q.countDevice 13 else q).seq.drover ≠ Drover.lockout) && decide ((if ((d.faultEpisode f inst given).2.2 && !d.faultBits.getLsbD f) = true then q.countDevice 13 else q).mode.lockDue = 0) then
      { (if ((d.faultEpisode f inst given).2.2 && !d.faultBits.getLsbD f) = true then q.countDevice 13 else q) with mode := { (if ((d.faultEpisode f inst given).2.2 && !d.faultBits.getLsbD f) = true then q.countDevice 13 else q).mode with lockFault := f } } else (if ((d.faultEpisode f inst given).2.2 && !d.faultBits.getLsbD f) = true then q.countDevice 13 else q), (d.faultEpisode f inst given).2.1, kr, ?_, ?_, ?_, ?_, ?_, ?_⟩
  · rw [e]
    unfold react
    dsimp only
    congr 1
    rw [← hf]
    split <;> split <;> rfl
  · split <;> split
    all_goals first
      | exact keeps_refl
      | exact keeps_mono (keeps_countDevice _ _) rfl
      | exact keeps_set (keeps_mono (keeps_countDevice _ _) rfl) fun p => by cases p <;> first | exact .inl rfl | exact .inr rfl | exact .inr ⟨rfl, rfl⟩ | exact .inr ⟨rfl, rfl, rfl, rfl, rfl, rfl, rfl⟩
      | exact keeps_set keeps_refl fun p => by cases p <;> first | exact .inl rfl | exact .inr rfl | exact .inr ⟨rfl, rfl⟩ | exact .inr ⟨rfl, rfl, rfl, rfl, rfl, rfl, rfl⟩
  · rw [← kr.mode]; split <;> split <;> rfl
  · rw [← kr.mode]; split <;> split <;> rfl
  · have : q.lim.active.getLsbD f = true := by rw [l]; exact recorded_active _ h _ _ _ _
    split <;> split <;> exact this
  · have : q.lim.latched.getLsbD f = true := by rw [l]; exact recorded_latched _ h _ _ _
    split <;> split <;> exact this

theorem enterLockout_spec (d : Dev) (cause : Byte) (ep : Nat) (hr : d.inRun = true) (hl : d.seq.drover ≠ .lockout) :
    (d.enterLockout cause ep).seq.drover = .lockout ∧ (d.enterLockout cause ep).mode.lockCause = cause := by
  unfold Dev.enterLockout
  rw [hr]
  simp only [Bool.not_true, Bool.false_eq_true, if_false, hl, decide_false, Bool.false_and, ne_eq, not_false_eq_true, decide_true, if_true]
  rw [show ∀ (x : Dev) a b c e g h, (x.event a b c e g h).seq = x.seq from fun x a b c e g h => eventsOnly_seq (event_eventsOnly ..)]
  rw [show ∀ (x : Dev) a b c e g h, (x.event a b c e g h).mode = x.mode from fun x a b c e g h => eventsOnly_mode (event_eventsOnly ..)]
  refine ⟨?_, ?_⟩
  · rw [show ∀ (x : Dev) i, (x.countDevice i).seq = x.seq from fun x i => rfl, setDrover_drover]
  · rw [show ∀ (x : Dev) i, (x.countDevice i).mode = x.mode from fun x i => rfl, (setDrover_other _ _).1]

theorem zcause_lockout (d : Dev) (h : d.seq.drover = .lockout) : d.zcause ≠ 0 := by
  unfold Dev.zcause
  rw [h]
  split
  · decide
  · split
    · decide
    · simp

theorem faultClass_lock (d : Dev) {f : Nat} (h : f = 26 ∨ f = 38) : d.faultClass f = .d := by
  unfold Dev.faultClass
  rcases h with rfl | rfl <;> split
  · rename_i s _
    cases hs : s.cls <;> simp [faultRow]
  · rfl
  · rename_i s _
    cases hs : s.cls <;> simp [faultRow]
  · rfl

theorem lockoutFlag_lock (d : Dev) {f : Nat} (h : f = 26 ∨ f = 38) : d.lockoutFlag f = true := by
  unfold Dev.lockoutFlag
  rcases h with rfl | rfl <;> split <;> simp [lockoutFixed, faultRow]

/-- Faults 26 and 38 in Run lead to LOCKOUT with their cause. -/
theorem lockFault_lockedOut (d : Dev) {f : Nat} (hf : f = 26 ∨ f = 38) (cause : Byte) (src inst : Nat) (hr : d.inRun = true)
    (hl : d.seq.drover ≠ .lockout) : lockedOut f cause (d.lockFault f cause src inst) ∧
      ∀ j : K, (d.coil.get j).phase = .released → unchecked ((d.lockFault f cause src inst).coil.get j) = unchecked (d.coil.get j) := by
  obtain ⟨q, x, ep, kr, e, kx, -, hm, ha, hb⟩ := raise_d d (by omega : f < 39) (faultClass_lock d hf) .engine cause src cause.toNat inst none
  rw [lockoutFlag_lock d hf, if_pos rfl, if_pos hf] at e
  have e' : d.lockFault f cause src inst = x.openNow .engine (some cause) ep := e
  have o := openNow_opened x .engine (some cause) ep
  obtain ⟨y, oy, ky, dy, ey⟩ := openNow_shape x .engine (some cause) ep
  have xs : x.seq = d.seq := (show x.seq = q.seq from keeps_same kx .seq rfl).trans kr.seq
  have xc : x.coil = d.coil := (show x.coil = q.coil from keeps_same kx .coil rfl).trans kr.coil
  have ym : y.mode = x.mode := keeps_same ky .mode rfl
  have l := enterLockout_spec y cause ep (by unfold Dev.inRun; rw [ym, hm]; exact hr) (by rw [dy, xs]; exact hl)
  dsimp only at ey
  have kz := keeps_zeroCheck (y.enterLockout cause ep)
  rw [e']
  refine ⟨⟨by rw [o.active]; exact ha, by rw [o.latched]; exact hb, ?_, ?_, o.latch, o.granted, ?_, o.pump, o.coils⟩, ?_⟩
  · rw [ey, show (y.enterLockout cause ep).zeroCheck.seq = _ from keeps_same kz .seq rfl]; exact l.1
  · rw [ey, show (y.enterLockout cause ep).zeroCheck.mode = _ from keeps_same kz .mode rfl]; exact l.2
  · rw [ey]; exact (zeroCheck_spec _).2.2.2 (zcause_lockout _ l.1)
  · intro j hj; rw [← xc] at hj ⊢; exact o.released j hj

theorem zcause_latched (d : Dev) (h : d.lim.latched ≠ 0) : d.zcause ≠ 0 := by
  unfold Dev.zcause Dev.latchedD
  split
  · decide
  · rw [if_pos (decide_eq_true h)]; decide

/-- A class D fault is acted on as the specification says. -/
theorem raise_opened (d : Dev) {f : Nat} (h : f < 39) (hd : d.faultClass f = .d) (latch : LatchSource) (cause : Byte)
    (src sub inst : Nat) (given : Option Nat) : opened f d (d.raise f latch cause src sub inst given) := by
  obtain ⟨q, x, ep, kr, e, kx, -, hm, ha, hb⟩ := raise_d d h hd latch cause src sub inst given
  have o := openNow_opened x latch (if d.lockoutFlag f then some (if f = 26 ∨ f = 38 then cause else 0x08) else none) ep
  obtain ⟨y, oy, ky, dy, ey⟩ :=
    openNow_shape x latch (if d.lockoutFlag f then some (if f = 26 ∨ f = 38 then cause else 0x08) else none) ep
  have xs : x.seq = d.seq := (show x.seq = q.seq from keeps_same kx .seq rfl).trans kr.seq
  have ym : y.mode = x.mode := keeps_same ky .mode rfl
  have hb' : (d.raise f latch cause src sub inst given).lim.latched.getLsbD f = true := by rw [e, o.latched]; exact hb
  refine ⟨by rw [e, o.active]; exact ha, hb', by rw [e]; exact o.latch, by rw [e]; exact o.granted, ?_, by rw [e]; exact o.pump,
    by rw [e]; exact o.coils, fun hr hl => ?_⟩
  · rw [e, ey]
    refine (zeroCheck_spec _).2.2.2 (zcause_latched _ fun h0 => ?_)
    have hz := (zeroCheck_other (match (if d.lockoutFlag f then some (if f = 26 ∨ f = 38 then cause else 0x08) else none) with
        | some cause => y.enterLockout cause ep
        | none => if y.inRun && decide (y.seq.drover ≠ Drover.lockout) then y.seqIdle.setDrover .openS else y)).2.2.2.2.2
    rw [e, ey, hz, h0] at hb'
    simp at hb'
  · have yr : y.inRun = true := by unfold Dev.inRun; rw [ym, hm]; exact hr
    have yl : y.seq.drover ≠ .lockout := by rw [dy, xs]; exact hl
    rw [e, ey]
    cases d.lockoutFlag f with
    | true =>
      simp only [if_true]
      rw [keeps_same (keeps_zeroCheck _) .seq rfl]
      exact (enterLockout_spec y _ _ yr yl).1
    | false =>
      simp only [Bool.false_eq_true, if_false]
      rw [keeps_same (keeps_zeroCheck _) .seq rfl, if_pos (by simp [yr, yl]), setDrover_drover]

end Sys2Proof.Laws
end

