-- ==== Sys2Proof/Laws/Ledger.lean ====
section
/-! SUPPORT. The frame of signing, committing and sealing: the core pages stay as they are. -/
namespace Sys2Proof.Laws

open Sys2Proof.Machine Sys2Proof.Safety

theorem keepsCore_recordSigned (d : Dev) : KeepsCore d d.recordSigned := by
  unfold Dev.recordSigned
  split
  · exact .refl d
  · constructor <;> rfl

theorem keepsCore_dep (d : Dev) (x : Dep) : KeepsCore d { d with dep := x } := by constructor <;> rfl

theorem keepsCore_lgr (d : Dev) (x : Ledger) : KeepsCore d { d with lgr := x } := by constructor <;> rfl

theorem keepsCore_setCs0 (d : Dev) (a : Nat) (bs : List Byte) : KeepsCore d (d.setCs0 a bs) := keepsCore_dep d _

theorem keepsCore_setCs1 (d : Dev) (a : Nat) (bs : List Byte) : KeepsCore d (d.setCs1 a bs) := keepsCore_dep d _

theorem keepsCore_writeHeader (d : Dev) (n : Nat) : KeepsCore d (d.writeHeader n) :=
  .trans (keepsCore_lgr d _) (keepsCore_setCs0 _ _ _)

theorem keepsCore_endCommit (d : Dev) : KeepsCore d d.endCommit := by constructor <;> rfl

theorem keepsCore_commitDone (d : Dev) (r : Sealed) (rest : List Sealed) : KeepsCore d (d.commitDone r rest) := by
  unfold Dev.commitDone
  exact .trans (.trans (.trans (.trans (keepsCore_setCs0 ..) (keepsCore_lgr ..)) (keepsCore_writeHeader ..))
    (keepsCore_endCommit _)) (keepsCore_notice ..)

theorem keepsCore_commitAll (n : Nat) (d : Dev) : KeepsCore d (Dev.commitAll n d) := by
  induction n generalizing d with
  | zero => exact .refl d
  | succ n ih =>
    unfold Dev.commitAll
    refine .trans (keepsCore_recordSigned d) ?_
    dsimp only
    split
    · exact .refl _
    · split
      · exact .trans (.trans (keepsCore_setCs0 ..) (keepsCore_commitDone ..)) (ih _)
      · exact .refl _

/-- With nothing staged there is nothing to commit. -/
theorem commitAll_empty (n : Nat) (d : Dev) (h : d.lgr.signing = []) (g : d.lgr.staging = []) :
    Dev.commitAll n d = d := by
  cases n with
  | zero => rfl
  | succ n =>
    have e : d.recordSigned = d := by simp [Dev.recordSigned, h]
    simp [Dev.commitAll, e, g]

theorem keepsCore_noticeIf (d : Dev) (b : Bool) (src sub inst : Nat) :
    KeepsCore d (if b then d.notice src sub inst else d) := by
  split
  · exact keepsCore_notice ..
  · exact .refl d

theorem keepsRecords_closeSeal (d : Dev) : KeepsRecords d d.closeSeal := by
  unfold Dev.closeSeal
  split
  · have h : KeepsCore d { d with tol := { d.tol with sealOpen := false } } := by constructor <;> rfl
    exact (h.trans (keepsCore_notice ..)).records.trans (keepsRecords_sealAudit ..)
  · exact (KeepsCore.refl d).records

theorem keepsRecords_enclosureOpens (d : Dev) : KeepsRecords d d.enclosureOpens := by
  obtain ⟨q, hq, e⟩ : ∃ q : Dev, KeepsCore d q ∧ d.enclosureOpens =
      (fun x : Dev => if x.auditsDue then x.sealAudit 4
        else { x with tol := { x.tol with openings := x.tol.openings ++ [x.sup.rtc] } })
      (if q.alive then q.notice 52 0 0 else q) := ⟨_, by constructor <;> rfl, rfl⟩
  rw [e]
  refine .trans (hq.trans (keepsCore_noticeIf q q.alive 52 0 0)).records ?_
  generalize (if q.alive then q.notice 52 0 0 else q) = x
  dsimp only
  split
  · exact keepsRecords_sealAudit ..
  · exact KeepsCore.records (by constructor <;> rfl)

theorem keepsRecords_enclosureCloses (d : Dev) : KeepsRecords d d.enclosureCloses := by
  obtain ⟨q, hq, e⟩ : ∃ q : Dev, KeepsCore d q ∧ d.enclosureCloses = (if q.alive then q.notice 52 0 0 else q).closeSeal :=
    ⟨_, by constructor <;> rfl, rfl⟩
  rw [e]
  exact .trans (hq.trans (keepsCore_noticeIf q q.alive 52 0 0)).records (keepsRecords_closeSeal _)

theorem keepsRecords_enclosureChange (d : Dev) (a b : Bool) : KeepsRecords d (d.enclosureChange a b) := by
  unfold Dev.enclosureChange
  refine .trans (b := { d with tol := { d.tol with seal0 := a, seal1 := b } })
    (KeepsCore.records (by constructor <;> rfl)) ?_
  dsimp only
  split
  · exact KeepsCore.records (by constructor <;> rfl)
  · split
    · exact keepsRecords_enclosureOpens _
    · split
      · exact keepsRecords_enclosureCloses _
      · exact (KeepsCore.refl _).records

end Sys2Proof.Laws
end

