-- ==== Sys2Proof/Laws/Muster.lean ====
section
/-! SUPPORT. What a start, a wake and a sweep do, each said once. -/
namespace Sys2Proof.Laws

open Sys2Proof.Machine Sys2Proof.Safety

theorem keepsCore_countStart (d : Dev) (r : Word) (c : Bool) : KeepsCore d (d.countStart r c) := by
  have one : ∀ (d : Dev) (b : Nat) (i : Fin 22), KeepsCore d (if bit r b then d.countDevice i else d) := by
    intro d b i; split
    · exact keepsCore_countDevice _ _
    · exact .refl _
  have key : ∃ q : Dev, KeepsCore d q ∧ d.countStart r c = (if c then q.countDevice 11 else q) :=
    ⟨_, ((((((one d 0 4).trans (one _ 1 5)).trans (one _ 3 6)).trans (one _ 2 7)).trans (one _ 4 8)).trans (one _ 5 9)).trans (one _ 6 10), rfl⟩
  obtain ⟨q, k, e⟩ := key
  rw [e]
  split
  · exact k.trans (keepsCore_countDevice _ _)
  · exact k

theorem keepsRecords_sealLevels (d : Dev) (a b c : Bool) : KeepsRecords d (d.sealLevels a b c) := by
  unfold Dev.sealLevels
  split
  · exact KeepsCore.records (by constructor <;> rfl)
  · exact keepsRecords_enclosureChange ..

/-- What step 1 of a start keeps. -/
structure KeepsStart (a b : Dev) : Prop where
  mode : b.mode = a.mode
  path : b.sys.path = a.sys.path
  mstate : b.sys.mstate = a.sys.mstate
  step : b.sys.step = a.sys.step
  powered : b.sup.powered = a.sup.powered
  commit : b.sup.commit = a.sup.commit
  hold : b.sup.pfHold = a.sup.pfHold
  chn : b.chn = a.chn

theorem KeepsStart.trans {a b c : Dev} (h : KeepsStart a b) (g : KeepsStart b c) : KeepsStart a c :=
  ⟨g.1.trans h.1, g.2.trans h.2, g.3.trans h.3, g.4.trans h.4, g.5.trans h.5, g.6.trans h.6, g.7.trans h.7, g.8.trans h.8⟩
theorem KeepsStart.records {a b : Dev} (h : KeepsRecords a b) : KeepsStart a b := by
  obtain ⟨_, _, h⟩ := h
  exact ⟨h.mode, by rw [h.sys], by rw [h.sys], by rw [h.sys], by rw [h.sup], by rw [h.sup], by rw [h.sup], h.chn⟩

theorem startStep_spec (d : Dev) (m : MusterInputs) : KeepsStart d (d.startStep m) ∧
   (d.sys.repeated = false → (d.startStep m).sys.repeated = false) ∧
   (d.sup.canary = true → m.retainedCrcOk = true → (d.startStep m).sys.repeated = d.sys.repeated) := by
  obtain ⟨q, r, c, k, e, h1, h2⟩ : ∃ q r c, KeepsStart d q ∧ d.startStep m = (q.countStart r c).sealLevels m.seal0 m.seal1 c ∧ (d.sys.repeated = false → q.sys.repeated = false) ∧ (d.sup.canary = true → m.retainedCrcOk = true → q.sys.repeated = d.sys.repeated) := by
    unfold Dev.startStep
    refine ⟨_, _, _, ?_, rfl, ?_, ?_⟩
    · split <;> constructor <;> rfl
    · split
      · intro _; rfl
      · exact id
    · intro a b; simp [a, b]
  have kr := (keepsCore_countStart q r c).records.trans (keepsRecords_sealLevels (q.countStart r c) m.seal0 m.seal1 c)
  have kk : ((q.countStart r c).sealLevels m.seal0 m.seal1 c).sys = q.sys := by
    obtain ⟨_, _, h⟩ := kr
    exact h.sys
  rw [e]
  refine ⟨k.trans (.records kr), ?_, ?_⟩
  · intro h; rw [kk]; exact h1 h
  · intro a b; rw [kk]; exact h2 a b

theorem musterStop_stopped (d : Dev) (code : Byte) (n : Nat) (hm : d.mode.mode = .muster) :
    stoppedAt d.sys.step code (d.musterStop code n) := by
  have key : eventsOnly { d with sys := { d.sys with mstate := 0b01, failCode := code, failDetail := BitVec.ofNat 16 n } } (d.musterStop code n) := by
    unfold Dev.musterStop
    dsimp only
    split
    · exact notice_eventsOnly ..
    · exact eventsOnly_refl _
  refine ⟨by rw [eventsOnly_sys key], by rw [eventsOnly_sys key], by rw [eventsOnly_sys key], by rw [eventsOnly_mode key]; exact hm, ?_⟩
  unfold Dev.fltLow Dev.stopped
  rw [eventsOnly_sys key, eventsOnly_mode key]
  simp [hm]

theorem musterFrom_stop (n : Nat) (m : MusterInputs) (d : Dev) (h : (d.musterStep m).sys.mstate ≠ 0) :
    Dev.musterFrom (n + 1) m d = d.musterStep m := by
  show (if (d.musterStep m).sys.mstate ≠ 0 then _ else _) = _
  rw [if_pos h]

theorem musterFrom_next (n : Nat) (m : MusterInputs) (d : Dev) (h : (d.musterStep m).sys.mstate = 0)
    (hr : (d.musterStep m).resuming = false) (hp : (d.musterStep m).powerFailing = false) (hc : m.cutAfter ≠ d.sys.step) :
    Dev.musterFrom (n + 1) m d =
      Dev.musterFrom n m { d.musterStep m with sys := { (d.musterStep m).sys with step := d.sys.step + 1 } } := by
  conv => lhs; unfold Dev.musterFrom
  dsimp only
  rw [if_neg (by rw [h]; decide)]
  have e : ({ d.musterStep m with sys := { (d.musterStep m).sys with step := stepAfter (d.musterStep m).resuming m.digestOk d.sys.step } } : Dev) = { d.musterStep m with sys := { (d.musterStep m).sys with step := d.sys.step + 1 } } := by
    rw [hr]; rfl
  rw [e]
  have r2 : ({ d.musterStep m with sys := { (d.musterStep m).sys with step := d.sys.step + 1 } } : Dev).resuming = false := hr
  rw [r2]
  simp only [Bool.false_and, Bool.false_eq_true, if_false]
  rw [if_neg]
  simp only [Bool.or_eq_true, decide_eq_true_eq, not_or]
  exact ⟨by rw [show ({ d.musterStep m with sys := { (d.musterStep m).sys with step := d.sys.step + 1 } } : Dev).powerFailing = (d.musterStep m).powerFailing from rfl, hp]; simp, hc⟩

theorem musterStep_one {d : Dev} {m} (h : d.sys.step = 1) : d.musterStep m = d.startStep m := by unfold Dev.musterStep; rw [h]; rfl
theorem musterStep_two {d : Dev} {m} (h : d.sys.step = 2) : d.musterStep m = d.clockStep m := by unfold Dev.musterStep; rw [h]; rfl
theorem musterStep_three {d : Dev} {m} (h : d.sys.step = 3) : d.musterStep m = d.otpStep m := by unfold Dev.musterStep; rw [h]; rfl
theorem musterStep_four {d : Dev} {m} (h : d.sys.step = 4) : d.musterStep m = d.engineStep m := by unfold Dev.musterStep; rw [h]; rfl

/-- With no occurrence of the chain waiting, its crossings bring events and counts alone. -/
theorem takeChain_idle (d : Dev) (f : d.chn.heldFrames = []) (g : d.chn.heldBreaks = []) :
    eventsOnly { d with chn := { d.chn with
      doneCount := d.chn.doneCount.consumed, ringCount := d.chn.ringCount.consumed, heldFrames := [], heldBreaks := [] } }
      d.takeChain := by
  have one : ∀ (d : Dev) (c : Carried) (n : Nat), eventsOnly d (d.overrunNotice c n) := by
    intro d c n
    unfold Dev.overrunNotice
    split
    · exact notice_eventsOnly ..
    · exact eventsOnly_refl _
  unfold Dev.takeChain
  dsimp only
  rw [f, g]
  exact eventsOnly_trans (one _ _ _) (one _ _ _)

/-- A start of PER keeps the mode while no occurrence of the chain waits. -/
theorem perTakes_mode (d : Dev) (f : d.chn.heldFrames = []) (g : d.chn.heldBreaks = []) : d.perTakes.mode = d.mode := by
  unfold Dev.perTakes
  rw [show (d.takeChain.takeDepot.takeHeldSet).mode = d.takeChain.takeDepot.mode from keeps_same (keeps_takeHeldSet _) .mode rfl,
    show d.takeChain.takeDepot.mode = d.takeChain.mode from keeps_same (keeps_takeDepot _) .mode rfl,
    eventsOnly_mode (takeChain_idle d f g)]

/-- A start of PER leaves no occurrence of the chain waiting. -/
theorem perTakes_chn (d : Dev) (f : d.chn.heldFrames = []) (g : d.chn.heldBreaks = []) :
    d.perTakes.chn.heldFrames = [] ∧ d.perTakes.chn.heldBreaks = [] := by
  unfold Dev.perTakes
  rw [show (d.takeChain.takeDepot.takeHeldSet).chn = d.takeChain.takeDepot.chn from keeps_same (keeps_takeHeldSet _) .chn rfl,
    show d.takeChain.takeDepot.chn = d.takeChain.chn from keeps_same (keeps_takeDepot _) .chn rfl,
    eventsOnly_chn (takeChain_idle d f g)]
  exact ⟨rfl, rfl⟩

/-- The full muster runs at step `n`, no power failure holds it, and no occurrence of the chain waits. -/
structure MusterAt (n : Nat) (d : Dev) : Prop where
  mode : d.mode.mode = .muster
  path : d.sys.path = 0b01
  mstate : d.sys.mstate = 0
  step : d.sys.step = n
  powered : d.sup.powered = true
  pf : d.powerFailing = false
  frames : d.chn.heldFrames = []
  breaks : d.chn.heldBreaks = []

theorem clockStep_ok (d : Dev) (m : MusterInputs) (n) (h : MusterAt n d) (a : m.mainOsc = true) (b : m.pllLock = true) :
    MusterAt n (d.clockStep m) ∧ (d.clockStep m).sys = d.sys := by
  have hr : d.resuming = false := by simp [Dev.resuming, h.path]
  obtain ⟨w, w0, e⟩ : ∃ w : Dev, (w.sys = d.sys ∧ w.mode = d.mode ∧ w.sup.powered = d.sup.powered ∧
      w.powerFailing = d.powerFailing ∧ w.chn = d.chn) ∧
      d.clockStep m = (if (if w.perTakes.resuming then w.perTakes.notice 0 0 0 else w.perTakes).sup.pfEventDue
        then (if w.perTakes.resuming then w.perTakes.notice 0 0 0 else w.perTakes).pfNotice
        else (if w.perTakes.resuming then w.perTakes.notice 0 0 0 else w.perTakes)) := by
    unfold Dev.clockStep
    dsimp only
    rw [if_neg (by simp [a]), if_neg (by simp [b])]
    exact ⟨{ d with
      inh := true
      sup := { d.sup with
        mainOsc := m.mainOsc, pllA := m.mainOsc && m.pllLock, pllB := m.mainOsc && m.pllLock
        doms := { d.sup.doms with per := true, can := true, eng := true, dep := d.resuming } }
      dep := { d.dep with deepDown := if d.resuming then 0 else d.dep.deepDown } }, ⟨rfl, rfl, rfl, rfl, rfl⟩, rfl⟩
  have ks : w.perTakes.sys = d.sys := (show w.perTakes.sys = w.sys from keeps_same (keeps_perTakes w) .sys rfl).trans w0.1
  have km : w.perTakes.mode = d.mode := (perTakes_mode w (by rw [w0.2.2.2.2]; exact h.frames)
    (by rw [w0.2.2.2.2]; exact h.breaks)).trans w0.2.1
  have ku : w.perTakes.sup = { w.sup with
      restStamp := w.perTakes.sup.restStamp, doms := w.perTakes.sup.doms
      pllA := w.perTakes.sup.pllA, pllB := w.perTakes.sup.pllB } :=
    keeps_same (keeps_perTakes w) .sup rfl
  have hq : MusterAt n w.perTakes := by
    refine ⟨by rw [km]; exact h.mode, by rw [ks]; exact h.path, by rw [ks]; exact h.mstate, by rw [ks]; exact h.step,
      by rw [ku]; exact w0.2.2.1.trans h.powered, ?_, (perTakes_chn w ?_ ?_).1, (perTakes_chn w ?_ ?_).2⟩
    · unfold Dev.powerFailing; rw [ku]; exact w0.2.2.2.1.trans h.pf
    all_goals rw [w0.2.2.2.2]; first | exact h.frames | exact h.breaks
  rw [e, if_neg (c := w.perTakes.resuming = true) (by simp [Dev.resuming, hq.path])]
  split
  · obtain ⟨x, y, en⟩ := pfNotice_ends w.perTakes
    refine ⟨⟨?_, ?_, ?_, ?_, ?_, ?_, ?_, ?_⟩, ?_⟩
    · rw [eventsOnly_mode en]; exact hq.mode
    · rw [eventsOnly_sys en]; exact hq.path
    · rw [eventsOnly_sys en]; exact hq.mstate
    · rw [eventsOnly_sys en]; exact hq.step
    · rw [eventsOnly_sup en]; exact hq.powered
    · unfold Dev.powerFailing; rw [eventsOnly_sup en]; exact hq.pf
    · rw [eventsOnly_chn en]; exact hq.frames
    · rw [eventsOnly_chn en]; exact hq.breaks
    · rw [eventsOnly_sys en]; exact ks
  · exact ⟨hq, ks⟩

theorem musterFrom_at (k n : Nat) (m : MusterInputs) (d : Dev) (hd : d.sys.step = n) (h : MusterAt n (d.musterStep m)) (hc : m.cutAfter ≠ n) :
    ∃ d1, Dev.musterFrom (k + 1) m d = Dev.musterFrom k m d1 ∧ MusterAt (n + 1) d1 ∧ d1.sys.repeated = (d.musterStep m).sys.repeated := by
  refine ⟨_, musterFrom_next k m d h.mstate (by simp [Dev.resuming, h.path]) h.pf (by rw [hd]; exact hc), ?_, rfl⟩
  exact ⟨h.mode, h.path, h.mstate, by rw [← hd], h.powered, h.pf, h.frames, h.breaks⟩

theorem withdraw_ends (d : Dev) : eventsOnly { d with saf := { d.saf with granted := false } } d.withdraw := by
  unfold Dev.withdraw
  split
  · exact notice_eventsOnly ..
  · rename_i h
    refine eventsOnly_of_eq ?_
    have : d.saf.granted = false := by simpa using h
    rw [← this]

theorem mem_stageCells (a : Fin 32) (p : Fin 576) : p ∈ stageCells a ↔ p.val / 18 = a.val := by
  unfold stageCells
  simp only [List.mem_map, List.mem_finRange, true_and]
  constructor
  · rintro ⟨i, rfl⟩; simp only; omega
  · intro h; exact ⟨⟨p.val % 18, by omega⟩, by ext; simp only; omega⟩

theorem stageCells_nodup (a : Fin 32) : (stageCells a).Nodup := by
  unfold stageCells
  unfold List.Nodup
  rw [List.pairwise_map]
  refine List.Pairwise.imp (fun {i j} h e => h (Fin.ext ?_)) (List.nodup_finRange 18)
  have := congrArg Fin.val e
  simp only at this
  omega

theorem sweepStage_eq (d : Dev) (r : SnapReading) : (d.sweepStage r).est.cells = (stageCells r.stage).foldl (fun v p => modify v p (Cell.swept r p)) d.est.cells := rfl

theorem sweepStage_cells (d : Dev) (r : SnapReading) :
   (∀ i : Fin 18, r.measFault = false → ((d.sweepStage r).est.cells.get ⟨18 * r.stage.val + i.val, by omega⟩).v = r.cells.getD i.val 0) ∧
   (∀ p : Fin 576, p.val / 18 ≠ r.stage.val → (d.sweepStage r).est.cells.get p = d.est.cells.get p) := by
  rw [sweepStage_eq]
  constructor
  · intro i hf
    rw [get_foldl_modify_mem _ _ _ _ ((mem_stageCells _ _).mpr (by simp only; omega)) (stageCells_nodup _)]
    unfold Cell.swept Cell.enter
    rw [hf]
    simp [Nat.mod_eq_of_lt i.isLt]
  · intro p hp
    rw [get_foldl_modify _ _ _ _ (fun h => hp ((mem_stageCells _ _).mp h))]

theorem watchTime_other (d : Dev) : ∃ l, d.watchTime = { d with lif := l } := by
  unfold Dev.watchTime
  dsimp only
  split
  · exact ⟨_, rfl⟩
  · exact ⟨_, rfl⟩

theorem broadcast_other (d : Dev) (cmd : Nat) (words : List Word) : ∃ c, d.broadcast cmd words = { d with chn := c } := by
  unfold Dev.broadcast
  dsimp only
  split
  · exact ⟨_, rfl⟩
  · exact ⟨_, rfl⟩

theorem sleepChain_other (d : Dev) : ∃ c, d.sleepChain = { d with chn := c } := by
  obtain ⟨c, e⟩ := broadcast_other d 0x0D []
  unfold Dev.sleepChain
  rw [e]
  exact ⟨_, rfl⟩

/-- A sweep that reads one snap enters its cells, and touches else the chain, the time in Watch and free values alone. -/
theorem sweep_spec (d : Dev) (r : SnapReading) : ∃ l ch fr, d.sweep [r] = { d with est := { d.est with cells := (stageCells r.stage).foldl (fun v p => modify v p (Cell.swept r p)) d.est.cells }, lif := l, chn := ch, free := fr } := by
  obtain ⟨c, hc⟩ := broadcast_other d.newPhase 0x06 [d.newPhase.snapTimestamp]
  obtain ⟨c2, f2, h2⟩ : ∃ c2 f2, (d.newPhase.broadcast 0x06 [d.newPhase.snapTimestamp]).freeSeq = { d with chn := c2, free := f2 } := by
    rw [hc]
    exact ⟨_, _, rfl⟩
  obtain ⟨l, hl⟩ := watchTime_other (({ d with chn := c2, free := f2 } : Dev).sweepStage r)
  obtain ⟨c3, h3⟩ := sleepChain_other (({ d with chn := c2, free := f2 } : Dev).sweepStage r).watchTime
  have e : d.sweep [r] = ((d.newPhase.broadcast 0x06 [d.newPhase.snapTimestamp]).freeSeq.sweepStage r).watchTime.sleepChain := rfl
  rw [e, h2, h3, hl]
  exact ⟨l, c3, f2, rfl⟩

/-- A flush given up touches the depot and the lifetime counts alone. -/
theorem abandonFlush_spec (d : Dev) : d.abandonFlush = { d with lif := d.abandonFlush.lif, dep := d.abandonFlush.dep } := by
  unfold Dev.abandonFlush
  split
  · rfl
  · dsimp only; split <;> rfl

/-- The resume path is the muster from step 2 on, with INH on and the guards and the toll as they were in Watch. -/
theorem resume_spec (d : Dev) (m : MusterInputs) : ∃ d0, d.resume m = Dev.musterFrom 16 m d0 ∧ d0.mode = { d.mode with mode := .muster } ∧ d0.inh = true ∧
   d0.sys.path = 0b10 ∧ d0.sys.step = 2 ∧ d0.sys.mstate = 0 ∧ d0.saf = d.saf ∧ d0.tol = d.tol := by
  unfold Dev.resume
  refine ⟨_, rfl, ?_⟩
  generalize hq : ({ d with
    inh := true, wakeDet := { d.wakeDet with errors := 0 }, mode := { d.mode with mode := .muster }
    chn := { d.chn with phase := d.free }, free := d.free + 1
    sys := { d.sys with path := 0b10, mstate := 0b00, step := 2, failCode := 0, failDetail := 0, todo := none } } : Dev) = q
  have h : q.mode = { d.mode with mode := .muster } ∧ q.inh = true ∧ q.sys.path = 0b10 ∧ q.sys.step = 2 ∧ q.sys.mstate = 0 ∧
      q.saf = d.saf ∧ q.tol = d.tol := by subst hq; exact ⟨rfl, rfl, rfl, rfl, rfl, rfl, rfl⟩
  dsimp only
  split
  · unfold Dev.pfMuster
    have n : ∃ p : Sup, q.needDepot = { q with sup := p } := by
      unfold Dev.needDepot
      split <;> exact ⟨_, rfl⟩
    obtain ⟨p, n⟩ := n
    dsimp only
    rw [n]
    obtain ⟨x, y, e⟩ := pfNotice_ends { q with sup := { p with commit := some .shadowOnly } }
    rw [abandonFlush_spec]
    dsimp only
    rw [eventsOnly_mode e, eventsOnly_inh e, eventsOnly_sys e, eventsOnly_saf e, eventsOnly_tol e]
    exact h
  · exact h

end Sys2Proof.Laws
end

