-- ==== Sys2Proof/Laws/State.lean ====
section
/-! SUPPORT. What each update of the device leaves of every field: one lemma per field and update. -/
namespace Sys2Proof.Laws

open Sys2Proof.Machine Sys2Proof.Safety

@[simp] theorem state_dev (d : Dev) (q : List Instr) : ({ dev := d, pending := q } : State).dev = d := rfl
@[simp] theorem state_pending (d : Dev) (q : List Instr) : ({ dev := d, pending := q } : State).pending = q := rfl
@[simp] theorem effect_next (s : State) (f : Dev → Dev) : s.effect f = .next { s with dev := f s.dev } := rfl
@[simp] theorem can_setCan (d : Dev) (ch : Ch) (c : Can) : (d.setCan ch c).can ch = c := by cases ch <;> rfl
@[simp] theorem setCan_can (d : Dev) (ch : Ch) : d.setCan ch (d.can ch) = d := by cases ch <;> rfl

/-- An error changes nothing but the host port's record. -/
theorem frameError_shape (d : Dev) (e : Nat) (n : BitVec 4) (op a : Nat) : ∃ h, d.frameError e n op a = { d with hst := h } :=
  ⟨_, rfl⟩

/-! `setCoil` -/
@[simp] theorem setCoil_cmds (d : Dev) (k : K) (f : Coil → Coil) : (d.setCoil k f).cmds = d.cmds := rfl
@[simp] theorem setCoil_sup (d : Dev) (k : K) (f : Coil → Coil) : (d.setCoil k f).sup = d.sup := rfl
@[simp] theorem setCoil_sys (d : Dev) (k : K) (f : Coil → Coil) : (d.setCoil k f).sys = d.sys := rfl
@[simp] theorem setCoil_mode (d : Dev) (k : K) (f : Coil → Coil) : (d.setCoil k f).mode = d.mode := rfl
@[simp] theorem setCoil_seq (d : Dev) (k : K) (f : Coil → Coil) : (d.setCoil k f).seq = d.seq := rfl
@[simp] theorem setCoil_coil (d : Dev) (k : K) (f : Coil → Coil) : (d.setCoil k f).coil = modify d.coil k f := rfl
@[simp] theorem setCoil_eng (d : Dev) (k : K) (f : Coil → Coil) : (d.setCoil k f).eng = d.eng := rfl
@[simp] theorem setCoil_insp (d : Dev) (k : K) (f : Coil → Coil) : (d.setCoil k f).insp = d.insp := rfl
@[simp] theorem setCoil_chn (d : Dev) (k : K) (f : Coil → Coil) : (d.setCoil k f).chn = d.chn := rfl
@[simp] theorem setCoil_sen (d : Dev) (k : K) (f : Coil → Coil) : (d.setCoil k f).sen = d.sen := rfl
@[simp] theorem setCoil_est (d : Dev) (k : K) (f : Coil → Coil) : (d.setCoil k f).est = d.est := rfl
@[simp] theorem setCoil_lim (d : Dev) (k : K) (f : Coil → Coil) : (d.setCoil k f).lim = d.lim := rfl
@[simp] theorem setCoil_pwr (d : Dev) (k : K) (f : Coil → Coil) : (d.setCoil k f).pwr = d.pwr := rfl
@[simp] theorem setCoil_saf (d : Dev) (k : K) (f : Coil → Coil) : (d.setCoil k f).saf = d.saf := rfl
@[simp] theorem setCoil_tol (d : Dev) (k : K) (f : Coil → Coil) : (d.setCoil k f).tol = d.tol := rfl
@[simp] theorem setCoil_lgr (d : Dev) (k : K) (f : Coil → Coil) : (d.setCoil k f).lgr = d.lgr := rfl
@[simp] theorem setCoil_can0 (d : Dev) (k : K) (f : Coil → Coil) : (d.setCoil k f).can0 = d.can0 := rfl
@[simp] theorem setCoil_can1 (d : Dev) (k : K) (f : Coil → Coil) : (d.setCoil k f).can1 = d.can1 := rfl
@[simp] theorem setCoil_wakeDet (d : Dev) (k : K) (f : Coil → Coil) : (d.setCoil k f).wakeDet = d.wakeDet := rfl
@[simp] theorem setCoil_inh (d : Dev) (k : K) (f : Coil → Coil) : (d.setCoil k f).inh = d.inh := rfl
@[simp] theorem setCoil_hst (d : Dev) (k : K) (f : Coil → Coil) : (d.setCoil k f).hst = d.hst := rfl
@[simp] theorem setCoil_evt (d : Dev) (k : K) (f : Coil → Coil) : (d.setCoil k f).evt = d.evt := rfl
@[simp] theorem setCoil_dep (d : Dev) (k : K) (f : Coil → Coil) : (d.setCoil k f).dep = d.dep := rfl
@[simp] theorem setCoil_lif (d : Dev) (k : K) (f : Coil → Coil) : (d.setCoil k f).lif = d.lif := rfl
@[simp] theorem setCoil_man (d : Dev) (k : K) (f : Coil → Coil) : (d.setCoil k f).man = d.man := rfl
@[simp] theorem setCoil_free (d : Dev) (k : K) (f : Coil → Coil) : (d.setCoil k f).free = d.free := rfl

/-! `setCs0` -/
@[simp] theorem setCs0_cmds (d : Dev) (a : Nat) (bs : List Byte) : (d.setCs0 a bs).cmds = d.cmds := rfl
@[simp] theorem setCs0_sup (d : Dev) (a : Nat) (bs : List Byte) : (d.setCs0 a bs).sup = d.sup := rfl
@[simp] theorem setCs0_sys (d : Dev) (a : Nat) (bs : List Byte) : (d.setCs0 a bs).sys = d.sys := rfl
@[simp] theorem setCs0_mode (d : Dev) (a : Nat) (bs : List Byte) : (d.setCs0 a bs).mode = d.mode := rfl
@[simp] theorem setCs0_seq (d : Dev) (a : Nat) (bs : List Byte) : (d.setCs0 a bs).seq = d.seq := rfl
@[simp] theorem setCs0_coil (d : Dev) (a : Nat) (bs : List Byte) : (d.setCs0 a bs).coil = d.coil := rfl
@[simp] theorem setCs0_eng (d : Dev) (a : Nat) (bs : List Byte) : (d.setCs0 a bs).eng = d.eng := rfl
@[simp] theorem setCs0_insp (d : Dev) (a : Nat) (bs : List Byte) : (d.setCs0 a bs).insp = d.insp := rfl
@[simp] theorem setCs0_chn (d : Dev) (a : Nat) (bs : List Byte) : (d.setCs0 a bs).chn = d.chn := rfl
@[simp] theorem setCs0_sen (d : Dev) (a : Nat) (bs : List Byte) : (d.setCs0 a bs).sen = d.sen := rfl
@[simp] theorem setCs0_est (d : Dev) (a : Nat) (bs : List Byte) : (d.setCs0 a bs).est = d.est := rfl
@[simp] theorem setCs0_lim (d : Dev) (a : Nat) (bs : List Byte) : (d.setCs0 a bs).lim = d.lim := rfl
@[simp] theorem setCs0_pwr (d : Dev) (a : Nat) (bs : List Byte) : (d.setCs0 a bs).pwr = d.pwr := rfl
@[simp] theorem setCs0_saf (d : Dev) (a : Nat) (bs : List Byte) : (d.setCs0 a bs).saf = d.saf := rfl
@[simp] theorem setCs0_tol (d : Dev) (a : Nat) (bs : List Byte) : (d.setCs0 a bs).tol = d.tol := rfl
@[simp] theorem setCs0_lgr (d : Dev) (a : Nat) (bs : List Byte) : (d.setCs0 a bs).lgr = d.lgr := rfl
@[simp] theorem setCs0_can0 (d : Dev) (a : Nat) (bs : List Byte) : (d.setCs0 a bs).can0 = d.can0 := rfl
@[simp] theorem setCs0_can1 (d : Dev) (a : Nat) (bs : List Byte) : (d.setCs0 a bs).can1 = d.can1 := rfl
@[simp] theorem setCs0_wakeDet (d : Dev) (a : Nat) (bs : List Byte) : (d.setCs0 a bs).wakeDet = d.wakeDet := rfl
@[simp] theorem setCs0_inh (d : Dev) (a : Nat) (bs : List Byte) : (d.setCs0 a bs).inh = d.inh := rfl
@[simp] theorem setCs0_hst (d : Dev) (a : Nat) (bs : List Byte) : (d.setCs0 a bs).hst = d.hst := rfl
@[simp] theorem setCs0_evt (d : Dev) (a : Nat) (bs : List Byte) : (d.setCs0 a bs).evt = d.evt := rfl
@[simp] theorem setCs0_dep (d : Dev) (a : Nat) (bs : List Byte) : (d.setCs0 a bs).dep = { d.dep with cs0 := Mem.writeBytes cs0Default d.dep.cs0 a bs } := rfl
@[simp] theorem setCs0_lif (d : Dev) (a : Nat) (bs : List Byte) : (d.setCs0 a bs).lif = d.lif := rfl
@[simp] theorem setCs0_man (d : Dev) (a : Nat) (bs : List Byte) : (d.setCs0 a bs).man = d.man := rfl
@[simp] theorem setCs0_free (d : Dev) (a : Nat) (bs : List Byte) : (d.setCs0 a bs).free = d.free := rfl

/-! `setCs1` -/
@[simp] theorem setCs1_cmds (d : Dev) (a : Nat) (bs : List Byte) : (d.setCs1 a bs).cmds = d.cmds := rfl
@[simp] theorem setCs1_sup (d : Dev) (a : Nat) (bs : List Byte) : (d.setCs1 a bs).sup = d.sup := rfl
@[simp] theorem setCs1_sys (d : Dev) (a : Nat) (bs : List Byte) : (d.setCs1 a bs).sys = d.sys := rfl
@[simp] theorem setCs1_mode (d : Dev) (a : Nat) (bs : List Byte) : (d.setCs1 a bs).mode = d.mode := rfl
@[simp] theorem setCs1_seq (d : Dev) (a : Nat) (bs : List Byte) : (d.setCs1 a bs).seq = d.seq := rfl
@[simp] theorem setCs1_coil (d : Dev) (a : Nat) (bs : List Byte) : (d.setCs1 a bs).coil = d.coil := rfl
@[simp] theorem setCs1_eng (d : Dev) (a : Nat) (bs : List Byte) : (d.setCs1 a bs).eng = d.eng := rfl
@[simp] theorem setCs1_insp (d : Dev) (a : Nat) (bs : List Byte) : (d.setCs1 a bs).insp = d.insp := rfl
@[simp] theorem setCs1_chn (d : Dev) (a : Nat) (bs : List Byte) : (d.setCs1 a bs).chn = d.chn := rfl
@[simp] theorem setCs1_sen (d : Dev) (a : Nat) (bs : List Byte) : (d.setCs1 a bs).sen = d.sen := rfl
@[simp] theorem setCs1_est (d : Dev) (a : Nat) (bs : List Byte) : (d.setCs1 a bs).est = d.est := rfl
@[simp] theorem setCs1_lim (d : Dev) (a : Nat) (bs : List Byte) : (d.setCs1 a bs).lim = d.lim := rfl
@[simp] theorem setCs1_pwr (d : Dev) (a : Nat) (bs : List Byte) : (d.setCs1 a bs).pwr = d.pwr := rfl
@[simp] theorem setCs1_saf (d : Dev) (a : Nat) (bs : List Byte) : (d.setCs1 a bs).saf = d.saf := rfl
@[simp] theorem setCs1_tol (d : Dev) (a : Nat) (bs : List Byte) : (d.setCs1 a bs).tol = d.tol := rfl
@[simp] theorem setCs1_lgr (d : Dev) (a : Nat) (bs : List Byte) : (d.setCs1 a bs).lgr = d.lgr := rfl
@[simp] theorem setCs1_can0 (d : Dev) (a : Nat) (bs : List Byte) : (d.setCs1 a bs).can0 = d.can0 := rfl
@[simp] theorem setCs1_can1 (d : Dev) (a : Nat) (bs : List Byte) : (d.setCs1 a bs).can1 = d.can1 := rfl
@[simp] theorem setCs1_wakeDet (d : Dev) (a : Nat) (bs : List Byte) : (d.setCs1 a bs).wakeDet = d.wakeDet := rfl
@[simp] theorem setCs1_inh (d : Dev) (a : Nat) (bs : List Byte) : (d.setCs1 a bs).inh = d.inh := rfl
@[simp] theorem setCs1_hst (d : Dev) (a : Nat) (bs : List Byte) : (d.setCs1 a bs).hst = d.hst := rfl
@[simp] theorem setCs1_evt (d : Dev) (a : Nat) (bs : List Byte) : (d.setCs1 a bs).evt = d.evt := rfl
@[simp] theorem setCs1_dep (d : Dev) (a : Nat) (bs : List Byte) : (d.setCs1 a bs).dep = { d.dep with cs1 := Mem.writeBytes cs1Default d.dep.cs1 a bs } := rfl
@[simp] theorem setCs1_lif (d : Dev) (a : Nat) (bs : List Byte) : (d.setCs1 a bs).lif = d.lif := rfl
@[simp] theorem setCs1_man (d : Dev) (a : Nat) (bs : List Byte) : (d.setCs1 a bs).man = d.man := rfl
@[simp] theorem setCs1_free (d : Dev) (a : Nat) (bs : List Byte) : (d.setCs1 a bs).free = d.free := rfl

/-! `eraseCs1` -/
@[simp] theorem eraseCs1_cmds (d : Dev) (a n : Nat) : (d.eraseCs1 a n).cmds = d.cmds := rfl
@[simp] theorem eraseCs1_sup (d : Dev) (a n : Nat) : (d.eraseCs1 a n).sup = d.sup := rfl
@[simp] theorem eraseCs1_sys (d : Dev) (a n : Nat) : (d.eraseCs1 a n).sys = d.sys := rfl
@[simp] theorem eraseCs1_mode (d : Dev) (a n : Nat) : (d.eraseCs1 a n).mode = d.mode := rfl
@[simp] theorem eraseCs1_seq (d : Dev) (a n : Nat) : (d.eraseCs1 a n).seq = d.seq := rfl
@[simp] theorem eraseCs1_coil (d : Dev) (a n : Nat) : (d.eraseCs1 a n).coil = d.coil := rfl
@[simp] theorem eraseCs1_eng (d : Dev) (a n : Nat) : (d.eraseCs1 a n).eng = d.eng := rfl
@[simp] theorem eraseCs1_insp (d : Dev) (a n : Nat) : (d.eraseCs1 a n).insp = d.insp := rfl
@[simp] theorem eraseCs1_chn (d : Dev) (a n : Nat) : (d.eraseCs1 a n).chn = d.chn := rfl
@[simp] theorem eraseCs1_sen (d : Dev) (a n : Nat) : (d.eraseCs1 a n).sen = d.sen := rfl
@[simp] theorem eraseCs1_est (d : Dev) (a n : Nat) : (d.eraseCs1 a n).est = d.est := rfl
@[simp] theorem eraseCs1_lim (d : Dev) (a n : Nat) : (d.eraseCs1 a n).lim = d.lim := rfl
@[simp] theorem eraseCs1_pwr (d : Dev) (a n : Nat) : (d.eraseCs1 a n).pwr = d.pwr := rfl
@[simp] theorem eraseCs1_saf (d : Dev) (a n : Nat) : (d.eraseCs1 a n).saf = d.saf := rfl
@[simp] theorem eraseCs1_tol (d : Dev) (a n : Nat) : (d.eraseCs1 a n).tol = d.tol := rfl
@[simp] theorem eraseCs1_lgr (d : Dev) (a n : Nat) : (d.eraseCs1 a n).lgr = d.lgr := rfl
@[simp] theorem eraseCs1_can0 (d : Dev) (a n : Nat) : (d.eraseCs1 a n).can0 = d.can0 := rfl
@[simp] theorem eraseCs1_can1 (d : Dev) (a n : Nat) : (d.eraseCs1 a n).can1 = d.can1 := rfl
@[simp] theorem eraseCs1_wakeDet (d : Dev) (a n : Nat) : (d.eraseCs1 a n).wakeDet = d.wakeDet := rfl
@[simp] theorem eraseCs1_inh (d : Dev) (a n : Nat) : (d.eraseCs1 a n).inh = d.inh := rfl
@[simp] theorem eraseCs1_hst (d : Dev) (a n : Nat) : (d.eraseCs1 a n).hst = d.hst := rfl
@[simp] theorem eraseCs1_evt (d : Dev) (a n : Nat) : (d.eraseCs1 a n).evt = d.evt := rfl
@[simp] theorem eraseCs1_dep (d : Dev) (a n : Nat) : (d.eraseCs1 a n).dep = { d.dep with cs1 := Mem.erase d.dep.cs1 a n } := rfl
@[simp] theorem eraseCs1_lif (d : Dev) (a n : Nat) : (d.eraseCs1 a n).lif = d.lif := rfl
@[simp] theorem eraseCs1_man (d : Dev) (a n : Nat) : (d.eraseCs1 a n).man = d.man := rfl
@[simp] theorem eraseCs1_free (d : Dev) (a n : Nat) : (d.eraseCs1 a n).free = d.free := rfl

/-! `tick` -/
@[simp] theorem tick_cmds (d : Dev) : (d.tick).cmds = d.cmds := rfl
@[simp] theorem tick_sup (d : Dev) : (d.tick).sup = d.sup := rfl
@[simp] theorem tick_sys (d : Dev) : (d.tick).sys = d.sys := rfl
@[simp] theorem tick_mode (d : Dev) : (d.tick).mode = d.mode := rfl
@[simp] theorem tick_seq (d : Dev) : (d.tick).seq = d.seq := rfl
@[simp] theorem tick_coil (d : Dev) : (d.tick).coil = d.coil := rfl
@[simp] theorem tick_eng (d : Dev) : (d.tick).eng = d.eng := rfl
@[simp] theorem tick_insp (d : Dev) : (d.tick).insp = d.insp := rfl
@[simp] theorem tick_chn (d : Dev) : (d.tick).chn = d.chn := rfl
@[simp] theorem tick_sen (d : Dev) : (d.tick).sen = d.sen := rfl
@[simp] theorem tick_est (d : Dev) : (d.tick).est = d.est := rfl
@[simp] theorem tick_lim (d : Dev) : (d.tick).lim = d.lim := rfl
@[simp] theorem tick_pwr (d : Dev) : (d.tick).pwr = d.pwr := rfl
@[simp] theorem tick_saf (d : Dev) : (d.tick).saf = d.saf := rfl
@[simp] theorem tick_tol (d : Dev) : (d.tick).tol = d.tol := rfl
@[simp] theorem tick_lgr (d : Dev) : (d.tick).lgr = d.lgr := rfl
@[simp] theorem tick_can0 (d : Dev) : (d.tick).can0 = d.can0 := rfl
@[simp] theorem tick_can1 (d : Dev) : (d.tick).can1 = d.can1 := rfl
@[simp] theorem tick_wakeDet (d : Dev) : (d.tick).wakeDet = d.wakeDet := rfl
@[simp] theorem tick_inh (d : Dev) : (d.tick).inh = d.inh := rfl
@[simp] theorem tick_hst (d : Dev) : (d.tick).hst = d.hst := rfl
@[simp] theorem tick_evt (d : Dev) : (d.tick).evt = d.evt := rfl
@[simp] theorem tick_dep (d : Dev) : (d.tick).dep = d.dep := rfl
@[simp] theorem tick_lif (d : Dev) : (d.tick).lif = d.lif := rfl
@[simp] theorem tick_man (d : Dev) : (d.tick).man = d.man := rfl
@[simp] theorem tick_free (d : Dev) : (d.tick).free = d.free + 1 := rfl

/-! `numberFrame` -/
@[simp] theorem numberFrame_cmds (d : Dev) : (d.numberFrame).cmds = d.cmds := rfl
@[simp] theorem numberFrame_sup (d : Dev) : (d.numberFrame).sup = d.sup := rfl
@[simp] theorem numberFrame_sys (d : Dev) : (d.numberFrame).sys = d.sys := rfl
@[simp] theorem numberFrame_mode (d : Dev) : (d.numberFrame).mode = d.mode := rfl
@[simp] theorem numberFrame_seq (d : Dev) : (d.numberFrame).seq = d.seq := rfl
@[simp] theorem numberFrame_coil (d : Dev) : (d.numberFrame).coil = d.coil := rfl
@[simp] theorem numberFrame_eng (d : Dev) : (d.numberFrame).eng = d.eng := rfl
@[simp] theorem numberFrame_insp (d : Dev) : (d.numberFrame).insp = d.insp := rfl
@[simp] theorem numberFrame_chn (d : Dev) : (d.numberFrame).chn = d.chn := rfl
@[simp] theorem numberFrame_sen (d : Dev) : (d.numberFrame).sen = d.sen := rfl
@[simp] theorem numberFrame_est (d : Dev) : (d.numberFrame).est = d.est := rfl
@[simp] theorem numberFrame_lim (d : Dev) : (d.numberFrame).lim = d.lim := rfl
@[simp] theorem numberFrame_pwr (d : Dev) : (d.numberFrame).pwr = d.pwr := rfl
@[simp] theorem numberFrame_saf (d : Dev) : (d.numberFrame).saf = d.saf := rfl
@[simp] theorem numberFrame_tol (d : Dev) : (d.numberFrame).tol = d.tol := rfl
@[simp] theorem numberFrame_lgr (d : Dev) : (d.numberFrame).lgr = d.lgr := rfl
@[simp] theorem numberFrame_can0 (d : Dev) : (d.numberFrame).can0 = d.can0 := rfl
@[simp] theorem numberFrame_can1 (d : Dev) : (d.numberFrame).can1 = d.can1 := rfl
@[simp] theorem numberFrame_wakeDet (d : Dev) : (d.numberFrame).wakeDet = d.wakeDet := rfl
@[simp] theorem numberFrame_inh (d : Dev) : (d.numberFrame).inh = d.inh := rfl
@[simp] theorem numberFrame_hst (d : Dev) : (d.numberFrame).hst = { d.hst with frame := d.hst.frame + 1 } := rfl
@[simp] theorem numberFrame_evt (d : Dev) : (d.numberFrame).evt = d.evt := rfl
@[simp] theorem numberFrame_dep (d : Dev) : (d.numberFrame).dep = d.dep := rfl
@[simp] theorem numberFrame_lif (d : Dev) : (d.numberFrame).lif = d.lif := rfl
@[simp] theorem numberFrame_man (d : Dev) : (d.numberFrame).man = d.man := rfl
@[simp] theorem numberFrame_free (d : Dev) : (d.numberFrame).free = d.free := rfl

/-! `frameError` -/
@[simp] theorem frameError_cmds (d : Dev) (e : Nat) (n : BitVec 4) (op a : Nat) : (d.frameError e n op a).cmds = d.cmds := by obtain ⟨h, x⟩ := frameError_shape d e n op a; rw [x]
@[simp] theorem frameError_sup (d : Dev) (e : Nat) (n : BitVec 4) (op a : Nat) : (d.frameError e n op a).sup = d.sup := by obtain ⟨h, x⟩ := frameError_shape d e n op a; rw [x]
@[simp] theorem frameError_sys (d : Dev) (e : Nat) (n : BitVec 4) (op a : Nat) : (d.frameError e n op a).sys = d.sys := by obtain ⟨h, x⟩ := frameError_shape d e n op a; rw [x]
@[simp] theorem frameError_mode (d : Dev) (e : Nat) (n : BitVec 4) (op a : Nat) : (d.frameError e n op a).mode = d.mode := by obtain ⟨h, x⟩ := frameError_shape d e n op a; rw [x]
@[simp] theorem frameError_seq (d : Dev) (e : Nat) (n : BitVec 4) (op a : Nat) : (d.frameError e n op a).seq = d.seq := by obtain ⟨h, x⟩ := frameError_shape d e n op a; rw [x]
@[simp] theorem frameError_coil (d : Dev) (e : Nat) (n : BitVec 4) (op a : Nat) : (d.frameError e n op a).coil = d.coil := by obtain ⟨h, x⟩ := frameError_shape d e n op a; rw [x]
@[simp] theorem frameError_eng (d : Dev) (e : Nat) (n : BitVec 4) (op a : Nat) : (d.frameError e n op a).eng = d.eng := by obtain ⟨h, x⟩ := frameError_shape d e n op a; rw [x]
@[simp] theorem frameError_insp (d : Dev) (e : Nat) (n : BitVec 4) (op a : Nat) : (d.frameError e n op a).insp = d.insp := by obtain ⟨h, x⟩ := frameError_shape d e n op a; rw [x]
@[simp] theorem frameError_chn (d : Dev) (e : Nat) (n : BitVec 4) (op a : Nat) : (d.frameError e n op a).chn = d.chn := by obtain ⟨h, x⟩ := frameError_shape d e n op a; rw [x]
@[simp] theorem frameError_sen (d : Dev) (e : Nat) (n : BitVec 4) (op a : Nat) : (d.frameError e n op a).sen = d.sen := by obtain ⟨h, x⟩ := frameError_shape d e n op a; rw [x]
@[simp] theorem frameError_est (d : Dev) (e : Nat) (n : BitVec 4) (op a : Nat) : (d.frameError e n op a).est = d.est := by obtain ⟨h, x⟩ := frameError_shape d e n op a; rw [x]
@[simp] theorem frameError_lim (d : Dev) (e : Nat) (n : BitVec 4) (op a : Nat) : (d.frameError e n op a).lim = d.lim := by obtain ⟨h, x⟩ := frameError_shape d e n op a; rw [x]
@[simp] theorem frameError_pwr (d : Dev) (e : Nat) (n : BitVec 4) (op a : Nat) : (d.frameError e n op a).pwr = d.pwr := by obtain ⟨h, x⟩ := frameError_shape d e n op a; rw [x]
@[simp] theorem frameError_saf (d : Dev) (e : Nat) (n : BitVec 4) (op a : Nat) : (d.frameError e n op a).saf = d.saf := by obtain ⟨h, x⟩ := frameError_shape d e n op a; rw [x]
@[simp] theorem frameError_tol (d : Dev) (e : Nat) (n : BitVec 4) (op a : Nat) : (d.frameError e n op a).tol = d.tol := by obtain ⟨h, x⟩ := frameError_shape d e n op a; rw [x]
@[simp] theorem frameError_lgr (d : Dev) (e : Nat) (n : BitVec 4) (op a : Nat) : (d.frameError e n op a).lgr = d.lgr := by obtain ⟨h, x⟩ := frameError_shape d e n op a; rw [x]
@[simp] theorem frameError_can0 (d : Dev) (e : Nat) (n : BitVec 4) (op a : Nat) : (d.frameError e n op a).can0 = d.can0 := by obtain ⟨h, x⟩ := frameError_shape d e n op a; rw [x]
@[simp] theorem frameError_can1 (d : Dev) (e : Nat) (n : BitVec 4) (op a : Nat) : (d.frameError e n op a).can1 = d.can1 := by obtain ⟨h, x⟩ := frameError_shape d e n op a; rw [x]
@[simp] theorem frameError_wakeDet (d : Dev) (e : Nat) (n : BitVec 4) (op a : Nat) : (d.frameError e n op a).wakeDet = d.wakeDet := by obtain ⟨h, x⟩ := frameError_shape d e n op a; rw [x]
@[simp] theorem frameError_inh (d : Dev) (e : Nat) (n : BitVec 4) (op a : Nat) : (d.frameError e n op a).inh = d.inh := by obtain ⟨h, x⟩ := frameError_shape d e n op a; rw [x]
@[simp] theorem frameError_evt (d : Dev) (e : Nat) (n : BitVec 4) (op a : Nat) : (d.frameError e n op a).evt = d.evt := by obtain ⟨h, x⟩ := frameError_shape d e n op a; rw [x]
@[simp] theorem frameError_dep (d : Dev) (e : Nat) (n : BitVec 4) (op a : Nat) : (d.frameError e n op a).dep = d.dep := by obtain ⟨h, x⟩ := frameError_shape d e n op a; rw [x]
@[simp] theorem frameError_lif (d : Dev) (e : Nat) (n : BitVec 4) (op a : Nat) : (d.frameError e n op a).lif = d.lif := by obtain ⟨h, x⟩ := frameError_shape d e n op a; rw [x]
@[simp] theorem frameError_man (d : Dev) (e : Nat) (n : BitVec 4) (op a : Nat) : (d.frameError e n op a).man = d.man := by obtain ⟨h, x⟩ := frameError_shape d e n op a; rw [x]
@[simp] theorem frameError_free (d : Dev) (e : Nat) (n : BitVec 4) (op a : Nat) : (d.frameError e n op a).free = d.free := by obtain ⟨h, x⟩ := frameError_shape d e n op a; rw [x]

/-! `respond` -/
@[simp] theorem respond_cmds (d : Dev) (e : BitVec 3) (b : Bool) (x : BitVec 2) (v : Word) : (d.respond e b x v).cmds = d.cmds := rfl
@[simp] theorem respond_sup (d : Dev) (e : BitVec 3) (b : Bool) (x : BitVec 2) (v : Word) : (d.respond e b x v).sup = d.sup := rfl
@[simp] theorem respond_sys (d : Dev) (e : BitVec 3) (b : Bool) (x : BitVec 2) (v : Word) : (d.respond e b x v).sys = d.sys := rfl
@[simp] theorem respond_mode (d : Dev) (e : BitVec 3) (b : Bool) (x : BitVec 2) (v : Word) : (d.respond e b x v).mode = d.mode := rfl
@[simp] theorem respond_seq (d : Dev) (e : BitVec 3) (b : Bool) (x : BitVec 2) (v : Word) : (d.respond e b x v).seq = d.seq := rfl
@[simp] theorem respond_coil (d : Dev) (e : BitVec 3) (b : Bool) (x : BitVec 2) (v : Word) : (d.respond e b x v).coil = d.coil := rfl
@[simp] theorem respond_eng (d : Dev) (e : BitVec 3) (b : Bool) (x : BitVec 2) (v : Word) : (d.respond e b x v).eng = d.eng := rfl
@[simp] theorem respond_insp (d : Dev) (e : BitVec 3) (b : Bool) (x : BitVec 2) (v : Word) : (d.respond e b x v).insp = d.insp := rfl
@[simp] theorem respond_chn (d : Dev) (e : BitVec 3) (b : Bool) (x : BitVec 2) (v : Word) : (d.respond e b x v).chn = d.chn := rfl
@[simp] theorem respond_sen (d : Dev) (e : BitVec 3) (b : Bool) (x : BitVec 2) (v : Word) : (d.respond e b x v).sen = d.sen := rfl
@[simp] theorem respond_est (d : Dev) (e : BitVec 3) (b : Bool) (x : BitVec 2) (v : Word) : (d.respond e b x v).est = d.est := rfl
@[simp] theorem respond_lim (d : Dev) (e : BitVec 3) (b : Bool) (x : BitVec 2) (v : Word) : (d.respond e b x v).lim = d.lim := rfl
@[simp] theorem respond_pwr (d : Dev) (e : BitVec 3) (b : Bool) (x : BitVec 2) (v : Word) : (d.respond e b x v).pwr = d.pwr := rfl
@[simp] theorem respond_saf (d : Dev) (e : BitVec 3) (b : Bool) (x : BitVec 2) (v : Word) : (d.respond e b x v).saf = d.saf := rfl
@[simp] theorem respond_tol (d : Dev) (e : BitVec 3) (b : Bool) (x : BitVec 2) (v : Word) : (d.respond e b x v).tol = d.tol := rfl
@[simp] theorem respond_lgr (d : Dev) (e : BitVec 3) (b : Bool) (x : BitVec 2) (v : Word) : (d.respond e b x v).lgr = d.lgr := rfl
@[simp] theorem respond_can0 (d : Dev) (e : BitVec 3) (b : Bool) (x : BitVec 2) (v : Word) : (d.respond e b x v).can0 = d.can0 := rfl
@[simp] theorem respond_can1 (d : Dev) (e : BitVec 3) (b : Bool) (x : BitVec 2) (v : Word) : (d.respond e b x v).can1 = d.can1 := rfl
@[simp] theorem respond_wakeDet (d : Dev) (e : BitVec 3) (b : Bool) (x : BitVec 2) (v : Word) : (d.respond e b x v).wakeDet = d.wakeDet := rfl
@[simp] theorem respond_inh (d : Dev) (e : BitVec 3) (b : Bool) (x : BitVec 2) (v : Word) : (d.respond e b x v).inh = d.inh := rfl
@[simp] theorem respond_hst (d : Dev) (e : BitVec 3) (b : Bool) (x : BitVec 2) (v : Word) : (d.respond e b x v).hst = { d.hst with resp := { seq := d.hst.frame, err := e, busy := b, abort := x, data := v } } := rfl
@[simp] theorem respond_evt (d : Dev) (e : BitVec 3) (b : Bool) (x : BitVec 2) (v : Word) : (d.respond e b x v).evt = d.evt := rfl
@[simp] theorem respond_dep (d : Dev) (e : BitVec 3) (b : Bool) (x : BitVec 2) (v : Word) : (d.respond e b x v).dep = d.dep := rfl
@[simp] theorem respond_lif (d : Dev) (e : BitVec 3) (b : Bool) (x : BitVec 2) (v : Word) : (d.respond e b x v).lif = d.lif := rfl
@[simp] theorem respond_man (d : Dev) (e : BitVec 3) (b : Bool) (x : BitVec 2) (v : Word) : (d.respond e b x v).man = d.man := rfl
@[simp] theorem respond_free (d : Dev) (e : BitVec 3) (b : Bool) (x : BitVec 2) (v : Word) : (d.respond e b x v).free = d.free := rfl

/-! `setEvt` -/
@[simp] theorem setEvt_cmds (d : Dev) (src : Nat) : (d.setEvt src).cmds = d.cmds := rfl
@[simp] theorem setEvt_sup (d : Dev) (src : Nat) : (d.setEvt src).sup = d.sup := rfl
@[simp] theorem setEvt_sys (d : Dev) (src : Nat) : (d.setEvt src).sys = d.sys := rfl
@[simp] theorem setEvt_mode (d : Dev) (src : Nat) : (d.setEvt src).mode = d.mode := rfl
@[simp] theorem setEvt_seq (d : Dev) (src : Nat) : (d.setEvt src).seq = d.seq := rfl
@[simp] theorem setEvt_coil (d : Dev) (src : Nat) : (d.setEvt src).coil = d.coil := rfl
@[simp] theorem setEvt_eng (d : Dev) (src : Nat) : (d.setEvt src).eng = d.eng := rfl
@[simp] theorem setEvt_insp (d : Dev) (src : Nat) : (d.setEvt src).insp = d.insp := rfl
@[simp] theorem setEvt_chn (d : Dev) (src : Nat) : (d.setEvt src).chn = d.chn := rfl
@[simp] theorem setEvt_sen (d : Dev) (src : Nat) : (d.setEvt src).sen = d.sen := rfl
@[simp] theorem setEvt_est (d : Dev) (src : Nat) : (d.setEvt src).est = d.est := rfl
@[simp] theorem setEvt_lim (d : Dev) (src : Nat) : (d.setEvt src).lim = d.lim := rfl
@[simp] theorem setEvt_pwr (d : Dev) (src : Nat) : (d.setEvt src).pwr = d.pwr := rfl
@[simp] theorem setEvt_saf (d : Dev) (src : Nat) : (d.setEvt src).saf = d.saf := rfl
@[simp] theorem setEvt_tol (d : Dev) (src : Nat) : (d.setEvt src).tol = d.tol := rfl
@[simp] theorem setEvt_lgr (d : Dev) (src : Nat) : (d.setEvt src).lgr = d.lgr := rfl
@[simp] theorem setEvt_can0 (d : Dev) (src : Nat) : (d.setEvt src).can0 = d.can0 := rfl
@[simp] theorem setEvt_can1 (d : Dev) (src : Nat) : (d.setEvt src).can1 = d.can1 := rfl
@[simp] theorem setEvt_wakeDet (d : Dev) (src : Nat) : (d.setEvt src).wakeDet = d.wakeDet := rfl
@[simp] theorem setEvt_inh (d : Dev) (src : Nat) : (d.setEvt src).inh = d.inh := rfl
@[simp] theorem setEvt_hst (d : Dev) (src : Nat) : (d.setEvt src).hst = d.hst := rfl
@[simp] theorem setEvt_evt (d : Dev) (src : Nat) : (d.setEvt src).evt = { d.evt with stat := d.evt.stat ||| BitVec.ofNat 64 (2 ^ src) } := rfl
@[simp] theorem setEvt_dep (d : Dev) (src : Nat) : (d.setEvt src).dep = d.dep := rfl
@[simp] theorem setEvt_lif (d : Dev) (src : Nat) : (d.setEvt src).lif = d.lif := rfl
@[simp] theorem setEvt_man (d : Dev) (src : Nat) : (d.setEvt src).man = d.man := rfl
@[simp] theorem setEvt_free (d : Dev) (src : Nat) : (d.setEvt src).free = d.free := rfl

/-! `startSettling` -/
@[simp] theorem startSettling_cmds (d : Dev) : (d.startSettling).cmds = d.cmds := rfl
@[simp] theorem startSettling_sup (d : Dev) : (d.startSettling).sup = d.sup := rfl
@[simp] theorem startSettling_sys (d : Dev) : (d.startSettling).sys = d.sys := rfl
@[simp] theorem startSettling_mode (d : Dev) : (d.startSettling).mode = d.mode := rfl
@[simp] theorem startSettling_seq (d : Dev) : (d.startSettling).seq = d.seq := rfl
@[simp] theorem startSettling_coil (d : Dev) : (d.startSettling).coil = d.coil := rfl
@[simp] theorem startSettling_eng (d : Dev) : (d.startSettling).eng = d.eng := rfl
@[simp] theorem startSettling_insp (d : Dev) : (d.startSettling).insp = d.insp := rfl
@[simp] theorem startSettling_chn (d : Dev) : (d.startSettling).chn = d.chn := rfl
@[simp] theorem startSettling_sen (d : Dev) : (d.startSettling).sen = { d.sen with settling := true, inForce := d.sen.cfg } := rfl
@[simp] theorem startSettling_est (d : Dev) : (d.startSettling).est = d.est := rfl
@[simp] theorem startSettling_lim (d : Dev) : (d.startSettling).lim = d.lim := rfl
@[simp] theorem startSettling_pwr (d : Dev) : (d.startSettling).pwr = d.pwr := rfl
@[simp] theorem startSettling_saf (d : Dev) : (d.startSettling).saf = d.saf := rfl
@[simp] theorem startSettling_tol (d : Dev) : (d.startSettling).tol = d.tol := rfl
@[simp] theorem startSettling_lgr (d : Dev) : (d.startSettling).lgr = d.lgr := rfl
@[simp] theorem startSettling_can0 (d : Dev) : (d.startSettling).can0 = d.can0 := rfl
@[simp] theorem startSettling_can1 (d : Dev) : (d.startSettling).can1 = d.can1 := rfl
@[simp] theorem startSettling_wakeDet (d : Dev) : (d.startSettling).wakeDet = d.wakeDet := rfl
@[simp] theorem startSettling_inh (d : Dev) : (d.startSettling).inh = d.inh := rfl
@[simp] theorem startSettling_hst (d : Dev) : (d.startSettling).hst = d.hst := rfl
@[simp] theorem startSettling_evt (d : Dev) : (d.startSettling).evt = d.evt := rfl
@[simp] theorem startSettling_dep (d : Dev) : (d.startSettling).dep = d.dep := rfl
@[simp] theorem startSettling_lif (d : Dev) : (d.startSettling).lif = d.lif := rfl
@[simp] theorem startSettling_man (d : Dev) : (d.startSettling).man = d.man := rfl
@[simp] theorem startSettling_free (d : Dev) : (d.startSettling).free = d.free := rfl

/-! `countCs0Error` -/
@[simp] theorem countCs0Error_cmds (d : Dev) : (d.countCs0Error).cmds = d.cmds := rfl
@[simp] theorem countCs0Error_sup (d : Dev) : (d.countCs0Error).sup = d.sup := rfl
@[simp] theorem countCs0Error_sys (d : Dev) : (d.countCs0Error).sys = d.sys := rfl
@[simp] theorem countCs0Error_mode (d : Dev) : (d.countCs0Error).mode = d.mode := rfl
@[simp] theorem countCs0Error_seq (d : Dev) : (d.countCs0Error).seq = d.seq := rfl
@[simp] theorem countCs0Error_coil (d : Dev) : (d.countCs0Error).coil = d.coil := rfl
@[simp] theorem countCs0Error_eng (d : Dev) : (d.countCs0Error).eng = d.eng := rfl
@[simp] theorem countCs0Error_insp (d : Dev) : (d.countCs0Error).insp = d.insp := rfl
@[simp] theorem countCs0Error_chn (d : Dev) : (d.countCs0Error).chn = d.chn := rfl
@[simp] theorem countCs0Error_sen (d : Dev) : (d.countCs0Error).sen = d.sen := rfl
@[simp] theorem countCs0Error_est (d : Dev) : (d.countCs0Error).est = d.est := rfl
@[simp] theorem countCs0Error_lim (d : Dev) : (d.countCs0Error).lim = d.lim := rfl
@[simp] theorem countCs0Error_pwr (d : Dev) : (d.countCs0Error).pwr = d.pwr := rfl
@[simp] theorem countCs0Error_saf (d : Dev) : (d.countCs0Error).saf = d.saf := rfl
@[simp] theorem countCs0Error_tol (d : Dev) : (d.countCs0Error).tol = d.tol := rfl
@[simp] theorem countCs0Error_lgr (d : Dev) : (d.countCs0Error).lgr = d.lgr := rfl
@[simp] theorem countCs0Error_can0 (d : Dev) : (d.countCs0Error).can0 = d.can0 := rfl
@[simp] theorem countCs0Error_can1 (d : Dev) : (d.countCs0Error).can1 = d.can1 := rfl
@[simp] theorem countCs0Error_wakeDet (d : Dev) : (d.countCs0Error).wakeDet = d.wakeDet := rfl
@[simp] theorem countCs0Error_inh (d : Dev) : (d.countCs0Error).inh = d.inh := rfl
@[simp] theorem countCs0Error_hst (d : Dev) : (d.countCs0Error).hst = d.hst := rfl
@[simp] theorem countCs0Error_evt (d : Dev) : (d.countCs0Error).evt = d.evt := rfl
@[simp] theorem countCs0Error_lif (d : Dev) : (d.countCs0Error).lif = d.lif := rfl
@[simp] theorem countCs0Error_man (d : Dev) : (d.countCs0Error).man = d.man := rfl
@[simp] theorem countCs0Error_free (d : Dev) : (d.countCs0Error).free = d.free := rfl

/-! `framed` -/
@[simp] theorem framed_cmds (d : Dev) : (framed d).cmds = d.cmds := rfl
@[simp] theorem framed_sup (d : Dev) : (framed d).sup = d.sup := rfl
@[simp] theorem framed_sys (d : Dev) : (framed d).sys = d.sys := rfl
@[simp] theorem framed_mode (d : Dev) : (framed d).mode = d.mode := rfl
@[simp] theorem framed_seq (d : Dev) : (framed d).seq = d.seq := rfl
@[simp] theorem framed_coil (d : Dev) : (framed d).coil = d.coil := rfl
@[simp] theorem framed_eng (d : Dev) : (framed d).eng = d.eng := rfl
@[simp] theorem framed_insp (d : Dev) : (framed d).insp = d.insp := rfl
@[simp] theorem framed_chn (d : Dev) : (framed d).chn = d.chn := rfl
@[simp] theorem framed_sen (d : Dev) : (framed d).sen = d.sen := rfl
@[simp] theorem framed_est (d : Dev) : (framed d).est = d.est := rfl
@[simp] theorem framed_lim (d : Dev) : (framed d).lim = d.lim := rfl
@[simp] theorem framed_pwr (d : Dev) : (framed d).pwr = d.pwr := rfl
@[simp] theorem framed_saf (d : Dev) : (framed d).saf = d.saf := rfl
@[simp] theorem framed_tol (d : Dev) : (framed d).tol = d.tol := rfl
@[simp] theorem framed_lgr (d : Dev) : (framed d).lgr = d.lgr := rfl
@[simp] theorem framed_can0 (d : Dev) : (framed d).can0 = d.can0 := rfl
@[simp] theorem framed_can1 (d : Dev) : (framed d).can1 = d.can1 := rfl
@[simp] theorem framed_wakeDet (d : Dev) : (framed d).wakeDet = d.wakeDet := rfl
@[simp] theorem framed_inh (d : Dev) : (framed d).inh = d.inh := rfl
@[simp] theorem framed_hst (d : Dev) : (framed d).hst = { d.hst with frame := d.hst.frame + 1, fetch := none } := rfl
@[simp] theorem framed_evt (d : Dev) : (framed d).evt = d.evt := rfl
@[simp] theorem framed_dep (d : Dev) : (framed d).dep = d.dep := rfl
@[simp] theorem framed_lif (d : Dev) : (framed d).lif = d.lif := rfl
@[simp] theorem framed_man (d : Dev) : (framed d).man = d.man := rfl
@[simp] theorem framed_free (d : Dev) : (framed d).free = d.free := rfl

/-! `answered` -/
@[simp] theorem answered_cmds (d : Dev) (e : BitVec 3) (v : Word) : (answered d e v).cmds = d.cmds := rfl
@[simp] theorem answered_sup (d : Dev) (e : BitVec 3) (v : Word) : (answered d e v).sup = d.sup := rfl
@[simp] theorem answered_sys (d : Dev) (e : BitVec 3) (v : Word) : (answered d e v).sys = d.sys := rfl
@[simp] theorem answered_mode (d : Dev) (e : BitVec 3) (v : Word) : (answered d e v).mode = d.mode := rfl
@[simp] theorem answered_seq (d : Dev) (e : BitVec 3) (v : Word) : (answered d e v).seq = d.seq := rfl
@[simp] theorem answered_coil (d : Dev) (e : BitVec 3) (v : Word) : (answered d e v).coil = d.coil := rfl
@[simp] theorem answered_eng (d : Dev) (e : BitVec 3) (v : Word) : (answered d e v).eng = d.eng := rfl
@[simp] theorem answered_insp (d : Dev) (e : BitVec 3) (v : Word) : (answered d e v).insp = d.insp := rfl
@[simp] theorem answered_chn (d : Dev) (e : BitVec 3) (v : Word) : (answered d e v).chn = d.chn := rfl
@[simp] theorem answered_sen (d : Dev) (e : BitVec 3) (v : Word) : (answered d e v).sen = d.sen := rfl
@[simp] theorem answered_est (d : Dev) (e : BitVec 3) (v : Word) : (answered d e v).est = d.est := rfl
@[simp] theorem answered_lim (d : Dev) (e : BitVec 3) (v : Word) : (answered d e v).lim = d.lim := rfl
@[simp] theorem answered_pwr (d : Dev) (e : BitVec 3) (v : Word) : (answered d e v).pwr = d.pwr := rfl
@[simp] theorem answered_saf (d : Dev) (e : BitVec 3) (v : Word) : (answered d e v).saf = d.saf := rfl
@[simp] theorem answered_tol (d : Dev) (e : BitVec 3) (v : Word) : (answered d e v).tol = d.tol := rfl
@[simp] theorem answered_lgr (d : Dev) (e : BitVec 3) (v : Word) : (answered d e v).lgr = d.lgr := rfl
@[simp] theorem answered_can0 (d : Dev) (e : BitVec 3) (v : Word) : (answered d e v).can0 = d.can0 := rfl
@[simp] theorem answered_can1 (d : Dev) (e : BitVec 3) (v : Word) : (answered d e v).can1 = d.can1 := rfl
@[simp] theorem answered_wakeDet (d : Dev) (e : BitVec 3) (v : Word) : (answered d e v).wakeDet = d.wakeDet := rfl
@[simp] theorem answered_inh (d : Dev) (e : BitVec 3) (v : Word) : (answered d e v).inh = d.inh := rfl
@[simp] theorem answered_evt (d : Dev) (e : BitVec 3) (v : Word) : (answered d e v).evt = d.evt := rfl
@[simp] theorem answered_dep (d : Dev) (e : BitVec 3) (v : Word) : (answered d e v).dep = d.dep := rfl
@[simp] theorem answered_lif (d : Dev) (e : BitVec 3) (v : Word) : (answered d e v).lif = d.lif := rfl
@[simp] theorem answered_man (d : Dev) (e : BitVec 3) (v : Word) : (answered d e v).man = d.man := rfl
@[simp] theorem answered_free (d : Dev) (e : BitVec 3) (v : Word) : (answered d e v).free = d.free := rfl

/-! `pendingOn` -/
@[simp] theorem pendingOn_cmds (d : Dev) (a : Access) (b : Bool) : (pendingOn d a b).cmds = d.cmds := rfl
@[simp] theorem pendingOn_sup (d : Dev) (a : Access) (b : Bool) : (pendingOn d a b).sup = d.sup := rfl
@[simp] theorem pendingOn_sys (d : Dev) (a : Access) (b : Bool) : (pendingOn d a b).sys = d.sys := rfl
@[simp] theorem pendingOn_mode (d : Dev) (a : Access) (b : Bool) : (pendingOn d a b).mode = d.mode := rfl
@[simp] theorem pendingOn_seq (d : Dev) (a : Access) (b : Bool) : (pendingOn d a b).seq = d.seq := rfl
@[simp] theorem pendingOn_coil (d : Dev) (a : Access) (b : Bool) : (pendingOn d a b).coil = d.coil := rfl
@[simp] theorem pendingOn_eng (d : Dev) (a : Access) (b : Bool) : (pendingOn d a b).eng = d.eng := rfl
@[simp] theorem pendingOn_insp (d : Dev) (a : Access) (b : Bool) : (pendingOn d a b).insp = d.insp := rfl
@[simp] theorem pendingOn_chn (d : Dev) (a : Access) (b : Bool) : (pendingOn d a b).chn = d.chn := rfl
@[simp] theorem pendingOn_sen (d : Dev) (a : Access) (b : Bool) : (pendingOn d a b).sen = d.sen := rfl
@[simp] theorem pendingOn_est (d : Dev) (a : Access) (b : Bool) : (pendingOn d a b).est = d.est := rfl
@[simp] theorem pendingOn_lim (d : Dev) (a : Access) (b : Bool) : (pendingOn d a b).lim = d.lim := rfl
@[simp] theorem pendingOn_pwr (d : Dev) (a : Access) (b : Bool) : (pendingOn d a b).pwr = d.pwr := rfl
@[simp] theorem pendingOn_saf (d : Dev) (a : Access) (b : Bool) : (pendingOn d a b).saf = d.saf := rfl
@[simp] theorem pendingOn_tol (d : Dev) (a : Access) (b : Bool) : (pendingOn d a b).tol = d.tol := rfl
@[simp] theorem pendingOn_lgr (d : Dev) (a : Access) (b : Bool) : (pendingOn d a b).lgr = d.lgr := rfl
@[simp] theorem pendingOn_can0 (d : Dev) (a : Access) (b : Bool) : (pendingOn d a b).can0 = d.can0 := rfl
@[simp] theorem pendingOn_can1 (d : Dev) (a : Access) (b : Bool) : (pendingOn d a b).can1 = d.can1 := rfl
@[simp] theorem pendingOn_wakeDet (d : Dev) (a : Access) (b : Bool) : (pendingOn d a b).wakeDet = d.wakeDet := rfl
@[simp] theorem pendingOn_inh (d : Dev) (a : Access) (b : Bool) : (pendingOn d a b).inh = d.inh := rfl
@[simp] theorem pendingOn_evt (d : Dev) (a : Access) (b : Bool) : (pendingOn d a b).evt = d.evt := rfl
@[simp] theorem pendingOn_dep (d : Dev) (a : Access) (b : Bool) : (pendingOn d a b).dep = d.dep := rfl
@[simp] theorem pendingOn_lif (d : Dev) (a : Access) (b : Bool) : (pendingOn d a b).lif = d.lif := rfl
@[simp] theorem pendingOn_man (d : Dev) (a : Access) (b : Bool) : (pendingOn d a b).man = d.man := rfl
@[simp] theorem pendingOn_free (d : Dev) (a : Access) (b : Bool) : (pendingOn d a b).free = d.free := rfl

/-! `accepted` -/
@[simp] theorem accepted_cmds (d : Dev) (tok : Byte) (code : Nat) : (accepted d tok code).cmds = d.cmds := rfl
@[simp] theorem accepted_sup (d : Dev) (tok : Byte) (code : Nat) : (accepted d tok code).sup = d.sup := rfl
@[simp] theorem accepted_sys (d : Dev) (tok : Byte) (code : Nat) : (accepted d tok code).sys = d.sys := rfl
@[simp] theorem accepted_mode (d : Dev) (tok : Byte) (code : Nat) : (accepted d tok code).mode = d.mode := rfl
@[simp] theorem accepted_seq (d : Dev) (tok : Byte) (code : Nat) : (accepted d tok code).seq = d.seq := rfl
@[simp] theorem accepted_coil (d : Dev) (tok : Byte) (code : Nat) : (accepted d tok code).coil = d.coil := rfl
@[simp] theorem accepted_eng (d : Dev) (tok : Byte) (code : Nat) : (accepted d tok code).eng = d.eng := rfl
@[simp] theorem accepted_insp (d : Dev) (tok : Byte) (code : Nat) : (accepted d tok code).insp = d.insp := rfl
@[simp] theorem accepted_chn (d : Dev) (tok : Byte) (code : Nat) : (accepted d tok code).chn = d.chn := rfl
@[simp] theorem accepted_sen (d : Dev) (tok : Byte) (code : Nat) : (accepted d tok code).sen = d.sen := rfl
@[simp] theorem accepted_est (d : Dev) (tok : Byte) (code : Nat) : (accepted d tok code).est = d.est := rfl
@[simp] theorem accepted_lim (d : Dev) (tok : Byte) (code : Nat) : (accepted d tok code).lim = d.lim := rfl
@[simp] theorem accepted_pwr (d : Dev) (tok : Byte) (code : Nat) : (accepted d tok code).pwr = d.pwr := rfl
@[simp] theorem accepted_saf (d : Dev) (tok : Byte) (code : Nat) : (accepted d tok code).saf = d.saf := rfl
@[simp] theorem accepted_tol (d : Dev) (tok : Byte) (code : Nat) : (accepted d tok code).tol = d.tol := rfl
@[simp] theorem accepted_lgr (d : Dev) (tok : Byte) (code : Nat) : (accepted d tok code).lgr = d.lgr := rfl
@[simp] theorem accepted_can0 (d : Dev) (tok : Byte) (code : Nat) : (accepted d tok code).can0 = d.can0 := rfl
@[simp] theorem accepted_can1 (d : Dev) (tok : Byte) (code : Nat) : (accepted d tok code).can1 = d.can1 := rfl
@[simp] theorem accepted_wakeDet (d : Dev) (tok : Byte) (code : Nat) : (accepted d tok code).wakeDet = d.wakeDet := rfl
@[simp] theorem accepted_inh (d : Dev) (tok : Byte) (code : Nat) : (accepted d tok code).inh = d.inh := rfl
@[simp] theorem accepted_evt (d : Dev) (tok : Byte) (code : Nat) : (accepted d tok code).evt = d.evt := rfl
@[simp] theorem accepted_dep (d : Dev) (tok : Byte) (code : Nat) : (accepted d tok code).dep = d.dep := rfl
@[simp] theorem accepted_lif (d : Dev) (tok : Byte) (code : Nat) : (accepted d tok code).lif = d.lif := rfl
@[simp] theorem accepted_man (d : Dev) (tok : Byte) (code : Nat) : (accepted d tok code).man = d.man := rfl
@[simp] theorem accepted_free (d : Dev) (tok : Byte) (code : Nat) : (accepted d tok code).free = d.free := rfl

/-! `executed` -/
@[simp] theorem executed_sup (d : Dev) (r : CmdReg) (tok : Byte) (v : Nat) : (executed d r tok v).sup = d.sup := rfl
@[simp] theorem executed_sys (d : Dev) (r : CmdReg) (tok : Byte) (v : Nat) : (executed d r tok v).sys = d.sys := rfl
@[simp] theorem executed_mode (d : Dev) (r : CmdReg) (tok : Byte) (v : Nat) : (executed d r tok v).mode = d.mode := rfl
@[simp] theorem executed_seq (d : Dev) (r : CmdReg) (tok : Byte) (v : Nat) : (executed d r tok v).seq = d.seq := rfl
@[simp] theorem executed_coil (d : Dev) (r : CmdReg) (tok : Byte) (v : Nat) : (executed d r tok v).coil = d.coil := rfl
@[simp] theorem executed_eng (d : Dev) (r : CmdReg) (tok : Byte) (v : Nat) : (executed d r tok v).eng = d.eng := rfl
@[simp] theorem executed_insp (d : Dev) (r : CmdReg) (tok : Byte) (v : Nat) : (executed d r tok v).insp = d.insp := rfl
@[simp] theorem executed_chn (d : Dev) (r : CmdReg) (tok : Byte) (v : Nat) : (executed d r tok v).chn = d.chn := rfl
@[simp] theorem executed_sen (d : Dev) (r : CmdReg) (tok : Byte) (v : Nat) : (executed d r tok v).sen = d.sen := rfl
@[simp] theorem executed_est (d : Dev) (r : CmdReg) (tok : Byte) (v : Nat) : (executed d r tok v).est = d.est := rfl
@[simp] theorem executed_lim (d : Dev) (r : CmdReg) (tok : Byte) (v : Nat) : (executed d r tok v).lim = d.lim := rfl
@[simp] theorem executed_pwr (d : Dev) (r : CmdReg) (tok : Byte) (v : Nat) : (executed d r tok v).pwr = d.pwr := rfl
@[simp] theorem executed_saf (d : Dev) (r : CmdReg) (tok : Byte) (v : Nat) : (executed d r tok v).saf = d.saf := rfl
@[simp] theorem executed_tol (d : Dev) (r : CmdReg) (tok : Byte) (v : Nat) : (executed d r tok v).tol = d.tol := rfl
@[simp] theorem executed_lgr (d : Dev) (r : CmdReg) (tok : Byte) (v : Nat) : (executed d r tok v).lgr = d.lgr := rfl
@[simp] theorem executed_can0 (d : Dev) (r : CmdReg) (tok : Byte) (v : Nat) : (executed d r tok v).can0 = d.can0 := rfl
@[simp] theorem executed_can1 (d : Dev) (r : CmdReg) (tok : Byte) (v : Nat) : (executed d r tok v).can1 = d.can1 := rfl
@[simp] theorem executed_wakeDet (d : Dev) (r : CmdReg) (tok : Byte) (v : Nat) : (executed d r tok v).wakeDet = d.wakeDet := rfl
@[simp] theorem executed_inh (d : Dev) (r : CmdReg) (tok : Byte) (v : Nat) : (executed d r tok v).inh = d.inh := rfl
@[simp] theorem executed_hst (d : Dev) (r : CmdReg) (tok : Byte) (v : Nat) : (executed d r tok v).hst = d.hst := rfl
@[simp] theorem executed_evt (d : Dev) (r : CmdReg) (tok : Byte) (v : Nat) : (executed d r tok v).evt = d.evt := rfl
@[simp] theorem executed_dep (d : Dev) (r : CmdReg) (tok : Byte) (v : Nat) : (executed d r tok v).dep = d.dep := rfl
@[simp] theorem executed_lif (d : Dev) (r : CmdReg) (tok : Byte) (v : Nat) : (executed d r tok v).lif = d.lif := rfl
@[simp] theorem executed_man (d : Dev) (r : CmdReg) (tok : Byte) (v : Nat) : (executed d r tok v).man = d.man := rfl
@[simp] theorem executed_free (d : Dev) (r : CmdReg) (tok : Byte) (v : Nat) : (executed d r tok v).free = d.free := rfl

/-! `finish` -/
@[simp] theorem finish_sup (d : Dev) (r : CmdReg) (tok : Byte) (v : Option Nat) : (d.finish r tok v).sup = d.sup := by cases v <;> rfl
@[simp] theorem finish_sys (d : Dev) (r : CmdReg) (tok : Byte) (v : Option Nat) : (d.finish r tok v).sys = d.sys := by cases v <;> rfl
@[simp] theorem finish_mode (d : Dev) (r : CmdReg) (tok : Byte) (v : Option Nat) : (d.finish r tok v).mode = d.mode := by cases v <;> rfl
@[simp] theorem finish_seq (d : Dev) (r : CmdReg) (tok : Byte) (v : Option Nat) : (d.finish r tok v).seq = d.seq := by cases v <;> rfl
@[simp] theorem finish_coil (d : Dev) (r : CmdReg) (tok : Byte) (v : Option Nat) : (d.finish r tok v).coil = d.coil := by cases v <;> rfl
@[simp] theorem finish_eng (d : Dev) (r : CmdReg) (tok : Byte) (v : Option Nat) : (d.finish r tok v).eng = d.eng := by cases v <;> rfl
@[simp] theorem finish_insp (d : Dev) (r : CmdReg) (tok : Byte) (v : Option Nat) : (d.finish r tok v).insp = d.insp := by cases v <;> rfl
@[simp] theorem finish_chn (d : Dev) (r : CmdReg) (tok : Byte) (v : Option Nat) : (d.finish r tok v).chn = d.chn := by cases v <;> rfl
@[simp] theorem finish_sen (d : Dev) (r : CmdReg) (tok : Byte) (v : Option Nat) : (d.finish r tok v).sen = d.sen := by cases v <;> rfl
@[simp] theorem finish_est (d : Dev) (r : CmdReg) (tok : Byte) (v : Option Nat) : (d.finish r tok v).est = d.est := by cases v <;> rfl
@[simp] theorem finish_lim (d : Dev) (r : CmdReg) (tok : Byte) (v : Option Nat) : (d.finish r tok v).lim = d.lim := by cases v <;> rfl
@[simp] theorem finish_pwr (d : Dev) (r : CmdReg) (tok : Byte) (v : Option Nat) : (d.finish r tok v).pwr = d.pwr := by cases v <;> rfl
@[simp] theorem finish_saf (d : Dev) (r : CmdReg) (tok : Byte) (v : Option Nat) : (d.finish r tok v).saf = d.saf := by cases v <;> rfl
@[simp] theorem finish_tol (d : Dev) (r : CmdReg) (tok : Byte) (v : Option Nat) : (d.finish r tok v).tol = d.tol := by cases v <;> rfl
@[simp] theorem finish_lgr (d : Dev) (r : CmdReg) (tok : Byte) (v : Option Nat) : (d.finish r tok v).lgr = d.lgr := by cases v <;> rfl
@[simp] theorem finish_can0 (d : Dev) (r : CmdReg) (tok : Byte) (v : Option Nat) : (d.finish r tok v).can0 = d.can0 := by cases v <;> rfl
@[simp] theorem finish_can1 (d : Dev) (r : CmdReg) (tok : Byte) (v : Option Nat) : (d.finish r tok v).can1 = d.can1 := by cases v <;> rfl
@[simp] theorem finish_wakeDet (d : Dev) (r : CmdReg) (tok : Byte) (v : Option Nat) : (d.finish r tok v).wakeDet = d.wakeDet := by cases v <;> rfl
@[simp] theorem finish_inh (d : Dev) (r : CmdReg) (tok : Byte) (v : Option Nat) : (d.finish r tok v).inh = d.inh := by cases v <;> rfl
@[simp] theorem finish_hst (d : Dev) (r : CmdReg) (tok : Byte) (v : Option Nat) : (d.finish r tok v).hst = d.hst := by cases v <;> rfl
@[simp] theorem finish_evt (d : Dev) (r : CmdReg) (tok : Byte) (v : Option Nat) : (d.finish r tok v).evt = d.evt := by cases v <;> rfl
@[simp] theorem finish_dep (d : Dev) (r : CmdReg) (tok : Byte) (v : Option Nat) : (d.finish r tok v).dep = d.dep := by cases v <;> rfl
@[simp] theorem finish_lif (d : Dev) (r : CmdReg) (tok : Byte) (v : Option Nat) : (d.finish r tok v).lif = d.lif := by cases v <;> rfl
@[simp] theorem finish_man (d : Dev) (r : CmdReg) (tok : Byte) (v : Option Nat) : (d.finish r tok v).man = d.man := by cases v <;> rfl
@[simp] theorem finish_free (d : Dev) (r : CmdReg) (tok : Byte) (v : Option Nat) : (d.finish r tok v).free = d.free := by cases v <;> rfl

/-! `setCan` -/
@[simp] theorem setCan_cmds (d : Dev) (ch : Ch) (c : Can) : (d.setCan ch c).cmds = d.cmds := by cases ch <;> rfl
@[simp] theorem setCan_sup (d : Dev) (ch : Ch) (c : Can) : (d.setCan ch c).sup = d.sup := by cases ch <;> rfl
@[simp] theorem setCan_sys (d : Dev) (ch : Ch) (c : Can) : (d.setCan ch c).sys = d.sys := by cases ch <;> rfl
@[simp] theorem setCan_mode (d : Dev) (ch : Ch) (c : Can) : (d.setCan ch c).mode = d.mode := by cases ch <;> rfl
@[simp] theorem setCan_seq (d : Dev) (ch : Ch) (c : Can) : (d.setCan ch c).seq = d.seq := by cases ch <;> rfl
@[simp] theorem setCan_coil (d : Dev) (ch : Ch) (c : Can) : (d.setCan ch c).coil = d.coil := by cases ch <;> rfl
@[simp] theorem setCan_eng (d : Dev) (ch : Ch) (c : Can) : (d.setCan ch c).eng = d.eng := by cases ch <;> rfl
@[simp] theorem setCan_insp (d : Dev) (ch : Ch) (c : Can) : (d.setCan ch c).insp = d.insp := by cases ch <;> rfl
@[simp] theorem setCan_chn (d : Dev) (ch : Ch) (c : Can) : (d.setCan ch c).chn = d.chn := by cases ch <;> rfl
@[simp] theorem setCan_sen (d : Dev) (ch : Ch) (c : Can) : (d.setCan ch c).sen = d.sen := by cases ch <;> rfl
@[simp] theorem setCan_est (d : Dev) (ch : Ch) (c : Can) : (d.setCan ch c).est = d.est := by cases ch <;> rfl
@[simp] theorem setCan_lim (d : Dev) (ch : Ch) (c : Can) : (d.setCan ch c).lim = d.lim := by cases ch <;> rfl
@[simp] theorem setCan_pwr (d : Dev) (ch : Ch) (c : Can) : (d.setCan ch c).pwr = d.pwr := by cases ch <;> rfl
@[simp] theorem setCan_saf (d : Dev) (ch : Ch) (c : Can) : (d.setCan ch c).saf = d.saf := by cases ch <;> rfl
@[simp] theorem setCan_tol (d : Dev) (ch : Ch) (c : Can) : (d.setCan ch c).tol = d.tol := by cases ch <;> rfl
@[simp] theorem setCan_lgr (d : Dev) (ch : Ch) (c : Can) : (d.setCan ch c).lgr = d.lgr := by cases ch <;> rfl
@[simp] theorem setCan_wakeDet (d : Dev) (ch : Ch) (c : Can) : (d.setCan ch c).wakeDet = d.wakeDet := by cases ch <;> rfl
@[simp] theorem setCan_inh (d : Dev) (ch : Ch) (c : Can) : (d.setCan ch c).inh = d.inh := by cases ch <;> rfl
@[simp] theorem setCan_hst (d : Dev) (ch : Ch) (c : Can) : (d.setCan ch c).hst = d.hst := by cases ch <;> rfl
@[simp] theorem setCan_evt (d : Dev) (ch : Ch) (c : Can) : (d.setCan ch c).evt = d.evt := by cases ch <;> rfl
@[simp] theorem setCan_dep (d : Dev) (ch : Ch) (c : Can) : (d.setCan ch c).dep = d.dep := by cases ch <;> rfl
@[simp] theorem setCan_lif (d : Dev) (ch : Ch) (c : Can) : (d.setCan ch c).lif = d.lif := by cases ch <;> rfl
@[simp] theorem setCan_man (d : Dev) (ch : Ch) (c : Can) : (d.setCan ch c).man = d.man := by cases ch <;> rfl
@[simp] theorem setCan_free (d : Dev) (ch : Ch) (c : Can) : (d.setCan ch c).free = d.free := by cases ch <;> rfl

end Sys2Proof.Laws
end

