-- ==== Sys2Proof/Machine/Pins.lean ====
section
/-! DEFINITION. What the pins and rails show (R115, R116, R140, R287, R288, R363, R455, R470, R475, R492, R537 to R542): functions of
the state, which no command reads. The group of a pin is a row of R538's table. -/
namespace Sys2Proof.Machine

/-- The four conditions of the pin tables. Muster counts as Run, each block from its own step onward (R540). -/
inductive Condition where
  | unpowered | reset | watch | run
deriving DecidableEq, Repr

/-- The condition of the device. -/
def Dev.condition (d : Dev) : Condition :=
  if !d.sup.powered then .unpowered
  else if d.sup.inReset then .reset
  else if d.mode.mode = Mode.watch then .watch
  else .run

/-- The state codes of R538. -/
inductive PinState where
  | z | pd | lp | pu | low | high | input | fn | recessive
deriving DecidableEq, Repr

/-- The rows of R538's table. -/
inductive PinGroup where
  | gateHigh | gateLow | gd | dd | coilSense | currentSense | chargePump | drvEn | tach | pumpInputs | gtst | safe
  | guardInputs | sealInputs | meterOutputs | mdat | ain | ntc | evo | canBus | inh | crystal32 | crystal | clkout | rstn
  | wake | ready | openDrains | test | spiInputs | sdo | ipck | ipdio | depot | gpio
deriving DecidableEq, Repr

/-- GD works while VCOILS is at least 12 V (R288). -/
def Dev.gdState (d : Dev) : PinState := if 12000 ≤ d.pwr.rail then .fn else .pd

/-- The state of a row while the device is unpowered. -/
def Dev.unpoweredPin (d : Dev) : PinGroup → PinState
  | .gateHigh | .gateLow => .pd
  | .gd => d.gdState
  | .dd => .fn
  | .sealInputs => if d.vaoUp then .input else .z
  | .crystal32 => if d.vaoUp then .fn else .z
  | .canBus => .recessive
  | .drvEn | .pumpInputs | .gtst | .safe | .meterOutputs | .clkout | .ready | .test | .ipck | .gpio => .lp
  | .coilSense | .currentSense | .chargePump | .tach | .guardInputs | .mdat | .ain | .ntc | .evo | .inh | .crystal
  | .rstn | .wake | .openDrains | .spiInputs | .sdo | .ipdio | .depot => .z

/-- The state of a row in reset. -/
def Dev.resetPin (d : Dev) : PinGroup → PinState
  | .gateHigh | .gateLow => .pd
  | .gd => d.gdState
  | .dd | .crystal32 => .fn
  | .sealInputs | .test => .input
  | .canBus => .recessive
  | .rstn | .gtst | .safe | .meterOutputs | .clkout | .ready => .low
  | .drvEn | .pumpInputs | .ipck | .gpio => .lp
  | .ipdio => .pu
  | .coilSense | .currentSense | .chargePump | .tach | .guardInputs | .mdat | .ain | .ntc | .evo | .inh | .crystal
  | .wake | .openDrains | .spiInputs | .sdo | .depot => .z

/-- The state of a row in Watch. A sweep is one command of the model: between two of them the Evore ports are Z. -/
def Dev.watchPin (d : Dev) : PinGroup → PinState
  | .gateHigh | .gateLow => .pd
  | .gd => d.gdState
  | .dd | .crystal32 | .openDrains | .sdo => .fn
  | .sealInputs | .guardInputs | .wake | .spiInputs => .input
  | .canBus => .recessive
  | .clkout => if field d.sup.clkcfg 0 2 = 1 then .fn else .low
  | .gtst | .safe | .meterOutputs | .ready => .low
  | .drvEn | .pumpInputs | .test | .ipck | .gpio => .lp
  | .rstn | .ipdio => .pu
  | .coilSense | .currentSense | .chargePump | .tach | .mdat | .ain | .ntc | .evo | .inh | .crystal | .depot => .z

/-- The block of a row has started: the steps of R540, and for the blocks it does not list the domain or clock that runs
them.
DEDUCED: notes/assumptions/68.md. -/
def Dev.started (d : Dev) : PinGroup → Bool
  | .inh => d.inh
  | .meterOutputs | .mdat | .ain | .ntc => d.inRun || decide (10 ≤ d.sys.step)
  | .gateHigh | .gateLow | .coilSense | .currentSense | .chargePump | .drvEn | .tach | .pumpInputs =>
    d.inRun || decide (11 ≤ d.sys.step)
  | .gtst | .safe => d.inRun || decide (12 ≤ d.sys.step)
  | .evo => d.inRun || decide (13 ≤ d.sys.step)
  | .ready => d.inRun
  | .canBus => d.sup.doms.can
  | .spiInputs | .sdo | .openDrains => d.sup.doms.per
  | .crystal => d.sup.mainOsc
  | .ipck | .ipdio => d.sup.doms.eng
  | .depot => d.sup.doms.dep
  | .gd | .dd | .guardInputs | .sealInputs | .crystal32 | .clkout | .rstn | .wake | .test | .gpio => true

/-- The state of a row in Run. -/
def Dev.runPin (d : Dev) : PinGroup → PinState
  | .gd => d.gdState
  | .currentSense | .drvEn | .tach | .guardInputs | .sealInputs | .mdat | .ain | .ntc | .spiInputs | .ipck => .input
  | .pumpInputs => if bit d.pwr.pumpcfg 23 then .input else .lp
  | .inh | .ready => .high
  | .rstn => .pu
  | .wake => .z
  | .test | .gpio => .lp
  | .gateHigh | .gateLow | .dd | .coilSense | .chargePump | .gtst | .safe | .meterOutputs | .evo | .canBus | .crystal32
  | .crystal | .clkout | .openDrains | .sdo | .ipdio | .depot => .fn

/-- The state of every signal pin (R538, R540). -/
def Dev.pinState (d : Dev) (g : PinGroup) : PinState :=
  match d.condition with
  | .unpowered => d.unpoweredPin g
  | .reset => d.resetPin g
  | .watch => d.watchPin g
  | .run => if d.started g then d.runPin g else d.resetPin g

/-- The depot lines while the domain is stopped in Run: OCK low, OCS0N and OCS1N high, the data lines Z (R538). -/
def Dev.depotLines (d : Dev) : PinState × PinState × PinState :=
  match d.condition with
  | .run =>
    if d.sup.doms.dep then (.fn, .fn, .fn)
    else if d.inRun then (.low, .high, .z)
    else (.z, .z, .z)
  | _ => (.z, .z, .z)

/-! ### Output levels -/

/-- READY: high in Run alone, low in reset, in Watch, during muster and while it is stopped (R138, R140). -/
def Dev.readyPin (d : Dev) : Bool := decide (d.condition = .run) && d.inRun

/-- IRQN is pulled low: an unmasked event (R492), in Watch as it was at Watch entry (R538). -/
def Dev.irqPinLow (d : Dev) : Bool :=
  match d.condition with
  | .unpowered | .reset => false
  | .watch => d.evt.irqWatch
  | .run => d.irq

/-- FLT_N is pulled low (R138, R363); in Watch it follows the safety latch. -/
def Dev.fltPinLow (d : Dev) : Bool :=
  match d.condition with
  | .unpowered | .reset => false
  | _ => d.fltLow

/-- SAFEA and SAFEB, `us` µs after SAFEA's half of a period has begun (R358, R359): while permission is granted 500 µs
each, the first of them with both low; both low while it is withdrawn. -/
def Dev.safePins (d : Dev) (us : Nat) : Bool × Bool :=
  let p := us % 1000
  if d.condition = .run ∧ d.saf.granted = true then (decide (1 ≤ p ∧ p < 500), decide (501 ≤ p)) else (false, false)

/-- GTSTx is high (R356). -/
def Dev.gtstPin (d : Dev) (g : Fin 4) : Bool := decide (d.condition = .run) && d.saf.gtst.getLsbD g.val

/-- IPDIO over the 35 bits of a response: ack, data and CRC-8; held high by its pull-up where the port does not answer
(R115, R116). -/
def Dev.ipdioBits (d : Dev) : BitVec 35 :=
  match d.insp.resp with
  | some r => r.1 ++ r.2.1 ++ r.2.2
  | none => BitVec.allOnes 35

/-- The status word of the response that the next frame carries, as the falling edge of CSN loads it (R474, R475). -/
def Dev.statusWord (d : Dev) : BitVec 16 :=
  let r := d.hst.resp
  BitVec.ofNat 16 (place r.seq.toNat 12 + place r.err.toNat 9 + flag r.busy 8 + place r.abort.toNat 6 +
    flag d.irqPinLow 5 + flag (!d.evt.queue.isEmpty) 4 + place d.mode.mode.code 2 + flag (decide (d.cfgInc ≠ 0)) 1 +
    flag d.saf.latch 0)

/-- SDO is at high impedance while CSN is high (R470). -/
def Dev.sdoPin (d : Dev) (csnHigh : Bool) : PinState := if csnHigh then .z else d.pinState .sdo

/-- SDO over the 48 bits of a frame: status, data and the CRC-8 of both (R470, R471). -/
def Dev.sdoFrame (d : Dev) : BitVec 48 :=
  let status := d.statusWord
  let data := d.hst.resp.data
  status ++ data ++ crc8 (be 2 status.toNat ++ be 3 data.toNat)

/-- The bit on SDO after `n` edges of a frame: the response loaded at the falling edge of CSN, the first bit first, and
0 after its 48th bit until CSN rises (R470, R472). -/
def Dev.sdoBit (d : Dev) (n : Nat) : Bool := if n < 48 then d.sdoFrame.getLsbD (47 - n) else false

/-! ### Rails (R539) -/

/-- The generated rails in mV. -/
structure Rails where
  vao : Nat
  vcc5 : Nat
  vddio : Nat
  vdda : Nat
  vcore : Nat
  vdrv : Nat
deriving DecidableEq, Repr

/-- The level of every generated rail; VDDA stands for VREF as well. In Watch VDDIO is low-power and VCORE at its
retention level, between sweeps. -/
def Dev.rails (d : Dev) : Rails :=
  match d.condition with
  | .unpowered => { vao := if d.vaoUp then 1800 else 0, vcc5 := 0, vddio := 0, vdda := 0, vcore := 0, vdrv := 0 }
  | .watch => { vao := 1800, vcc5 := 0, vddio := 3300, vdda := 0, vcore := 800, vdrv := 0 }
  | .reset | .run => { vao := 1800, vcc5 := 5000, vddio := 3300, vdda := 3300, vcore := 1100, vdrv := 11000 }

/-- VCP above VCOILS in mV: the charge pump runs from step 11 onward and in Run (R287, R539, R540). -/
def Dev.vcpAbove (d : Dev) : Int :=
  if d.condition = .run ∧ d.started .chargePump then 11000 else -600

end Sys2Proof.Machine
end

