-- ==== Sys2Proof/WellFormed.lean ====
section
/-! DEFINITION. Which commands are well formed: the checks on operands that their types do not make. A command that is
not still has a meaning; what the environment can show is well formed. -/
namespace Sys2Proof

/-- A CAN frame: an 11-bit identifier in the standard format, no remote frame in the FD format, no bit rate switch
outside it, and the payload of its DLC (R435). -/
def CanFrame.wellFormed (f : CanFrame) : Bool :=
  (f.ide || decide (f.id.toNat < 2048)) && !(f.rtr && f.fdf) && (f.fdf || !f.brs) &&
    decide (f.data.length = if f.rtr then 0 else Machine.dlcLength f.fdf f.dlc)

/-- A chain frame holds at most 15 data words (R164). -/
def ChainFrame.wellFormed (f : ChainFrame) : Bool := decide (f.words.length ≤ 15)

/-- A chain request holds at most 15 data words, and is addressed to all stages or to one of 32 (R164, R166). -/
def ChainRequest.wellFormed (r : ChainRequest) : Bool := decide (r.words.length ≤ 15) && decide (r.addr.toNat ≤ 32)

/-- A stage has 1 to 18 cells (R168). -/
def StageId.wellFormed (x : StageId) : Bool := decide (1 ≤ x.cells.toNat) && decide (x.cells.toNat ≤ 18)

/-- A certificate of 144 bytes where one was read, and a signature of 64 (R185). -/
def AuthReply.wellFormed (r : AuthReply) : Bool :=
  (r.cert.isEmpty || decide (r.cert.length = 144)) && (match r.sig with | some s => decide (s.length = 64) | none => true)

/-- 18 voltages that fit their 24 bits, and 8 temperatures (R184). -/
def SnapReading.wellFormed (r : SnapReading) : Bool :=
  decide (r.cells.length = 18) && decide (r.temps.length = 8) && r.cells.all fun v => decide (v < 2 ^ 24)

/-- The snaps of several stages. -/
def snapsOk (snaps : List SnapReading) : Bool := snaps.all SnapReading.wellFormed

/-- What a start sees: at most 32 stages in all, their snaps and replies. -/
def MusterInputs.wellFormed (m : MusterInputs) : Bool :=
  decide (m.fromA.length + m.fromB.length ≤ 32) && (m.fromA ++ m.fromB).all StageId.wellFormed && snapsOk m.snaps &&
    m.auth.all fun x => x.2.wellFormed

/-- A task that runs again leaves as many words as before (R107, R109), and a stream of class S is never a Split one
(R103). -/
def TaskResult.wellFormed (r : TaskResult) : Bool :=
  (r.rerun.isEmpty || decide (r.rerun.length = r.words.length)) && !(r.second && decide (r.cls = Cls.s))

/-- The tasks of a frame. -/
def FrameInputs.wellFormed (f : FrameInputs) : Bool := f.results.all TaskResult.wellFormed

/-- STATUS is opcode 1; an undefined opcode, 0 or 10 to 15, is answered on its row (R116). -/
def statusOp (op : BitVec 4) : Bool := decide (op.toNat ≤ 1) || decide (10 ≤ op.toNat)

/-- Ones densities of six bit streams (R205). -/
def densitiesOk (density : Vector Rat 6) : Bool := density.all fun x => decide (0 ≤ x ∧ x ≤ 1)

/-- The stages that a ring probe finds. -/
def ProbeResult.wellFormed (r : ProbeResult) : Bool :=
  (r.nextA.toList ++ r.nextB.toList).all StageId.wellFormed && r.identities.all fun x => x.2.wellFormed

/-- The two ends of a broken ring: addresses 0 to 32, the far one above the near one unless none is reached (R178). -/
def ringOk (lastA firstB : BitVec 6) : Bool :=
  decide (lastA.toNat ≤ 32) && decide (firstB.toNat ≤ 32) && (decide (firstB = 0) || decide (lastA.toNat < firstB.toNat))

/-- The checks of every command. -/
def Instr.wellFormed : Instr → Bool
  | .powerGood m => m.wellFormed
  | .pinReset m => m.wellFormed
  | .retentionLoss m => m.wellFormed
  | .powerFailRecovery m => m.wellFormed
  | .mainClockFailure m => m.wellFormed
  | .resetCmd _ m => m.wellFormed
  | .watchSweep snaps => snapsOk snaps
  | .wake _ m => m.wellFormed
  | .call f m => f.wellFormed && m.wellFormed
  | .engineFrame f => f.wellFormed
  | .ipStep _ f => f.wellFormed
  | .ipStatus op _ => statusOp op
  | .frameWatchdogTrip m => m.wellFormed
  | .chainTransactionStart req => req.wellFormed
  | .chainResponse _ f => f.wellFormed
  | .ringBreak lastA firstB => ringOk lastA firstB
  | .ringProbe r => r.wellFormed
  | .sampleSet density _ => densitiesOk density
  | .authentication _ r => r.wellFormed
  | .tachEdge period => decide (0 < period)
  | .rwsWrite addr _ => decide (0x192 ≤ addr.toNat) && decide (addr.toNat ≤ 0x198)
  | .canFrameReceived _ f => f.wellFormed
  | .unknownCommand reg _ code => !Machine.codeDefined reg code.toNat
  | .watermarkConfigWrite addr _ => Machine.watermarkConfigs.contains addr.toNat
  | .watermarkClear addr _ => Machine.watermarkRegisters.contains addr.toNat
  | .brownOut | .aoSourceHandover _ | .backupCellLow _ | .powerFailWarning | .finalCommitComplete | .pfWarnClear
  | .energyShadowWrite | .finalShadowWrite | .crystalFailover | .crystalReturn | .rtcCorrection _ | .alarm
  | .setTime _ | .armAlarm _ | .disarm _ | .domainStarted _ | .domainStop _ | .watch _ | .watchEntryComplete
  | .benchEnter _ | .benchExit _ | .lockAck _ | .closeCmd _ | .openCmd _ | .holdCmd _ | .releaseCmd _
  | .tHoldExpiry | .coilCurrentSample _ _ | .closingTimeout _ | .pullInEnd _ | .bounceWindowEnd _
  | .k3ReleaseDelay | .prechargeRetryWindowEnd | .tGraceExpiry | .releaseHighSideTimeout _
  | .releaseVerdictTimeout _ | .liveSwitchProof _ _ | .feedbackCheck _ | .feedbackCheckEnd _ | .openLoopExpiry _
  | .feedbackRestored _ | .rappUpdate _ | .pwrKnew _ | .classCPeriod | .seam | .injectionTest _ _
  | .engModecfgWrite _ | .halt _ | .engineHalt | .ipResume _ | .ipRead _ _ | .leadViewCapture
  | .ipWrite _ _ _ | .traceCtl _ _ | .tracePop _ | .replayStat _ | .ipDisable _ | .engClrDisagree | .engClrLoad
  | .engClrEcc | .engClrOdd | .engClrMismatch | .snap | .crossingClear _ _ | .chainAttemptFailed _
  | .notReadyRepeat _ | .stageStale _ | .balanceRefresh _ | .chnRetrycfgWrite _ _ | .chnClrLoss | .chnClrRetry
  | .chnClrErr | .chnClrPeak | .inputLost _ | .inputActiveAgain _ | .inputFrozen _
  | .inputUnfrozen _ | .sarConversion _ | .settlingEnd | .senCfgWrite _ | .senClrCnt | .restFusion | .burstEnd
  | .stepFitted | .confidenceDecay _ | .stepRequestMissed | .authTimeout _ | .authPeriodic _ | .authNow _ | .stepNow _
  | .estClrStep | .estClrFit | .faultClr _ | .limClrUl | .safetyLatchSet _ _ | .softTurnOffStep2
  | .protectionTrip _ _ | .dumpOn | .dumpOff | .dumpTimeout | .dumpRearm | .dumpSwitchFault
  | .offStateDiagnostics _ | .diagPhaseEnd _ | .comparatorSelfTest _ | .autoDiagnostics | .pwrClr _ | .ctst _
  | .diag _ | .drvEnFall | .drvEnRise _ | .extPwmEdge _ | .extPwmRevoke | .extRevokedClear | .tachLost _
  | .tachRecovered | .pumpCycleLimit _ | .switchEdgeMeasured _ _ _ | .pwrCntclr | .guardChannelChange _ _
  | .guardDiscrepancy _ | .gtest _ _ | .guardTestVerdict _ _ _ | .guardRetest _ | .permissionRefreshMissed
  | .safClrCnt | .sessionOpen _ | .sessionClose _ | .tolResume _ | .snapshot _ | .calOpen _ | .calClose _
  | .interimRecordDue | .meterStopEnd | .impulse | .enclosureChange _ _ | .tolTagWrite _ _ | .recordSigned
  | .ledgerCommit | .ledgerCommitEnd _ _ | .commitRetry | .ack _ | .recordCheck | .arbitration _ _
  | .txAttemptEnd _ _ | .canErrorFrame _ | .hostMessageTimeout _ | .timetableEntryDue _ _ | .statusFrameDue
  | .stepReqFrameDue | .busOff _ | .busOffRecovered _ | .txQueue _ _ | .txCancel _ _ | .rxPop _ _ | .ttLoad _ _
  | .boRecover _ _ | .canCntClr _ _ | .rxdatRead _ | .txdatWrite _ _ | .pubcfgWrite _ _
  | .canRetryConfigWrite _ _ _ | .nop | .abort | .badFrame _ _ | .accessComplete | .registerWrite _ _
  | .registerRead _ | .winSelWrite _ | .windowAccessInc _ _ | .manifestWindowWrite _ | .pop _ | .hstCntClr _
  | .eventLogWrite | .lifetimeFlushDue | .depotTransactionStart | .depotTransactionEnd _ | .manErase _
  | .manSwitch _ | .logUnpin _ | .lifFlush _ | .depCfgWrite _ | .depClrErr | .depClrShed | .clrK _ | .clrPump _
  | .backupCellReplaced _ => true

end Sys2Proof
end

