-- ==== Sys2Proof/Tests/Slice0.lean ====
section
/-! SUPPORT. The model's own tests: for each statement a witness that meets its hypotheses, for each check of WellFormed a
term that it refuses, and the spec's check values and worked cases. -/
open Sys2Proof Sys2Proof.Machine Sys2Proof.Safety
namespace Sys2Proof.Tests

/-! ### The states that the tests start from -/

/-- A manifest of one stage of 18 cells, with a guard 0 of two channels and a test switch. -/
def man1 : Manifest := { (default : Manifest) with
  stageCount := 1, cellCounts := [18], capacity := 100, guardKind := 0b101, railRef := 12000
  th := {
    vMax := 4200000, vHigh1 := 4250000, vHigh2 := 4300000, vMin := 2800000, vLow1 := 2700000, vLow2 := 2500000
    tHigh1 := 5500, tHigh2 := 6000, tLow1 := -2000, tLow2 := -3000, ntcHigh1 := 800, ntcHigh2 := 900 } }

/-- Supplied, with every clock domain running and the time valid. -/
def up : Dev := { sup := {
  doms := ⟨true, true, true, true, true, true⟩, pllA := true, pllB := true, mainOsc := true, timeValid := true } }

/-- In Run and Normal, the drover OPEN, one stage present. -/
def run : Dev := { up with
  mode := { mode := .run }, man := some man1, pwr := { drvEn := true }
  chn := { running := true, intact := true, stages := (Vector.replicate 32 {}).set 0 { present := true, id := some ⟨1, 18⟩ } }
  saf := { kindsLoaded := true, gkind := 0b101 } }

/-- In Run, the drover in another state. -/
def inState (x : Drover) : Dev := { run with seq := { drover := x } }

/-- In Bench, the drover OPEN. -/
def bench : Dev := { run with mode := { mode := .run, bench := true } }

/-- In Watch. -/
def watching : Dev := { up with mode := { mode := .watch, wakecfg := 0x0001FD }, man := some man1 }

/-- A coil channel as given. -/
def withCoil (d : Dev) (k : K) (c : Coil) : Dev := { d with coil := upd d.coil k c }

/-- With no command waiting. -/
def here (d : Dev) : State := { dev := d, pending := [] }

/-- An access that pends. -/
def pendingRead (a : Addr) : Dev := { up with hst := { access := some (.read a) } }

/-- A device meets what a clause assumes of it. -/
abbrev meets (d : Dev) (p : Dev → Prop) : Prop := p d

/-- A coil channel meets what a clause assumes of it, in the device that has it as channel `k`. -/
abbrev meetsCoil (d : Dev) (k : K) (c : Coil) (p : Dev → Coil → Prop) : Prop :=
  p (withCoil d k c) ((withCoil d k c).coil.get k)

/-! ### States that meet the hypotheses of each statement, clause by clause -/

theorem witness_StepRunsFrontCommand : step { dev := up, pending := [.nop] } = exec .nop (here up) := rfl

theorem witness_TimeAndAlarm_idle :
    meets { up with sys := { todo := some default } } (fun d => d.alive = true ∧ d.stopped = false ∧
      d.powerFailing = false ∧ d.sys.todo = some default) ∧
    up.sys.todo = none := by decide

theorem witness_DepotStaysCanonical : depotCanonical (here up) ∧
    depotCanonical (here { up with dep := { cs0 := [(3, 7)], cs1 := [(0, 1), (4096, 0)] } }) := by
  unfold depotCanonical; decide

theorem witness_ClassSNeverSplit : classSChecked (here up) ∧
    classSChecked (here { up with eng := { modecfg := 0x000000, sAct := paired } }) := by unfold classSChecked; decide

theorem witness_SupplyFlagsFollow : (up.alive = true ∧ up.sup.vbkLow = false) ∧
    meets { up with sup := { up.sup with vbkLow := true } } (fun d => d.alive = true ∧ d.sup.vbkAbsent = false) ∧
    (up.alive = true ∧ up.sup.timeValid = true) := by decide

theorem witness_TimeAndAlarm : (takes up .sup 1 ∧ (up.tol.hasSession && up.sup.timeValid) = false) ∧
    meets { up with tol := { session := .active } } (fun d => takes d .sup 1 ∧ (d.tol.hasSession && d.sup.timeValid) = true) ∧
    meets { up with sup := { up.sup with alarmLo := 1 } } (fun d => takes d .sup 1 ∧ d.sup.rtc < d.sup.alarmHi ++ d.sup.alarmLo) ∧
    (takes up .sup 1 ∧ up.sup.alarmHi ++ up.sup.alarmLo ≤ up.sup.rtc) ∧
    meets { up with sup := { up.sup with alarm := some 5, rtc := 5 } } (fun d => d.sup.alarm = some 5 ∧ 5 ≤ d.sup.rtc) ∧
    meets { up with sup := { up.sup with alarm := some 5, rtc := 4 } } (fun d => d.sup.alarm = some 5 ∧ d.sup.rtc < 5) ∧
    up.sup.xtal = none ∧
    meets { up with sup := { up.sup with xtal := some (25, 0), lfrc := false } } (fun d =>
      d.sup.xtal = some (25, 0) ∧ d.sup.lfrc = false) := by unfold takes; decide

theorem witness_RefusedOutsideRun : up.inRun = false ∧ takes up .mode 1 ∧ takes up .seq 1 := by unfold takes; decide

theorem witness_ModeCommands :
    (takes run .mode 1 ∧ run.inRun = true ∧ run.watchAllowed = true ∧ run.mode.entering = false) ∧
    (takes bench .mode 1 ∧ bench.inRun = true ∧ bench.seq.drover = .openS ∧ bench.mode.bench = true ∧
      bench.insp.halted = false) ∧
    meets { bench with insp := { halted := true } } (fun d => takes d .mode 1 ∧ d.inRun = true ∧ d.seq.drover = .openS ∧
      d.mode.bench = true ∧ d.insp.halted = true) ∧
    meets (inState .lockout) (fun d => takes d .mode 1 ∧ d.inRun = true ∧ d.seq.drover = .lockout ∧ d.lockCauseAbsent = false) ∧
    meets { inState .lockout with mode := { mode := .run, lockCause := 8 } } (fun d => takes d .mode 1 ∧ d.inRun = true ∧
      d.seq.drover = .lockout ∧ d.lockCauseAbsent = true) := by unfold takes; decide

theorem witness_HoldAndRelease :
    (run.inRun = true ∧ takes run .seq 1 ∧ run.seq.drover = .openS) ∧
    meets (inState .output) (fun d => d.inRun = true ∧ takes d .seq 1 ∧ d.seq.drover = .output) ∧
    meets (inState .precharge) (fun d => d.inRun = true ∧ takes d .seq 1 ∧ d.seq.drover = .precharge) ∧
    (run.mode.entering = false ∧ (run.mode.bench = true → run.seq.drover ≠ .openS)) ∧
    meets { run with mode := { mode := .run, entering := true } } (fun d => d.inRun = true ∧ takes d .seq 1 ∧
      d.seq.drover = .openS ∧ d.mode.entering = true) ∧
    (bench.inRun = true ∧ takes bench .seq 1 ∧ bench.mode.bench = true ∧ bench.seq.drover = .openS) := by unfold takes; decide

theorem witness_HoldAndRelease_hold :
    meets { run with seq := { drover := .hold, holdFrom := .closed } } (fun d => d.inRun = true ∧ takes d .seq 1 ∧
      d.seq.drover = .hold ∧ d.mode.entering = false ∧ d.seq.holdFrom = .closed ∧ (∀ k : K, (d.coil.get k).olDue = false) ∧
      d.cmds.seq.held = none) ∧
    meets { run with seq := { drover := .hold, holdFrom := .closed }, cmds := { seq := { held := some (1, 0x04) } } } (fun d =>
      d.inRun = true ∧ d.seq.drover = .hold ∧ d.seq.holdFrom = .closed ∧ (∀ k : K, (d.coil.get k).olDue = false) ∧
      d.cmds.seq.held = some (1, 0x04)) ∧
    meetsCoil { run with seq := { drover := .hold, holdFrom := .output } } 3 { phase := .openLoop, lost := true, olDue := true }
      (fun d c => d.inRun = true ∧ takes d .seq 1 ∧ d.seq.drover = .hold ∧ d.seq.holdFrom = .output ∧ c.olDue = true ∧
      c.phase = .openLoop ∧ (∀ j : K, j ≠ 3 → (d.coil.get j).olDue = false) ∧
      (d.seq.sessionEnding && !d.seq.grace && !d.seq.opening) = false) ∧
    meetsCoil { run with seq := { drover := .hold, holdFrom := .output, sessionEnding := true } } 3 { phase := .hold }
      (fun d c => d.inRun = true ∧ takes d .seq 1 ∧ d.seq.drover = .hold ∧ d.seq.holdFrom = .output ∧
      (∀ j : K, (d.coil.get j).olDue = false) ∧ d.seq.sessionEnding = true ∧ d.seq.grace = false ∧ d.seq.opening = false ∧
      c.phase = .hold) := by
  unfold takes; decide

/-- In Run with every close condition met. -/
def closable : Dev := { run with
  saf := { run.saf with filt := 3, provenCh := 3, granted := true }
  chn := { run.chn with
    stages := run.chn.stages.set 0 { present := true, id := some ⟨1, 18⟩, auth := true, newest := some 1 } }
  lim := { chg := .replicate 3 1, dis := .replicate 3 1 }
  pwr := { run.pwr with passedSince := true } }

theorem witness_CloseAndOpen :
    (closable.inRun = true ∧ takes closable .seq 1 ∧ closable.mode.entering = false ∧ closable.seq.drover = .openS ∧
      closable.seqBlock = 0) ∧
    (run.inRun = true ∧ takes run .seq 1 ∧ run.mode.entering = false ∧ run.seq.drover = .openS ∧ run.seqBlock ≠ 0) ∧
    meets (inState .hold) (fun d => d.inRun = true ∧ takes d .seq 1 ∧ d.mode.entering = false ∧ d.seq.drover ≠ .openS) ∧
    meets { run with cmds := { seq := { kept := some 1 } } } (fun d => d.inRun = true ∧ d.alive = true ∧ d.hst.access = none ∧
      d.cmds.seq.held = none ∧ d.cmds.seq.kept = some 1) ∧
    (∀ x ∈ [Drover.openS, .precharge, .closed, .output, .hold, .breaking, .lockout],
      meets (inState x) fun d => takes d .seq 1 ∧ d.inRun = true ∧ d.seq.drover = x) := by unfold takes; decide

theorem witness_PowerFailWarning : meets { up with sup := {} } (fun d => d.alive = true ∧ d.sup.pfWarn = false) ∧
    meets { up with sup := { up.sup with pfWarn := true } } (fun d => d.sup.pfWarn = true) ∧
    (watching.alive = true ∧ watching.sup.pfWarn = false ∧ watching.mode.mode = .watch) ∧
    meets { up with sup := { up.sup with commit := some .shadowOnly } } (fun d => d.alive = true ∧ d.sup.pfWarn = false ∧
      d.mode.mode = .muster ∧ d.powerFailing = true) ∧
    (up.alive = true ∧ up.sup.pfWarn = false ∧ up.mode.mode = .muster ∧ up.powerFailing = false ∧ up.sup.pfEvent = false ∧
      up.sup.doms.per = true ∧ up.lif.undo = none) ∧
    meets ({} : Dev) (fun d => d.alive = true ∧ d.sup.pfWarn = false ∧ d.mode.mode = .muster ∧ d.powerFailing = false ∧
      d.sup.pfEvent = false ∧ d.sup.doms.per = false ∧ d.lif.undo = none) ∧
    meets (inState .closed) (fun d => d.alive = true ∧ d.sup.pfWarn = false ∧ d.mode.mode = .run ∧ d.sup.pfSeen = false ∧
      d.powerFailing = false ∧ d.faultBits.getLsbD 35 = false) ∧
    (∀ d ∈ [up, inState .closed], meets { d with lif := { undo := some default } } fun d => d.lif.undo = some default ∧
      d.mode.mode ≠ .watch ∧ d.powerFailing = false ∧ d.sup.pfSeen = false ∧ d.alive = true ∧ d.sup.pfWarn = false) := by
  decide

theorem witness_CommitsAndShadows :
    meets { up with sup := { up.sup with commit := some .final } } (fun d => d.alive = true ∧ d.sup.commit = some .final ∧
      d.lgr.signing = [] ∧ d.lgr.staging = []) ∧
    (up.alive = true ∧ up.sup.commit = none) ∧ (run.shadowsValid = true ∧ run.sup.doms.mod = true ∧ run.stringClosed = false) ∧
    meetsCoil run 0 { confirmed := true } (fun d _ => d.shadowsValid = true ∧ d.sup.doms.mod = true ∧ d.stringClosed = true) ∧
    meets { run with sup := { run.sup with pfHold := true } } (fun d => d.sup.pfHold = true ∧ d.shadowsValid = true) ∧
    (run.needDepot.depotFree = true ∧ run.dep.jobs = []) ∧
    meets { run with dep := { busy := some .log } } (fun d => d.shadowsValid = true ∧ d.needDepot.depotFree = false) ∧
    up.sup.pfHold = false := by decide

theorem witness_ResetsAndTheirCauses : up.sup.powered = true ∧
    meets { up with sup := { up.sup with powered := false } } (fun d => d.sup.powered = false) ∧
    meets { up with sup := { up.sup with pfHold := true } } (fun d => d.alive = true ∧ d.sup.pfHold = true) ∧
    up.sup.pfHold = false ∧ (up.alive = true ∧ up.sup.mainOsc = true) ∧
    meets { up with sup := { up.sup with wdArmed := true } } (fun d => d.alive = true ∧ d.sup.wdArmed = true) ∧
    up.sup.wdArmed = false ∧ (takes up .sup 1 ∧ up.seq.drover = .openS) ∧
    meets (inState .closed) (fun d => takes d .sup 1 ∧ d.seq.drover ≠ .openS ∧ d.seq.drover ≠ .lockout) := by
  unfold takes; decide

/-- What a start sees where everything is in order up to step 4. -/
def seen : MusterInputs := { (default : MusterInputs) with
  test := false, mainOsc := true, pllLock := true, otpOk := true, selfTestOk := true, retainedCrcOk := true, cutAfter := 0 }

theorem witness_MusterStops :
    (∀ d ∈ [({} : Dev), { sys := { repeated := true } }], d.awaitsPower = true ∧ d.sys.step = 1 ∧ d.sys.mstate = 0 ∧
      d.mode.mode = .muster ∧ d.sys.path = 0b01 ∧ d.powerFailing = false ∧ d.sup.canary = true) ∧
    ({ seen with cutAfter := 4 } : MusterInputs).injectionMiss = none ∧
    (∀ m ∈ [seen, { seen with test := true }, { seen with mainOsc := false }, { seen with pllLock := false },
      { seen with otpOk := false }, { seen with selfTestOk := false }], m.cutAfter = 0) ∧
    ({ seen with mainOsc := false } : MusterInputs).test = false ∧ ({ seen with pllLock := false } : MusterInputs).mainOsc = true ∧
    ({ seen with otpOk := false } : MusterInputs).pllLock = true ∧ ({ seen with selfTestOk := false } : MusterInputs).otpOk = true ∧
    (({} : Dev).sys.repeated = false) := by decide

theorem witness_WatchEntry : run.mode.entering = false ∧
    meets { run with mode := { mode := .run, entering := true } } (fun d =>
      d.inRun = true ∧ d.mode.entering = true ∧ d.crossingsIdle = true ∧ d.accessIdle = true) ∧
    meets { run with mode := { mode := .run, entering := true }, dep := { busy := some .log } } (fun d =>
      d.inRun = true ∧ d.crossingsIdle = false) ∧
    meets { run with mode := { mode := .run, entering := true }, hst := { access := some (.write 0x041 1) } } (fun d =>
      d.inRun = true ∧ d.accessIdle = false) ∧
    (inState .closed).seq.drover ≠ .openS := by decide

theorem witness_WatchEntry_watch : run.inRun = true ∧ takes run .mode 1 ∧ run.watchAllowed = true := by unfold takes; decide

/-- A classical frame. -/
def frame1 : CanFrame := { ide := false, id := 0x123, fdf := false, brs := false, rtr := false, dlc := 1, data := [7] }

theorem witness_SweepAndWake :
    (watching.alive = true ∧ watching.mode.mode = .watch ∧ watching.wakeEnabled .wakePin = true) ∧
    meets { run with mode := { run.mode with entering := true } } (fun d => d.alive = true ∧ d.wakeEnabled .guard = true ∧
      d.inRun = true ∧ d.mode.entering = true) ∧
    meets { up with sys := { path := 0b10 } } (fun d => d.alive = true ∧ d.wakeEnabled .rtc = true ∧ d.mode.mode = .muster ∧
      d.resuming = true ∧ d.stopped = false) ∧
    meets { watching with mode := { mode := .watch, wakecfg := 0 } } (fun d => d.alive = true ∧ d.wakeEnabled .rtc = false) ∧
    meets { watching with mode := { mode := .watch, wakecfg := 3 }, wakeDet := { call := #v[0x123, 0x7FF, 1, 0xFF0000, 0, 0] } }
      (fun d => d.alive = true ∧ d.wakeEnabled .call = true ∧ d.mode.mode = .watch ∧ isCall d.wakeDet.call frame1 = true) ∧
    (watching.mode.mode = .watch ∧ isCall watching.wakeDet.call { frame1 with ide := true } = false ∧
      frame1.fdf = false ∧ ({ frame1 with fdf := true } : CanFrame).fdf = true) := by decide

theorem witness_ClearRegisters : serves run 0x08B ∧ serves run 0x0AC ∧ serves run 0x0DF ∧ serves run 0x0F1 ∧
    serves run 0x117 ∧ serves run 0x141 ∧ serves run 0x235 := by unfold serves; decide

theorem witness_SettingsWithinRange_ENG_SEN_DEP :
    (serves run 0x081 ∧ modecfgOk 0x000050 = true ∧ run.lockRefuses run.eng.modecfg 0x000050 0x0000F0 = false) ∧
    (serves run 0x081 ∧ modecfgOk 0x000080 = false) ∧
    meets (inState .closed) (fun d => serves d 0x081 ∧ d.lockRefuses d.eng.modecfg 0x000050 0x0000F0 = true) ∧
    (serves run 0x0C0 ∧ field (2 : Word) 0 2 ≤ 2 ∧ run.lockRefuses run.sen.cfg 2 0x0000FF = false) ∧
    (serves run 0x0C0 ∧ ¬ field (3 : Word) 0 2 ≤ 2) ∧
    meets (inState .output) (fun d => serves d 0x0C0 ∧ d.lockRefuses d.sen.cfg 2 0x0000FF = true) ∧
    (serves run 0x221 ∧ run.lockRefuses run.dep.cfg 2 0x00000F = false) ∧
    meets (inState .closed) (fun d => serves d 0x221 ∧ d.lockRefuses d.dep.cfg 2 0x00000F = true) := by
  unfold serves; decide

theorem witness_SettingsWithinRange_CHN :
    (serves run 0x0A2 ∧ 1 ≤ field (0x640000 : Word) 16 8 ∧ field (0x640000 : Word) 16 8 ≤ 100 ∧
      ({ run.chn with retrycfg := mergeBits run.chn.retrycfg 0x640000 0xFFFF07 } : Chn).retryOk = true) ∧
    (serves run 0x0A2 ∧ ¬ 1 ≤ field (0x00FFFF : Word) 16 8) ∧
    (serves run 0x0A3 ∧ 200 ≤ field (0x0007D0 : Word) 0 12 ∧ field (0x0007D0 : Word) 0 12 ≤ 2000 ∧
      ({ run.chn with stalecfg := mergeBits run.chn.stalecfg 0x0007D0 0x000FFF } : Chn).retryOk = true ∧
      run.lockRefuses run.chn.stalecfg 0x0007D0 0x000FFF = false) ∧
    (serves run 0x0A3 ∧ ¬ field (0x0007D1 : Word) 0 12 ≤ 2000) ∧
    meets (inState .closed) (fun d => serves d 0x0A3 ∧ d.lockRefuses d.chn.stalecfg 0x0007D0 0x000FFF = true) := by
  unfold serves; decide

theorem witness_SettingsWithinRange_CAN :
    (serves run (canBase .can1) ∧
      ({ run.can .can1 with cfg := mergeBits (run.can .can1).cfg 0x800001 0xFC000F } : Can).retryOk = true ∧
      run.lockRefuses (run.can .can1).cfg 0x800001 0xFC000F = false) ∧
    meets (inState .closed) (fun d => serves d (canBase .can1) ∧ d.lockRefuses (d.can .can1).cfg 0x800001 0xFC000F = true) ∧
    (serves run (canBase .can0 + 0x1A) ∧ 10 ≤ field (0x00000A : Word) 0 10 ∧ field (0x00000A : Word) 0 10 ≤ 500 ∧
      ({ run.can .can0 with hcfg := mergeBits (run.can .can0).hcfg 0x00000A 0x8003FF } : Can).retryOk = true) ∧
    (serves run (canBase .can0 + 0x1A) ∧ ¬ 10 ≤ field (0x000009 : Word) 0 10) := by unfold serves; decide

theorem witness_DirectWrites : serves run 0x08C ∧ (serves run 0x15C ∧ run.seq.drover = .openS) ∧
    meets (inState .closed) (fun d => serves d 0x15C ∧ d.seq.drover ≠ .openS) ∧
    (serves run 0x120 ∧ run.pwr.extRevoked = false) ∧
    meets { run with pwr := { run.pwr with extRevoked := true, pumpcfg := 0x800000 } } (fun d => serves d 0x120 ∧
      d.pwr.extRevoked = true ∧ bit d.pwr.pumpcfg 23 = true) ∧
    meets { run with pwr := { run.pwr with extRevoked := true } } (fun d => serves d 0x120 ∧
      d.pwr.extRevoked = true ∧ bit d.pwr.pumpcfg 23 = false) ∧
    (serves run (0x18C + (5 : Fin 6).val) ∧ run.tol.session = .none_) ∧
    meets { run with tol := { session := .suspended } } (fun d => serves d 0x18C ∧ d.tol.session ≠ .none_) ∧
    serves run (canBase .can1 + 0x0A) ∧
    meets (inState .closed) (fun d => serves d (canBase .can0 + 0x1B) ∧ d.lockRefuses (d.can .can0).pubcfg 0x200123 0x3F07FF = true) ∧
    (serves run (canBase .can0 + 0x1B) ∧ run.lockRefuses (run.can .can0).pubcfg 0x3F00A0 0x3F07FF = false ∧
      mergeBits (run.can .can0).pubcfg 0x3F00A0 0x3F07FF = (run.can .can0).pubcfg) ∧
    (serves run (canBase .can0 + 0x1B) ∧ run.lockRefuses (run.can .can0).pubcfg 0x200123 0x3F07FF = false ∧
      mergeBits (run.can .can0).pubcfg 0x200123 0x3F07FF ≠ (run.can .can0).pubcfg ∧ bit (0x200123 : Word) 21 = true) := by
  unfold serves; decide

/-- A channel in hold with valid feedback. -/
def held : Coil := { phase := .hold, hi := true, lo := true, confirmed := true, mean := 400, steady := 100 }

theorem witness_CoilTimers : ({ phase := .pullIn } : Coil).phase = .pullIn ∧ ({ phase := .openLoop } : Coil).phase = .openLoop ∧
    (held.phase ≠ .pullIn ∧ held.phase ≠ .openLoop) ∧
    meetsCoil { run with seq := { drover := .precharge, phase := 5 } } 2 held (fun d c => d.seq.drover = .precharge ∧
      d.seq.phase = 5 ∧ c.phase ≠ .released ∧ c.phase ≠ .releasing) ∧
    run.seq.drover ≠ .precharge ∧
    meetsCoil run 0 { phase := .releasing, slow := true, hi := true } (fun _ c => c.phase = .releasing ∧ c.slow = true ∧ c.hi = true) ∧
    meetsCoil run 0 { phase := .releasing } (fun _ c => c.slow = false) ∧
    meetsCoil (inState .closed) 0 held (fun d c => c.phase = .hold ∧ d.seq.drover ≠ .breaking ∧
      ∀ j : K, (d.coil.get j).phase ≠ .releasing) ∧
    (inState .breaking).seq.drover = .breaking ∧
    meetsCoil run 3 { phase := .openLoop, lost := true } (fun d c => c.phase = .openLoop ∧ d.seq.drover ≠ .hold ∧ c.lost = true) ∧
    meetsCoil (inState .hold) 3 { phase := .openLoop, lost := true } (fun d c => c.phase = .openLoop ∧ d.seq.drover = .hold) ∧
    meetsCoil run 0 held (fun _ c => c.phase = .hold ∧ c.lost = false ∧ c.frozen = false ∧ 100 ≤ c.steady ∧ 0 < c.mean) ∧
    ({ held with steady := 99 } : Coil).steady < 100 := by decide

theorem witness_ArmatureSignature : (8 < (9 : BitVec 12).toNat ∧ (4086 : BitVec 12).toNat < 4087) ∧
    (∀ k : K, run.coilCurrent k 2048 = 0) ∧
    meetsCoil run 0 { phase := .signature, iPk := -1 } (fun d c => c.phase = .signature ∧ c.dip = false ∧
      c.iPk < d.coilCurrent 0 2048) ∧
    meetsCoil { run with seq := { drover := .precharge, phase := 2 } } 2 { phase := .signature, iPk := 900 } (fun d c =>
      c.phase = .signature ∧ c.dip = false ∧ 50 * d.coilCurrent 2 2048 < 50 * c.iPk - max 1000 (d.seq.iPull.get 2 : Int) ∧
      d.seq.drover = .precharge ∧ d.seq.phase = 2) ∧
    meetsCoil run 0 { phase := .signature, dip := true, iLow := 1 } (fun d c => c.phase = .signature ∧ c.dip = true ∧
      d.coilCurrent 0 2048 < c.iLow) ∧
    meetsCoil { run with seq := { drover := .precharge, phase := 1, retryBlocked := true } } 1
      { phase := .signature, dip := true, iLow := -20 } (fun d c => c.phase = .signature ∧ c.dip = true ∧
      50 * c.iLow + max 1000 (d.seq.iPull.get 1 : Int) ≤ 50 * d.coilCurrent 1 2048 ∧ d.seq.drover = .precharge ∧ d.seq.phase = 1 ∧
      d.seq.retryBlocked = true) ∧
    meetsCoil { run with seq := { drover := .precharge, phase := 3 } } 2 { phase := .signature, dip := true, iLow := -20 }
      (fun d c => c.phase = .signature ∧ c.dip = true ∧ 50 * c.iLow + max 1000 (d.seq.iPull.get 2 : Int) ≤ 50 * d.coilCurrent 2 2048 ∧
      (d.seq.drover = .precharge → (2 : K) = 1 → d.seq.phase = 1 → d.seq.retryBlocked = false) ∧ d.seq.judged = false) ∧
    meetsCoil run 0 { phase := .releasing, slow := true, hi := true, relSamples := 1, relMin := -10 } (fun d c =>
      c.phase = .releasing ∧ c.slow = true ∧ c.hi = true ∧ c.relSamples ≠ 0 ∧ c.relMin ≤ d.coilCurrent 0 2048 ∧
      20 * c.relMin + max 200 (d.seq.iHold.get 0 : Int) ≤ 20 * d.coilCurrent 0 2048) ∧
    meetsCoil run 0 { phase := .releasing, slow := true, hi := true, relMin := 1 } (fun d c => c.phase = .releasing ∧
      c.slow = true ∧ c.hi = true ∧ d.coilCurrent 0 2048 < c.relMin) := by decide +kernel

theorem witness_VerdictsAndTimeouts :
    meetsCoil run 0 { phase := .signature, unverified := true } (fun d c => d.inRun = true ∧ d.seq.drover ≠ .lockout ∧
      c.phase = .signature ∧ c.unverified = true ∧ c.dip = false) ∧
    meetsCoil (inState .precharge) 1 { phase := .signature } (fun d c => d.inRun = true ∧ d.seq.drover ≠ .lockout ∧
      c.phase = .signature ∧ c.unverified = false ∧ d.seq.drover = .precharge) ∧
    meetsCoil { inState .closed with tol := { session := .opening } } 3 { phase := .signature, unverified := true, dip := true }
      (fun d c => d.inRun = true ∧ d.seq.drover ≠ .lockout ∧ c.phase = .signature ∧ c.dip = true ∧ d.seq.drover ≠ .precharge ∧
      d.tol.session = .opening ∧ d.tol.resuming = false) ∧
    meetsCoil (inState .hold) 0 { phase := .signature } (fun d c => d.inRun = true ∧ d.seq.drover ≠ .lockout ∧
      c.phase = .signature ∧ c.unverified = false ∧ d.seq.drover = .hold ∧ (0 : K) ≠ 3) ∧
    (run.inRun = true ∧ run.seq.drover ≠ .lockout ∧ held.phase ≠ .signature ∧ held.phase ≠ .releasing) ∧
    meetsCoil run 0 { phase := .releasing, mean := 50 } (fun d c => d.inRun = true ∧ d.seq.drover ≠ .lockout ∧
      c.phase = .releasing ∧ c.lost = false ∧ c.frozen = false ∧ 50 ≤ c.mean.natAbs) ∧
    meetsCoil run 0 { phase := .releasing, mean := -49, slow := true, wasClosed := true } (fun d c => d.inRun = true ∧
      d.seq.drover ≠ .lockout ∧ c.phase = .releasing ∧ c.lost = false ∧ c.frozen = false ∧ c.mean.natAbs < 50 ∧
      c.mark = none ∧ c.slow = true ∧ c.wasClosed = true) ∧
    meetsCoil run 0 { phase := .releasing, mark := some 40, wasClosed := true } (fun d c => d.inRun = true ∧
      d.seq.drover ≠ .lockout ∧ c.phase = .releasing ∧ c.lost = false ∧ c.frozen = false ∧ c.mean.natAbs < 50 ∧
      c.mark = some 40 ∧ c.wasClosed = true) ∧
    meetsCoil run 0 { phase := .releasing, lost := true, wasClosed := true } (fun d c => d.inRun = true ∧
      d.seq.drover ≠ .lockout ∧ c.phase = .releasing ∧ c.wasClosed = true ∧ c.lost = true) := by decide

theorem witness_VerdictsAndTimeouts_openings :
    (run.inRun = true ∧ run.seq.drover ≠ .lockout ∧ run.seq.grace = false) ∧
    meetsCoil { run with seq := { drover := .output, grace := true, sessionEnding := true } } 3 held (fun d _ => d.inRun = true ∧
      d.seq.drover ≠ .lockout ∧ d.seq.grace = true ∧ d.seq.drover = .output ∧ d.seq.sessionEnding = true ∧
      (d.coil.get 3).phase ≠ .released ∧ (d.coil.get 3).phase ≠ .releasing) ∧
    meetsCoil { run with seq := { drover := .hold, holdFrom := .output, grace := true, sessionEnding := true } } 3 held (fun d _ =>
      d.inRun = true ∧ d.seq.grace = true ∧ d.seq.sessionEnding = true ∧ d.seq.drover = .hold ∧ d.seq.holdFrom = .output ∧
      (d.coil.get 3).phase ≠ .released ∧ (d.coil.get 3).phase ≠ .releasing) ∧
    meetsCoil { run with seq := { drover := .breaking, grace := true } } 0 held (fun d _ => d.inRun = true ∧
      d.seq.drover ≠ .lockout ∧ d.seq.grace = true ∧ d.seq.drover = .breaking ∧ (d.coil.get 3).phase = .released ∧
      (d.coil.get 0).phase ≠ .released ∧ (d.coil.get 0).phase ≠ .releasing) ∧
    (∀ c ∈ [held, { held with bouncing := true, railOk := false }, { held with bouncing := true, learned := 15 },
      { held with bouncing := true, learned := 16 }], meetsCoil run 0 c fun d x => d.inRun = true ∧ d.seq.drover ≠ .lockout ∧
      x.bouncing = c.bouncing ∧ x.railOk = c.railOk ∧ x.learned = c.learned) := by decide

theorem witness_FeedbackAndProofs :
    meetsCoil (inState .closed) 1 held (fun d c => c.phase = .hold ∧ d.seq.drover ≠ .breaking ∧
      (∀ j : K, (d.coil.get j).phase ≠ .releasing) ∧ d.pwr.proofBad &&& ~~~proofBit 1 c.proofLow = 0 ∧
      d.lim.active.getLsbD 31 = false) ∧
    meetsCoil { inState .closed with pwr := { proofBad := 0x30 } } 1 held (fun d c => c.phase = .hold ∧ d.seq.drover ≠ .breaking ∧
      (∀ j : K, (d.coil.get j).phase ≠ .releasing) ∧ d.pwr.proofBad &&& ~~~proofBit 1 c.proofLow ≠ 0) ∧
    (∀ low : Bool, ∀ x ∈ [((⟨10001, 1999⟩ : ProofNode), true), (⟨10000, 2000⟩, false)],
      (if low then 12000 < x.1.lowest + 2000 else x.1.highest < 2000) ↔ x.2 = true) ∧
    meetsCoil (inState .hold) 1 { phase := .openLoop, frozen := true, railRun := 9 } (fun _ c => c.phase = .openLoop ∧
      c.bouncing = false ∧ c.frozen = true ∧ c.lost = false ∧ 9 ≤ c.railRun) ∧
    (({} : Coil).phase ≠ .hold ∧ ({} : Coil).phase ≠ .openLoop) ∧
    ((8 : BitVec 12).toNat ≤ 8 ∧ 4087 ≤ (4087 : BitVec 12).toNat) ∧
    meetsCoil (inState .closed) 1 { held with railRun := 8 } (fun _ c => c.phase = .hold ∧ c.bouncing = false ∧ c.lost = false ∧
      c.frozen = false ∧ c.railRun < 9) ∧
    meetsCoil (inState .closed) 1 { held with railRun := 9 } (fun d c => c.phase = .hold ∧ c.bouncing = false ∧ c.lost = false ∧
      c.frozen = false ∧ 9 ≤ c.railRun ∧ d.faultBits.getLsbD 30 = false ∧ d.seq.drover ≠ .precharge ∧ d.seq.drover = .closed) := by decide

theorem witness_FeedbackAndProofs_checks :
    held.raising = false ∧ meetsCoil run 1 { raising := true } (fun _ c => c.raising = true ∧ c.phase ≠ .hold) ∧
    meetsCoil run 1 { held with raising := true, before := 400 } (fun d c => c.raising = true ∧ c.phase = .hold ∧ c.lost = false ∧
      c.frozen = false ∧ (d.seq.iHold.get 1 : Int) ≤ 50 * (c.mean - c.before)) ∧
    meetsCoil run 1 { held with raising := true, before := 401, checkFails := 1 } (fun d c => c.raising = true ∧ c.phase = .hold ∧
      c.lost = false ∧ c.frozen = false ∧ 50 * (c.mean - c.before) < d.seq.iHold.get 1 ∧ c.checkFails < 2) ∧
    meetsCoil (inState .output) 1 { held with raising := true, before := 401, checkFails := 2 } (fun d c => c.raising = true ∧
      c.phase = .hold ∧ c.lost = false ∧ c.frozen = false ∧ 50 * (c.mean - c.before) < d.seq.iHold.get 1 ∧ 2 ≤ c.checkFails ∧
      d.faultBits.getLsbD 30 = false ∧ d.seq.drover = .output) ∧
    meetsCoil { run with pwr := { run.pwr with passedSince := true } } 1 { lost := true, quiet := 1000 } (fun d c =>
      d.seq.drover = .openS ∧ c.lost = true ∧ c.phase = .released ∧ 1000 ≤ c.quiet ∧ d.pwr.passedSince = true ∧
      ∀ j, ((modify d.coil 1 fun c => { c with lost := false, frozen := false, railRun := 0, lowRun := 0, checkFails := 0 }).get j).lost = false) ∧
    meetsCoil (withCoil { run with pwr := { run.pwr with passedSince := true } } 2 { frozen := true }) 1 { lost := true, quiet := 1000 }
      (fun d c => d.seq.drover = .openS ∧ c.lost = true ∧ c.phase = .released ∧ 1000 ≤ c.quiet ∧ d.pwr.passedSince = true ∧
      ((modify d.coil 1 fun c => { c with lost := false, frozen := false, railRun := 0, lowRun := 0, checkFails := 0 }).get 2).frozen = true) ∧
    run.pwr.passedSince = false := by decide

/-- A frame that shows nothing, and one with the results of one task. -/
def quietFrame : FrameInputs := { (default : FrameInputs) with disagree := [], results := [] }
def frameOf (r : TaskResult) : FrameInputs := { quietFrame with results := [r] }

/-- In Run with the class C period and the seam of the frame done. -/
def framed0 : Dev := { run with eng := { seamDone := true, cDone := true } }

theorem witness_EngineFrame : up.framesRun = false ∧
    (framed0.framesRun = true ∧ framed0.inRun = true ∧ framed0.powerFailing = false ∧ framed0.eng.seamDone = true ∧
      framed0.eng.cDone = true ∧ framed0.eng.modecfg = 0x000040 ∧ framed0.eng.sAct = triple ∧ framed0.eng.cAct = paired ∧
      framed0.eng.eAct = paired ∧ framed0.eng.bAct = paired ∧ framed0.eng.degraded = false ∧ framed0.eng.rebuild = false ∧
      framed0.eng.oddHist = [] ∧ quietFrame.disagree = [] ∧ quietFrame.results = []) := by decide

theorem witness_EngineFrame_commands : ∀ r, (framed0.cmds.get r).held = none := by intro r; cases r <;> rfl

theorem witness_EngineFrame_results :
    (frameOf { cls := .b, task := 7, words := [{ lead := 5, escort := [2, 3].map escortCode, rearguard := rearguardCode 5 }]
               context := [{ addr := 9, lead := 6, escort := escortCode 6, rearguard := rearguardCode 6 }] }).disagree = [] ∧
    (frameOf { cls := .c, task := 3, words := [{ lead := 5, escort := [1], rearguard := rearguardCode 5 }]
               context := [{ addr := 9, lead := 6, escort := 2, rearguard := rearguardCode 6 }] }).disagree = [] ∧
    (1 : Word) ≠ escortCode 5 ∧ (5 : Word) = BitVec.ofInt 24 (([2, 3] : List Word).map fun v => (v.toNat : Int)).sum ∧
    (frameOf { cls := .s, task := 1, words := [{ lead := 5, escort := [escortCode 5], rearguard := 1 }] }).disagree = [] ∧
    (1 : BitVec 40) ≠ rearguardCode 5 := by decide

theorem witness_PeriodsAndInjection :
    (framed0.framesRun = true ∧ framed0.inRun = true ∧ framed0.eng.seamDone = true ∧ framed0.eng.cDone = true) ∧
    meets { run with eng := { seamDone := true, cDone := false } } (fun d => d.framesRun = true ∧ d.inRun = true ∧
      d.eng.seamDone = true ∧ d.eng.cDone = false ∧ d.eng.cAct ≠ split ∧ d.eng.degraded = false) ∧
    meets { run with eng := { seamDone := true, cDone := false, nowC := true, cAct := triple } } (fun d => d.framesRun = true ∧
      d.inRun = true ∧ d.eng.seamDone = true ∧ d.eng.cDone = false ∧ d.eng.cAct ≠ split ∧ d.eng.degraded = false ∧ d.eng.nowC = true) ∧
    meets { run with eng := { seamDone := false } } (fun d => d.framesRun = true ∧ d.inRun = true ∧ d.eng.seamDone = false ∧
      d.eng.degraded = false ∧ d.eng.nowE = false ∧ d.eng.heldB = false) ∧
    meets { run with eng := { seamDone := false, degraded := true, eAct := split } } (fun d => d.framesRun = true ∧ d.inRun = true ∧
      d.eng.seamDone = false ∧ d.eng.degraded = true ∧ d.eng.eAct = split) ∧
    meets { run with eng := { seamDone := false, nowE := true, modecfg := 0x000048 } } (fun d => d.framesRun = true ∧ d.inRun = true ∧
      d.eng.seamDone = false ∧ d.eng.degraded = false ∧ d.eng.nowE = true ∧ d.eng.eAct ≠ split ∧ field d.eng.modecfg 2 2 = 2) := by decide

theorem witness_PeriodsAndInjection_test :
    meets { run with eng := { sHolds := .replicate 3 (.replicate 64 (some 7)) } } (fun d => d.framesRun = true ∧ d.inRun = true ∧
      d.eng.injBit < 24 ∧ (∀ p : Fin 3, (d.eng.sHolds.get p).toList.getD d.eng.injWord (some 0) = some 7) ∧
      d.eng.degraded = false ∧ (d.eng.sAct ≠ triple → d.eng.injPass ≠ .rearguard) ∧ d.seq.drover ≠ .lockout) ∧
    (false && true) = false := by decide

theorem witness_InspectionTransactions : watching.ipAnswers = false ∧ (run.ipAnswers = true ∧ (0 : Byte) ≠ ipCrc 1 0 0) ∧
    (bench.ipAnswers = true ∧ bench.inRun = true ∧ bench.runState = .bench ∧ bench.seq.drover = .openS ∧
      bench.insp.halted = false ∧ bench.insp.trace = []) ∧ (run.ipAnswers = true ∧ run.runState ≠ .bench) ∧
    (up.ipAnswers = true ∧ up.inRun = false) ∧ 10 ≤ (10 : BitVec 4).toNat ∧
    meets { bench with insp := { halted := true } } (fun d => d.ipAnswers = true ∧ d.insp.halted = true ∧ d.chn.waiting = []) ∧
    meets { bench with insp := { trace := [1] } } (fun d => d.ipAnswers = true ∧ d.inRun = true ∧ d.insp.trace = [1]) := by
  decide +kernel

/-- In Bench and halted, with this replay log. -/
def haltedWith (log : List (Word × Word)) : Dev := { bench with insp := { halted := true, replay := log } }

theorem witness_HaltReadAndWrite :
    meets { bench with insp := { haltReq := true } } (fun d => d.framesRun = true ∧ d.insp.haltReq = true ∧ d.inRun = true ∧
      d.runState = .bench ∧ d.seq.drover = .openS) ∧
    meets { inState .closed with insp := { haltReq := true } } (fun d => d.framesRun = true ∧ d.insp.haltReq = true ∧
      d.seq.drover ≠ .openS) ∧
    run.insp.haltReq = false ∧
    ((haltedWith []).ipAnswers = true ∧ (0x15554 : Word).toNat ≤ 0x15554 ∧ (haltedWith []).insp.halted = true ∧
      (haltedWith []).insp.replay.length < 32) ∧
    (run.ipAnswers = true ∧ run.insp.halted = false ∧ run.insp.captured = none) ∧
    meets { run with insp := { captured := some (0x15554, 5) } } (fun d => d.ipAnswers = true ∧ d.insp.halted = false ∧
      d.insp.captured = some (0x15554, 5)) ∧
    meets { run with insp := { asked := some 7 } } (fun d => d.framesRun = true ∧ d.insp.asked = some 7) ∧
    meets { run with eng := { holds := .replicate 3 (.replicate 64 (some 7)) } } (fun d => d.ipAnswers = true ∧
      (d.eng.holds.get 0).get 63 = some 7) ∧
    (run.insp.asked = none ∧ up.framesRun = false) ∧
    (run.ipAnswers = true ∧ 0x800000 ≤ (0x800FFF : Word).toNat ∧ (0x800FFF : Word).toNat ≤ 0x800FFF) ∧
    run.runsFor (accessDomain 0x081) = true ∧
    meets { run with sup := { run.sup with doms := {} } } (fun d => d.ipAnswers = true ∧ d.runsFor (accessDomain 0x081) = false) ∧
    (run.ipAnswers = true ∧ 0x800FFF < (0x801000 : Word).toNat ∧ 0x15554 < (0x15555 : Word).toNat ∧ 0x40003F < (0x400040 : Word).toNat) ∧
    meets (haltedWith (.replicate 32 (0, 0))) (fun d => d.ipAnswers = true ∧ d.insp.halted = true ∧
      32 ≤ d.insp.replay.length ∧ d.inRun = true ∧ d.seq.drover ≠ .lockout) := by decide

/-- A request to stage 1, and the tag that waits for its answer. -/
def req1 (cmd : BitVec 6) (words : List Word) : ChainRequest := { addr := 1, cmd := cmd, words := words }
def tag1 (cmd : BitVec 6) (words : List Word) : Tag := { tag := 0, req := req1 cmd words, seq := 5, port := .eva }

/-- In Run, with this tag in use. -/
def withTag (t : Tag) : Dev := { run with chn := { run.chn with tags := [t] } }

/-- The same with the ring broken, the stage on the side of EVA. -/
def brokenWith (ts : List Tag) : Dev := { run with chn := { run.chn with intact := false, lastA := 1, tags := ts } }

/-- In Run with the ring broken and stage 1 on neither side. -/
def cutOff : Dev := { run with chn := { run.chn with
  intact := false, stages := run.chn.stages.set 0 { present := false, id := some ⟨1, 18⟩ } } }

/-- In Run with every tag in use. -/
def allTags : Dev := { run with chn := { run.chn with tags := (List.range 32).map fun n => { tag1 9 [1] with tag := n } } }

/-- In Run with EVO stopped. -/
def quietChain : Dev := { run with sup := { run.sup with doms := { run.sup.doms with evo := false } } }

theorem witness_ChainTransactions : (up.chainLive = false ∧ up.callChain.chainLive = false) ∧
    (quietChain.sup.doms.evo = false ∧ quietChain.mayStart = true ∧ quietChain.chainWork = true ∧ requestOk (req1 9 [1]) = true) ∧
    requestOk (req1 9 []) = false ∧
    (run.chainLive = true ∧ requestOk { addr := 0, cmd := 4, words := [1] } = true ∧ run.chn.intact = true) ∧
    meets (brokenWith []) (fun d => d.chainLive = true ∧ d.chn.intact = false ∧ d.chn.portFor 1 = some .eva ∧ d.chn.tags = []) ∧
    meets (brokenWith [tag1 9 [1]]) (fun d => d.chainLive = true ∧ d.chn.portFor 1 = some .eva ∧
      (∃ x ∈ d.chn.tags, x.port = .eva ∧ x.unsent = false ∧ x.notReady = false) ∧ ∀ x ∈ d.chn.tags, x.tag ≠ 1) ∧
    (requestOk (req1 9 [1]) = true ∧ (req1 9 [1]).addr ≠ 0 ∧ run.chn.intact = true ∧ run.chn.portFor 1 = some .eva ∧
      run.chn.tags = [] ∧ run.est.burst = false ∧ run.chn.awaits run.chn.seq = false) ∧
    meets allTags (fun d => d.chainLive = true ∧ (d.chn.portFor 1).isSome = true ∧ ∀ n, n < 32 → ∃ x ∈ d.chn.tags, x.tag = n) ∧
    meets cutOff (fun d => d.chainLive = true ∧ d.chn.intact = false ∧ d.chn.portFor 1 = none) := by decide

theorem witness_ChainTransactions_attempts :
    meets (withTag { tag1 9 [1] with fails := 2 }) (fun d => d.chainLive = true ∧ d.chn.tagNo 0 = some { tag1 9 [1] with fails := 2 } ∧
      d.chn.intact = true ∧ 2 < field d.chn.retrycfg 0 3 ∧ (∀ x ∈ d.chn.tags, x.unsent = false) ∧
      { tag1 9 [1] with fails := 2 }.notReady = false) ∧
    meets (withTag { tag1 9 [1] with fails := 3 }) (fun d => d.chainLive = true ∧ d.chn.tagNo 0 = some { tag1 9 [1] with fails := 3 } ∧
      d.chn.intact = true ∧ field d.chn.retrycfg 0 3 ≤ 3 ∧ d.chn.waiting = [] ∧ ∀ x ∈ d.chn.tags, x.unsent = false) ∧
    meets (withTag { tag1 7 [1] with notReady := true }) (fun d => d.chainLive = true ∧ d.chn.intact = true ∧
      d.chn.tagNo 0 = some { tag1 7 [1] with notReady := true } ∧ ∀ x ∈ d.chn.tags, x.unsent = false) ∧
    run.chn.tagNo 0 = none := by decide

/-- A frame from stage 1 that answers `tag1`, with its CRC right. -/
def reply1 (cmd : Nat) (words : List Word) : ChainFrame := chainFrame 1 cmd 5 words

/-- In Run, with a tag in use and part B of a snap read. -/
def snapHalf : Dev := { run with chn := { run.chn with
  tags := [tag1 7 [9]]
  stages := run.chn.stages.set 0 { present := true, id := some ⟨1, 18⟩, stale := true, partB := some (9, .replicate 13 0) } } }

/-- With PER stopped and this many chain responses under way. -/
def perWaits (n : BitVec 4) : Dev := { run with
  sup := { run.sup with doms := { run.sup.doms with per := false } }, chn := { run.chn with doneCount := { sent := n } } }

theorem witness_ChainResponses : ({} : Dev).chainLive = false ∧ (run.chainLive = true ∧ run.sup.doms.per = true) ∧
    meets (perWaits 14) (fun d => d.chainLive = true ∧ d.sup.doms.per = false ∧ d.chn.doneCount.sent - d.chn.doneCount.returned ≠ 15) ∧
    meets (perWaits 15) (fun d => d.chainLive = true ∧ d.sup.doms.per = false ∧ d.chn.doneCount.sent - d.chn.doneCount.returned = 15) ∧
    (run.chn.answered (reply1 0x29 [3])).isNone = true ∧
    (run.chn.waiting = [] ∧ run.chn.intact = true ∧ ∀ x ∈ (withTag (tag1 7 [9])).chn.tags, x.unsent = false) ∧
    meets (withTag (tag1 7 [9])) (fun d => frameOk { reply1 0x27 [9] with crc := 0 } = false ∧
      d.chn.answered { reply1 0x27 [9] with crc := 0 } = some (tag1 7 [9]) ∧ 0 < field d.chn.retrycfg 0 3) ∧
    meets (withTag (tag1 7 [9])) (fun d => frameOk (reply1 0x3F [1]) = true ∧
      d.chn.answered (reply1 0x3F [1]) = some (tag1 7 [9]) ∧ field (reply1 0x3F [1]).header 12 6 = 0x3F ∧
      ((reply1 0x3F [1]).words.headD 0).toNat % 256 = 1 ∧ (tag1 7 [9]).req.cmd = 7) ∧
    meets (withTag (tag1 8 [9])) (fun d => frameOk (reply1 0x3F [2]) = true ∧ d.chn.answered (reply1 0x3F [2]) = some (tag1 8 [9]) ∧
      field (reply1 0x3F [2]).header 12 6 = 0x3F ∧ ((reply1 0x3F [2]).words.headD 0).toNat % 256 = 2 ∧
      (tag1 8 [9]).req.cmd = 8) ∧
    meets (withTag (tag1 0x0C [0])) (fun d => frameOk (reply1 0x2C [1, 2]) = true ∧
      d.chn.answered (reply1 0x2C [1, 2]) = some (tag1 0x0C [0]) ∧ field (reply1 0x2C [1, 2]).header 12 6 ≠ 0x3F) ∧
    meets (withTag (tag1 9 [7])) (fun d => frameOk (reply1 0x29 [7]) = true ∧ d.chn.answered (reply1 0x29 [7]) = some (tag1 9 [7]) ∧
      field (reply1 0x29 [7]).header 12 6 ≠ 0x3F) := by
  decide +kernel

theorem witness_ChainResponses_snap : meets snapHalf fun d => d.chainLive = true ∧ d.sup.doms.per = true ∧
    frameOk (reply1 0x27 (9 :: .replicate 14 8)) = true ∧ d.chn.answered (reply1 0x27 (9 :: .replicate 14 8)) = some (tag1 7 [9]) ∧
    field (reply1 0x27 (9 :: .replicate 14 8)).header 12 6 ≠ 0x3F ∧ d.chn.waiting = [] ∧ d.chn.intact = true ∧
    d.chn.slot 0 = [] ∧ d.man = some man1 ∧ (d.chn.stages.get (stageAt 1)).partB = some (9, .replicate 13 0) ∧
    bit ((List.replicate 13 (0 : Word)).getD 12 0) 3 = false := by decide +kernel

theorem witness_RingSnapAndStale : (run.inRun = true ∧ run.chainLive = true ∧ run.snapped = false) ∧ up.inRun = false ∧
    up.callChain.chainLive = false ∧ up.chainWork = false ∧ (quietChain.inRun = true ∧ quietChain.snapped = false) ∧
    meets { run with est := { snaps := [{ ts := 1, frame := 0 }] } } (fun d => d.snapped = true) ∧
    ((5 : Fin 32) ∉ run.listedStages) ∧
    meets (inState .output) (fun d => d.inRun = true ∧ (0 : Fin 32) ∈ d.listedStages ∧ (d.chn.stages.get 0).stale = false ∧
      (d.chn.stages.get 0).readFrame ≠ some d.eng.frame ∧ d.chn.heldSnaps = [] ∧
      d.chn.waiting = [] ∧ d.faultBits.getLsbD 12 = false ∧ d.seq.drover = .output) ∧
    meets { run with chn := { run.chn with stages := run.chn.stages.set 0 { readFrame := some 0 } } } (fun d =>
      (d.chn.stages.get 0).readFrame = some d.eng.frame) ∧
    (up.chainLive = false ∧ run.chainLive = true ∧ run.chn.intact = true ∧ run.sup.doms.per = true ∧ (32 : BitVec 6).toNat ≤ 32) ∧
    meets (perWaits 0) (fun d => d.chainLive = true ∧ d.chn.intact = true ∧ d.sup.doms.per = false ∧
      d.chn.ringCount.sent - d.chn.ringCount.returned ≠ 15) ∧
    meets { run with chn := { run.chn with intact := false } } (fun d => d.chainLive = true ∧ d.chn.intact = false ∧
      d.chn.unicastFree .eva = true ∧ d.chn.unicastFree .evb = true) ∧
    meets (brokenWith [tag1 9 [1]]) (fun d => d.chainLive = true ∧ d.chn.intact = false ∧ d.chn.unicastFree .eva = false) ∧
    (run.inRun = true ∧ run.chainLive = true ∧ run.chn.intact = true ∧ run.chn.tags = [] ∧
      ∀ b : Fin 32, (run.chn.stages.get b).present = decide (b = 0)) := by decide

theorem witness_RingSnapAndStale_probe : ∃ r : ProbeResult, r.rejoined = true ∧ r.identities = [] ∧
    ∃ q : ProbeResult, q.rejoined = false ∧ q.identities = [] ∧ q.nextA = none ∧ q.nextB = none :=
  ⟨⟨true, none, none, [], []⟩, rfl, rfl, ⟨false, none, none, [], []⟩, rfl, rfl, rfl, rfl⟩

/-- The certificate of stage 1's module, of 18 cells, by maker 7, and another module's. -/
def cert1 : List Byte := be 8 1 ++ [18] ++ be 3 7 ++ .replicate 132 0
def cert2 : List Byte := be 8 2 ++ [18] ++ be 3 7 ++ .replicate 132 0

/-- In Run, stage 1 with a challenge out. -/
def challenged (cells : Byte) : Dev := { run with
  man := some { man1 with makerKeys := [(7, [1])] }
  chn := { run.chn with stages := run.chn.stages.set 0 { present := true, id := some ⟨1, cells⟩, challenge := some 4 } } }

theorem witness_Authentication : (up.chainWork = false ∧ (run.chn.stages.get 1).present = false) ∧
    (∀ c ∈ [(18 : Byte), 17], meets (challenged c) fun d => d.chainLive = true ∧ (d.chn.stages.get 0).present = true ∧
      d.duplicates 0 = [] ∧ (d.chn.stages.get 0).id = some ⟨1, c⟩ ∧ d.man = some { man1 with makerKeys := [(7, [1])] } ∧
      (d.chn.stages.get 0).challenge = some 4 ∧ d.keyCached 0 = false ∧
      ((d.chn.stages.get 0).reply { cert := cert1, sig := some [3] }).sig = some [3] ∧
      ((d.chn.stages.get 0).reply { cert := cert1, sig := some [3] }).cert = cert1 ∧
      ((d.chn.stages.get 0).reply { cert := cert2, sig := some [3] }).cert = cert2) ∧
    ofBe (slice 0 8 cert2) ≠ (1 : BitVec 64).toNat ∧
    (ofBe (slice 0 8 cert1) = (1 : BitVec 64).toNat ∧ (17 : Byte).toNat ≠ man1.cellCounts.getD 0 0) ∧
    (ofBe (slice 0 8 cert1) = (1 : BitVec 64).toNat ∧ cert1.getD 8 0 = (18 : Byte) ∧ (18 : Byte).toNat = man1.cellCounts.getD 0 0 ∧
      ([((7 : Word), [(1 : Byte)])].find? fun k => k.1.toNat = ofBe (slice 9 3 cert1)) = some (7, [1])) := by decide +kernel

theorem witness_Authentication_rest : (inState .closed).inClosedState = true ∧
    meets { run with chn := { run.chn with stages := (run.chn.stages.set 0 { present := true, id := some ⟨1, 18⟩ }).set 1 {
      present := true, id := some ⟨1, 12⟩ } } } (fun d => d.chainLive = true ∧ (d.chn.stages.get 0).present = true ∧
      d.duplicates 0 ≠ []) ∧
    ((run.chn.stages.get 0).challenge.isSome = false ∧ ((challenged 18).chn.stages.get 0).challenge.isSome = true ∧
      ((challenged 18).chn.stages.get 0).sigRead.isSome = false) ∧
    ({ sigRead := some [1] } : Stage).sigRead.isSome = true ∧
    (run.chn.stages.get 0).auth = false ∧
    meets run (fun d => d.chainLive = true ∧ (d.chn.stages.get 0).present = true ∧ (d.chn.stages.get 0).auth = false ∧
      d.chn.intact = true ∧ d.chn.tags = []) ∧
    takes run .est 1 := by unfold takes; decide +kernel

/-- In Run, the drover CLOSED, wanting a deliberate step. -/
def stepping : Dev := { inState .closed with
  est := { stepUse := 0x800000 + 0x00FF20 }, lim := { chg := .replicate 3 400 } }

/-- Fits of a burst running; a cell with what a fit needs. -/
def fitting : Dev := { run with est := { fitting := true, preTs := some 1, i1 := some 50000, flat := false
                                         cells := (Vector.replicate 576 {}).set 0
                                           { t := some 2500, pre := some (4, 0), first := some (39 / 10, 0) } } }

theorem witness_StepsAndRest :
    (up.inRun = false ∧ run.est.burst = false ∧ run.est.fitting = false ∧ run.est.stepReq = false) ∧
    meets { run with est := { burst := true } } (fun d => d.est.burst = true) ∧
    meets { run with est := { fitting := true } } (fun d => d.est.fitting = true ∧ d.insp.halted = false ∧
      d.powerFailing = false ∧ d.eng.nowE = false ∧ d.est.preTs = none) ∧
    meets { run with eng := { nowE := true } } (fun d => d.eng.nowE = true) ∧
    meets { run with est := { stepReq := true } } (fun d => d.est.stepReq = true ∧ (d.est.burst && d.est.delib) = false ∧
      d.insp.halted = false) ∧
    (bench.insp.halted = false ∧ ({ bench with insp := { halted := true } } : Dev).insp.halted = true) ∧
    meets { run with est := { burst := true, delib := true } } (fun d => (d.est.burst && d.est.delib) = true) ∧
    (run.insp.halted = false ∧ run.powerFailing = false ∧ (3 : Fin 576) ∈ run.listedCells) ∧
    (takes run .est 1 ∧ run.stepReady = false) := by unfold takes; decide +kernel

theorem witness_StepsAndRest_rest : run.man = some man1 ∧ run.isQuiet = true ∧ run.insp.halted = false ∧
    meets { run with est := { quiet := 1000 * man1.tRest } } (fun d => d.inRun = true ∧ d.isQuiet = true ∧
      1000 * man1.tRest ≤ d.est.quiet ∧ d.est.fused = false ∧ d.insp.halted = false ∧ d.powerFailing = false ∧
      d.eng.nowE = false) ∧
    meets { run with man := some { man1 with tRest := 1 } } (fun d => d.est.quiet < 1000 * 1) ∧
    (3 : Fin 576) ∈ run.listedCells ∧ (18 : Fin 576) ∉ run.listedCells ∧
    (run.est.cells.get 3).t = none ∧ ((fitting.est.cells.get 0).t ≠ none ∧ (fitting.est.cells.get 0).inserted = false) ∧
    ({ inserted := true } : Cell).inserted = true := by decide +kernel

theorem witness_StepsAndRest_stepNow : takes stepping .est 1 ∧ stepping.stepReady = true ∧ stepping.stepLargeEnough = true := by
  unfold takes; decide +kernel

theorem witness_StepsAndRest_fit : (fitting.est.fitting = true ∧ fitting.insp.halted = false ∧ fitting.powerFailing = false ∧
    fitting.eng.nowE = false ∧
    fitting.est.preTs ≠ none ∧ fitting.man = some man1 ∧ (0 : Fin 576) ∈ fitting.listedCells ∧
    (fitting.est.cells.get 0).pre = some (4, 0) ∧ (fitting.est.cells.get 0).first = some (39 / 10, 0) ∧
    fitting.est.i1 = some 50000 ∧ 80 * fitting.est.burstSnaps ≤ 100 * (fitting.chn.stages.get (stageOf 0)).burstRead ∧
    (fitting.est.cells.get 0).t = some 2500 ∧ (fitting.est.cells.get 0).fitFault = false ∧ fitting.est.flat = false ∧
    (fitting.est.cells.get 0).conf < 128 ∧ (0 : Rat) < (4 - 39 / 10) / ((50000 : Int) / 1000 - 0 - 0)) ∧
    (∀ q ∈ fitting.listedCells, q ≠ 0 → (fitting.est.cells.get q).pre = none) ∧
    meets { fitting with est := { fitting.est with burstSnaps := 10 } } (fun d =>
      100 * (d.chn.stages.get (stageOf 0)).burstRead < 80 * d.est.burstSnaps) := by
  decide +kernel

theorem witness_SampleSets : (({} : Dev).sup.doms.mod = false ∧ up.alive = true ∧ up.sup.doms.mod = true) ∧
    ((-2 ^ 23 : Rat) ≤ (2 * (1 / 2) - 1) * 2 ^ 23 ∧ (2 * (1 / 2) - 1 : Rat) * 2 ^ 23 ≤ 2 ^ 23 - 1 ∧
      (2 ^ 23 - 1 : Rat) < (2 * 1 - 1) * 2 ^ 23 ∧ (2 * (-1) - 1 : Rat) * 2 ^ 23 < -2 ^ 23) ∧
    meets { up with sen := { held := some default } } (fun d => d.sen.held.isSome = true) ∧
    meets { up with sup := { up.sup with doms := ⟨false, true, true, true, true, true⟩ } } (fun d => d.alive = true ∧
      d.sup.doms.mod = true ∧ d.sup.doms.per = false ∧ d.sen.held = none) ∧
    meets { up with sen := { settling := true } } (fun d => d.alive = true ∧ d.sup.doms.mod = true ∧ d.sup.doms.per = true ∧
      d.sen.settling = true ∧ d.sen.held = none) ∧
    (up.sup.doms.per = true ∧ up.sen.settling = false ∧ up.sen.held = none ∧ up.mdatValid 4 = true ∧
      up.mdatValid 5 = true ∧ up.tol.following = false) ∧
    meets { up with sen := { lost := 0x10 }, tol := { following := true } } (fun d => d.alive = true ∧ d.sup.doms.mod = true ∧
      d.sup.doms.per = true ∧ d.sen.settling = false ∧ d.mdatValid 4 = false ∧ d.tol.following = true) := by decide +kernel

theorem witness_Detectors : ({} : Dev).detectorsRun = false ∧ (up.detectorsRun = true ∧ up.sen.lost.getLsbD 5 = false) ∧
    meets { up with sen := { lost := 0x20, frozen := 0x01 } } (fun d => d.detectorsRun = true ∧ d.sen.lost.getLsbD 5 = true ∧
      d.sen.frozen.getLsbD 0 = true) ∧
    meets { run with seq := { drover := .precharge, phase := 1 } } (fun d => d.seq.drover = .precharge ∧ d.seq.phase < 2) ∧
    meets { run with seq := { drover := .precharge, phase := 2 } } (fun d => d.detectorsRun = true ∧ d.inRun = true ∧
      d.sen.frozen.getLsbD 3 = false ∧ d.seq.drover = .precharge ∧ 2 ≤ d.seq.phase) ∧
    (inState .closed).seq.drover = .closed ∧
    meets (inState .output) (fun d => d.detectorsRun = true ∧ d.inRun = true ∧ d.sen.frozen.getLsbD 5 = false ∧
      d.seq.drover = .output) ∧
    meets { up with sen := { settling := true } } (fun d => d.sen.settling = true) ∧ up.sen.settling = false ∧
    (∀ q ∈ [0, 15], meets { up with sen := { slot := q } } fun d => d.alive = true ∧ d.sup.doms.per = true ∧
      d.sup.doms.mod = true ∧ q = d.sen.slot % 16) ∧
    (sarRound[9]? = some (.ain 7) ∧ sarRound[14]? = some (.ntc 3)) ∧
    ((33 / 20 : Rat) * 4096 = (2048 : Nat) * (33 / 10) ∧ (33 / 10 : Rat) ≤ 4 ∧ (-1 : Rat) ≤ 0) := by decide +kernel

/-- In Run, with the first crossing of the first cell active at a voltage. -/
def crossing (v : Nat) : Dev := { run with est := { cells := (Vector.replicate 576 {}).set 0 { v := v, crossed := 1 } } }

theorem witness_CrossingsAndLatch_cells : Threshold.vHigh1.index = some 0 ∧ run.man = some man1 ∧
    (run.est.cells.get 0).crossed.getLsbD 0 = false ∧
    (∀ x ∈ [((4230000 : Nat), true), (4230001, false)], meets (crossing x.1) fun d =>
      (d.est.cells.get 0).crossed.getLsbD 0 = true ∧
      (d.est.cells.get 0).judged ((safer man1.th).cell 0).2.2 = some (x.1 : Int) ∧
      insideBy ((safer man1.th).cell 0).1 ((safer man1.th).cell 0).2.1 (if ((safer man1.th).cell 0).2.2 then 20000 else 200) x.1 = x.2) := by
  decide +kernel

theorem witness_CrossingsAndLatch : (run.ntcLevel false = some 800 ∧ run.sen.ntc.get (Fin.ofNat 4 0) = some 0 ∧
      run.lim.ntcCross.getLsbD (0 % 4) = false) ∧
    meets { run with lim := { ntcCross := 1 }, sen := { ntc := .replicate 4 (some 780) } } (fun d =>
      d.ntcLevel false = some 800 ∧ d.sen.ntc.get (Fin.ofNat 4 0) = some 780 ∧ d.lim.ntcCross.getLsbD (0 % 4) = true ∧
      (780 : Int) + 20 ≤ 800) ∧
    (run.faultClass 0 ≠ .d ∧ run.alive = true ∧ run.faultClass 27 = .d ∧ run.inRun = true ∧ run.seq.drover ≠ .lockout) := by
  decide +kernel

theorem witness_CrossingsAndLatch_clear : takes run .lim 1 ∧
    (run.saf.resetInput = false ∧ run.engineInput.saf.engInput = false) ∧
    meets { run with saf := { run.saf with resetInput := true } } (fun d => d.saf.resetInput = true) ∧
    meets { run with lim := { latched := 0x8000000, active := 0x8000000 } } (fun d => takes d .lim 1 ∧
      d.lim.latched.getLsbD 27 = true ∧ d.lockoutFlag 27 = false ∧ d.lim.active.getLsbD 27 = true) ∧
    meets { run with lim := { latched := 0x8000000 } } (fun d => takes d .lim 1 ∧
      ∀ f : Fin 39, d.lim.latched.getLsbD f = true → d.lockoutFlag f = false → f ≠ 28 → d.lim.active.getLsbD f = false) := by
  unfold takes; decide +kernel

theorem witness_PowerFaultAndClear : up.mayTrip 4 ⟨0, 0⟩ = false ∧
    (run.mayTrip 4 ⟨0, 0⟩ = true ∧ run.lim.latched.getLsbD 28 = false) ∧
    (∀ (k : K) (lo : Bool), (BitVec.ofNat 4 (2 * k.val + lo.toNat)).toNat = 2 * k.val + lo.toNat) ∧
    meets { run with lim := { latched := 0x10000000 } } (fun d => d.mayTrip 4 ⟨0, 0⟩ = true ∧ takes d .pwr 1 ∧
      d.lim.latched.getLsbD 28 = true ∧ d.pwr.causes = 0) ∧
    meets { run with lim := { latched := 0x10000000 }, pwr := { causes := 0x008 } } (fun d => takes d .pwr 1 ∧
      d.lim.latched.getLsbD 28 = true ∧ d.pwr.causes ≠ 0 ∧ d.pwr.causes &&& ~~~0x080 ≠ 0) ∧
    (takes run .pwr 1 ∧ run.pwr.causes &&& ~~~0x080 = 0) ∧
    meets { run with pwr := { drvEn := false } } (fun d => d.pwr.drvEn = false ∧ d.pwr.causes.getLsbD 7 = false ∧
      d.stageLive = true) := by unfold takes; decide

theorem witness_DumpAndDiagnostics : meets { run with pwr := { dumpOn := true } } (fun d => d.pwr.dumpOn = true ∧ d.alive = true) ∧
    meets { sup := { powered := false }, pwr := { dumpOn := true } } (fun d => d.pwr.dumpOn = true ∧ d.alive = false) ∧
    (run.pwr.dumpOn = false ∧ run.pwr.dumpDis = false ∧ run.pwr.dumpPause = false ∧ run.alive = true) ∧
    meets { sup := { powered := false } } (fun d => d.pwr.dumpOn = false ∧ d.alive = false) ∧
    (up.diagAllowed = false ∧ run.diagAllowed = true ∧ run.pwr.diagSeq = false ∧ run.pwr.diagPhase = none ∧
      run.pwr.ctstDue = false) ∧
    (∀ i ∈ [0, 1, 7, 8, 9, 10], meets { run with pwr := { diagSeq := true, diagPhase := some i, verdicts := 0 } } fun d =>
      d.pwr.diagPhase = some i ∧ i ≤ 10 ∧ getVerdict d.pwr.verdicts (i / 2) = 0) ∧
    meets { run with pwr := { ctstDue := true, diagSeq := true } } (fun d => d.pwr.ctstDue = true ∧ d.pwr.diagSeq = true) ∧
    meets { run with pwr := { ctstDue := true } } (fun d => d.pwr.ctstDue = true ∧ d.pwr.diagSeq = false) ∧
    ((0x40 : BitVec 23).getLsbD 6 = true ∧ ∀ j, j < 6 → (0x40 : BitVec 23).getLsbD j = false) ∧
    meets (inState .closed) (fun d => takes d .pwr 1 ∧ d.seq.drover ≠ .openS) ∧
    (takes run .pwr 1 ∧ run.inRun = true ∧ run.seq.drover = .openS ∧ run.lim.latched.getLsbD 28 = false) ∧
    meets { run with lim := { latched := 0x10000000 } } (fun d => takes d .pwr 1 ∧ d.inRun = true ∧ d.seq.drover = .openS ∧
      d.lim.latched.getLsbD 28 = true) ∧
    meets { run with pwr := { diagSeq := true } } (fun d => takes d .pwr 1 ∧ d.seq.drover = .openS ∧ d.pwr.diagSeq = true ∧
      d.lim.latched.getLsbD 28 = false) := by unfold takes; decide

/-- In Run, the pump under external control with its inputs as given. -/
def external (l : BitVec 4) : Dev := { run with pwr := { drvEn := true, pumpcfg := 0x800000, pumpUse := 0x800000, extIn := l } }

theorem witness_PumpAndGates : run.pumpExt = false ∧ ((external 0).pumpExt = true ∧ (external 0).pumpMayRun = true ∧
      (external 0).pwr.conflictEvt = false) ∧
    meets { external 0 with saf := { latch := true } } (fun d => d.pumpExt = true ∧ d.pumpMayRun = false) ∧
    ((external 0).revokeDue = false ∧ (external 0b0011).pumpExt = true ∧ (external 0b0011).revokeDue = true) ∧
    (0 < 900000 ∧ 1800000000 = 2000 * 900000 ∧ 2000 ≤ 0xFFF) ∧
    (run.pwr.duty < 200 ∧ run.pwr.tachLost = false ∧ run.pwr.tachFrozen = false ∧ run.saf.latch = false ∧ run.pumpGates = 0) ∧
    ((external 0).pumpPhase = false ∧ ({ external 0 with pwr := { drvEn := true, diagPhase := some 8 } } : Dev).pumpPhase = true) ∧
    meets { run with pwr := { drvEn := true, tachFrozen := true, duty := 200 } } (fun d => d.pwr.tachFrozen = true ∧
      200 ≤ d.pwr.duty ∧ d.pwr.tachLost = false ∧ d.pumpGates ≠ 0 ∧ d.pwr.cycleOff = false) ∧
    bit (run.pwr.gdrv.get 4) 23 = false ∧
    meets { run with pwr := { gdrv := .replicate 6 0x83F088, source := .replicate 6 9 } } (fun d => bit (d.pwr.gdrv.get 4) 23 = true ∧
      field (d.pwr.gdrv.get 4) 8 4 ≤ (d.pwr.source.get 4) ∧
      d.pwr.source.get 4 ≤ max (field (d.pwr.gdrv.get 4) 8 4) (field (d.pwr.gdrv.get 4) 12 4) ∧
      field (d.pwr.gdrv.get 4) 8 4 ≤ field (d.pwr.gdrv.get 4) 12 4) ∧
    (field (0x800F00 : Word) 12 4 < field (0x800F00 : Word) 8 4) := by decide

/-- In Run with guard 0 closed on both channels. -/
def guarded : Dev := { run with saf := { run.saf with filt := 0x03 } }

theorem witness_GuardChannels : up.saf.kindsLoaded = false ∧
    (guarded.alive = true ∧ guarded.saf.kindsLoaded = true ∧ guarded.guardUsed 0 = true ∧ guarded.guardClosed 0 = true ∧
      guarded.saf.testing.getLsbD 0 = false ∧ guarded.coilCommanded = false ∧ run.guardClosed 0 = false) ∧
    meetsCoil guarded 0 held (fun d _ => d.coilCommanded = true ∧ d.guardClosed 0 = true) ∧
    meets { guarded with saf := { guarded.saf with testing := 1 } } (fun d => d.guardClosed 0 = true ∧
      d.saf.testing.getLsbD 0 = true) ∧
    meets { run with saf := { run.saf with filt := 0x02 } } (fun d => d.alive = true ∧ d.saf.kindsLoaded = true ∧
      d.guardUsed 0 = true ∧ d.guardClosed 0 = false ∧ d.closedA 0 ≠ d.closedB 0 ∧ d.saf.testing.getLsbD 0 = false ∧
      d.saf.disc.getLsbD 0 = false ∧ guardOf 0 = 0) ∧
    meets { run with saf := { run.saf with filt := 0x02, testing := 1 } } (fun d => d.alive = true ∧ d.saf.kindsLoaded = true ∧
      d.guardUsed 0 = true ∧ d.closedA 0 ≠ d.closedB 0 ∧ d.saf.testing.getLsbD 0 = true) ∧
    (putBit guarded.saf.filt 0 false = 0x02 ∧ putBit (0x02 : Byte) 0 true = 0x03) := by decide

theorem witness_GuardTests : meets up (fun d => takes d .saf 1 ∧ d.inRun = false) ∧
    meets (inState .closed) (fun d => takes d .saf 1 ∧ d.inRun = true ∧ d.seq.drover ≠ .openS) ∧
    (takes run .saf 1 ∧ run.inRun = true ∧ run.seq.drover = .openS ∧ run.guardUsed 3 = false) ∧
    (run.guardUsed 0 = true ∧ run.guardSwitch 0 = true ∧ run.saf.latch = false ∧ run.saf.testing.getLsbD 0 = false ∧
      run.guardProven 0 = false) ∧
    meets { run with saf := { run.saf with latch := true } } (fun d => takes d .saf 1 ∧ d.inRun = true ∧ d.seq.drover = .openS ∧
      d.guardUsed 0 = true ∧ d.guardSwitch 0 = true ∧ d.saf.latch = true) ∧
    meets { run with saf := { run.saf with testing := 1 } } (fun d => takes d .saf 1 ∧ d.inRun = true ∧ d.seq.drover = .openS ∧
      d.guardUsed 0 = true ∧ d.guardSwitch 0 = true ∧ d.saf.latch = false ∧ d.saf.testing.getLsbD 0 = true) := by
  unfold takes; decide

/-- In Run and Normal, the drover CLOSED, every condition of a session met. -/
def sellable : Dev := { inState .closed with
  tol := { outLow := 10 }, lgr := { next := 1 } }

theorem witness_SessionCommands_open :
    meets { inState .closed with mode := { mode := .run, bench := true } } (fun d => takes d .tol 1 ∧ d.inRun = true ∧
      d.seq.drover = .closed ∧ d.runState = .bench) ∧
    meets bench (fun d => takes d .tol 1 ∧ d.inRun = true ∧ d.seq.drover ≠ .closed) ∧
    (takes up .tol 1 ∧ up.inRun = false) ∧
    (takes sellable .tol 1 ∧ sellable.inRun = true ∧ sellable.runState = .normal ∧
      sellable.seq.drover = .closed ∧ sellable.tol.session = .none_ ∧ sellable.tol.session ≠ .suspended ∧
      sellable.sup.timeValid = true ∧ sellable.tol.sealOpen = false ∧ sellable.tol.paramBad = false ∧
      sellable.mdatValid 4 = true ∧ sellable.mdatValid 5 = true ∧ sellable.tol.stop = false ∧ sellable.lgr.free ≠ 0 ∧
      2 ≤ sellable.stagingFree ∧ sellable.outputPrecheck = true) ∧
    meets { sellable with tol := { session := .suspended, outLow := 10 } } (fun d => takes d .tol 1 ∧
      d.tol.session = .suspended ∧ d.outputPrecheck = true) := by unfold takes; decide

theorem witness_SessionCommands_refusals :
    meets { sellable with sup := { sellable.sup with timeValid := false } } (fun d => takes d .tol 1 ∧ d.sup.timeValid = false) ∧
    meets { sellable with tol := { sealOpen := true } } (fun d => takes d .tol 1 ∧ d.tol.sealOpen = true) ∧
    meets { sellable with sen := { lost := 0x20 } } (fun d => takes d .tol 1 ∧ d.mdatValid 5 = false) ∧
    meets { sellable with tol := { stop := true } } (fun d => takes d .tol 1 ∧ d.tol.stop = true) ∧
    meets { sellable with lgr := { next := 1537 } } (fun d => takes d .tol 1 ∧ d.lgr.free = 0) ∧
    meets { sellable with lgr := { next := 8, signing := .replicate 7 ⟨1, []⟩ } } (fun d => takes d .tol 1 ∧ d.lgr.free ≠ 0 ∧
      d.stagingFree < 2) ∧
    meets { sellable with tol := { outLow := 9 } } (fun d => takes d .tol 1 ∧ d.lgr.free ≠ 0 ∧ 2 ≤ d.stagingFree ∧
      d.outputPrecheck = false) := by unfold takes; decide

theorem witness_SessionCommands_close :
    meets (inState .hold) (fun d => takes d .tol 1 ∧ d.seq.drover = .hold) ∧
    meets { up with tol := { session := .suspended } } (fun d => takes d .tol 1 ∧ d.inRun = false ∧ d.seq.drover ≠ .hold ∧
      d.tol.session = .suspended ∧ d.tol.suspendDue = false ∧ d.tol.due = [] ∧ d.lgr.waitingAudit = []) ∧
    (∀ x ∈ [Session.none_, .opening, .active, .closing], meets { inState .output with tol := { session := x } } fun d =>
      takes d .tol 1 ∧ d.seq.drover ≠ .hold ∧ d.tol.session = x ∧ d.tol.due = [] ∧ d.lgr.waitingAudit = []) ∧
    meets { run with tol := { session := .suspended } } (fun d => takes d .tol 1 ∧ d.inRun = true ∧ d.seq.drover ≠ .hold ∧
      d.tol.session = .suspended ∧ d.tol.suspendDue = false ∧ d.tol.due = [] ∧ d.lgr.waitingAudit = [] ∧
      d.runState ≠ .bench ∧ 1 ≤ d.stagingFree) := by
  unfold takes; decide

theorem witness_SessionCommands_records : up.inRun = false ∧
    meets { run with sup := { run.sup with rtc := 0x100000000 }, tol := { session := .active } } (fun d => d.inRun = true ∧
      d.tol.session = .active ∧ TollRecord.ended ∉ d.tol.due ∧ d.tol.intEnd ≤ d.sup.rtc.toNat) ∧
    meets { run with tol := { session := .active, due := [.interim] } } (fun d => d.inRun = true ∧ d.runState ≠ .bench ∧
      1 ≤ d.stagingFree ∧ d.tol.due = [.interim] ∧ d.lgr.waitingAudit = []) ∧
    meets { run with tol := { session := .active, intFrom := 5 } } (fun d => d.sup.rtc.toNat < d.tol.intEnd) ∧
    meets { run with tol := { due := [.ended] } } (fun d => TollRecord.ended ∈ d.tol.due) ∧
    (takes bench .tol 1 ∧ bench.runState = .bench) ∧ (takes run .tol 1 ∧ run.inRun = true ∧ run.runState ≠ .bench ∧
      run.canStageAudit = true ∧ run.tol.due = [] ∧ run.lgr.waitingAudit = []) ∧
    meets { run with lgr := { signing := .replicate 8 ⟨1, []⟩ } } (fun d => takes d .tol 1 ∧ d.inRun = true ∧
      d.runState ≠ .bench ∧ (accepted d 1 0x04).drainRecords.canStageAudit = false) := by unfold takes; decide

theorem witness_SealAndSealedParameters :
    meets { run with tol := { session := .active } } (fun d => takes d .tol 1 ∧ d.tol.session ≠ .none_) ∧
    (takes run .tol 1 ∧ run.tol.session = .none_ ∧ run.tol.enclOpen = false ∧ run.tol.sealOpen = false) ∧
    meets { run with tol := { enclOpen := true }, lgr := { next := 1 } } (fun d => takes d .tol 1 ∧ d.tol.session = .none_ ∧
      d.tol.enclOpen = true ∧ d.tol.sealOpen = false ∧ d.recordsRun = true ∧ 1 ≤ d.stagingFree ∧ d.tol.due = [] ∧
      d.lgr.waitingAudit = []) ∧
    meets { run with tol := { enclOpen := true }, lgr := { signing := .replicate 8 ⟨1, []⟩ } } (fun d => takes d .tol 1 ∧
      d.tol.session = .none_ ∧ d.tol.enclOpen = true ∧ d.tol.sealOpen = false ∧ d.stagingFree = 0 ∧ d.canStage 0 = false ∧
      d.tol.due = []) ∧
    meets { run with tol := { enclOpen := true, sealOpen := true }, lgr := { next := 1 } } (fun d => takes d .tol 1 ∧
      d.tol.session = .none_ ∧ d.tol.enclOpen = true ∧ d.tol.sealOpen = true ∧ d.recordsRun = true ∧ d.canStageAudit = true ∧
      d.tol.due = [] ∧ d.lgr.waitingAudit = []) ∧
    (run.tol.enclOpen = !(!false && true) ∧ run.tol.enclOpen = false ∧ (!true && true) = false ∧ run.alive = true ∧
      run.vaoUp = true) := by
  unfold takes; decide

theorem witness_SealAndSealedParameters_levels :
    meets { bench with insp := { halted := true }, lgr := { next := 1 } } (fun d => d.alive = true ∧ d.framesRun = false ∧
      d.recordsRun = true ∧ d.canStageAudit = true ∧ d.lgr.waitingAudit = [] ∧ d.vaoUp = true ∧ d.tol.enclOpen = false) ∧
    (run.framesRun = true ∧ up.inRun = false ∧ up.recordsRun = false) ∧
    meets { run with sup := { run.sup with powered := false, vbkAbsent := true } } (fun d => d.vaoUp = false) ∧
    meets watching (fun d => d.alive = true ∧ d.tol.enclOpen = false) ∧ ({} : Dev).recordsRun = false := by decide

theorem witness_SealAndSealedParameters_writes : (∀ a ∈ [0x192, 0x193, 0x194, 0x195, 0x196, 0x197, 0x198], serves run a) ∧
    (decide (100 ≤ field (0x0186A0 : Word) 0 17 ∧ field (0x0186A0 : Word) 0 17 ≤ 100000) = true ∧
      decide (100 ≤ field (0x0186A1 : Word) 0 17 ∧ field (0x0186A1 : Word) 0 17 ≤ 100000) = false) ∧
    (decide (-48 ≤ signedField (0xD0010F : Word) 16 8 ∧ signedField (0xD0010F : Word) 16 8 ≤ 56 ∧
      1 ≤ field (0xD0010F : Word) 8 8 ∧ 1 ≤ field (0xD0010F : Word) 0 6 ∧ field (0xD0010F : Word) 0 6 ≤ 60) = true) ∧
    (run.tol.gainV &&& 0xFFFFFF = 0 &&& 0xFFFFFF ∧ run.tol.gainV &&& 0xFFFFFF ≠ 1 &&& 0xFFFFFF) ∧
    run.tol.sealOpen = false ∧
    meets { run with tol := { sealOpen := true } } (fun d => serves d 0x192 ∧ d.tol.sealOpen = true ∧ d.canStageAudit = true ∧
      d.tol.audit < 0xFFFFFF ∧ d.framesRun = true) ∧
    meets { bench with insp := { halted := true }, tol := { sealOpen := true }, lgr := { next := 1 } } (fun d => serves d 0x192 ∧
      d.tol.sealOpen = true ∧ d.canStageAudit = true ∧ d.framesRun = false ∧ d.recordsRun = true ∧ d.lgr.waitingAudit = []) ∧
    (0x191 : Addr).toNat < 0x192 ∧ 0x198 < (0x199 : Addr).toNat := by unfold serves; decide

theorem witness_MeterStopAndImpulse : run.tol.stop = false ∧
    meets { run with tol := { stop := true, absent := 9 } } (fun d => d.tol.absent < 10) ∧
    meets { run with tol := { stop := true, absent := 10, owed := 1 } } (fun d => d.tol.stop = true ∧ d.tol.stopInput = false ∧
      d.tol.stopStaging = false ∧ 10 ≤ d.tol.absent ∧ d.inRun = true ∧ 0 < d.tol.owed) ∧ run.tol.owed = 0 := by decide

theorem witness_CommitProtocol : depotCanonical (here run) ∧ (run.lgr.signing = [] ∧ run.lgr.staging = []) ∧
    meets { run with lgr := { signing := [⟨1, [7]⟩] } } (fun d => d.lgr.signing = [⟨1, [7]⟩]) ∧
    meets { run with lgr := { staging := [⟨1537, [7]⟩], ack := 0 } } (fun d => d.lgr.staging = [⟨1537, [7]⟩] ∧
      d.lgr.ack + 1536 < 1537) ∧
    (∀ e ∈ [false, true], meets { run with lgr := { staging := [⟨1536, [7]⟩], depotErr := e } } fun d => d.lgr.depotErr = e ∧
      d.lgr.staging = [⟨1536, [7]⟩] ∧ d.lgr.committing = false ∧ d.dep.busy = none ∧ d.sup.doms.dep = true ∧
      1536 ≤ d.lgr.ack + 1536) ∧
    meets { run with sup := { run.sup with doms := { run.sup.doms with dep := false } } } (fun d => d.sup.doms.dep = false ∧
      d.mayStart = true) ∧
    (({} : Dev).sup.doms.dep = false ∧ ({} : Dev).mayStart = false) ∧
    meets { run with lgr := { staging := [⟨1, [7]⟩], committing := true } } (fun d => d.lgr.committing = true ∧
      d.lgr.staging = [⟨1, [7]⟩]) ∧ run.lgr.committing = false := by unfold depotCanonical; decide

theorem witness_AckAndRecordCheck : (takes run .lgr 1 ∧ run.lgr.commit ≤ run.lgr.ack ∧ run.lgr.committing = false) ∧
    meets { run with lgr := { acksetLo := 5, commit := 4 } } (fun d => takes d .lgr 1 ∧
      d.lgr.commit < field d.lgr.acksetHi 0 8 * 2 ^ 24 + d.lgr.acksetLo.toNat) ∧
    meets { run with lgr := { acksetLo := 4, commit := 4 } } (fun d => takes d .lgr 1 ∧ d.lgr.committing = false ∧
      field d.lgr.acksetHi 0 8 * 2 ^ 24 + d.lgr.acksetLo.toNat ≤ d.lgr.commit ∧
      d.lgr.ack < field d.lgr.acksetHi 0 8 * 2 ^ 24 + d.lgr.acksetLo.toNat) ∧
    meets { run with lgr := { acksetLo := 4, commit := 4, committing := true } } (fun d => takes d .lgr 1 ∧
      d.lgr.committing = true) ∧
    (run.inRun = true ∧ run.needDepot.depotFree = true ∧ run.dep.jobs = [] ∧ run.powerFailing = false ∧ run.insp.halted = false) ∧
    meets { run with lgr := { commit := 3, cursor := 3 }, dep := { waiting := [.lifetime] } } (fun d => d.inRun = true ∧
      d.needDepot.depotFree = true ∧ d.dep.jobs = [] ∧ (∀ t ∈ d.dep.waiting, t = .lifetime) ∧ d.lgr.ack < d.lgr.commit ∧
      (3 : Nat) ∉ d.lgr.judged) ∧
    meets { run with lgr := { commit := 3 }, dep := { waiting := [.log] } } (fun d => d.inRun = true ∧ d.lgr.ack < d.lgr.commit ∧
      ∃ t ∈ d.dep.waiting, t ≠ .lifetime) := by unfold takes; decide

/-- In Run, with byte 187 of slot 3 as given and zeros around it. -/
def slotByte (b : Byte) : Dev := { run with dep := { run.dep with cs0 := if b = 0 then [] else [(0x203BB, b)] } }

/-- The two slots differ in their stored CRC-32 alone, so that it is wrong in one of them. -/
theorem witness_AckAndRecordCheck_slot : (∃ b ∈ [(0 : Byte), 1],
      ofBe (slice 184 4 ((slotByte b).cs0 (0x20000 + 256 * (3 % 1536)) 256)) ≠
        (crc32 (slice 0 184 ((slotByte b).cs0 (0x20000 + 256 * (3 % 1536)) 256))).toNat) ∧
    meets { run with lgr := { commit := 3, judged := [3] } } (fun d => 3 ∈ d.lgr.judged) := by
  have same : slice 0 184 ((slotByte 1).cs0 (0x20000 + 256 * (3 % 1536)) 256) =
      slice 0 184 ((slotByte 0).cs0 (0x20000 + 256 * (3 % 1536)) 256) := by decide +kernel
  have zero : ofBe (slice 184 4 ((slotByte 0).cs0 (0x20000 + 256 * (3 % 1536)) 256)) = 0 := by decide +kernel
  have one : ofBe (slice 184 4 ((slotByte 1).cs0 (0x20000 + 256 * (3 % 1536)) 256)) = 1 := by decide +kernel
  refine ⟨?_, by decide⟩
  by_cases h : (crc32 (slice 0 184 ((slotByte 0).cs0 (0x20000 + 256 * (3 % 1536)) 256))).toNat = 0
  · exact ⟨1, by decide, by rw [same, one, h]; decide⟩
  · exact ⟨0, by decide, by rw [zero]; exact fun e => h e.symm⟩

/-- In Run, CAN0 live, with this frame on the bus and these in the FIFO. -/
def onCan (o : Option OnBus) (fifo : List TxFrame) : Dev := { run with can0 := { run.can0 with onBus := o, fifo := fifo } }

theorem witness_CanTransmission : up.canLive .can1 = true ∧ ({} : Dev).canLive .can0 = false ∧
    meets { run with can0 := { run.can0 with prio := [⟨.status, frame1, 0⟩] } } (fun d => d.canLive .can0 = true ∧
      bit (d.can .can0).cfg 18 = false ∧ (d.can .can0).onBus = none ∧ (d.can .can0).prio = [⟨.status, frame1, 0⟩]) ∧
    meets { run with can0 := { run.can0 with tt := run.can0.tt.set 0 { ent := 0x800132, due := true } } } (fun d =>
      d.canLive .can0 = true ∧ (d.can .can0).prio = [] ∧ (d.can .can0).dueEntries ≠ []) ∧
    meets (onCan none [⟨3, frame1, 0⟩]) (fun d => d.canLive .can0 = true ∧ bit (d.can .can0).cfg 18 = false ∧
      (d.can .can0).onBus = none ∧ (d.can .can0).prio = [] ∧ (d.can .can0).dueEntries = [] ∧
      (d.can .can0).fifo = [⟨3, frame1, 0⟩] ∧ frame1.fdf = false) ∧
    meets (onCan none [⟨3, { frame1 with fdf := true, rtr := true }, 0⟩]) (fun d => d.canLive .can0 = true ∧
      (d.can .can0).prio = [] ∧ (d.can .can0).dueEntries = []) ∧
    (run.can0.prio = [] ∧ run.can0.dueEntries = [] ∧ run.can0.fifo = [] ∧ run.can0.onBus = none) := by decide +kernel

theorem witness_CanTransmission_attempts :
    (∀ t ∈ [0, 2, 3], meets (onCan (some ⟨.fifo, frame1, none, t⟩) [⟨3, frame1, t⟩]) fun d => d.canLive .can0 = true ∧
      (d.can .can0).onBus = some ⟨.fifo, frame1, none, t⟩ ∧ (d.can .can0).fifo = [⟨3, frame1, t⟩] ∧ (d.can .can0).state = 0 ∧
      (d.can .can0).tec + 8 ≤ 255 ∧ field (d.can .can0).cfg 0 4 = 3) ∧
    meets (onCan (some ⟨.fifo, frame1, some 2, 0⟩) [⟨3, frame1, 0⟩]) (fun d => d.canLive .can0 = true ∧
      (d.can .can0).onBus = some ⟨.fifo, frame1, some 2, 0⟩) ∧
    meets { run with can0 := { run.can0 with onBus := some ⟨.fifo, frame1, none, 0⟩, fifo := [⟨3, frame1, 0⟩], tec := 248 } } (fun d =>
      d.canLive .can0 = true ∧ (d.can .can0).state = 0 ∧ 255 < (d.can .can0).tec + 8) ∧
    meets (onCan (some ⟨.timetable 4, frame1, none, 0⟩) []) (fun d => (d.can .can0).onBus = some ⟨.timetable 4, frame1, none, 0⟩) ∧
    (∀ t ∈ [0, 3], meets (onCan (some ⟨.priority .status, frame1, none, t⟩) []) fun d => d.canLive .can0 = true ∧
      (d.can .can0).onBus = some ⟨.priority .status, frame1, none, t⟩ ∧ (d.can .can0).state = 0 ∧ (d.can .can0).tec + 8 ≤ 255 ∧
      (d.can .can0).enabled .status = true ∧ (d.can .can0).prio = []) := by
  decide

theorem witness_CanErrors : run.canLive .can0 = true ∧
    meets { watching with sup := { watching.sup with doms := {} }, mode := { mode := .watch, wakecfg := 3 } } (fun d =>
      d.canLive .can0 = false ∧ d.mode.mode = .watch ∧ bit d.mode.wakecfg 1 = true) ∧
    (({} : Dev).canLive .can0 = false ∧ ({} : Dev).mode.mode ≠ .watch) ∧
    meets (onCan (some ⟨.fifo, frame1, none, 1⟩) [⟨3, frame1, 1⟩]) (fun d => d.canLive .can0 = true ∧
      (d.can .can0).onBus = some ⟨.fifo, frame1, none, 1⟩ ∧ (d.can .can0).fifo = [⟨3, frame1, 1⟩]) ∧
    meets (onCan none [⟨3, frame1, 1⟩]) (fun d => d.inRun = true ∧ bit (d.can .can0).hcfg 23 = true ∧
      (d.can .can0).onBus = none ∧ (d.can .can0).fifo = [⟨3, frame1, 1⟩]) ∧
    (run.can0.state ≠ 2 ∧ run.inRun = true ∧ bit run.can0.hcfg 23 = true ∧ bit run.can1.hcfg 23 = false ∧
      run.can0.succeeded = false ∧ ({ run.can0 with succeeded := true } : Can).succeeded = true) ∧
    meets { run with can0 := { run.can0 with state := 2, recovering := true } } (fun d => d.sup.doms.can = true ∧
      (d.can .can0).state = 2 ∧ (d.can .can0).recovering = true) ∧ takes run (canReg .can0) 1 := by unfold takes; decide

/-- In Run, with a filter for `frame1`'s identifier in one mailbox of CAN0. -/
def filtered (n : Fin 16) (c : Can) : Dev := { run with can0 := { c with mbid := c.mbid.set n 0x123, mbmask := c.mbmask.set n 0x8007FF } }

theorem witness_CanReception : (({ frame1 with fdf := true, rtr := true } : CanFrame).fdf = true) ∧
    (run.detecting .can0 = false ∧ run.canLive .can0 = true) ∧
    meets { watching with mode := { mode := .watch, wakecfg := 3 } } (fun d => d.mode.mode = .watch ∧ bit d.mode.wakecfg 1 = true) ∧
    (∀ n ∈ [(0 : Fin 16), 1, 15], meets (filtered n run.can0) fun d => d.canLive .can0 = true ∧ frame1.fdf = false ∧
      filterMatches ((d.can .can0).mbid.get n) ((d.can .can0).mbmask.get n) frame1 = true ∧
      (∀ m, m < n → filterMatches ((d.can .can0).mbid.get m) ((d.can .can0).mbmask.get m) frame1 = false)) ∧
    (bit run.can0.pubcfg 21 = true ∧ frame1.rtr = false ∧ frame1.dlc ≠ 0 ∧ run.inRun = true ∧ bit run.can0.hcfg 23 = true) ∧
    meets (filtered 0 { run.can0 with timedOut := true, aliveCount := 2, mbnew := 1 }) (fun d => d.canLive .can0 = true ∧
      (d.can .can0).aliveLast ≠ some (frame1.data.getD 0 0) ∧ (d.can .can0).timedOut = true ∧ 2 ≤ (d.can .can0).aliveCount ∧
      (d.can .can0).mbnew.getLsbD 0 = true ∧ d.can1.timedOut = false) ∧
    (({ frame1 with data := [1] } : CanFrame).data.getD 0 0 = 1 ∧ run.watchAllowed = true) := by decide +kernel

theorem witness_CanReception_fifo : (∀ m : Fin 16, filterMatches (run.can0.mbid.get m) (run.can0.mbmask.get m) frame1 = false) ∧
    (run.canLive .can0 = true ∧ bit run.can0.cfg 19 = true ∧ run.can0.rxfifo.length < 64) ∧
    meets { run with can0 := { run.can0 with rxfifo := .replicate 64 frame1 } } (fun d => d.canLive .can0 = true ∧
      64 ≤ (d.can .can0).rxfifo.length) ∧
    bit ({ run.can0 with cfg := 0x900003 } : Can).cfg 19 = false ∧ takes run (canReg .can0) 1 ∧ serves run (canBase .can1 + 0x12) := by
  unfold takes serves; decide +kernel

theorem witness_CanQueueAndTimetable : (takes run (canReg .can0) 1 ∧ bit run.can0.cfg 23 = true ∧ run.evt.shed ≠ 3 ∧
      run.can0.shed = false ∧ run.can0.fifo.length < 16 ∧ run.can0.stagingFrame.fdf = false ∧ run.can0.nextTag < 32 ∧
      run.can0.tagOnBus run.can0.arg = false ∧ (∀ x ∈ run.can0.fifo, x.tag ≠ run.can0.arg)) ∧
    meets { run with can0 := { run.can0 with cfg := 0 } } (fun d => takes d (canReg .can0) 1 ∧ bit (d.can .can0).cfg 23 = false) ∧
    meets { run with can0 := { run.can0 with shed := true } } (fun d => takes d (canReg .can0) 1 ∧ (d.can .can0).shed = true) ∧
    meets { run with can0 := { run.can0 with fifo := .replicate 16 ⟨0, frame1, 0⟩ } } (fun d => takes d (canReg .can0) 1 ∧
      16 ≤ (d.can .can0).fifo.length) ∧
    meets { run with can0 := { run.can0 with cfg := 0xB80003, txinfo := 0xFFFFFF } } (fun d => takes d (canReg .can0) 1 ∧
      bit (d.can .can0).cfg 22 = false ∧ (d.can .can0).stagingFrame.fdf = true) ∧
    meets (onCan (some ⟨.fifo, frame1, none, 0⟩) [⟨0, frame1, 0⟩]) (fun d => takes d (canReg .can0) 1 ∧
      (d.can .can0).tagOnBus (d.can .can0).arg = true) ∧
    meets (onCan none [⟨0, frame1, 0⟩]) (fun d => takes d (canReg .can0) 1 ∧ (d.can .can0).tagOnBus (d.can .can0).arg = false ∧
      ∃ x ∈ (d.can .can0).fifo, x.tag = (d.can .can0).arg) := by unfold takes; decide +kernel

theorem witness_CanQueueAndTimetable_entries : ((0 : Fin 32).val = run.can0.arg ∧ takes run (canReg .can0) 1 ∧ takes run (canReg .can1) 1 ∧
      run.can1.carriesCells 0 = false) ∧
    (run.can0.carriesCells 0 = true) ∧
    meets (onCan (some ⟨.timetable 0, frame1, none, 0⟩) []) (fun d => ∃ o, (d.can .can0).onBus = some o ∧ o.source = .timetable 0) ∧
    (run.sup.doms.can = true ∧ bit run.can0.ttcfg 23 = true ∧ bit (run.can0.tt.get 0).ent 23 = true ∧
      field (run.can0.tt.get 0).ent 8 8 ≠ 0 ∧ field (run.can0.tt.get 0).ent 0 8 < field run.can0.ttcfg 0 8 ∧
      (run.can0.tt.get 0).due = false ∧ (run.can0.tt.get 0).own = false) ∧
    (({ own := true } : TtEntry).own = true ∧ run.can1.carriesCells 0 = false) ∧ bit (run.can0.tt.get 1).ent 23 = false ∧
    (run.can0.enabled .status = true ∧ run.can1.enabled .status = false ∧ run.est.stepReq = false) ∧
    meets { run with est := { stepReq := true } } (fun d => d.sup.doms.can = true ∧ d.est.stepReq = true) := by
  unfold takes
  refine ⟨by decide, by decide, ⟨_, rfl, rfl⟩, by decide, by decide, by decide, by decide, by decide⟩

/-- Running, with an access outstanding. -/
def waits (x : Access) (delivered : Bool) : Dev := { run with hst := { access := some x, delivered := delivered } }

theorem witness_RegisterFrames : ((0x081 : Addr) ≠ 0x212 ∧ cmdAt (0x081 : Addr).toNat = none ∧ registerListed 0x081 = true) ∧
    meets { sup := { powered := false } } (fun d => d.alive = false) ∧
    (registerListed (0x01F : Addr).toNat = false ∧ cmdAt (0x01F : Addr).toNat = none ∧ run.hst.access = none) ∧
    meets (waits (.read 0x081) true) (fun d => d.alive = true ∧ d.hst.access = some (.read 0x081) ∧
      capturedAt (0x081 : Addr).toNat = none ∧ d.runsFor (d.accessNeeds (.read 0x081)) = true) ∧
    meets ({} : Dev) (fun d => d.alive = true ∧ d.hst.access = none ∧ d.runsFor (accessDomain 0x081) = false) ∧
    (inAlwaysOn 0x169 = true ∧ run.runsFor (accessDomain 0x081) = true ∧ serves run 0x081) ∧
    (capturedAt (0x070 : Addr).toNat = capturedAt 0x070) ∧
    meets (waits (.write 0x169 1) true) (fun d => d.hst.access = some (.write 0x169 1)) ∧
    meets (waits (.write 0x081 0x40) true) (fun d => d.alive = true ∧ d.hst.access = some (.write 0x081 0x40) ∧
      registerListed 0x081 = true ∧ d.runsFor (accessDomain 0x081) = true) ∧
    meets { waits (.write 0x081 0x40) false with sup := {} } (fun d => d.alive = true ∧ d.runsFor (accessDomain 0x081) = false) := by
  unfold serves; decide

theorem witness_RegisterFrames_writes :
    (∃ d', run.numberFrame.writeReg 0x081 0x40 = .ok d') ∧ run.numberFrame.writeReg 0x081 0x80 = .error 4 ∧
    (∃ d', (framed run).writeReg 0x081 0x40 = .ok d') ∧ (framed run).writeReg 0x081 0x80 = .error 4 ∧
    (∃ d', (noAccess run).writeReg 0x081 0x40 = .ok d') ∧ (noAccess run).writeReg 0x081 0x80 = .error 4 :=
  ⟨⟨_, rfl⟩, rfl, ⟨_, rfl⟩, rfl, ⟨_, rfl⟩, rfl⟩

theorem witness_RegisterFrames_captured : ∃ (a first : Addr) (n : Nat), capturedAt first.toNat = some (first.toNat, n) ∧
    capturedAt a.toNat = some (first.toNat, n) ∧ a.toNat ≠ first.toNat ∧ a ≠ 0x212 ∧ cmdAt a.toNat = none ∧
    registerListed a.toNat = true ∧ first ≠ 0x212 ∧ cmdAt first.toNat = none ∧ registerListed first.toNat = true ∧
    run.runsFor (accessDomain a.toNat) = true := ⟨0x184, 0x183, 2, by decide⟩

/-- A frame of an opcode, an address and data, with its check value right. -/
def rawFrame (op addr data : Nat) : BitVec 48 :=
  BitVec.ofNat 48 ((op * 2 ^ 36 + addr * 2 ^ 24 + data) * 2 ^ 8 + (crc8 (be 5 (op * 2 ^ 36 + addr * 2 ^ 24 + data))).toNat)

theorem witness_NopAbortAndBadFrames : meets { sup := { powered := false } } (fun d => d.alive = false) ∧
    (run.alive = true ∧ run.hst.access = none ∧ run.hst.fetch.getD (0, 0) = (0, 0)) ∧
    meets (waits (.read 0x081) false) (fun d => d.alive = true ∧ d.hst.access = some (.read 0x081) ∧ d.hst.delivered = false ∧
      (Access.read 0x081).crossing = false ∧ d.runsFor (d.accessNeeds (.read 0x081)) = true) ∧
    meets { waits (.read 0x081) false with sup := {} } (fun d => d.alive = true ∧ d.hst.access = some (.read 0x081) ∧
      d.hst.delivered = false ∧ (Access.read 0x081).crossing = false ∧ d.runsFor (d.accessNeeds (.read 0x081)) = false) ∧
    meets (waits (.write 0x169 1) false) (fun d => d.hst.access = some (.write 0x169 1) ∧ d.hst.delivered = false ∧
      (Access.write 0x169 1).crossing = true) ∧
    meets (waits (.read 0x081) true) (fun d => d.alive = true ∧ d.hst.access = some (.read 0x081) ∧ d.hst.delivered = true) := by
  decide

theorem witness_NopAbortAndBadFrames_frames :
    (∀ x ∈ [((0 : Nat), (0x081 : Nat)), (8, 0x081), (7, 0x081), (5, 0x081), (1, 0x081)],
      crc8 (be 5 ((rawFrame x.1 x.2 0).toNat / 2 ^ 8)) = BitVec.ofNat 8 (rawFrame x.1 x.2 0).toNat ∧
      (rawFrame x.1 x.2 0).toNat / 2 ^ 44 = x.1 ∧ (rawFrame x.1 x.2 0).toNat / 2 ^ 32 % 4096 = x.2) ∧
    cmdAt 0x081 = none ∧ (0x081 : Nat) ≠ 0x212 ∧
    decide (crc8 (be 5 ((0 : BitVec 48).toNat / 2 ^ 8)) = BitVec.ofNat 8 (1 : BitVec 48).toNat) = false := by decide +kernel

/-- Running, with a window selected and an address in it. -/
def inWindow (d : Dev) (n addr : Nat) : Dev := { d with hst := { d.hst with winSel := word n, winAddr := word addr } }

theorem witness_Windows : (run.alive = true ∧ run.hst.access = none ∧ run.sup.doms.per = true ∧ field (6 : Word) 0 3 ≤ 6 ∧ field (7 : Word) 0 3 = 7) ∧
    meets (inWindow run 0 0xFFFFFF) (fun d => d.windowOk = false ∧ d.window = 0) ∧
    meets (inWindow run 6 1023) (fun d => d.alive = true ∧ d.hst.access = none ∧ d.windowOk = true ∧ d.window = 6 ∧
      d.sup.doms.per = true) ∧
    meets { inWindow run 1 0 with sup := { run.sup with doms := {} } } (fun d => d.windowOk = true ∧ d.window = 1 ∧
      d.sup.doms.per = false) ∧
    meets (inWindow run 0 0) (fun d => d.windowOk = true ∧ d.window ≠ 1 ∧ d.window ≠ 6 ∧ d.window = 0 ∧
      d.sup.doms.dep = true ∧ d.windowTurn = true ∧ d.slotWritable = false) ∧
    meets (inWindow { bench with dep := { busy := some .log } } 2 0) (fun d => d.window ≠ 1 ∧ d.window ≠ 6 ∧ d.dep.busy.isSome = true ∧
      d.windowTurn = false) ∧
    meets { bench with dep := { jobs := [.erase 1] } } (fun d => d.dep.jobs ≠ []) ∧
    meets (inWindow { bench with dep := { bench.dep with cfg := 0x000104 } } 0 0x5555) (fun d => d.alive = true ∧ d.hst.access = none ∧
      d.window = 0 ∧ d.slotWritable = true ∧ d.sup.doms.dep = true ∧ d.dep.busy = none ∧ d.lgr.committing = false ∧
      d.lgr.staging = [] ∧ d.dep.jobs = [] ∧ d.dep.waiting = [] ∧ d.windowTurn = true) := by
  decide

theorem witness_QueueCommandsAndWatermarks : (takes run .hst 1 ∧ field run.hst.cmdarg 0 9 = 0) ∧
    meets { run with hst := { cmdarg := 256 } } (fun d => takes d .hst 1 ∧ 0 < field d.hst.cmdarg 0 9) ∧
    ((0x081 : Addr).toNat ∉ watermarkConfigs ∧ (0x081 : Addr).toNat ∉ watermarkRegisters) ∧
    (∀ a ∈ watermarkRegisters, serves run a) ∧ bit (0 : Word) 14 = false ∧ bit (0x004000 : Word) 14 = true ∧
    (serves run 0x209 ∧ 1 ≤ field (0x000100 : Word) 0 9 ∧ field (0x000100 : Word) 0 9 ≤ 256 ∧ 256 < field (0x000101 : Word) 0 9) ∧
    (serves run (canBase .can1 + 0x0E) ∧ 16 < field (0x001101 : Word) 8 5 ∧ 1 ≤ field (0x001040 : Word) 8 5 ∧
      field (0x001040 : Word) 8 5 ≤ 16 ∧ 1 ≤ field (0x001040 : Word) 0 7 ∧ field (0x001040 : Word) 0 7 ≤ 64 ∧
      run.lockRefuses (run.can .can1).wmcfg 0x001040 0x001F7F = false) ∧
    meets (inState .closed) (fun d => serves d (canBase .can1 + 0x0E) ∧ d.lockRefuses (d.can .can1).wmcfg 0x001040 0x001F7F = true) ∧
    (serves run 0x234 ∧ field (0x200840 : Word) 16 6 ≤ 32 ∧ field (0x200840 : Word) 8 4 ≤ 8 ∧ field (0x200840 : Word) 0 7 ≤ 64 ∧
      1 ≤ field (0x200840 : Word) 16 6 ∧ 1 ≤ field (0x200840 : Word) 8 4 ∧ 1 ≤ field (0x200840 : Word) 0 7 ∧
      32 < field (0x210840 : Word) 16 6) := by unfold takes serves; decide

theorem witness_OneHeldCommand : hostRow (.gtest 2 1) = some (.saf, 1, 0x12) ∧
    (∀ tok ∈ [(1 : Byte), 2], meets { run with cmds := { saf := { held := some (tok, 0x12) } } } fun d => d.alive = true ∧
      d.hst.access = none ∧ d.runsFor (cmdDomain .saf) = true ∧ (d.cmds.get .saf).held = some (tok, 0x12)) ∧
    ((0x165 : Addr).toNat = cmdAddr .saf ∧ field (0x010012 : Word) 16 8 = (1 : Byte).toNat ∧
      field (0x010012 : Word) 0 8 = (0x12 : Byte).toNat) := by decide

theorem witness_CommandShell : hostRow (.gtest 2 1) = some (.saf, 1, 0x12) ∧ hostRow (.authNow 1) = some (.est, 1, 0x01) ∧
    meets { sup := { powered := false } } (fun d => d.alive = false) ∧
    meets (waits (.read 0x081) true) (fun d => d.alive = true ∧ (d.cmds.get .saf).refuses 1 = false ∧ d.hst.access.isSome = true) ∧
    meets { sup := {} } (fun d => d.alive = true ∧ (d.cmds.get .est).refuses 1 = false ∧ d.hst.access = none ∧
      d.runsFor (cmdDomain .est) = false) ∧
    meets { run with cmds := { saf := { kept := some 1 } } } (fun d => d.alive = true ∧ (d.cmds.get .saf).refuses 1 = false ∧
      d.hst.access = none ∧ d.runsFor (cmdDomain .saf) = true ∧ (d.cmds.get .saf).kept = some 1) ∧
    (takes run .saf 1 ∧ codeDefined .saf 0x01 = false ∧ hostRow (.unknownCommand .saf 1 0x01) = some (.saf, 1, 0x01)) ∧
    ((0x165 : Addr).toNat = cmdAddr .saf ∧ field (0x010012 : Word) 16 8 = (1 : Byte).toNat ∧
      field (0x010012 : Word) 0 8 = (0x12 : Byte).toNat ∧ run.framesRun = true ∧ up.framesRun = false ∧ takes up .saf 1) := by
  unfold takes; decide

theorem witness_DepotCommandsAndFlush : (takes run .dep 1 ∧ run.manifestWritable = false) ∧
    (takes bench .dep 1 ∧ bench.manifestWritable = true ∧ bench.slotInUse = some bench.mslot) ∧
    meets { bench with dep := { cfg := 0x000104 } } (fun d => takes d .dep 1 ∧ d.manifestWritable = true ∧
      d.slotInUse ≠ some d.mslot ∧ Mem.wf 0x00 d.dep.cs0 = true) ∧
    (takes run .lif 1 ∧ run.benchOpen = false) ∧
    meets { bench with lif := { cmdarg := 0x5 } } (fun d => takes d .lif 1 ∧ d.benchOpen = true ∧
      bit d.lif.cmdarg (0 : K).val = true ∧ bit d.lif.cmdarg (1 : K).val = false) := by unfold takes; decide

theorem witness_DepotCommandsAndFlush_turns :
    takes run .dep 1 ∧ (({} : Dev).sup.doms.dep = false ∧ ({} : Dev).mayStart = false) ∧
    (run.needDepot.depotFree = true ∧ run.dep.jobs = []) ∧
    meets { bench with dep := { cfg := 0x000104, busy := some .log } } (fun d => takes d .dep 1 ∧ d.manifestWritable = true ∧
      d.slotInUse ≠ some d.mslot ∧ d.needDepot.depotFree = false ∧ d.powerFailing = false ∧ d.sup.doms.dep = true) ∧
    meets { run with dep := { argLo := 5, logSeq := 9, unpin := 4 } } (fun d => takes d .dep 1 ∧
      d.dep.unpin < min (place (field d.dep.argHi 0 8) 24 + d.dep.argLo.toNat) d.dep.logSeq) ∧
    (run.sup.doms.dep = true ∧ run.powerFailing = false) := by unfold takes; decide

/-- A pointer copy that names slot 1. -/
def pointed : Dev := { bench with dep := { cfg := 0x000104 } }.writePointer 1

theorem witness_DepotCommandsAndFlush_pointer : pointed.mslot = 1 ∧ (pointed.pointer.map fun p => p.2.1) = some pointed.mslot ∧
    (run.pointer.map fun p => p.2.1) ≠ some 1 ∧ (∀ p, run.pointer = some p → p.1 + 1 < 2 ^ 24) := by
  refine ⟨by decide +kernel, by decide +kernel, by decide +kernel, ?_⟩
  intro p h
  have : run.pointer.isNone = true := by decide +kernel
  rw [h] at this
  cases this

/-- An event's entry, and its place in the log buffer. -/
def logged (cls : Nat) : LogEntry := { entry := ⟨34, 1, cls, 0, 0, 1, 1, 0⟩ }

theorem witness_DepotTransactions : (({} : Dev).sup.doms.dep = false ∧ ({} : Dev).mayStart = false ∧ run.evt.logBuf = []) ∧
    meets { run with evt := { logBuf := [logged 3] }, dep := { busy := some .window } } (fun d => d.evt.logBuf ≠ [] ∧
      d.sup.doms.dep = true ∧ d.needDepot.depotFree = false) ∧
    (∀ q ∈ [126, 127], meets { run with evt := { logBuf := [logged 3] }, dep := { logSeq := q } } fun d => d.sup.doms.dep = true ∧
      d.evt.logBuf = [logged 3] ∧ d.needDepot.depotFree = true ∧ d.dep.jobs = [] ∧ d.evt.logDone < 64 ∧ logSector (q + 1) ∉ d.dep.badSectors ∧ d.dep.pinned = []) ∧
    ((logged 0).entry.pinEligible = false ∧ (logged 3).entry.pinEligible = true ∧ run.dep.unpin < 127) ∧
    (up.depotFree = true ∧ ({} : Dev).depotFree = false) ∧
    (run.depotFree = true ∧ run.lgr.staging = [] ∧ run.lgr.committing = false ∧ run.dep.waiting = [] ∧
      run.sup.doms.per = true ∧ (perWaits 0).sup.doms.per = false) ∧
    meets { run with dep := { waiting := [.lifetime, .log] } } (fun d => d.depotFree = true ∧ d.lgr.staging = [] ∧
      d.lgr.committing = false ∧ d.dep.waiting ≠ [] ∧ d.dep.jobs = [] ∧ d.evt.logBuf = [] ∧ d.lif.due = false) ∧
    meets { run with dep := { waiting := [.header], jobs := [.bytes true 0 [1]] } } (fun d => d.depotFree = true ∧ d.lgr.staging = [] ∧
      d.lgr.committing = false ∧ d.dep.waiting ≠ [] ∧ d.dep.jobs = [.bytes true 0 [1]]) ∧ run.dep.busy = none ∧
    (∀ t ∈ [DepotTx.header, .shadow, .log, .lifetime], meets { run with dep := { busy := some t } } fun d => d.dep.busy = some t ∧
      t ≠ .commit ∧ t ≠ .window) := by
  decide

theorem witness_DepotTransactions_full : meets { run with dep := { pinned := .replicate 16384 1 } } fun d =>
    16384 ≤ d.dep.pinned.length := by
  show 16384 ≤ (List.replicate 16384 1).length
  exact Nat.le_of_eq List.length_replicate.symm

theorem witness_DomainsStartAndStop : ({} : Dev).mayStart = false ∧
    meets { run with sup := { run.sup with doms := {} } } (fun d => d.mayStart = true ∧ d.sup.doms.runs .dep = false) ∧
    meets { waits (.winRead true) false with sup := { run.sup with doms := {} } } (fun d => d.mayStart = true ∧
      d.hst.access = some (.winRead true) ∧ d.accessNeeds (.winRead true) = some .dep) ∧
    up.inRun = false ∧
    meets { run with dep := { busy := some .log } } (fun d => d.dep.busy.isSome = true) ∧
    meets { run with dep := { jobs := [.erase 1] }, sup := { run.sup with commit := some .final } } (fun d => d.dep.jobs ≠ [] ∧
      d.sup.commit.isSome = true) ∧
    meets { run with sup := { run.sup with domreq := 0x18 } } (fun d => bit d.sup.domreq 3 = true ∧ bit d.sup.domreq 4 = true) ∧
    meets { run with dep := { doneCount := { sent := 1 } }, chn := { run.chn with doneCount := { sent := 1 } } } (fun d =>
      d.dep.doneCount.idle = false ∧ d.chn.doneCount.idle = false) ∧
    (run.dep.doneCount.idle = true ∧ run.chn.doneCount.idle = true ∧ run.chn.ringCount.idle = true) ∧
    (run.alive = true ∧ run.inRun = true ∧ run.dep.busy = none ∧ run.dep.waiting = [] ∧ run.lgr.committing = false ∧
      run.sup.commit = none ∧ run.dep.jobs = [] ∧
      bit run.sup.domreq 3 = false ∧ run.hst.access = none ∧ run.chn.tags = [] ∧ run.chn.waiting = [] ∧
      bit run.sup.domreq 4 = false) := by decide

/-! ### Commands that are not well formed -/

theorem test_wellFormed_frame : (Instr.canFrameReceived .can0 frame1).wellFormed = true := by decide

theorem test_refused_wide_identifier : (Instr.canFrameReceived .can0 { frame1 with id := 2048 }).wellFormed = false := by decide

theorem test_refused_remote_fd : (Instr.canFrameReceived .can0 { frame1 with fdf := true, rtr := true, data := [] }).wellFormed = false := by
  decide

theorem test_refused_brs_without_fd : (Instr.canFrameReceived .can1 { frame1 with brs := true }).wellFormed = false := by decide

theorem test_refused_payload_length : (Instr.call { frame1 with dlc := 2 } seen).wellFormed = false := by decide

theorem test_refused_chain_frame : (Instr.chainResponse .eva { header := 0, words := .replicate 16 0, crc := 0 }).wellFormed = false := by
  decide

theorem test_refused_chain_request :
    (Instr.chainTransactionStart { addr := 1, cmd := 9, words := .replicate 16 0 }).wellFormed = false ∧
    (Instr.chainTransactionStart { addr := 33, cmd := 9, words := [] }).wellFormed = false := by decide

theorem test_refused_cell_count : (Instr.ringProbe ⟨false, some ⟨1, 0⟩, none, [], []⟩).wellFormed = false ∧
    (Instr.ringProbe ⟨true, none, none, [(0, ⟨1, 19⟩)], []⟩).wellFormed = false := by decide

theorem test_refused_auth_reply : (Instr.authentication 0 ⟨List.replicate 143 0, none⟩).wellFormed = false ∧
    (Instr.authentication 0 ⟨[], some (.replicate 63 0)⟩).wellFormed = false := by decide +kernel

/-- A snap's reading of 18 cells and 8 temperatures. -/
def snap1 : SnapReading := ⟨0, .replicate 18 3700000, .replicate 8 (some 2500), false⟩

theorem test_refused_snap : (Instr.watchSweep [snap1]).wellFormed = true ∧
    (Instr.watchSweep [{ snap1 with cells := .replicate 17 0 }]).wellFormed = false ∧
    (Instr.watchSweep [{ snap1 with temps := [] }]).wellFormed = false ∧
    (Instr.watchSweep [{ snap1 with cells := .replicate 18 (2 ^ 24) }]).wellFormed = false := by decide

theorem test_refused_muster : (Instr.powerGood seen).wellFormed = true ∧
    (Instr.pinReset { seen with fromA := .replicate 33 ⟨1, 18⟩ }).wellFormed = false := by decide

theorem test_refused_engine_frame :
    (Instr.engineFrame { quietFrame with results := [{ cls := .s, task := 0, words := [], second := true }] }).wellFormed = false ∧
    (Instr.ipStep 0 { quietFrame with results := [{ cls := .b, task := 0, words := [], rerun := [⟨0, [0xFFFFFF], 0, default, true, true⟩] }] }).wellFormed =
      false := by decide

theorem test_refused_density : (Instr.sampleSet (.replicate 6 (1 / 2)) false).wellFormed = true ∧
    (Instr.sampleSet (.replicate 6 (3 / 2)) false).wellFormed = false := by decide +kernel

theorem test_refused_status_opcode : (∀ op ∈ [(0 : BitVec 4), 1, 10, 15], statusOp op = true) ∧
    ∀ op ∈ [(2 : BitVec 4), 9], statusOp op = false := by decide

theorem test_refused_ring_break : (Instr.ringBreak 33 0).wellFormed = false ∧ (Instr.ringBreak 5 5).wellFormed = false := by decide

theorem test_refused_tach_period : (Instr.tachEdge 0).wellFormed = false := by decide

theorem test_refused_sealed_address : (Instr.rwsWrite 0x191 0).wellFormed = false ∧ (Instr.rwsWrite 0x199 0).wellFormed = false := by
  decide

theorem test_refused_defined_code : (Instr.unknownCommand .sup 1 0x02).wellFormed = false := by decide

theorem test_refused_watermark_address : (Instr.watermarkConfigWrite 0x208 0).wellFormed = false ∧
    (Instr.watermarkClear 0x209 0).wellFormed = false := by decide

/-! ### The spec's worked values -/

/-- The ASCII string 123456789. -/
def digits : List Byte := [0x31, 0x32, 0x33, 0x34, 0x35, 0x36, 0x37, 0x38, 0x39]

/-- R471's two requests and their check bytes. -/
theorem test_frame_check_bytes : crc8 [0x10, 0, 0, 0, 0] = 0x94 ∧ crc8 [0x30, 0x08, 0x86, 0x40, 0x01] = 0x60 := by decide +kernel

/-- The worked response of the host interface: frame 4 carries the answer to frame 3, the read of SYS_ID in Run. -/
theorem test_sdo_frame : ({ run with hst := { run.hst with resp := { seq := 3, data := 0x864001 } } } : Dev).sdoFrame =
    0x300886400160 := by decide +kernel

/-- R471, R165 and R412 give these check values of the string. -/
theorem test_check_values : crc8 digits = 0xDF ∧ crc16 digits = 0x29B1 := by decide +kernel

theorem test_check_value_crc32 : crc32 digits = 0xCBF43926 := by decide +kernel

/-! ### The spec's worked cases -/

/-- R207 with the reference post's shunt: 400 A gives code 1 342 177 and reads 400 000 mA; R375 with its output divider. -/
theorem test_scaling : scaleRaw 1342177 0x1312D0 0 = 400000 ∧ scaleRaw 0x800000 0x1312D0 0 = -2500000 ∧
    scaleRaw 0x7FFFFF 0x098968 0 = 1250000 := by decide +kernel

/-- R376 on v = 400 720 mV and i = 250 000 mA with 12 000 µΩ of cable: 99.43 kW at the connector. -/
theorem test_connector_power :
    ({ run with tol := { rcable := 12000 } } : Dev).connectorPower 400720 250000 = 99430000000 := by decide +kernel

/-- R572: 0x000008 would change S_MODE while closed and answers ERR 4; 0x000048 leaves it and sets E_MODE. -/
theorem test_mixed_register : (∃ e, (inState .closed).writeReg 0x081 0x000008 = .error e ∧ e = 4) ∧
    (∃ d, (inState .closed).writeReg 0x081 0x000048 = .ok d ∧ d.eng.modecfg = 0x000048) :=
  ⟨⟨_, rfl, rfl⟩, ⟨_, rfl, rfl⟩⟩

/-- R238 on the deliberate step's cell: Rs_25 of 240.0 µΩ and a fit of 254.2 µΩ at confidence 40 give 252.0 µΩ. -/
theorem test_blend : absRat (blend (1 - 40 / 256) 240 (1271 / 5) - 252) ≤ 1 / 20 ∧
    absRat (blend (1 - 40 / 256) 160 151 - 762 / 5) ≤ 1 / 20 := by decide +kernel

/-- R96 on 5: the escort holds 0xFFFFFF − 5 and the rearguard 4091 · 5, and both decode to it. -/
theorem test_codings : escortCode 5 = 0xFFFFFA ∧ rearguardCode 5 = 20455 ∧ (rearguardCode 0xFFFFFF).toNat = 4091 * 0xFFFFFF := by
  decide +kernel

/-- R205 and R216 at the middle and the ends of their ranges. -/
theorem test_converters : filterCode (1 / 2) = 0 ∧ filterCode 1 = 0x7FFFFF ∧ filterCode 0 = 0x800000 ∧
    sarCode (33 / 20) = 2048 ∧ sarCode (33 / 10) = 4095 := by decide +kernel

end Sys2Proof.Tests
end

section
/-! The host port: what a register reads, what a READ, WRITE and ACCESS_COMPLETE do, and the registers that clear. -/
namespace Sys2Proof.Proofs

open Sys2Proof.Machine Sys2Proof.Safety Sys2Proof.Laws

/-! ### What a register reads -/

/-- What a register reads depends on the host port by the HST page alone. -/
theorem peek_hst {d : Dev} {h : Hst} (e : ∀ o, ({ d with hst := h } : Dev).readHst o = d.readHst o) (a : Nat) :
    ({ d with hst := h } : Dev).peek a = d.peek a := by
  unfold Dev.peek
  refine ite_congr rfl (fun _ => rfl) fun _ => ?_
  iterate 14 refine ite_congr rfl (fun _ => by generalize a - _ = o; rfl) fun _ => ?_
  refine ite_congr rfl (fun _ => e _) fun _ => ?_
  exact ite_congr rfl (fun _ => by generalize a - _ = o; rfl) fun _ => rfl

@[simp] theorem peek_framed (d : Dev) (a : Nat) : (framed d).peek a = d.peek a := by
  have e : ∀ o, (framed d).readHst o = d.readHst o := fun _ => rfl
  exact peek_hst e a

@[simp] theorem peek_noAccess (d : Dev) (a : Nat) : (noAccess d).peek a = d.peek a := by
  have e : ∀ o, (noAccess d).readHst o = d.readHst o := fun _ => rfl
  exact peek_hst e a

@[simp] theorem liveWords_framed (d : Dev) (v : Nat × Nat) : (framed d).liveWords v = d.liveWords v := by
  simp [Dev.liveWords]

/-! #### The offsets of each page that hold no register (R573) -/

theorem readSys_reserved {o : Nat} (h : 0x05 ≤ o ∧ o ≤ 0x07 ∨ 0x0C ≤ o) (d : Dev) : d.readSys o = 0 := by
  unfold Dev.readSys
  split <;> first | contradiction | rfl

theorem readEvt_reserved {o : Nat} (h : 0x06 ≤ o) (d : Dev) : d.readEvt o = 0 := by
  unfold Dev.readEvt
  split <;> first | contradiction | rfl

theorem readMode_reserved {o : Nat} (h : 0x06 ≤ o ∧ o ≤ 0x0F ∨ 0x15 ≤ o) (d : Dev) : d.readMode o = 0 := by
  unfold Dev.readMode
  split <;> first | contradiction | rfl

theorem readSup_reserved {o : Nat} (h : o = 0x07 ∨ 0x10 ≤ o) (d : Dev) : d.readSup o = 0 := by
  unfold Dev.readSup
  split <;> first | contradiction | rfl

theorem readEng_reserved {o : Nat} (h : 0x0E ≤ o) (d : Dev) : d.readEng o = 0 := by
  unfold Dev.readEng
  split <;> first | contradiction | rfl

theorem readChn_reserved {o : Nat} (h : 0x0D ≤ o) (d : Dev) : d.readChn o = 0 := by
  unfold Dev.readChn
  split <;> first | contradiction | rfl

theorem readEst_reserved {o : Nat} (h : 0x14 ≤ o) (d : Dev) : d.readEst o = 0 := by
  unfold Dev.readEst
  split <;> first | contradiction | rfl

theorem readLim_reserved {o : Nat} (h : o = 0x0E ∨ o = 0x0F ∨ o = 0x15 ∨ 0x18 ≤ o) (d : Dev) : d.readLim o = 0 := by
  unfold Dev.readLim
  split <;> first | contradiction | rfl

theorem readCoilReg_reserved {o : Nat} (h : o = 0x29 ∨ 0x3D ≤ o) (d : Dev) : d.readCoilReg o = 0 := by
  unfold Dev.readCoilReg
  split <;> first | contradiction | rfl

theorem readPwr_reserved {o : Nat} (h : o = 0x29 ∨ 0x3D ≤ o) (d : Dev) : d.readPwr o = 0 := by
  unfold Dev.readPwr
  split <;> first | contradiction | exact readCoilReg_reserved h d

theorem readSaf_reserved {o : Nat} (h : 0x0A ≤ o) (d : Dev) : d.readSaf o = 0 := by
  unfold Dev.readSaf
  split <;> first | contradiction | rfl

theorem readLgr_reserved {o : Nat} (h : 0x11 ≤ o) (d : Dev) : d.readLgr o = 0 := by
  unfold Dev.readLgr
  split <;> first | contradiction | rfl

theorem readCan_reserved {o : Nat} (h : 0x1E ≤ o) (c : Can) (res : Word) : c.read false res o = 0 := by
  unfold Can.read
  split <;> first | contradiction | rfl

theorem readHst_reserved {o : Nat} (h : 0x0B ≤ o ∧ o ≤ 0x0F ∨ 0x14 ≤ o) (d : Dev) : d.readHst o = 0 := by
  unfold Dev.readHst
  split <;> first | contradiction | rfl

theorem readDep_reserved {o : Nat} (h : o = 0x16 ∨ o = 0x17 ∨ 0x1D ≤ o) (d : Dev) : d.readDep o = 0 := by
  unfold Dev.readDep
  split <;> first | contradiction | rfl

/-- A reserved address reads 0 (R573). -/
theorem peek_reserved {a : Nat} (h : registerListed a = false) (d : Dev) : d.peek a = 0 := by
  simp only [registerListed, Bool.or_eq_false_iff, Bool.and_eq_false_iff, decide_eq_false_iff_not] at h
  unfold Dev.peek
  refine iteInduction (motive := (· = 0)) (fun _ => readSys_reserved (by omega) d) fun _ => ?_
  refine iteInduction (motive := (· = 0)) (fun _ => readEvt_reserved (by omega) d) fun _ => ?_
  refine iteInduction (motive := (· = 0)) (fun _ => readMode_reserved (by omega) d) fun _ => ?_
  refine iteInduction (motive := (· = 0)) (fun _ => readSup_reserved (by omega) d) fun _ => ?_
  refine iteInduction (motive := (· = 0)) (fun _ => readEng_reserved (by omega) d) fun _ => ?_
  refine iteInduction (motive := (· = 0)) (fun _ => readChn_reserved (by omega) d) fun _ => ?_
  refine iteInduction (motive := (· = 0)) (fun _ => by omega) fun _ => ?_
  refine iteInduction (motive := (· = 0)) (fun _ => readEst_reserved (by omega) d) fun _ => ?_
  refine iteInduction (motive := (· = 0)) (fun _ => readLim_reserved (by omega) d) fun _ => ?_
  refine iteInduction (motive := (· = 0)) (fun _ => readPwr_reserved (by omega) d) fun _ => ?_
  refine iteInduction (motive := (· = 0)) (fun _ => readSaf_reserved (by omega) d) fun _ => ?_
  refine iteInduction (motive := (· = 0)) (fun _ => by omega) fun _ => ?_
  refine iteInduction (motive := (· = 0)) (fun _ => readLgr_reserved (by omega) d) fun _ => ?_
  refine iteInduction (motive := (· = 0)) (fun _ => by omega) fun _ => ?_
  refine iteInduction (motive := (· = 0)) (fun _ => readCan_reserved (by omega) _ _) fun _ => ?_
  refine iteInduction (motive := (· = 0)) (fun _ => readHst_reserved (by omega) d) fun _ => ?_
  refine iteInduction (motive := (· = 0)) (fun _ => readDep_reserved (by omega) d) fun _ => ?_
  rfl

/-- A captured value lies at listed addresses. -/
theorem registerListed_of_captured {a : Nat} {v : Nat × Nat} (h : capturedAt a = some v) : registerListed a = true := by
  have listed : ∀ v ∈ capturedValues, ∀ i < v.2, registerListed (v.1 + i) = true := by decide
  have hv := List.find?_some h
  simp only [Bool.and_eq_true, decide_eq_true_eq] at hv
  have hl := listed v (List.mem_of_find?_eq_some h) (a - v.1) (by omega)
  rwa [Nat.add_sub_cancel' hv.1] at hl

theorem readReg_plain {d : Dev} {a : Nat} (hc : capturedAt a = none) (h0 : a ≠ 0x1D2) (h1 : a ≠ 0x1F2) :
    d.readReg a = (d, d.peek a) := by
  simp [Dev.readReg, hc, h0, h1]

theorem readReg_reserved {a : Nat} (h : registerListed a = false) (d : Dev) : d.readReg a = (d, 0) := by
  have hc : capturedAt a = none := by
    cases e : capturedAt a with
    | none => rfl
    | some v => rw [registerListed_of_captured e] at h; cases h
  rw [readReg_plain hc (by rintro rfl; cases h) (by rintro rfl; cases h), peek_reserved h]

/-! ### What a frame that makes an access does -/

section
variable {d : Dev} {a : Access}

theorem accessFrame_eq : d.accessFrame a =
    if !d.alive then d
    else if d.addressBad a then d.numberFrame.refuseFrame 3 a.opcode a.address
    else if d.hst.access.isSome then d.numberFrame.refuseFrame (d.numberFrame.outstandingError a) a.opcode a.address
    else if d.runsFor (d.accessNeeds a) && !d.slowAccess a then
      let r := (framed d).conclude a (d.hst.frame + 1)
      r.1.respond (BitVec.ofNat 3 r.2.1) false 0 r.2.2
    else pendingOn d a (d.runsFor (d.accessNeeds a) && !a.crossing) := rfl

theorem accessFrame_dead (ha : d.alive = false) : d.accessFrame a = d := by
  simp [accessFrame_eq, ha]

theorem accessFrame_addressBad (ha : d.alive = true) (hb : d.addressBad a = true) :
    d.accessFrame a = d.numberFrame.refuseFrame 3 a.opcode a.address := by
  simp [accessFrame_eq, ha, hb]

theorem accessFrame_outstanding (ha : d.alive = true) (hb : d.addressBad a = false) (hx : d.hst.access.isSome = true) :
    d.accessFrame a = d.numberFrame.refuseFrame (d.numberFrame.outstandingError a) a.opcode a.address := by
  simp [accessFrame_eq, ha, hb, hx]

theorem accessFrame_pends (ha : d.alive = true) (hb : d.addressBad a = false) (hn : d.hst.access = none)
    (hr : d.runsFor (d.accessNeeds a) = false ∨ d.slowAccess a = true) :
    d.accessFrame a = pendingOn d a (d.runsFor (d.accessNeeds a) && !a.crossing) := by
  rcases hr with h | h <;> simp [accessFrame_eq, ha, hb, hn, h]

/-- An access that completes within its frame. -/
theorem accessFrame_answers (ha : d.alive = true) (hb : d.addressBad a = false) (hn : d.hst.access = none)
    (hr : d.runsFor (d.accessNeeds a) = true) (hs : d.slowAccess a = false) (hf : a.fetchable = true) {x : Dev} {v : Word}
    (hp : (framed d).perform a = { dev := x, err := 0, data := v }) : d.accessFrame a = answered x 0 v := by
  simp only [accessFrame_eq, ha, hb, hn, hr, hs, conclude_of _ a _ _ hp hf]
  rfl

theorem accessFrame_refuses (ha : d.alive = true) (hb : d.addressBad a = false) (hn : d.hst.access = none)
    (hr : d.runsFor (d.accessNeeds a) = true) (hs : d.slowAccess a = false) (hf : a.fetchable = true)
    (hp : (framed d).perform a = { dev := framed d, err := 4, data := 0 }) :
    d.accessFrame a = answered ((framed d).frameError 4 (d.hst.frame + 1) a.opcode a.address) 4 0 := by
  simp only [accessFrame_eq, ha, hb, hn, hr, hs, conclude_of _ a _ _ hp hf]
  rfl

/-! ### What ACCESS_COMPLETE does -/

theorem accessCompletes_none (hn : d.hst.access = none) : d.accessCompletes = d := by
  simp [Dev.accessCompletes, hn]

theorem accessCompletes_dead (ha : d.alive = false) : d.accessCompletes = d := by
  unfold Dev.accessCompletes
  split
  · rfl
  · simp [ha]

theorem accessCompletes_waits (hx : d.hst.access = some a) (hr : d.runsFor (d.accessNeeds a) = false) :
    d.accessCompletes = d := by
  simp [Dev.accessCompletes, Dev.canComplete, hx, hr]

theorem accessCompletes_concludes (ha : d.alive = true) (hx : d.hst.access = some a) (hc : d.canComplete a = true) :
    d.accessCompletes = ((noAccess d).conclude a d.hst.accessFrame).1.afterAccess := by
  simp only [Dev.accessCompletes, hx, ha, hc]
  rfl

theorem accessCompletes_answers (ha : d.alive = true) (hx : d.hst.access = some a) (hc : d.canComplete a = true)
    (hf : a.fetchable = true) {x : Dev} {v : Word} (hp : (noAccess d).perform a = { dev := x, err := 0, data := v }) :
    d.accessCompletes = (fetched x 0 v).afterAccess := by
  rw [accessCompletes_concludes ha hx hc, conclude_of _ a _ _ hp hf]
  rfl

theorem accessCompletes_refuses (ha : d.alive = true) (hx : d.hst.access = some a) (hc : d.canComplete a = true)
    (hf : a.fetchable = true) (hp : (noAccess d).perform a = { dev := noAccess d, err := 4, data := 0 }) :
    d.accessCompletes = (fetched ((noAccess d).frameError 4 d.hst.accessFrame a.opcode a.address) 4 0).afterAccess := by
  rw [accessCompletes_concludes ha hx hc, conclude_of _ a _ _ hp hf]
  rfl

end

theorem accessDomain_ne_dep (a : Nat) : accessDomain a ≠ some .dep := by
  unfold accessDomain
  repeat' split
  all_goals decide

/-! ### The write-one-to-clear registers of seven pages -/

section
variable {s : State}

theorem writes_engClr (h : serves s.dev 0x08B) (w : Word) : s.writes 0x08B w =
    .next { s with dev := written s.dev 0x08B fun d => { d with eng := d.eng.clear w } } :=
  writes_ok _ rfl h rfl (by decide) rfl rfl

theorem writes_chnClr (h : serves s.dev 0x0AC) (w : Word) : s.writes 0x0AC w =
    .next { s with dev := written s.dev 0x0AC fun d => { d with chn := d.chn.clear w } } :=
  writes_ok _ rfl h rfl (by decide) rfl rfl

theorem writes_senClr (h : serves s.dev 0x0DF) : s.writes 0x0DF 1 = .next { s with dev := written s.dev 0x0DF fun d =>
    { d with sen := { d.sen with det := 0, ovr := 0, ovrSat := false, detSat := false } } } :=
  writes_ok _ rfl h rfl (by decide) rfl rfl

theorem writes_estClr (h : serves s.dev 0x0F1) (w : Word) : s.writes 0x0F1 w =
    .next { s with dev := written s.dev 0x0F1 fun d => { d with est := d.est.clear w } } :=
  writes_ok _ rfl h rfl (by decide) rfl rfl

theorem writes_limClr (h : serves s.dev 0x117) : s.writes 0x117 1 = .next { s with dev := written s.dev 0x117 fun d =>
    { d with lim := { d.lim with underLoad := .replicate 4 0, ovf := d.lim.ovf &&& ~~~0x00000F } } } :=
  writes_ok _ rfl h rfl (by decide) rfl rfl

theorem writes_pwrClr (h : serves s.dev 0x141) : s.writes 0x141 1 = .next { s with dev := written s.dev 0x141 fun d =>
    { d with pwr := { d.pwr with conflict := 0, ilim := 0, trips := 0, cntOvf := false } } } :=
  writes_ok _ rfl h rfl (by decide) rfl rfl

theorem writes_depClr (h : serves s.dev 0x235) (w : Word) : s.writes 0x235 w =
    .next { s with dev := written s.dev 0x235 fun d => d.clearDep w } :=
  writes_ok _ rfl h rfl (by decide) rfl rfl

end

/-- Settles O19: each command is a WRITE of one bit, and its register takes every write while it is served. -/
theorem clearRegisters : Obligations.ClearRegisters := by
  unfold Obligations.ClearRegisters
  intro s
  refine ⟨fun h => ?eng, fun h => ?chn, fun h => ?sen, fun h => ?est, fun h => ?lim, fun h => ?pwr, fun h => ?dep⟩
  case eng =>
    exact ⟨writes_engClr h 0x000001, writes_engClr h 0x000002, writes_engClr h 0x000004, writes_engClr h 0x000008,
      writes_engClr h 0x000010⟩
  case chn => exact ⟨writes_chnClr h 0x000001, writes_chnClr h 0x000002, writes_chnClr h 0x000004, writes_chnClr h 0x000008⟩
  case sen => exact writes_senClr h
  case est => exact ⟨writes_estClr h 0x000001, writes_estClr h 0x000002⟩
  case lim => exact writes_limClr h
  case pwr => exact writes_pwrClr h
  case dep => exact ⟨writes_depClr h 0x000001, writes_depClr h 0x000002⟩

/-! ### READ and WRITE frames at a register -/

section
variable {d : Dev} {a : Addr} {data : Word} {inc : Bool}

theorem readFrame_register (hw : a ≠ 0x212) : d.readFrame a inc = d.accessFrame (.read a inc) := by
  simp only [Dev.readFrame, if_neg hw]

theorem writeFrame_register (hw : a ≠ 0x212) (hc : cmdAt a.toNat = none) :
    d.writeFrame a data inc = d.accessFrame (.write a data inc) := by
  simp only [Dev.writeFrame, hc, if_neg hw]

theorem accessNeeds_read (hl : registerListed a.toNat = true) : d.accessNeeds (.read a inc) = accessDomain a.toNat := by
  simp [Dev.accessNeeds, hl]

theorem addressBad_write (hl : registerListed a.toNat = true) : d.addressBad (.write a data inc) = false := by
  simp [Dev.addressBad, hl]

theorem perform_read {x : Dev} {v : Word} (h : d.readReg a.toNat = (x, v)) :
    d.perform (.read a inc) = { dev := x, err := 0, data := v } := by
  show Performed.mk (d.readReg a.toNat).1 0 (d.readReg a.toNat).2 = _
  rw [h]

theorem outstandingError_write_ok {d' : Dev} (h : d.writeReg a.toNat data = .ok d') :
    d.outstandingError (.write a data) = 6 := by
  simp [Dev.outstandingError, perform_write_ok h]

theorem outstandingError_write_error {e : Nat} (he : e ≠ 0) (h : d.writeReg a.toNat data = .error e) :
    d.outstandingError (.write a data) = e := by
  simp [Dev.outstandingError, perform_write_error h, he]

/-- A READ or READ_INC whose domain runs answers what a read of the register gives. -/
theorem readFrame_answers (hw : a ≠ 0x212) (ha : d.alive = true) (hn : d.hst.access = none)
    (hr : d.runsFor (d.accessNeeds (.read a)) = true) {x : Dev} {v : Word} (hp : (framed d).readReg a.toNat = (x, v)) :
    d.readFrame a inc = answered x 0 v := by
  rw [readFrame_register hw]
  exact accessFrame_answers (a := .read a inc) ha rfl hn hr rfl rfl (perform_read hp)

/-- A register served at once that takes a WRITE or WRITE_INC. -/
theorem writeFrame_takes (hw : a ≠ 0x212) (hc : cmdAt a.toNat = none) (hl : registerListed a.toNat = true)
    (h : serves d a.toNat) {d' : Dev} (ht : (framed d).writeReg a.toNat data = .ok d') :
    d.writeFrame a data inc = answered d'.cfgCheck 0 (d'.cfgCheck.peek a.toNat) := by
  obtain ⟨ha, hn, hs, hr⟩ := h
  rw [writeFrame_register hw hc]
  exact accessFrame_answers (a := .write a data inc) ha (addressBad_write hl) hn hr hs rfl (perform_write_ok ht)

/-- A register served at once that refuses a WRITE or WRITE_INC. -/
theorem writeFrame_refuses (hw : a ≠ 0x212) (hc : cmdAt a.toNat = none) (hl : registerListed a.toNat = true)
    (h : serves d a.toNat) (ht : (framed d).writeReg a.toNat data = .error 4) :
    d.writeFrame a data inc =
      answered ((framed d).frameError 4 (d.hst.frame + 1) (if inc then 4 else 2) a.toNat) 4 0 := by
  obtain ⟨ha, hn, hs, hr⟩ := h
  rw [writeFrame_register hw hc,
    accessFrame_refuses (a := .write a data inc) ha (addressBad_write hl) hn hr hs rfl (perform_write_error ht)]
  rfl

/-- A READ at a stopped domain pends (R85). -/
theorem readFrame_pends (hw : a ≠ 0x212) (hl : registerListed a.toNat = true) (ha : d.alive = true)
    (hn : d.hst.access = none) (hr : d.runsFor (accessDomain a.toNat) = false) :
    d.readFrame a = pendingOn d (.read a) false := by
  have hr' : d.runsFor (d.accessNeeds (.read a)) = false := by rwa [accessNeeds_read hl]
  rw [readFrame_register hw, accessFrame_pends ha rfl hn (.inl hr'), hr']
  rfl

/-- A WRITE at a stopped domain pends, and one into the always-on domain is outstanding: neither has been delivered
(R72, R85). -/
theorem writeFrame_pends (hw : a ≠ 0x212) (hc : cmdAt a.toNat = none) (hl : registerListed a.toNat = true)
    (ha : d.alive = true) (hn : d.hst.access = none)
    (hr : d.runsFor (accessDomain a.toNat) = false ∨ inAlwaysOn a.toNat = true) :
    d.writeFrame a data = pendingOn d (.write a data) false := by
  rw [writeFrame_register hw hc, accessFrame_pends (a := .write a data) ha (addressBad_write hl) hn hr]
  congr 1
  rcases hr with h | h <;> simp [Dev.accessNeeds, Access.crossing, h]

/-- The lowest word of a captured value captures it (R6). -/
theorem readReg_lowest {n : Nat} (h : capturedAt a.toNat = some (a.toNat, n)) : d.readReg a.toNat =
    ({ d with hst := { d.hst with
        captured := (a, d.liveWords (a.toNat, n)) :: d.hst.captured.filter fun c => c.1 ≠ a } }, d.peek a.toNat) := by
  simp [Dev.readReg, h, Dev.readCaptured]

/-- Another word of a captured value returns its captured part (R6). -/
theorem readReg_captured {first n : Nat} {c : Addr × List Word} (h : capturedAt a.toNat = some (first, n))
    (hf : a.toNat ≠ first) (hc : (d.hst.captured.find? fun c => c.1 = BitVec.ofNat 12 first) = some c) :
    d.readReg a.toNat = (d, c.2.getD (a.toNat - first) 0) := by
  simp only [Dev.readReg, h, Dev.readCaptured, if_neg hf, hc]

/-- Before the value has been captured, its other words read live. -/
theorem readReg_uncaptured {first n : Nat} (h : capturedAt a.toNat = some (first, n)) (hf : a.toNat ≠ first)
    (hc : (d.hst.captured.find? fun c => c.1 = BitVec.ofNat 12 first) = none) :
    d.readReg a.toNat = (d, d.peek a.toNat) := by
  simp only [Dev.readReg, h, Dev.readCaptured, if_neg hf, hc]

/-! ### An access to a register that waits -/

/-- Outside the depot an access completes as soon as its domain runs. -/
theorem canComplete_register {x : Access} (hx : d.accessNeeds x = accessDomain a.toNat)
    (hr : d.runsFor (accessDomain a.toNat) = true) : d.canComplete x = true := by
  simp [Dev.canComplete, hx, hr, accessDomain_ne_dep]

/-- A read of a reserved address needs no domain, and no register lies in the depot's. -/
theorem canComplete_read (hr : d.runsFor (d.accessNeeds (.read a)) = true) : d.canComplete (.read a) = true := by
  cases hl : registerListed a.toNat with
  | true => exact canComplete_register (accessNeeds_read hl) (by rwa [accessNeeds_read hl] at hr)
  | false => simp [Dev.canComplete, Dev.accessNeeds, hl, Dev.runsFor]

end

/-! ### The rows of the host port, as frames -/

section
variable {s : State} {a : Addr} {data : Word} {d : Dev}

theorem does_registerRead (h : s.dev.readFrame a = d) : does (.registerRead a) s d := by
  subst h
  rfl

theorem does_registerWrite (h : s.dev.writeFrame a data = d) : does (.registerWrite a data) s d := by
  subst h
  rfl

theorem does_writeInc (h : s.dev.writeFrame a data true = d) : does (.windowAccessInc a (some data)) s d := by
  subst h
  rfl

theorem does_accessComplete (h : s.dev.accessCompletes = d) : does .accessComplete s d := by
  subst h
  rfl

end

/-- READ_INC acts as READ at a register served at once (R476). -/
theorem exec_readInc {s : State} {a : Addr} (hw : a ≠ 0x212) (hl : registerListed a.toNat = true) (h : serves s.dev a.toNat) :
    exec (.windowAccessInc a none) s = exec (.registerRead a) s := by
  obtain ⟨ha, hn, -, hr⟩ := h
  have hr' : s.dev.runsFor (s.dev.accessNeeds (.read a)) = true := by rwa [accessNeeds_read hl]
  have answers {inc : Bool} := readFrame_answers (inc := inc) hw ha hn hr' rfl
  exact congrArg (fun d => Host.Outcome.next { s with dev := d }) (answers.trans answers.symm)

theorem writeReg_safClr (d : Dev) : d.writeReg 0x169 1 =
    .ok { d with saf := { d.saf with opens := 0, discs := 0, ovf := 0 } } := rfl

theorem peek_safClr (d : Dev) : d.peek 0x169 = 0 := rfl

/-- SAF_CLR clears the counts of the safety channels, and reads 0. -/
theorem perform_safClr (d : Dev) : d.perform (.write 0x169 1) =
    { dev := ({ d with saf := { d.saf with opens := 0, discs := 0, ovf := 0 } } : Dev).cfgCheck, err := 0, data := 0 } :=
  (perform_write_ok (writeReg_safClr d)).trans (congrArg (Performed.mk _ 0) (peek_safClr _))

/-- Settles O52, clause by clause: without supply; a reserved address; an access outstanding; a frame that pends, reads,
captures or writes; and the completion of what has pended. -/
theorem registerFrames : Obligations.RegisterFrames := by
  unfold Obligations.RegisterFrames
  intro s a data hw hc
  have hread : s.dev.readFrame a = s.dev.accessFrame (.read a) := readFrame_register hw
  have hwrite : s.dev.writeFrame a data = s.dev.accessFrame (.write a data) := writeFrame_register hw hc
  refine ⟨fun ha => ?dead, fun ha => ⟨fun hl => ?reserved, fun hx => ?outstanding, fun hn hl => ⟨fun hr => ?stopped,
    fun ho => ?alwaysOn, fun hr hp h0 h1 => ?plain, fun hr first n hv => ?captured, fun hs => ?served⟩,
    fun hn => ?idle, fun hx => ?counts, fun hx hp h0 h1 hr => ?readCompletes, fun hx hl => ?writeCompletes⟩⟩
  case dead =>
    exact ⟨does_registerRead (hread.trans (accessFrame_dead ha)), does_registerWrite (hwrite.trans (accessFrame_dead ha)),
      does_accessComplete (accessCompletes_dead ha)⟩
  case reserved =>
    refine ⟨does_registerWrite (hwrite.trans (accessFrame_addressBad ha (by simp [Dev.addressBad, hl]))), fun hn => ?_⟩
    exact does_registerRead (readFrame_answers hw ha hn (by simp [Dev.accessNeeds, hl, Dev.runsFor]) (readReg_reserved hl _))
  case outstanding =>
    refine ⟨does_registerRead (hread.trans (accessFrame_outstanding ha rfl hx)), fun hl => ?_⟩
    have hwait := hwrite.trans (accessFrame_outstanding ha (addressBad_write hl) hx)
    refine ⟨fun d' ht => does_registerWrite (hwait.trans ?_), fun ht => does_registerWrite (hwait.trans ?_)⟩
    · rw [outstandingError_write_ok ht]; rfl
    · rw [outstandingError_write_error (by decide) ht]; rfl
  case stopped =>
    exact ⟨does_registerRead (readFrame_pends hw hl ha hn hr), does_registerWrite (writeFrame_pends hw hc hl ha hn (.inl hr))⟩
  case alwaysOn => exact does_registerWrite (writeFrame_pends hw hc hl ha hn (.inr ho))
  case plain =>
    have hp' := readReg_plain (d := framed s.dev) hp (BitVec.toNat_ne.mp h0) (BitVec.toNat_ne.mp h1)
    rw [peek_framed] at hp'
    exact does_registerRead (readFrame_answers hw ha hn (by rwa [accessNeeds_read hl]) hp')
  case captured =>
    have hr' : s.dev.runsFor (s.dev.accessNeeds (.read a)) = true := by rwa [accessNeeds_read hl]
    refine ⟨fun hf => ?_, fun hf c hcap => ?_⟩
    · subst hf
      have hlow := readReg_lowest (d := framed s.dev) hv
      rw [liveWords_framed, peek_framed] at hlow
      exact does_registerRead (readFrame_answers hw ha hn hr' hlow)
    · cases c with
      | some c => exact does_registerRead (readFrame_answers hw ha hn hr' (readReg_captured hv hf hcap))
      | none =>
        have hlive := readReg_uncaptured (d := framed s.dev) hv hf hcap
        rw [peek_framed] at hlive
        exact does_registerRead (readFrame_answers hw ha hn hr' hlive)
  case served =>
    refine ⟨fun d' ht => ⟨?_, ?_⟩, exec_readInc hw hl hs, fun ht => ⟨?_, ?_⟩⟩
    · exact does_registerWrite (writeFrame_takes hw hc hl hs ht)
    · exact does_writeInc (writeFrame_takes hw hc hl hs ht)
    · exact does_registerWrite (writeFrame_refuses hw hc hl hs ht)
    · exact does_writeInc (writeFrame_refuses hw hc hl hs ht)
  case idle =>
    refine ⟨does_accessComplete (accessCompletes_none hn), ?_⟩
    exact does_registerWrite (writeFrame_pends (by decide) rfl rfl ha hn (.inr rfl))
  case counts =>
    have hcan : s.dev.canComplete (.write 0x169 1) = true := canComplete_register (a := 0x169) rfl rfl
    exact does_accessComplete (accessCompletes_answers ha hx hcan rfl (perform_safClr _))
  case readCompletes =>
    have hp' := readReg_plain (d := noAccess s.dev) hp (BitVec.toNat_ne.mp h0) (BitVec.toNat_ne.mp h1)
    rw [peek_noAccess] at hp'
    exact does_accessComplete (accessCompletes_answers ha hx (canComplete_read hr) rfl (perform_read hp'))
  case writeCompletes =>
    refine ⟨fun hr => does_accessComplete (accessCompletes_waits hx hr), fun hr => ?_⟩
    have hcan : s.dev.canComplete (.write a data) = true := canComplete_register rfl hr
    refine ⟨fun d' ht => does_accessComplete ?_, fun ht => does_accessComplete ?_⟩
    · exact accessCompletes_answers ha hx hcan rfl (perform_write_ok ht)
    · rw [accessCompletes_refuses ha hx hcan rfl (perform_write_error ht)]; rfl

end Sys2Proof.Proofs
end

section
/-! The modulator and analog inputs: the verdicts of the detectors, the end of settling, the SAR converter. -/
namespace Sys2Proof.Proofs

open Sys2Proof.Machine Sys2Proof.Safety Sys2Proof.Laws

/-! ### Quantities in units of their register -/

/-- An exact quantity is not rounded. -/
theorem quantise_intCast (i : Int) : quantise (i : Rat) = i := rfl

theorem floor_le_quantise (r : Rat) : r.floor ≤ quantise r := by
  unfold quantise upOrDown
  split
  · rename_i hd
    simp [Rat.floor, hd]
  · split
    · exact Rat.intCast_le_intCast.mp (Rat.le_trans (Rat.floor_le r) Rat.le_ceil)
    · exact Int.le_refl _

theorem quantise_le_ceil (r : Rat) : quantise r ≤ r.ceil := by
  unfold quantise upOrDown
  split
  · rename_i hd
    simp [Rat.ceil, hd]
  · split
    · exact Int.le_refl _
    · exact Rat.intCast_le_intCast.mp (Rat.le_trans (Rat.floor_le r) Rat.le_ceil)

theorem quantise_le {r : Rat} {i : Int} (h : r ≤ i) : quantise r ≤ i :=
  Int.le_trans (quantise_le_ceil r) (Rat.ceil_le_iff.mpr h)

theorem le_quantise {r : Rat} {i : Int} (h : (i : Rat) ≤ r) : i ≤ quantise r :=
  Int.le_trans (Rat.le_floor_iff.mpr h) (floor_le_quantise r)

/-! ### The SAR converter -/

theorem sarCode_toNat (volts : Rat) : (sarCode volts).toNat = clampNat 4095 (natOf (quantise (volts / (33 / 10) * 4096))) := by
  have hlt : ∀ n, clampNat 4095 n < 2 ^ 12 := fun n => by unfold clampNat; split <;> omega
  rw [sarCode, BitVec.toNat_ofNat, Nat.mod_eq_of_lt (hlt _)]

theorem sarCode_exact {volts : Rat} {k : Nat} (hk : k ≤ 4095) (h : volts * 4096 = k * (33 / 10)) :
    (sarCode volts).toNat = k := by
  have hv : volts / (33 / 10) * 4096 = ((k : Int) : Rat) := by rw [Rat.intCast_natCast]; grind
  rw [sarCode_toNat, hv, quantise_intCast, natOf, Int.toNat_natCast, clampNat, if_pos hk]

theorem sarCode_full {volts : Rat} (h : 33 / 10 ≤ volts) : (sarCode volts).toNat = 4095 := by
  have hq : 4096 ≤ quantise (volts / (33 / 10) * 4096) := le_quantise (by grind)
  rw [sarCode_toNat, natOf, clampNat, if_neg (by omega)]

theorem sarCode_zero {volts : Rat} (h : volts ≤ 0) : (sarCode volts).toNat = 0 := by
  have hq : quantise (volts / (33 / 10) * 4096) ≤ 0 := quantise_le (by grind)
  rw [sarCode_toNat, natOf, Int.toNat_of_nonpos hq, clampNat, if_pos (by omega)]

/-! ### The detectors -/

section
variable {d : Dev} {n : Fin 6}

/-- The plausibility counts of A and B restart with a change of their input's verdict, and no other input has any. -/
theorem restartPlausibility_eq (d : Dev) (n : Fin 6) : d.restartPlausibility n = { d with sen := { d.sen with
    bad := if h : n.val < 2 then upd d.sen.bad ⟨n.val, by omega⟩ 0 else d.sen.bad
    good := if h : n.val < 2 then upd d.sen.good ⟨n.val, by omega⟩ 0 else d.sen.good } } := by
  by_cases h : n.val < 2
  · have h3 : n.val < 3 := by omega
    simp [Dev.restartPlausibility, h, h3]
  · simp [Dev.restartPlausibility, h]

/-- An event ahead of its fault fires, and leaves the inputs and the active faults as they are. -/
theorem episodeEvent_spec (d : Dev) (f src sub inst cls : Nat) (data : Word) (h : src < 64) :
    (d.episodeEvent f src sub inst cls data).sen = d.sen ∧ (d.episodeEvent f src sub inst cls data).lim.active = d.lim.active ∧
      fired src (d.episodeEvent f src sub inst cls data) := by
  obtain ⟨k, l⟩ := faultEpisode_keeps d f inst none
  unfold Dev.episodeEvent
  refine ⟨?_, ?_, event_fired _ _ _ _ _ _ _ h⟩
  · rw [event_sen, ← k.sen]
  · rw [event_lim, ← l]
    rfl

/-- What a detection leaves: the verdicts as they are, one count, its event, and no fault yet. -/
structure Detected (src : Nat) (a b : Dev) : Prop where
  lost : b.sen.lost = a.sen.lost
  frozen : b.sen.frozen = a.sen.frozen
  det : b.sen.det = satInc 4095 a.sen.det
  fires : fired src b
  active : b.lim.active = a.lim.active

theorem detection_detected (d : Dev) (n : Fin 6) {src : Nat} (h : src < 64) : Detected src d (d.detection n src) := by
  obtain ⟨sat, q, ⟨hsen, hact, hf⟩, he⟩ : ∃ sat q, (q.sen = { d.sen with det := satInc 4095 d.sen.det, detSat := sat } ∧
      q.lim.active = d.lim.active ∧ fired src q) ∧ eventsOnly (q.restartPlausibility n) (d.detection n src) := by
    refine ⟨d.sen.detSat || decide (4095 ≤ d.sen.det + 1), _, ?_, noticeIf_eventsOnly _ _ _ _ _⟩
    split <;> exact episodeEvent_spec _ _ _ _ _ _ _ h
  rw [restartPlausibility_eq] at he
  constructor
  · rw [eventsOnly_sen he, hsen]
  · rw [eventsOnly_sen he, hsen]
  · rw [eventsOnly_sen he, hsen]
  · exact fired_of_eventsOnly he hf
  · rw [eventsOnly_lim he, ← hact]

theorem inputLost_off (h : d.detectorsRun = false ∨ d.sen.lost.getLsbD n.val = true) : d.inputLost n = d :=
  if_neg (by rcases h with h | h <;> rw [h] <;> simp)

theorem inputLost_on (hr : d.detectorsRun = true) (h : d.sen.lost.getLsbD n.val = false) : d.inputLost n =
    ({ d with sen := { d.sen with lost := putBit d.sen.lost n.val true } } : Dev).detection n 22 :=
  if_pos (by rw [hr, h]; rfl)

theorem inputActive_off (h : d.detectorsRun = false ∨ d.sen.lost.getLsbD n.val = false) : d.inputActive n = d :=
  if_neg (by rcases h with h | h <;> rw [h] <;> simp)

theorem inputActive_on (hr : d.detectorsRun = true) (h : d.sen.lost.getLsbD n.val = true) : d.inputActive n =
    ({ d with sen := { d.sen with lost := putBit d.sen.lost n.val false } } : Dev).restartPlausibility n :=
  if_pos (by rw [hr, h]; rfl)

theorem inputFrozen_off (h : d.detectorsRun = false ∨ d.freezeArmed n = false ∨ d.sen.frozen.getLsbD n.val = true) :
    d.inputFrozen n = d :=
  if_neg (by rcases h with h | h | h <;> rw [h] <;> simp)

theorem inputFrozen_on (hr : d.detectorsRun = true) (ha : d.freezeArmed n = true) (h : d.sen.frozen.getLsbD n.val = false) :
    d.inputFrozen n =
      ({ d with sen := { d.sen with frozen := putBit d.sen.frozen n.val true } } : Dev).detection n 23 :=
  if_pos (by rw [hr, ha, h]; rfl)

theorem inputUnfrozen_off (h : d.detectorsRun = false ∨ d.sen.frozen.getLsbD n.val = false) : d.inputUnfrozen n = d :=
  if_neg (by rcases h with h | h <;> rw [h] <;> simp)

theorem inputUnfrozen_on (hr : d.detectorsRun = true) (h : d.sen.frozen.getLsbD n.val = true) : d.inputUnfrozen n =
    ({ d with sen := { d.sen with frozen := putBit d.sen.frozen n.val false } } : Dev).restartPlausibility n :=
  if_pos (by rw [hr, h]; rfl)

/-! The freeze detector's arming (R210) -/

theorem freezeArmed_notRun (h : d.inRun = false) : d.freezeArmed n = false := by
  simp [Dev.freezeArmed, h]

/-- MDAT3 before the K3 command, and MDAT4 and MDAT5 outside OUTPUT. -/
theorem freezeArmed_off (h : (n = 3 ∧ d.seq.drover = .precharge ∧ d.seq.phase < 2) ∨ (4 ≤ n.val ∧ d.seq.drover = .closed)) :
    d.freezeArmed n = false := by
  rcases h with ⟨rfl, hs, hp⟩ | ⟨hn, hs⟩
  · simp [Dev.freezeArmed, Dev.holdClosed, hs, hp]
  · match n, hn with
    | 4, _ => simp [Dev.freezeArmed, hs]
    | 5, _ => simp [Dev.freezeArmed, hs]

theorem freezeArmed_on (hr : d.inRun = true) (h : n = 2 ∨ d.seq.drover = .output ∨ (n.val < 4 ∧ d.seq.drover = .closed) ∨
    (n.val < 2 ∧ d.seq.drover = .precharge) ∨ (n = 3 ∧ d.seq.drover = .precharge ∧ 2 ≤ d.seq.phase)) :
    d.freezeArmed n = true := by
  rcases h with rfl | hs | ⟨hn, hs⟩ | ⟨hn, hs⟩ | ⟨rfl, hs, hp⟩
  · simp [Dev.freezeArmed, hr]
  · match n with
    | 0 | 1 | 2 | 3 | 4 | 5 => simp [Dev.freezeArmed, hr, hs]
  · match n, hn with
    | 0, _ | 1, _ | 2, _ | 3, _ => simp [Dev.freezeArmed, hr, hs]
  · match n, hn with
    | 0, _ | 1, _ => simp [Dev.freezeArmed, hr, hs]
  · simp [Dev.freezeArmed, hr, hs, hp]

/-! The SAR round (R216) -/

theorem sarConversion_stopped (h : d.alive = false ∨ d.sup.doms.per = false ∨ d.sup.doms.mod = false) (code : BitVec 12) :
    d.sarConversion code = d :=
  if_pos (by rcases h with h | h | h <;> simp [h])

theorem sarConversion_ain (ha : d.alive = true) (hp : d.sup.doms.per = true) (hm : d.sup.doms.mod = true) {i : Fin 8}
    (h : sarRound[d.sen.slot % 16]? = some (.ain i)) (code : BitVec 12) : d.sarConversion code = { d with sen := { d.sen with
      ainSum := modify d.sen.ainSum i (· + code.toNat), ainCnt := modify d.sen.ainCnt i (· + 1)
      slot := (d.sen.slot + 1) % 16 } } := by
  simp [Dev.sarConversion, List.getD, ha, hp, hm, h]

theorem sarConversion_ntc (ha : d.alive = true) (hp : d.sup.doms.per = true) (hm : d.sup.doms.mod = true) {i : Fin 4}
    (h : sarRound[d.sen.slot % 16]? = some (.ntc i)) (code : BitVec 12) : d.sarConversion code = { d with sen := { d.sen with
      ntcSum := modify d.sen.ntcSum i (· + code.toNat), ntcCnt := modify d.sen.ntcCnt i (· + 1)
      slot := (d.sen.slot + 1) % 16 } } := by
  simp [Dev.sarConversion, List.getD, ha, hp, hm, h]

theorem sarConversion_vcc5 (ha : d.alive = true) (hp : d.sup.doms.per = true) (hm : d.sup.doms.mod = true)
    (h : sarRound[d.sen.slot % 16]? = some .vcc5) (code : BitVec 12) : d.sarConversion code = { d with sen := { d.sen with
      vcc5 := code.toNat
      slot := (d.sen.slot + 1) % 16 } } := by
  simp [Dev.sarConversion, List.getD, ha, hp, hm, h]

end

section
variable {s : State} {d : Dev} {n : Fin 6}

theorem does_inputLost (h : s.dev.inputLost n = d) : does (.inputLost n) s d := h ▸ rfl

theorem does_inputActiveAgain (h : s.dev.inputActive n = d) : does (.inputActiveAgain n) s d := h ▸ rfl

theorem does_inputFrozen (h : s.dev.inputFrozen n = d) : does (.inputFrozen n) s d := h ▸ rfl

theorem does_inputUnfrozen (h : s.dev.inputUnfrozen n = d) : does (.inputUnfrozen n) s d := h ▸ rfl

theorem does_settlingEnd (h : s.dev.settlingEnd = d) : does .settlingEnd s d := h ▸ rfl

theorem does_sarConversion {volts : Rat} (h : s.dev.sarConversion (sarCode volts) = d) : does (.sarConversion volts) s d :=
  h ▸ rfl

end

/-- Settles O36, clause by clause: each verdict and its end where the detector runs and where not, the end of settling, a
conversion by its slot, and the codes of the pin voltages. -/
theorem detectors : Obligations.Detectors := by
  unfold Obligations.Detectors
  rintro s n volts code rfl
  refine ⟨fun h => does_inputLost (inputLost_off h), fun hr h => ?lost,
    fun h => does_inputActiveAgain (inputActive_off h),
    fun hr h => does_inputActiveAgain ((inputActive_on hr h).trans (restartPlausibility_eq _ n)),
    fun h => does_inputFrozen (inputFrozen_off ?unarmed), fun hr hrun h harm => ?frozen,
    fun h => does_inputUnfrozen (inputUnfrozen_off h),
    fun hr h => does_inputUnfrozen ((inputUnfrozen_on hr h).trans (restartPlausibility_eq _ n)),
    fun h => does_settlingEnd (if_pos h), fun h => does_settlingEnd (if_neg (by simp [h])),
    fun ha hp hm q hq => ?converts, fun h => does_sarConversion (sarConversion_stopped h _),
    fun k => sarCode_exact, sarCode_full, sarCode_zero⟩
  case lost =>
    obtain ⟨lost, frozen, det, fires, active⟩ := detection_detected
      ({ s.dev with sen := { s.dev.sen with lost := putBit s.dev.sen.lost n.val true } } : Dev) n (src := 22) (by decide)
    exact ⟨_, does_inputLost (inputLost_on hr h), lost, frozen, det, fires, active⟩
  case unarmed =>
    rcases h with h | h | h | h
    · exact .inl h
    · exact .inr (.inl (freezeArmed_notRun h))
    · exact .inr (.inr h)
    · exact .inr (.inl (freezeArmed_off h))
  case frozen =>
    obtain ⟨lost, frozen, det, fires, active⟩ := detection_detected
      ({ s.dev with sen := { s.dev.sen with frozen := putBit s.dev.sen.frozen n.val true } } : Dev) n (src := 23) (by decide)
    exact ⟨_, does_inputFrozen (inputFrozen_on hr (freezeArmed_on hrun harm) h), frozen, lost, det, fires, active⟩
  case converts =>
    subst hq
    refine ⟨fun i h => does_sarConversion (sarConversion_ain ha hp hm h _),
      fun i h => does_sarConversion (sarConversion_ntc ha hp hm h _),
      fun h => does_sarConversion (sarConversion_vcc5 ha hp hm (by rw [h]; rfl) _), fun h => ?_⟩
    rcases h with h | h | h | h <;> rw [h] <;> rfl

end Sys2Proof.Proofs
end

section
/-! The samples of the coil currents: the armature signature of a pull-in, the mark of a slow release, and what a
confirmed closing starts. -/
namespace Sys2Proof.Proofs

open Sys2Proof.Machine Sys2Proof.Safety Sys2Proof.Laws

/-! ### One sample of a channel -/

section
variable {c : Coil} {delta50 rise20 ma : Int} {code : BitVec 12}

theorem railCode_inside (hl : 8 < code.toNat) (hh : code.toNat < 4087) : railCode code = false := by
  simp only [railCode, Bool.or_eq_false_iff, decide_eq_false_iff_not]
  omega

theorem countSample_railRun (hr : railCode code = false) : (c.countSample code ma).railRun = 0 := by
  simp [Coil.countSample, hr]

theorem sample_rises (hp : c.phase = .signature) (hd : c.dip = false) (hn : 0 ≤ delta50) (h : c.iPk < ma) :
    c.sample false delta50 rise20 code ma = { c.countSample code ma with
      samples := c.samples + 1, iPk := ma, iPkAt := c.samples + 1 } := by
  have hdip : ¬50 * ma < 50 * c.iPk - delta50 := by omega
  simp [Coil.sample, Coil.countSample, Coil.signatureSample, hp, hd, hdip, h]

theorem sample_dips (hp : c.phase = .signature) (hd : c.dip = false) (h : 50 * ma < 50 * c.iPk - delta50) :
    c.sample false delta50 rise20 code ma = { c.countSample code ma with
      samples := c.samples + 1, dip := true, iLow := ma, iLowAt := c.samples + 1 } := by
  simp [Coil.sample, Coil.countSample, Coil.signatureSample, hp, hd, h]

theorem sample_lower (hp : c.phase = .signature) (hd : c.dip = true) (h : ma < c.iLow) :
    c.sample false delta50 rise20 code ma = { c.countSample code ma with
      samples := c.samples + 1, iLow := ma, iLowAt := c.samples + 1 } := by
  simp [Coil.sample, Coil.countSample, Coil.signatureSample, hp, hd, h]

/-- A confirming sample is counted and leaves the signature as it stands. -/
theorem sample_confirming (hp : c.phase = .signature) :
    c.sample true delta50 rise20 code ma = c.countSample code ma := by
  simp [Coil.sample, Coil.countSample, hp]

theorem sample_marks (hp : c.phase = .releasing) (hs : c.slow = true) (hh : c.hi = true) (h0 : c.relSamples ≠ 0)
    (hm : c.relMin ≤ ma) (h : 20 * c.relMin + rise20 ≤ 20 * ma) :
    c.sample false delta50 rise20 code ma = { c.countSample code ma with
      relSamples := c.relSamples + 1, mark := some c.relMinAt, hi := false, breakDue := c.wasClosed } := by
  have hlow : ¬ma < c.relMin := by omega
  simp [Coil.sample, Coil.countSample, Coil.releaseSample, hp, hs, hh, h0, hlow, h]

theorem sample_falls (hp : c.phase = .releasing) (hs : c.slow = true) (hh : c.hi = true) (h : ma < c.relMin) :
    c.sample false delta50 rise20 code ma = { c.countSample code ma with
      relSamples := c.relSamples + 1, relMin := ma, relMinAt := c.relSamples + 1 } := by
  simp [Coil.sample, Coil.countSample, Coil.releaseSample, hp, hs, hh, h]

@[simp] theorem signatureSample_railRun : (c.signatureSample delta50 ma).railRun = c.railRun := by
  unfold Coil.signatureSample
  repeat' split
  all_goals rfl

@[simp] theorem bounceSample_railRun : (c.bounceSample delta50 ma).railRun = c.railRun := by
  unfold Coil.bounceSample
  repeat' split
  all_goals rfl

@[simp] theorem releaseSample_railRun : (c.releaseSample rise20 ma).railRun = c.railRun := by
  unfold Coil.releaseSample
  repeat' split
  all_goals rfl

/-- A sample away from the rail codes ends their run. -/
theorem sample_railRun (hr : railCode code = false) (b : Bool) : (c.sample b delta50 rise20 code ma).railRun = 0 := by
  have hcount := countSample_railRun (c := c) (ma := ma) hr
  simp only [Coil.sample]
  split
  · split <;> simp [hcount]
  · split <;> simp [hcount]
  · split <;> simp [hcount]

end

/-! ### When a sample confirms the closing -/

section
variable {d : Dev} {k : K} {ma : Int}

theorem deltaI50_nonneg (d : Dev) (k : K) : 0 ≤ d.deltaI50 k :=
  Int.le_trans (by decide) (Int.le_max_left 1000 _)

theorem confirms_noDip (h : (d.coil.get k).dip = false) : d.confirms k ma = false := by
  simp [Dev.confirms, h]

theorem confirms_lower (h : ma < (d.coil.get k).iLow) : d.confirms k ma = false := by
  have hdelta := deltaI50_nonneg d k
  have hlow : ¬50 * (d.coil.get k).iLow + d.deltaI50 k ≤ 50 * ma := by omega
  simp [Dev.confirms, hlow]

theorem confirms_releasing (h : (d.coil.get k).phase = .releasing) : d.confirms k ma = false := by
  simp [Dev.confirms, h]

theorem confirms_on (hp : (d.coil.get k).phase = .signature) (hd : (d.coil.get k).dip = true)
    (h : 50 * (d.coil.get k).iLow + d.deltaI50 k ≤ 50 * ma) : d.confirms k ma = true := by
  simp [Dev.confirms, hp, hd, h]

end

/-! ### What a sample does to the device -/

section
variable {d : Dev} {k : K} {ma : Int} {code : BitVec 12} {c' : Coil}

/-- A sample away from the rail codes that starts no dip and confirms no closing changes its channel alone. -/
theorem coilSample_channel (hr : railCode code = false) (hc : d.confirms k ma = false)
    (hs : (d.coil.get k).sample false (d.deltaI50 k) (d.markRise20 k) code ma = c') (hd : c'.dip = (d.coil.get k).dip) :
    d.coilSample k code ma = d.setCoil k fun _ => c' := by
  have hrun : c'.railRun = 0 := hs ▸ sample_railRun hr false
  simp [Dev.coilSample, hc, hs, hd, hrun]

/-- A sample that starts the dip: K3's ends the weld window (R330). -/
theorem coilSample_dipStart (hr : railCode code = false) (hc : d.confirms k ma = false)
    (hs : (d.coil.get k).sample false (d.deltaI50 k) (d.markRise20 k) code ma = c') (h0 : (d.coil.get k).dip = false)
    (h1 : c'.dip = true) : d.coilSample k code ma =
      if k = 2 ∧ d.seq.drover = .precharge ∧ d.seq.phase = 2 then (d.setCoil k fun _ => c').weldWindowEnds
      else d.setCoil k fun _ => c' := by
  have hrun : c'.railRun = 0 := hs ▸ sample_railRun hr false
  simp [Dev.coilSample, hc, hs, h0, h1, hrun]

theorem coilSample_confirms (hr : railCode code = false) (hc : d.confirms k ma = true)
    (hp : (d.coil.get k).phase = .signature) :
    d.coilSample k code ma = (d.setCoil k fun _ => (d.coil.get k).countSample code ma).confirmClosing k ma := by
  have hs := sample_confirming (delta50 := d.deltaI50 k) (rise20 := d.markRise20 k) (code := code) (ma := ma) hp
  have hrun : ((d.coil.get k).countSample code ma).railRun = 0 := hs ▸ sample_railRun hr true
  have hdip : ((d.coil.get k).countSample code ma).dip = (d.coil.get k).dip := rfl
  simp [Dev.coilSample, hc, hs, hdip, hrun]

theorem does_coilCurrentSample {s : State} {d : Dev} (h : s.dev.coilSample k code (s.dev.coilCurrent k code) = d) :
    does (.coilCurrentSample k code) s d := h ▸ rfl

end

/-! ### What a confirmed closing starts -/

section
variable {d : Dev} {k j : K}

theorem pullIn_get_ne (h : j ≠ k) : (d.pullIn k).coil.get j = d.coil.get j := get_modify_ne _ h _

theorem pullIn_phase (d : Dev) (k : K) : ((d.pullIn k).coil.get k).phase = .signature := by
  unfold Dev.pullIn
  rw [setCoil_coil, get_modify_self]

theorem moveDrover_seq (d : Dev) (s : Drover) (code : Nat) : (d.moveDrover s code).seq = { d.seq with drover := s } := by
  by_cases h : d.seq.drover = s
  · subst h
    rw [moveDrover_same]
  · rw [eventsOnly_seq (moveDrover_ends d s code h).1]

/-- An aborted pre-charge records its code. -/
theorem abortPrecharge_code {code : Nat} (h : code ≠ 0) : (d.abortPrecharge code).seq.abort = code := by
  unfold Dev.abortPrecharge
  simp only [if_neg h, moveDrover_seq]
  rfl

theorem startK3_blocked (h : d.seq.retryBlocked = true) : d.startK3 = d.abortPrecharge 8 := if_pos h

/-- The K3 command takes V_0 and starts the pull-in of K3 (R330). -/
theorem startK3_started (h : d.seq.retryBlocked = false) : d.startK3.seq.drover = d.seq.drover ∧ d.startK3.seq.phase = 2 ∧
    d.startK3.seq.v0 = d.sen.vals.get 3 ∧ d.startK3.seq.k3Frames = 0 ∧ (d.startK3.coil.get 2).phase = .signature ∧
    ∀ j, j ≠ 2 → d.startK3.coil.get j = d.coil.get j := by
  unfold Dev.startK3
  rw [if_neg (by simp [h])]
  exact ⟨rfl, rfl, rfl, rfl, pullIn_phase _ 2, fun _ hj => pullIn_get_ne hj⟩

theorem startK1_started (d : Dev) : d.startK1.seq.drover = d.seq.drover ∧ d.startK1.seq.phase = 4 ∧
    (d.startK1.coil.get 0).phase = .signature ∧ ∀ j, j ≠ 0 → d.startK1.coil.get j = d.coil.get j :=
  ⟨rfl, rfl, pullIn_phase _ 0, fun _ hj => pullIn_get_ne hj⟩

theorem closingConfirmed_K2 (hs : d.seq.drover = .precharge) (hp : d.seq.phase = 1) : d.closingConfirmed 1 = d.startK3 := by
  simp [Dev.closingConfirmed, hs, hp]

theorem closingConfirmed_K3 (hs : d.seq.drover = .precharge) (hp : d.seq.phase = 2 ∨ d.seq.phase = 3)
    (hj : d.seq.judged = false) : d.closingConfirmed 2 = d.startK1 := by
  simp [Dev.closingConfirmed, hs, hp, hj]

theorem closingConfirmed_K1 (hs : d.seq.drover = .precharge) (hp : d.seq.phase = 4) :
    d.closingConfirmed 0 = { d with seq := { d.seq with phase := 5 } } := by
  simp [Dev.closingConfirmed, hs, hp]

/-- What a confirmed closing starts leaves its own channel as it is, but where the retry limit ends the pre-charge. -/
theorem closingConfirmed_get_self (hb : d.seq.drover = .precharge → k = 1 → d.seq.phase = 1 → d.seq.retryBlocked = false) :
    (d.closingConfirmed k).coil.get k = d.coil.get k := by
  unfold Dev.closingConfirmed
  split
  case isTrue hs =>
    split
    case isTrue h =>
      obtain ⟨rfl, hp⟩ := h
      obtain ⟨-, -, -, -, -, others⟩ := startK3_started (hb hs rfl hp)
      exact others 1 (by decide)
    case isFalse =>
      split
      case isTrue h =>
        obtain ⟨rfl, -, -⟩ := h
        obtain ⟨-, -, -, others⟩ := startK1_started d
        exact others 2 (by decide)
      case isFalse => split <;> rfl
  case isFalse =>
    split
    case isTrue =>
      rw [(keepsCore_tollK4Closed _).coil]
      split
      · rfl
      · obtain ⟨-, -, coil, -⟩ := setDrover_other d .output
        rw [coil]
    case isFalse => rfl

/-- What the confirmation of its closing makes of a channel `c`. -/
structure ConfirmedFrom (c c' : Coil) : Prop where
  confirmed : c'.confirmed = true
  phase : c'.phase = if c.lost || c.frozen then .openLoop else .pullIn
  iLowAt : c'.iLowAt = c.iLowAt
  bouncing : c'.bouncing = true
  tClose : c'.tClose = clampNat 0x3FF (natOf (quantise ((c.iLowAt : Rat) / 2)))

/-- The device on which the sequence goes on after a confirmation. -/
structure ClosingTaken (d : Dev) (k : K) (x : Dev) : Prop where
  channel : ConfirmedFrom (d.coil.get k) (x.coil.get k)
  seq : x.seq = d.seq
  sen : x.sen = d.sen

theorem confirmClosing_taken (d : Dev) (k : K) (ma : Int) :
    ∃ x, d.confirmClosing k ma = x.closingConfirmed k ∧ ClosingTaken d k x := by
  obtain ⟨f, e, hf⟩ : ∃ f, d.confirmClosing k ma = ((d.setCoil k f).countK k fun b =>
      { b with closings := satInc 0xFFFFFF b.closings }).closingConfirmed k ∧
      ConfirmedFrom (d.coil.get k) (f (d.coil.get k)) := ⟨_, rfl, rfl, rfl, rfl, rfl, rfl⟩
  have kept := keeps_countK (d.setCoil k f) k fun b => { b with closings := satInc 0xFFFFFF b.closings }
  have coil := keeps_same kept .coil rfl
  refine ⟨_, e, ?_, keeps_same kept .seq rfl, keeps_same kept .sen rfl⟩
  simp only [same] at coil
  rw [coil, setCoil_coil, get_modify_self]
  exact hf

/-- A confirming sample away from the rail codes. -/
theorem coilSample_taken {ma : Int} {code : BitVec 12} (hr : railCode code = false) (hp : (d.coil.get k).phase = .signature)
    (hd : (d.coil.get k).dip = true) (h : 50 * (d.coil.get k).iLow + d.deltaI50 k ≤ 50 * ma) :
    ∃ x, d.coilSample k code ma = x.closingConfirmed k ∧ ClosingTaken d k x := by
  rw [coilSample_confirms hr (confirms_on hp hd h) hp]
  obtain ⟨x, e, ⟨⟨confirmed, phase, iLowAt, bouncing, tClose⟩, seq, sen⟩⟩ :=
    confirmClosing_taken (d.setCoil k fun _ => (d.coil.get k).countSample code ma) k ma
  rw [setCoil_coil, get_modify_self] at phase iLowAt tClose
  exact ⟨x, e, ⟨confirmed, phase, iLowAt, bouncing, tClose⟩, seq, sen⟩

end

/-- Settles O23, clause by clause: the scale of the codes; a rising, a dip-starting and a lowest sample; a confirmation
under the retry limit and any other; the mark of a slow release and a falling sample before it. -/
theorem armatureSignature : Obligations.ArmatureSignature := by
  unfold Obligations.ArmatureSignature
  rintro s k code ma c rfl rfl hl hh
  have hr := railCode_inside hl hh
  have hdelta := deltaI50_nonneg s.dev k
  refine ⟨fun m hm => ?scale, fun hp hd h => ?rises, fun hp hd h => ?dips, fun hp hd h => ?lower,
    fun hp hd h hs hk hph hb => ?blocked, fun hp hd h hb => ?confirms, fun hp hsl hhi h0 hm h => ?marks,
    fun hp hsl hhi h => ?falls⟩
  case scale =>
    unfold Dev.coilCurrent
    rw [hm]
    rfl
  case rises =>
    have hdev := coilSample_channel hr (confirms_noDip hd) (sample_rises hp hd hdelta h) rfl
    have hrun := countSample_railRun (c := s.dev.coil.get k) (ma := s.dev.coilCurrent k code) hr
    exact ⟨_, does_coilCurrentSample hdev, rfl, rfl, rfl, hp, hd, hrun, rfl⟩
  case dips =>
    have hdev := coilSample_dipStart hr (confirms_noDip hd) (sample_dips hp hd h) hd rfl
    by_cases hw : k = 2 ∧ s.dev.seq.drover = .precharge ∧ s.dev.seq.phase = 2
    · rw [if_pos hw] at hdev
      exact ⟨_, _, does_coilCurrentSample hdev, rfl, rfl, rfl, rfl, hp, rfl, fun _ _ _ => rfl, fun hk => absurd hw.1 hk⟩
    · rw [if_neg hw] at hdev
      exact ⟨_, _, does_coilCurrentSample hdev, rfl, rfl, rfl, rfl, hp, rfl, fun hk hs hph => absurd ⟨hk, hs, hph⟩ hw,
        fun _ => rfl⟩
  case lower =>
    have hdev := coilSample_channel hr (confirms_lower h) (sample_lower hp hd h) rfl
    exact ⟨_, does_coilCurrentSample hdev, rfl, rfl, hp, rfl⟩
  case blocked =>
    obtain ⟨x, e, -, seq, -⟩ := coilSample_taken hr hp hd h
    subst hk
    rw [closingConfirmed_K2 (by rwa [seq]) (by rwa [seq]), startK3_blocked (by rwa [seq])] at e
    exact ⟨_, does_coilCurrentSample e, (abortPrecharge_spec x 8).1, abortPrecharge_code (by decide)⟩
  case confirms =>
    obtain ⟨x, e, ⟨confirmed, phase, iLowAt, bouncing, tClose⟩, seq, sen⟩ := coilSample_taken hr hp hd h
    rw [← closingConfirmed_get_self (by rwa [seq])] at confirmed phase iLowAt bouncing tClose
    refine ⟨_, does_coilCurrentSample e, confirmed, phase, iLowAt, bouncing, tClose,
      fun hs => ⟨fun hk hph => ?_, fun hk hph hj => ?_, fun hk hph => ?_⟩⟩
    · have hbx : x.seq.retryBlocked = false := by rw [seq, hb hs hk hph]
      subst hk
      rw [closingConfirmed_K2 (by rwa [seq]) (by rwa [seq]), ← sen]
      obtain ⟨drover, phase, v0, frames, coil, -⟩ := startK3_started hbx
      exact ⟨by rw [drover, seq, hs], phase, v0, frames, coil⟩
    · subst hk
      rw [closingConfirmed_K3 (by rwa [seq]) (by rwa [seq]) (by rwa [seq])]
      obtain ⟨drover, phase, coil, -⟩ := startK1_started x
      exact ⟨by rw [drover, seq, hs], phase, coil⟩
    · subst hk
      rw [closingConfirmed_K1 (by rwa [seq]) (by rwa [seq])]
      exact ⟨by rw [← hs, ← seq], rfl⟩
  case marks =>
    have hdev := coilSample_channel hr (confirms_releasing hp) (sample_marks hp hsl hhi h0 hm h) rfl
    exact ⟨_, does_coilCurrentSample hdev, rfl, rfl, hp, rfl⟩
  case falls =>
    have hdev := coilSample_channel hr (confirms_releasing hp) (sample_falls hp hsl hhi h) rfl
    exact ⟨_, does_coilCurrentSample hdev, rfl, rfl, hhi, hp⟩

end Sys2Proof.Proofs
end

section
/-! State estimation: the fusion of a rest, the fits of a burst, the fall of a cell's confidence, and the requests of
deliberate steps. -/
namespace Sys2Proof.Proofs

open Sys2Proof.Machine Sys2Proof.Safety Sys2Proof.Laws

/-- A command that is an effect on the device ends in what the effect gives. -/
theorem does_of_effect {c : Instr} {s : State} {f : Dev → Dev} {d : Dev} (hc : exec c s = s.effect f)
    (h : f s.dev = d) : does c s d := by
  subst h
  exact hc

/-- A host command that its register takes ends in what its body gives, with the result written. -/
theorem does_command {c : Instr} {s : State} {r : CmdReg} {tok : Byte} {code v : Nat} {body : Dev → Executed} {d : Dev}
    (hc : exec c s = s.effect fun d => d.hostCommand r tok code body) (ht : takes s.dev r tok)
    (hb : body (accepted s.dev tok code) = (d, some v)) : does c s (executed d r tok v) :=
  does_of_effect hc (hostCommand_result ht code hb)

section
variable {d : Dev} {m : Manifest} {p : Fin 576}

/-! ### Listed cells -/

theorem listedCells_nodup (d : Dev) : d.listedCells.Nodup := by
  unfold Dev.listedCells
  split
  · exact List.nodup_nil
  · exact (List.nodup_finRange 576).filter _

theorem mapListed_listed (f : Fin 576 → Cell → Cell) (h : p ∈ d.listedCells) :
    (d.mapListed f).est.cells.get p = f p (d.est.cells.get p) :=
  get_foldl_modify_mem f _ _ p h (listedCells_nodup d)

theorem mapListed_unlisted (f : Fin 576 → Cell → Cell) (h : p ∉ d.listedCells) :
    (d.mapListed f).est.cells.get p = d.est.cells.get p :=
  get_foldl_modify f _ _ p h

/-! ### When work of class E acts -/

theorem classERuns_off (h : d.insp.halted = true ∨ d.powerFailing = true ∨ d.eng.nowE = true) :
    d.classERuns = false := by
  rcases h with h | h | h <;> simp [Dev.classERuns, h]

theorem classERuns_on (hh : d.insp.halted = false) (hp : d.powerFailing = false) (he : d.eng.nowE = false) :
    d.classERuns = true := by
  simp [Dev.classERuns, hh, hp, he]

theorem restOver_moving (h : d.isQuiet = false) : d.restOver = false := by
  unfold Dev.restOver
  split
  · rw [h, Bool.false_and]
  · rfl

theorem restOver_iff (hm : d.man = some m) :
    d.restOver = true ↔ d.isQuiet = true ∧ 1000 * m.tRest ≤ d.est.quiet := by
  simp [Dev.restOver, hm]

/-! ### The fusion of a rest (R229) -/

section
variable {c : Cell} {charge : Int} {time : Nat} {unchecked : Bool}

/-- A reading without a valid temperature, or of an inserted module that waits for its first snap, is skipped. -/
theorem fuse_skipped (h : c.t = none ∨ c.inserted = true) : c.fuse m charge time unchecked = c :=
  if_pos (by rcases h with h | h <;> simp [h])

theorem capacity_var (c : Cell) (old new : Anchor) : (c.capacity old new).var = c.var := by
  simp only [Cell.capacity]
  split <;> rfl

theorem fuse_fused (ht : c.t ≠ none) (hi : c.inserted = false) :
    (c.fuse m charge time unchecked).soc = c.soc + c.var / (c.var + 9 / 10000) *
      (m.ocvInverse ((c.v : Rat) / 1000000) (c.celsius m) - c.soc) ∧
    (c.fuse m charge time unchecked).var = (1 - c.var / (c.var + 9 / 10000)) * c.var := by
  unfold Cell.fuse
  rw [if_neg (by simp [ht, hi])]
  refine ⟨rfl, ?_⟩
  cases c.anchor with
  | none => rfl
  | some old => exact congrArg _ (capacity_var ..)

end

/-- Lifting the derate changes no cell and no count. -/
theorem liftDerate_est (d : Dev) : ∃ b, d.liftDerate.est = { d.est with derated := b } := by
  unfold Dev.liftDerate
  split
  · exact ⟨false, notice_est ..⟩
  · exact ⟨d.est.derated, rfl⟩

theorem fuseAll_est (hm : d.man = some m) : ∃ b, d.fuseAll.est =
    { (d.mapListed fun _ c => c.fuse m d.est.coulomb d.sup.rtc.toNat d.eng.uncheckedE).est with derated := b } := by
  unfold Dev.fuseAll
  rw [hm]
  exact liftDerate_est _

theorem does_restFusion_off {s : State} (h : s.dev.inRun = false ∨ s.dev.restOver = false ∨ s.dev.est.fused = true ∨
    s.dev.classERuns = false) : does .restFusion s s.dev :=
  does_of_effect rfl (if_neg (by rcases h with h | h | h | h <;> simp [h]))

theorem does_restFusion_on {s : State} (hr : s.dev.inRun = true) (ho : s.dev.restOver = true)
    (hf : s.dev.est.fused = false) (he : s.dev.classERuns = true) :
    does .restFusion s { s.dev.fuseAll with est := { s.dev.fuseAll.est with fused := true } } :=
  does_of_effect rfl (if_pos (by simp [hr, ho, hf, he]))

/-! ### The judgement on a cell's fit (R234 to R238) -/

section
variable {c : Cell} {f : CellFit} {i1 : Int} {enough flat unchecked : Bool}

theorem stepCurrent_eq {x y : Rat × Rat} (hp : c.pre = some x) (hf : c.first = some y) :
    c.stepCurrent i1 = (i1 : Rat) / 1000 - y.2 - x.2 := by
  simp only [Cell.stepCurrent, hp, hf]

theorem stepRs_eq {x y : Rat × Rat} (hp : c.pre = some x) (hf : c.first = some y) :
    c.stepRs i1 = (x.1 - y.1) / c.stepCurrent i1 := by
  simp only [Cell.stepRs, hp, hf]

/-- A stage that has read less than 80 % of the burst snaps. -/
theorem fitRejected_short : c.fitRejected false flat i1 f = true := rfl

theorem fitRejected_passed (hf : c.first ≠ none) (ht : c.t ≠ none) (hm : c.fitFault = false)
    (hs : 0 < c.stepRs i1) (hflat : flat = true → f.square ≤ 1 / 1000000 ∧ 0 < f.rp) :
    c.fitRejected true flat i1 f = false := by
  simp only [Cell.fitRejected, Bool.or_eq_false_iff, Bool.and_eq_false_imp, decide_eq_false_iff_not, Rat.not_le,
    Rat.not_lt, Option.isNone_eq_false_iff, Option.isSome_iff_ne_none]
  exact ⟨⟨⟨⟨⟨⟨rfl, hf⟩, ht⟩, hm⟩, fun h => (hflat h).1⟩, hs⟩, fun h => (hflat h).2⟩

theorem applyFit_rejected (h : c.fitRejected enough flat i1 f = true) :
    c.applyFit m f i1 enough flat unchecked = (false, c) := if_pos h

/-- What an accepted fit with this step in A, this Rs, and Rp and τp of `f` makes of a cell `c`: each blended with the
weight `w` (R238). -/
structure BlendedFrom (c : Cell) (m : Manifest) (f : CellFit) (flat : Bool) (step rs w : Rat) (c' : Cell) : Prop where
  rs : c'.rs = blend w c.rs (rs / m.factorAt (c.celsius m))
  rp : c'.rp = if flat = true ∧ 2 / 100 < f.taup ∧ f.taup < 2 then
    blend w c.rp (f.rp / m.factorAt (c.celsius m)) else c.rp
  conf : c'.conf = c.conf + (255 - c.conf) / (if m.capacity / 4 ≤ absRat step then 4 else 8)
  sinceFit : c'.sinceFit = 0

/-- Below a confidence of 128 no fit counts as an outlier (R239). -/
theorem applyFit_accepted (h : c.fitRejected enough flat i1 f = false) (hc : c.conf < 128) :
    (c.applyFit m f i1 enough flat unchecked).1 = true ∧
      BlendedFrom c m f flat (c.stepCurrent i1) (c.stepRs i1) (max (1 / 8) (1 - (c.conf : Rat) / 256))
        (c.applyFit m f i1 enough flat unchecked).2 := by
  have near : decide (128 ≤ c.conf) = false := decide_eq_false (by omega)
  have inside : (flat && !decide (f.taup ≤ 2 / 100 ∨ 2 ≤ f.taup)) = true ↔
      flat = true ∧ 2 / 100 < f.taup ∧ f.taup < 2 := by
    simp only [Bool.and_eq_true, Bool.not_eq_true', decide_eq_false_iff_not, not_or, Rat.not_le]
  unfold Cell.applyFit
  rw [if_neg (by simp [h])]
  simp only [near, Bool.false_and, Bool.false_eq_true, false_and, if_false, decide_eq_true_eq]
  refine ⟨trivial, ?_⟩
  split
  case isTrue taken => exact ⟨rfl, (if_pos (inside.mp taken)).symm, rfl, rfl⟩
  case isFalse left => exact ⟨rfl, (if_neg fun taken => left (inside.mpr taken)).symm, rfl, rfl⟩

end

/-! ### The fits of a burst (R236, R238) -/

/-- `b` is `a` but for the cells and the counts of fits. -/
def fitsOnly (a b : Dev) : Prop := ∃ cells accepted rejected ovf, b = { a with est := { a.est with
  cells := cells, accepted := accepted, rejected := rejected, ovf := ovf } }

theorem fitsOnly_refl (d : Dev) : fitsOnly d d := ⟨_, _, _, _, rfl⟩

theorem fitsOnly_trans {a b c : Dev} (h : fitsOnly a b) (g : fitsOnly b c) : fitsOnly a c := by
  obtain ⟨_, _, _, _, rfl⟩ := h
  obtain ⟨_, _, _, _, rfl⟩ := g
  exact ⟨_, _, _, _, rfl⟩

theorem fitsOnly_man {a b : Dev} (h : fitsOnly a b) : b.man = a.man := by
  obtain ⟨_, _, _, _, rfl⟩ := h
  rfl

/-- The judgement on the fit of a cell, and the cell that it leaves. -/
def fitOf (d : Dev) (m : Manifest) (p : Fin 576) : Bool × Cell :=
  let c := d.est.cells.get p
  let i1 := d.est.i1.getD 0
  c.applyFit m (burstFit c.points (d.est.firstTs.getD 0) (c.stepCurrent i1)) i1
    (d.burstRead (stageOf p) && d.est.i1.isSome) d.est.flat d.eng.uncheckedE

/-- The other cells and the counts do not enter a cell's fit. -/
theorem fitOf_congr {a b : Dev} (h : fitsOnly a b) (hc : b.est.cells.get p = a.est.cells.get p) :
    fitOf b m p = fitOf a m p := by
  obtain ⟨_, _, _, _, rfl⟩ := h
  simp only at hc
  unfold fitOf
  simp only [hc]
  rfl

/-- The fit of a cell whose stage has read less than 80 % of the burst snaps is rejected (R236). -/
theorem fitOf_short (h : 100 * (d.chn.stages.get (stageOf p)).burstRead < 80 * d.est.burstSnaps) :
    (fitOf d m p).2 = d.est.cells.get p := by
  have hread : d.burstRead (stageOf p) = false := decide_eq_false (Nat.not_le.mpr h)
  unfold fitOf
  rw [hread, Bool.false_and, applyFit_rejected fitRejected_short]

/-- The fit of a cell whose tests hold is accepted and blended. -/
theorem fitOf_accepted {i1 : Int} {c : Cell} {f : CellFit} (hc : c = d.est.cells.get p) (hi : d.est.i1 = some i1)
    (hfit : f = burstFit c.points (d.est.firstTs.getD 0) (c.stepCurrent i1))
    (henough : 80 * d.est.burstSnaps ≤ 100 * (d.chn.stages.get (stageOf p)).burstRead)
    (hpass : c.fitRejected true d.est.flat i1 f = false) (hconf : c.conf < 128) : (fitOf d m p).1 = true ∧
      BlendedFrom c m f d.est.flat (c.stepCurrent i1) (c.stepRs i1) (max (1 / 8) (1 - (c.conf : Rat) / 256))
        (fitOf d m p).2 := by
  have hread : d.burstRead (stageOf p) = true := decide_eq_true henough
  unfold fitOf
  simp only [← hc, hi, Option.getD_some, Option.isSome_some, Bool.and_true, hread, ← hfit]
  exact applyFit_accepted hpass hconf

/-- A cell without a pre-step snap has no fit (R233). -/
theorem takeFit_noPre (h : (d.est.cells.get p).pre = none) : d.takeFit p = d := by
  unfold Dev.takeFit
  split
  · rfl
  · exact if_pos (by rw [h]; rfl)

theorem takeFit_eq (hm : d.man = some m) (hp : (d.est.cells.get p).pre ≠ none) :
    ∃ accepted rejected ovf, d.takeFit p = { d with est := { d.est with
        cells := upd d.est.cells p (fitOf d m p).2, accepted := accepted, rejected := rejected, ovf := ovf } } ∧
      ((fitOf d m p).1 = true → accepted = satInc 4095 d.est.accepted ∧ rejected = d.est.rejected) := by
  unfold Dev.takeFit
  rw [hm]
  simp only [Option.isNone_iff_eq_none, if_neg hp]
  split
  case isTrue => exact ⟨_, _, _, rfl, fun _ => ⟨rfl, rfl⟩⟩
  case isFalse h => exact ⟨_, _, _, rfl, fun taken => absurd taken h⟩

theorem takeFit_get_self (hm : d.man = some m) (hp : (d.est.cells.get p).pre ≠ none) :
    (d.takeFit p).est.cells.get p = (fitOf d m p).2 := by
  obtain ⟨_, _, _, e, -⟩ := takeFit_eq hm hp
  rw [e, get_upd_self]

/-- A fit changes its own cell alone, and counts. -/
theorem takeFit_other (hm : d.man = some m) (p : Fin 576) :
    fitsOnly d (d.takeFit p) ∧ ∀ q, q ≠ p → (d.takeFit p).est.cells.get q = d.est.cells.get q := by
  by_cases hp : (d.est.cells.get p).pre = none
  · rw [takeFit_noPre hp]
    exact ⟨fitsOnly_refl d, fun _ _ => rfl⟩
  · obtain ⟨_, _, _, e, -⟩ := takeFit_eq hm hp
    rw [e]
    exact ⟨⟨_, _, _, _, rfl⟩, fun q hq => get_upd_ne _ hq _⟩

/-- The fits of a list of cells change those cells alone, and count. -/
theorem takeFits_other (hm : d.man = some m) (l : List (Fin 576)) :
    fitsOnly d (l.foldl Dev.takeFit d) ∧
      ∀ q, q ∉ l → (l.foldl Dev.takeFit d).est.cells.get q = d.est.cells.get q := by
  induction l generalizing d with
  | nil => exact ⟨fitsOnly_refl d, fun _ _ => rfl⟩
  | cons a l ih =>
    obtain ⟨only, others⟩ := takeFit_other hm a
    obtain ⟨only', others'⟩ := ih ((fitsOnly_man only).trans hm)
    refine ⟨fitsOnly_trans only only', fun q hq => ?_⟩
    obtain ⟨ha, hl⟩ := not_or.mp (mt List.mem_cons.mpr hq)
    exact (others' q hl).trans (others q ha)

/-- Each cell of the list is left as its own fit leaves it. -/
theorem takeFits_get (hm : d.man = some m) {l : List (Fin 576)} (hl : l.Nodup) (h : p ∈ l)
    (hp : (d.est.cells.get p).pre ≠ none) : (l.foldl Dev.takeFit d).est.cells.get p = (fitOf d m p).2 := by
  induction l generalizing d with
  | nil => cases h
  | cons a l ih =>
    obtain ⟨ha, hl⟩ := List.nodup_cons.mp hl
    obtain ⟨only, others⟩ := takeFit_other hm a
    have hm' := (fitsOnly_man only).trans hm
    rw [List.foldl_cons]
    by_cases e : p = a
    · subst e
      obtain ⟨-, rest⟩ := takeFits_other hm' l
      rw [rest p ha, takeFit_get_self hm hp]
    · have same := others p e
      rw [ih hm' hl ((List.mem_cons.mp h).resolve_left e) (same ▸ hp), fitOf_congr only same]

theorem takeFits_noPre {l : List (Fin 576)} (h : ∀ q ∈ l, (d.est.cells.get q).pre = none) :
    l.foldl Dev.takeFit d = d := by
  induction l with
  | nil => rfl
  | cons a l ih =>
    obtain ⟨ha, hl⟩ := List.forall_mem_cons.mp h
    rw [List.foldl_cons, takeFit_noPre ha, ih hl]

/-- Where one cell alone has a pre-step snap, its fit is the only one. -/
theorem takeFits_single (hm : d.man = some m) {l : List (Fin 576)} (hl : l.Nodup) (h : p ∈ l)
    (hn : ∀ q ∈ l, q ≠ p → (d.est.cells.get q).pre = none) : l.foldl Dev.takeFit d = d.takeFit p := by
  induction l with
  | nil => cases h
  | cons a l ih =>
    obtain ⟨ha, hl⟩ := List.nodup_cons.mp hl
    obtain ⟨hna, hnl⟩ := List.forall_mem_cons.mp hn
    rw [List.foldl_cons]
    by_cases e : p = a
    · subst e
      refine takeFits_noPre fun q hq => ?_
      have hqp : q ≠ p := fun e => ha (e ▸ hq)
      obtain ⟨-, others⟩ := takeFit_other hm p
      rw [others q hqp, hnl q hq hqp]
    · rw [takeFit_noPre (hna (Ne.symm e)), ih hl ((List.mem_cons.mp h).resolve_left e) hnl]

theorem does_stepFitted_off {s : State} (h : s.dev.est.fitting = false ∨ s.dev.classERuns = false) :
    does .stepFitted s s.dev :=
  does_of_effect rfl (if_neg (by rcases h with h | h <;> simp [h]))

/-- The device whose burst's fits are being finished. -/
def fitsOver (d : Dev) : Dev := { d with est := { d.est with fitting := false } }

theorem does_stepFitted_noPre {s : State} (hf : s.dev.est.fitting = true) (he : s.dev.classERuns = true)
    (hp : s.dev.est.preTs = none) : does .stepFitted s ((fitsOver s.dev).notice 28 0 0) :=
  does_of_effect rfl (by simp [fitsOver, hf, he, hp])

theorem does_stepFitted_fits {s : State} (hf : s.dev.est.fitting = true) (he : s.dev.classERuns = true)
    (hp : s.dev.est.preTs ≠ none) :
    does .stepFitted s ((s.dev.listedCells.foldl Dev.takeFit (fitsOver s.dev)).notice 28 0 0) :=
  does_of_effect rfl (by simp [fitsOver, Dev.listedCells, hf, he, Option.isSome_iff_ne_none, hp])

/-! ### The fall of a cell's confidence (R240) -/

theorem exec_confidenceDecay (p : Fin 576) (s : State) : exec (.confidenceDecay p) s = s.effect fun d =>
    if d.insp.halted || d.powerFailing || !d.listedCells.contains p then d
    else { d with est := { d.est with cells := modify d.est.cells p Cell.decay } } := rfl

theorem does_confidenceDecay_off {s : State} (h : s.dev.insp.halted = true ∨ s.dev.powerFailing = true ∨
    p ∉ s.dev.listedCells) : does (.confidenceDecay p) s s.dev := by
  have hoff : (s.dev.insp.halted || s.dev.powerFailing || !s.dev.listedCells.contains p) = true := by
    rcases h with h | h | h <;> simp [h]
  exact does_of_effect (exec_confidenceDecay p s) (if_pos hoff)

theorem does_confidenceDecay_on {s : State} (hh : s.dev.insp.halted = false) (hp : s.dev.powerFailing = false)
    (hl : p ∈ s.dev.listedCells) : does (.confidenceDecay p) s
      { s.dev with est := { s.dev.est with cells := modify s.dev.est.cells p Cell.decay } } := by
  have hon : ¬(s.dev.insp.halted || s.dev.powerFailing || !s.dev.listedCells.contains p) = true := by
    simp [hh, hp, hl]
  exact does_of_effect (exec_confidenceDecay p s) (if_neg hon)

/-! ### The request of a deliberate step (R232, R241 to R243) -/

theorem publish_est (d : Dev) (f : OwnFrame) : (d.publish f).est = d.est := keeps_same (keeps_publish d f) .est rfl

theorem withdrawStep_est (d : Dev) : d.withdrawStep.est = { d.est with stepReq := false } := by
  unfold Dev.withdrawStep
  split
  case isTrue => exact publish_est ..
  case isFalse h => rw [← eq_false_of_ne_true h]

theorem requestStep_est (d : Dev) : d.requestStep.est = { d.est with
    stepReq := true, stepAmp := d.stepAmplitude, stepDis := bit d.est.stepUse 22, sinceReq := some d.sup.rtc
    requested := satInc 4095 d.est.requested
    ovf := setFlag d.est.ovf 2 (decide (4095 ≤ d.est.requested + 1)) } := publish_est ..

theorem does_burstEnd_off {s : State} (h : s.dev.est.burst = false ∨ s.dev.insp.halted = true) :
    does .burstEnd s s.dev :=
  does_of_effect rfl (if_neg (by rcases h with h | h <;> simp [h]))

/-- The burst of a deliberate step serves its request; any other leaves it. -/
theorem does_burstEnd_on {s : State} (hb : s.dev.est.burst = true) (hh : s.dev.insp.halted = false) :
    ∃ d', does .burstEnd s d' ∧ d'.est = { s.dev.est with
      burst := false, delib := false, fitting := true, stepReq := s.dev.est.stepReq && !s.dev.est.delib } := by
  refine ⟨_, does_of_effect rfl (if_pos (by simp [hb, hh])), ?_⟩
  dsimp only
  split
  case isTrue h => rw [withdrawStep_est, h, Bool.not_true, Bool.and_false]
  case isFalse h => rw [eq_false_of_ne_true h, Bool.not_false, Bool.and_true]

theorem does_stepRequestMissed_off {s : State} (h : s.dev.est.stepReq = false ∨
    (s.dev.est.burst && s.dev.est.delib) = true ∨ s.dev.insp.halted = true) : does .stepRequestMissed s s.dev :=
  does_of_effect rfl (if_neg (by rcases h with h | h | h <;> simp [h]))

theorem does_stepRequestMissed_on {s : State} (hr : s.dev.est.stepReq = true)
    (hb : (s.dev.est.burst && s.dev.est.delib) = false) (hh : s.dev.insp.halted = false) :
    ∃ d', does .stepRequestMissed s d' ∧ d'.est = { s.dev.est with
      stepReq := false, missed := satInc 4095 s.dev.est.missed
      ovf := setFlag s.dev.est.ovf 3 (decide (4095 ≤ s.dev.est.missed + 1)) } :=
  ⟨_, does_of_effect rfl (if_pos (by simp [hr, hb, hh])), withdrawStep_est _⟩

theorem bodyStepNow_requests (hr : d.stepReady = true) (hl : d.stepLargeEnough = true) :
    bodyStepNow d = (d.requestStep, some 0x00) := if_pos (by rw [hr, hl]; rfl)

theorem bodyStepNow_refuses (h : d.stepReady = false ∨ d.stepLargeEnough = false) :
    bodyStepNow d = (d, some 0x12) :=
  if_neg (by rcases h with h | h <;> simp [h])

end

/-- Settles O34, clause by clause: the fusion of a rest; the end of a burst; the fits without a pre-step snap, rejected
and accepted; the fall of confidence; a missed request; STEP_NOW taken and refused. -/
theorem stepsAndRest : Obligations.StepsAndRest := by
  unfold Obligations.StepsAndRest
  rintro s tok p c rfl
  refine ⟨fun h => does_restFusion_off ?resting, fun m hm => ⟨fun h => does_restFusion_off ?short, ?fuses⟩,
    does_burstEnd_off, fun hb hh => ?ends, fun h => does_stepFitted_off (h.imp_right classERuns_off),
    fun hf hh hp he hn => ?unfitted, ?fits, does_confidenceDecay_off,
    fun hh hp hl => does_confidenceDecay_on hh hp hl, fun hr hb hh => ?missed, does_stepRequestMissed_off,
    fun ht hr hl => ?requests, fun ht h => ?refuses⟩
  case resting =>
    rcases h with h | h | h | h
    · exact .inl h
    · exact .inr (.inl (restOver_moving h))
    · exact .inr (.inr (.inl h))
    · exact .inr (.inr (.inr (classERuns_off h)))
  case short =>
    have hno : ¬s.dev.restOver = true := fun ho => absurd ((restOver_iff hm).mp ho).2 (Nat.not_le.mpr h)
    exact .inr (.inl (eq_false_of_ne_true hno))
  case fuses =>
    intro hr hq ht hf hh hp he
    obtain ⟨b, e⟩ := fuseAll_est hm
    refine ⟨_, does_restFusion_on hr ((restOver_iff hm).mpr ⟨hq, ht⟩) hf (classERuns_on hh hp he), rfl, ?_, ?_,
      ?_⟩
    · rw [e]
      rfl
    · intro hl hct hci
      rw [e]
      simp only [mapListed_listed _ hl]
      exact fuse_fused hct hci
    · intro h
      rw [e]
      by_cases hl : p ∈ s.dev.listedCells
      · exact (mapListed_listed _ hl).trans (fuse_skipped (h.resolve_left (not_not_intro hl)))
      · exact mapListed_unlisted _ hl
  case ends =>
    obtain ⟨d', hdoes, e⟩ := does_burstEnd_on hb hh
    exact ⟨d', hdoes, by rw [e], by rw [e], by rw [e], by rw [e], by rw [e]⟩
  case unfitted =>
    exact ⟨_, does_stepFitted_noPre hf (classERuns_on hh hp he) hn, notice_eventsOnly ..,
      notice_fired _ _ _ _ (by decide)⟩
  case fits =>
    intro m vPre iPre v1 bal i1 hm hpre hfirst hi hf hh hp he hts hl n hn
    subst hn
    have hsome : (s.dev.est.cells.get p).pre ≠ none := hpre ▸ Option.some_ne_none _
    have hcell := takeFits_get (d := fitsOver s.dev) hm (listedCells_nodup s.dev) hl hsome
    obtain ⟨⟨_, _, _, _, e⟩, -⟩ := takeFits_other (d := fitsOver s.dev) hm s.dev.listedCells
    refine ⟨_, does_stepFitted_fits hf (classERuns_on hh hp he) hts, notice_fired _ _ _ _ (by decide), ?_,
      fun hshort => ?_, ?_⟩
    all_goals rw [notice_est]
    · exact congrArg (fun d => d.est.fitting) e
    · exact hcell.trans (fitOf_short hshort)
    · rintro step hstep rs hr f hfit henough ht hfault hrs hconf hflat w rfl
      have hcurrent := (stepCurrent_eq (i1 := i1) hpre hfirst).trans hstep.symm
      have hratio := (stepRs_eq (i1 := i1) hpre hfirst).trans (hcurrent ▸ hr.symm)
      have hpass := fitRejected_passed (hfirst ▸ Option.some_ne_none _) ht hfault (hratio ▸ hrs) hflat
      have hfit' := fitOf_accepted (d := fitsOver s.dev) (m := m) (c := s.dev.est.cells.get p) rfl hi
        (hcurrent.symm ▸ hfit) henough hpass hconf
      rw [hcurrent, hratio] at hfit'
      obtain ⟨taken, ⟨rs, rp, conf, sinceFit⟩⟩ := hfit'
      rw [← hcell] at rs rp conf sinceFit
      refine ⟨rs, rp, conf, sinceFit, fun halone => ?_⟩
      obtain ⟨_, _, _, e, counts⟩ := takeFit_eq (d := fitsOver s.dev) hm hsome
      obtain ⟨rfl, rfl⟩ := counts taken
      rw [takeFits_single (d := fitsOver s.dev) hm (listedCells_nodup s.dev) hl halone, e]
      exact ⟨rfl, rfl, fun q hq => get_upd_ne _ hq _⟩
  case missed =>
    obtain ⟨d', hdoes, e⟩ := does_stepRequestMissed_on hr hb hh
    exact ⟨d', hdoes, by rw [e], by rw [e]⟩
  case requests =>
    have hbody := bodyStepNow_requests (d := accepted s.dev tok 0x02) hr hl
    have hest := requestStep_est (accepted s.dev tok 0x02)
    refine ⟨_, does_command rfl ht hbody, ?_⟩
    rw [executed_est, hest]
    exact ⟨rfl, rfl, rfl, by simp [executed, Cmds.put]⟩
  case refuses =>
    exact endsIn_command rfl ht (bodyStepNow_refuses h) (eventsOnly_refl _)

end Sys2Proof.Proofs
end

section
/-! Crossings under a halted engine, the clearing of the safety latch, the trips of the power stage's monitors, PWR_CLR
and DRV_EN. -/
namespace Sys2Proof.Proofs

open Sys2Proof.Machine Sys2Proof.Safety Sys2Proof.Laws

/-! ### Crossings while the engine is halted (R120, R261) -/

/-- No crossing clears while the engine is halted: the clearing is a task's work, and no task runs (R120). -/
theorem does_crossingClear_halted {s : State} (h : s.dev.insp.halted = true) (p : Fin 576) (th : Threshold) :
    does (.crossingClear p th) s s.dev := by
  show execCrossingClear p th s = _
  simp [execCrossingClear, State.effect, h]

/-- A manifest whose first-level high voltage threshold is 4.25 V. -/
def thresholdManifest : Manifest := { (default : Manifest) with th := { (default : Thresholds) with vHigh1 := 4250000 } }

/-- A cell 20 mV inside that threshold, with its crossing active. -/
def insideCell : Machine.Cell := { v := 4230000, crossed := 1 }

/-- In Run with the engine halted, every cell inside the threshold and its crossing active. -/
def haltedInside : State where
  dev := {
    mode := { mode := .run }, man := some thresholdManifest, insp := { halted := true }
    est := { cells := .replicate 576 insideCell } }
  pending := []

theorem haltedInside_cell (p : Fin 576) : haltedInside.dev.est.cells.get p = insideCell := Vector.getElem_replicate ..

/-- Refutes O37: the statement has a crossing clear whenever its value lies inside by the margin, without the premise that the
engine runs; in `haltedInside` CROSSING_CLEAR leaves the crossing of cell 0 active (R120). -/
theorem not_crossingsAndLatch : ¬ Obligations.CrossingsAndLatch := by
  unfold Obligations.CrossingsAndLatch
  intro h
  obtain ⟨hcells, -⟩ := h haltedInside 0
  obtain ⟨-, hjudged⟩ := hcells 0 .vHigh1 0 thresholdManifest insideCell rfl rfl (haltedInside_cell 0).symm
  obtain ⟨-, hclears⟩ := hjudged 4230000 (by decide) rfl
  obtain ⟨d', hexec, hcleared, -⟩ := hclears (by decide)
  have hstays : exec (.crossingClear 0 .vHigh1) haltedInside = .next { haltedInside with dev := haltedInside.dev } :=
    does_crossingClear_halted rfl 0 .vHigh1
  have hdev : d' = haltedInside.dev := by simpa using hexec.symm.trans hstays
  subst hdev
  have hcell := haltedInside_cell 0
  rw [hcleared, get_upd_self] at hcell
  exact absurd (congrArg Machine.Cell.crossed hcell) (by decide)

/-! ### The latch clears where nothing holds it (R362) -/

section
variable {d : Dev}

theorem tryClearLatch_lim (d : Dev) : d.tryClearLatch.lim = d.lim := keeps_same (keeps_tryClearLatch d) .lim rfl

theorem tryClearLatch_pwr (d : Dev) : d.tryClearLatch.pwr = { d.pwr with softStep := d.tryClearLatch.pwr.softStep } := by
  unfold Dev.tryClearLatch
  dsimp only
  split <;> rfl

theorem tryClearLatch_evt (d : Dev) : d.tryClearLatch.evt = d.evt := by
  unfold Dev.tryClearLatch
  dsimp only
  split <;> rfl

/-- Without a latched fault the engine finds none that it decided itself. -/
theorem engineInput_unlatched (h : d.lim.latched = 0) : d.engineInput.saf.engInput = false := by
  simp [Dev.engineInput, h]

theorem latchInputsOff_engineInput (hl : d.lim.latched = 0) (ho : d.saf.openInput = 0) (hd : d.noDiscrepancy = true)
    (hc : d.pwr.causes = 0) (hr : d.saf.resetInput = false) : d.engineInput.latchInputsOff = true := by
  have he := engineInput_unlatched hl
  have hno : d.engineInput.noDiscrepancy = true := hd
  have hopen : d.engineInput.saf.openInput = 0 := ho
  have hreset : d.engineInput.saf.resetInput = false := hr
  have hcauses : d.engineInput.pwr.causes = 0 := hc
  simp [Dev.latchInputsOff, he, hno, hopen, hreset, hcauses]

theorem tryClearLatch_clears (hl : d.lim.latched = 0) (ho : d.saf.openInput = 0) (hd : d.noDiscrepancy = true)
    (hc : d.pwr.causes = 0) (hr : d.saf.resetInput = false) : d.tryClearLatch.saf.latch = false := by
  have hoff := latchInputsOff_engineInput hl ho hd hc hr
  have hnone : d.engineInput.lim.latched = 0 := hl
  unfold Dev.tryClearLatch
  dsimp only
  split
  case isTrue => rfl
  case isFalse h => simpa [hoff, hnone] using h

theorem tryClearLatch_stays (hl : d.lim.latched ≠ 0) : d.tryClearLatch.saf.latch = d.saf.latch := by
  unfold Dev.tryClearLatch
  dsimp only
  split
  case isTrue h => exact absurd (of_decide_eq_true (Bool.and_eq_true .. |>.mp h).2) hl
  case isFalse => rfl

end

/-! ### What the open-now path leaves of the power page -/

/-- Of the power page, `b` has another duty, soft turn-off step and pass of the diagnostics at most. -/
def KeepsPower (a b : Pwr) : Prop :=
  b = { a with duty := b.duty, softStep := b.softStep, passedSince := b.passedSince }

theorem setLatch_power (d : Dev) (src : LatchSource) : KeepsPower d.pwr (d.setLatch src).pwr := by
  have hcoils (x : Dev) : x.coilsOff.pwr = x.pwr := rfl
  have hwithdraw (x : Dev) : x.withdraw.pwr = x.pwr := keeps_same (keeps_withdraw x) .pwr rfl
  unfold Dev.setLatch
  dsimp only
  split
  case isTrue => rw [notice_pwr, hwithdraw, hcoils]; rfl
  case isFalse => rw [hwithdraw, hcoils]; rfl

theorem openNow_power (d : Dev) (src : LatchSource) (lock : Option Byte) (ep : Nat) :
    KeepsPower d.pwr (d.openNow src lock ep).pwr := by
  unfold Dev.openNow
  extract_lets d1 b2 b3 d4 d5 d6 d7
  have h1 : d1.pwr = d.pwr := by
    unfold d1
    split
    · exact keeps_same (keeps_countAbort d) .pwr rfl
    · exact keeps_same (keeps_captureOpening d) .pwr rfl
  have h4 : KeepsPower d.pwr d4.pwr := by
    have hset := setLatch_power d1 src
    rw [h1] at hset
    unfold KeepsPower at hset ⊢
    show ({ b2.pwr with passedSince := false } : Pwr) = _
    rw [show b2.pwr = _ from hset]
  have h5 : d5.pwr = d4.pwr := keeps_same (keeps_suspendSession d4) .pwr rfl
  have h6 : d6.pwr = d5.pwr := by
    unfold d6
    split
    · exact keeps_same (keeps_tollK4Open d5) .pwr rfl
    · rfl
  have h7 : d7.pwr = d6.pwr := by
    unfold d7
    split
    · exact keeps_same (keeps_enterLockout d6 _ _) .pwr rfl
    · split
      · exact keeps_same (keeps_setDrover _ _) .pwr rfl
      · rfl
  have h8 : d7.zeroCheck.pwr = d7.pwr := keeps_same (keeps_zeroCheck d7) .pwr rfl
  rwa [h8, h7, h6, h5]

/-- Fault 28 is of class D whatever the manifest says (R268, R269). -/
theorem faultClass28 (d : Dev) : d.faultClass 28 = .d := by
  unfold Dev.faultClass
  split
  · rename_i s _
    cases hs : s.cls <;> simp [faultRow]
  · rfl

theorem raise28_power (d : Dev) (latch : LatchSource) (cause : Byte) (src sub inst : Nat) (given : Option Nat) :
    KeepsPower d.pwr (d.raise 28 latch cause src sub inst given).pwr := by
  obtain ⟨q, x, ep, hreport, hraise, hx, -⟩ := raise_d d (by decide) (faultClass28 d) latch cause src sub inst given
  have hpwr : x.pwr = d.pwr := (keeps_same hx .pwr rfl).trans hreport.pwr
  rw [hraise, ← hpwr]
  exact openNow_power ..

/-! ### Fault 28 latches with its record (R300, R301) -/

/-- What a fault has opened does not depend on the power page, the event bookkeeping or the free values. -/
theorem opened_of_same {f : Nat} {a b c : Dev} (h : opened f a b) (hlim : c.lim = b.lim) (hsaf : c.saf = b.saf)
    (hcoil : c.coil = b.coil) (hseq : c.seq = b.seq) : opened f a c := by
  obtain ⟨hactive, hlatched, hlatch, hgranted, hzero, -, hgates, hdrover⟩ := h
  refine ⟨by rwa [hlim], by rwa [hlim], by rwa [hsaf], by rwa [hsaf], ?_, pumpGates_latched c (by rwa [hsaf]),
    by rwa [hcoil], by rwa [hseq]⟩
  unfold Dev.limitsZero at hzero ⊢
  rwa [hlim]

/-- The same from a device with the mode, the drover and the manifest of the first. -/
theorem opened_from {f : Nat} {a b c : Dev} (h : opened f b c) (hmode : b.mode = a.mode) (hseq : b.seq = a.seq)
    (hman : b.man = a.man) : opened f a c := by
  unfold opened Dev.inRun Dev.lockoutFlag Dev.faultSetting at h ⊢
  rwa [hmode, hseq, hman] at h

/-- The device with a trip noted in the record of fault 28: the first with cause and place, a later one counted. -/
def tripNoted (d : Dev) (cause place : Nat) : Dev :=
  if d.lim.latched.getLsbD 28 then d.countTrip
  else { d with pwr := { d.pwr with fltCause := BitVec.ofNat 8 cause, fltWhere := BitVec.ofNat 4 place } }

theorem countTrip_pwr (d : Dev) : d.countTrip.pwr =
    { d.pwr with trips := satInc 63 d.pwr.trips, cntOvf := d.countTrip.pwr.cntOvf } := by
  unfold Dev.countTrip
  dsimp only
  split <;> simp

theorem tripNoted_frame (d : Dev) (cause place : Nat) : (tripNoted d cause place).mode = d.mode ∧
    (tripNoted d cause place).seq = d.seq ∧ (tripNoted d cause place).man = d.man := by
  have hcount := keeps_countTrip d
  unfold tripNoted
  split
  case isTrue => exact ⟨keeps_same hcount .mode rfl, keeps_same hcount .seq rfl, keeps_same hcount .man rfl⟩
  case isFalse => exact ⟨rfl, rfl, rfl⟩

/-- What a trip leaves of the power page `a`: the record of its cause and place where it is the first, its count otherwise. -/
structure TripRecord (first : Bool) (cause place : Nat) (a b : Pwr) : Prop where
  diagPhase : b.diagPhase = a.diagPhase
  diagSeq : b.diagSeq = a.diagSeq
  ctstDue : b.ctstDue = a.ctstDue
  verdicts : b.verdicts = a.verdicts
  causes : b.causes = a.causes
  recorded : first = true → b.fltCause = BitVec.ofNat 8 cause ∧ b.fltWhere = BitVec.ofNat 4 place ∧ b.trips = a.trips
  counted : first = false → b.fltCause = a.fltCause ∧ b.fltWhere = a.fltWhere ∧ b.trips = satInc 63 a.trips

theorem tripNoted_record (d : Dev) (cause place : Nat) :
    TripRecord (!d.lim.latched.getLsbD 28) cause place d.pwr (tripNoted d cause place).pwr := by
  unfold tripNoted
  split
  case isTrue h =>
    rw [countTrip_pwr, h]
    exact ⟨rfl, rfl, rfl, rfl, rfl, nofun, fun _ => ⟨rfl, rfl, rfl⟩⟩
  case isFalse h =>
    rw [eq_false_of_ne_true h]
    exact ⟨rfl, rfl, rfl, rfl, rfl, fun _ => ⟨rfl, rfl, rfl⟩, nofun⟩

theorem TripRecord.keepsPower {first : Bool} {cause place : Nat} {a b c : Pwr} (h : TripRecord first cause place a b)
    (k : KeepsPower b c) : TripRecord first cause place a c := by
  obtain ⟨diagPhase, diagSeq, ctstDue, verdicts, causes, recorded, counted⟩ := h
  rw [k]
  exact ⟨diagPhase, diagSeq, ctstDue, verdicts, causes, recorded, counted⟩

theorem powerTrip_spec (d : Dev) (cause place : Nat) : opened 28 d (d.powerTrip cause place) ∧
    TripRecord (!d.lim.latched.getLsbD 28) cause place d.pwr (d.powerTrip cause place).pwr := by
  obtain ⟨given, ep, hshape⟩ : ∃ given ep, d.powerTrip cause place =
      { (tripNoted d cause place).raise 28 .power 0x08 34 cause place given with
        pwr := { ((tripNoted d cause place).raise 28 .power 0x08 34 cause place given).pwr with episode := ep } } :=
    ⟨_, _, rfl⟩
  obtain ⟨hmode, hseq, hman⟩ := tripNoted_frame d cause place
  have hopened := raise_opened (tripNoted d cause place) (by decide) (faultClass28 _) .power 0x08 34 cause place given
  have hrecord := (tripNoted_record d cause place).keepsPower (raise28_power _ .power 0x08 34 cause place given)
  rw [hshape]
  refine ⟨opened_from (opened_of_same hopened rfl rfl rfl rfl) hmode hseq hman, ?_⟩
  obtain ⟨diagPhase, diagSeq, ctstDue, verdicts, causes, recorded, counted⟩ := hrecord
  exact ⟨diagPhase, diagSeq, ctstDue, verdicts, causes, recorded, counted⟩

/-! ### A monitor trips (R300, R315) -/

section
variable {d : Dev} {cause : Nat} {x : Monitored}

theorem protectionTrip_off (h : d.mayTrip cause x = false) : d.protectionTrip cause x = d := if_pos (by rw [h]; rfl)

/-- The device as a trip finds it: the diagnostics ended, the cause present. -/
def tripStarts (d : Dev) (cause : Nat) : Dev :=
  { d.endDiag with pwr := { d.endDiag.pwr with causes := d.pwr.causes ||| BitVec.ofNat 9 (2 ^ (cause - 1)) } }

theorem protectionTrip_on (h : d.mayTrip cause x = true) :
    d.protectionTrip cause x = (tripStarts d cause).powerTrip cause x.place.toNat := if_neg (by rw [h]; decide)

theorem protectionTrip_opened (h : d.mayTrip cause x = true) : opened 28 d (d.protectionTrip cause x) := by
  rw [protectionTrip_on h]
  exact opened_from (powerTrip_spec (tripStarts d cause) cause x.place.toNat).1 rfl rfl rfl

theorem protectionTrip_record (h : d.mayTrip cause x = true) : TripRecord (!d.lim.latched.getLsbD 28) cause x.place.toNat
    (tripStarts d cause).pwr (d.protectionTrip cause x).pwr := by
  rw [protectionTrip_on h]
  exact (powerTrip_spec (tripStarts d cause) cause x.place.toNat).2

theorem does_protectionTrip {s : State} {c : Fin 8} {d : Dev} (h : s.dev.protectionTrip (c.val + 1) x = d) :
    does (.protectionTrip c x) s d := h ▸ rfl

end

/-! ### When a monitor may trip (R300) -/

section
variable {d : Dev} {x : Monitored} {k : K}

/-- The places of the coil gates: two of each channel, the high side even. -/
theorem coilPlace {place : Nat} {lo : Bool} (h : place = 2 * k.val + lo.toNat) :
    place < 8 ∧ place / 2 = k.val ∧ place % 2 = lo.toNat := by
  have hk : k.val < 4 := k.isLt
  have hlo : lo.toNat ≤ 1 := lo.toNat_le
  omega

theorem switchOn_coil {place : Nat} {lo : Bool} (h : place = 2 * k.val + lo.toNat) :
    d.switchOn place = if lo then d.lowOn k else d.highOn k := by
  obtain ⟨hlt, hk, hside⟩ := coilPlace h
  cases lo <;> simp [Dev.switchOn, hlt, hk, hside]

theorem vdsThreshold_coil {place : Nat} {lo : Bool} (h : place = 2 * k.val + lo.toNat) :
    d.vdsThreshold place = (field (d.pwr.vds.get ⟨k.val, by omega⟩) (if lo then 4 else 0) 4 + 1) * 100 := by
  obtain ⟨hlt, hk, hside⟩ := coilPlace h
  cases lo <;> simp [Dev.vdsThreshold, hlt, hk, hside]

theorem mayTrip_vds {lo : Bool} (h : x.place.toNat = 2 * k.val + lo.toNat) : d.mayTrip 1 x =
    (d.stageLive && (if lo then d.lowOn k else d.highOn k) &&
      decide ((field (d.pwr.vds.get ⟨k.val, by omega⟩) (if lo then 4 else 0) 4 + 1) * 100 < x.level)) := by
  simp [Dev.mayTrip, Dev.monitored, Dev.tripCondition, switchOn_coil h, vdsThreshold_coil h, Bool.and_assoc]

theorem mayTrip_overCurrent (h : x.place.toNat = k.val) :
    d.mayTrip 2 x = (d.stageLive && decide ((field d.pwr.oc (5 * k.val) 5 + 1) * 50 < x.level)) := by
  have hmod : x.place.toNat % 4 = k.val := by omega
  simp [Dev.mayTrip, Dev.monitored, Dev.tripCondition, hmod]

theorem mayTrip_pump : d.mayTrip 3 x = (d.stageLive && decide ((d.ocp + 1) * 50 < x.level)) := by
  simp [Dev.mayTrip, Dev.monitored, Dev.tripCondition]

theorem mayTrip_underVoltage :
    d.mayTrip 6 x = (d.stageLive && !d.allGatesOff && decide (x.level < 500 * d.vUv)) := by
  simp [Dev.mayTrip, Dev.monitored, Dev.tripCondition]

theorem mayTrip_overVoltage : d.mayTrip 7 x = (d.stageLive && decide (500 * d.vOv < x.level)) := by
  simp [Dev.mayTrip, Dev.monitored, Dev.tripCondition]

theorem mayTrip_drvEn (hl : d.stageLive = true) (he : d.pwr.drvEn = false) : d.mayTrip 8 x = true := by
  simp [Dev.mayTrip, Dev.monitored, Dev.tripCondition, hl, he]

end

/-! ### Fault 28 is cleared (R311, R316) -/

/-- What the clearing of fault 28 leaves: the fault and its record gone, the rest of the power page as it is, and the safety
latch clear where nothing else holds it. -/
structure Cleared28 (a b : Dev) : Prop where
  cmds : b.cmds = a.cmds
  seq : b.seq = a.seq
  coil : b.coil = a.coil
  latched : b.lim.latched = a.lim.latched &&& ~~~BitVec.ofNat 39 (2 ^ 28)
  active : b.lim.active = a.lim.active &&& ~~~BitVec.ofNat 39 (2 ^ 28)
  fltCause : b.pwr.fltCause = 0
  fltWhere : b.pwr.fltWhere = 0
  drvEn : b.pwr.drvEn = a.pwr.drvEn
  causes : b.pwr.causes = a.pwr.causes
  fires : fired 35 b
  clears : b.lim.latched = 0 → a.saf.openInput = 0 → a.noDiscrepancy = true → a.pwr.causes = 0 →
    a.saf.resetInput = false → b.saf.latch = false
  stays : b.lim.latched ≠ 0 → b.saf.latch = a.saf.latch

/-- The device without fault 28 and its record. -/
def without28 (d : Dev) : Dev :=
  { d with
    lim := { d.lim with
      active := d.lim.active &&& ~~~BitVec.ofNat 39 (2 ^ 28), latched := d.lim.latched &&& ~~~BitVec.ofNat 39 (2 ^ 28) }
    pwr := { d.pwr with fltCause := 0, fltWhere := 0, episode := none } }

theorem clear28_cleared (d : Dev) : Cleared28 d d.clear28 := by
  obtain ⟨q, he, hf, hshape⟩ : ∃ q, eventsOnly (without28 d) q ∧ fired 35 q ∧ d.clear28 = q.tryClearLatch :=
    ⟨_, event_eventsOnly .., event_fired _ _ _ _ _ _ _ (by decide), rfl⟩
  obtain ⟨hseq, -, hcmds, hcoil⟩ := tryClearLatch_other q
  have hlim : q.tryClearLatch.lim = (without28 d).lim := (tryClearLatch_lim q).trans (eventsOnly_lim he)
  have hsaf : q.saf = d.saf := (eventsOnly_saf he :)
  have hpwr := tryClearLatch_pwr q
  rw [eventsOnly_pwr he] at hpwr
  rw [hshape]
  refine ⟨hcmds.trans (eventsOnly_cmds he :), hseq.trans (eventsOnly_seq he :), hcoil.trans (eventsOnly_coil he :),
    by rw [hlim]; rfl, by rw [hlim]; rfl, by rw [hpwr]; rfl, by rw [hpwr]; rfl, by rw [hpwr]; rfl, by rw [hpwr]; rfl,
    ?fires, fun hl ho hd hc hr => ?clears, fun hl => ?stays⟩
  case fires =>
    unfold fired
    rwa [tryClearLatch_evt]
  case clears =>
    rw [tryClearLatch_lim] at hl
    have hcauses : q.pwr.causes = 0 := (congrArg Pwr.causes (eventsOnly_pwr he)).trans hc
    refine tryClearLatch_clears hl (by rwa [hsaf]) ?_ hcauses (by rwa [hsaf])
    unfold Dev.noDiscrepancy Dev.guardUsed at hd ⊢
    rwa [hsaf]
  case stays =>
    rw [tryClearLatch_lim] at hl
    rw [tryClearLatch_stays hl, hsaf]

theorem Cleared28.unlatched {a b : Dev} (h : Cleared28 a b) : b.lim.latched.getLsbD 28 = false := by
  rw [h.latched]
  simp

theorem bodyPwrClr_none {d : Dev} (h : d.lim.latched.getLsbD 28 = false) : bodyPwrClr d = (d, some 0x00) :=
  if_pos (by rw [h]; rfl)

theorem bodyPwrClr_refuses {d : Dev} (h : d.lim.latched.getLsbD 28 = true) (hc : d.pwr.causes ≠ 0) :
    bodyPwrClr d = (d, some 0x13) := by
  unfold bodyPwrClr
  rw [if_neg (by simp [h]), if_pos hc]
  rfl

theorem bodyPwrClr_clears {d : Dev} (h : d.lim.latched.getLsbD 28 = true) (hc : d.pwr.causes = 0) :
    bodyPwrClr d = (d.clear28, some 0x00) := by
  unfold bodyPwrClr
  rw [if_neg (by simp [h]), if_neg (not_not_intro hc)]
  rfl

/-! ### DRV_EN rises (R303, R311) -/

section
variable {d : Dev} {low : Nat}

/-- The device after the DRV_EN monitor's view of a low time: longer than 1 µs and not yet acted on, it has tripped. -/
def lowSeen (d : Dev) (low : Nat) : Dev :=
  if 1000 < low ∧ d.pwr.drvEn = false ∧ (!d.pwr.causes.getLsbD 7 || !d.lim.latched.getLsbD 28) then
    d.protectionTrip 8 drvEnLow
  else d

/-- The device with DRV_EN high and its cause gone. -/
def enabled (d : Dev) : Dev :=
  { d.tick with pwr := { d.pwr with drvEn := true, causes := d.pwr.causes &&& ~~~0x080 } }

theorem drvEnRises_eq (d : Dev) (low : Nat) :
    d.drvEnRises low = (enabled (lowSeen d low)).clear28When (qualifies low (lowSeen d low).free) := rfl

theorem does_drvEnRise {s : State} {d : Dev} (h : s.dev.drvEnRises low = d) : does (.drvEnRise low) s d := h ▸ rfl

theorem qualifies_long (h : 10000 ≤ low) (n : Nat) : qualifies low n = true := if_pos h

theorem qualifies_short (h : low ≤ 8000) (n : Nat) : qualifies low n = false := by
  unfold qualifies
  rw [if_neg (by omega), if_pos h]

theorem clear28When_unqualified (d : Dev) : d.clear28When false = d := if_neg nofun

theorem drvEnRises_unqualified (h : low ≤ 8000) : d.drvEnRises low = enabled (lowSeen d low) := by
  rw [drvEnRises_eq, qualifies_short h, clear28When_unqualified]

theorem lowSeen_brief (h : low ≤ 1000) : lowSeen d low = d := if_neg fun hc => absurd hc.1 (Nat.not_lt.mpr h)

theorem lowSeen_trips (h : 1000 < low) (he : d.pwr.drvEn = false)
    (hu : d.pwr.causes.getLsbD 7 = false ∨ d.lim.latched.getLsbD 28 = false) :
    lowSeen d low = d.protectionTrip 8 drvEnLow :=
  if_pos ⟨h, he, by rcases hu with hu | hu <;> rw [hu] <;> simp⟩

/-- What the monitor's view of a low time changes is a trip that the monitor may make. -/
theorem lowSeen_cases (d : Dev) (low : Nat) :
    lowSeen d low = d ∨ d.mayTrip 8 drvEnLow = true ∧ lowSeen d low = d.protectionTrip 8 drvEnLow := by
  unfold lowSeen
  split
  case isTrue =>
    cases ht : d.mayTrip 8 drvEnLow
    case false => exact .inl (protectionTrip_off ht)
    case true => exact .inr ⟨rfl, rfl⟩
  case isFalse => exact .inl rfl

/-- The DRV_EN monitor sets no cause but its own, which the rise ends. -/
theorem lowSeen_otherCauses (d : Dev) (low : Nat) :
    (lowSeen d low).pwr.causes &&& ~~~0x080 = d.pwr.causes &&& ~~~0x080 := by
  rcases lowSeen_cases d low with h | ⟨ht, h⟩ <;> rw [h]
  rw [(protectionTrip_record ht).causes]
  show (d.pwr.causes ||| 0x080) &&& ~~~0x080 = _
  rw [BitVec.and_or_distrib_right, BitVec.and_not_self]
  exact BitVec.or_zero

theorem lowSeen_latched (h : d.lim.latched.getLsbD 28 = true) (low : Nat) :
    (lowSeen d low).lim.latched.getLsbD 28 = true := by
  rcases lowSeen_cases d low with e | ⟨ht, e⟩ <;> rw [e]
  · exact h
  · obtain ⟨-, hlatched, -⟩ := protectionTrip_opened ht
    exact hlatched

theorem clear28When_present (h : d.pwr.causes ≠ 0) (q : Bool) : d.clear28When q = d := if_neg fun hc => h hc.2.2

/-- A qualifying rise without a cause leaves no fault 28. -/
theorem clear28When_qualified (h : d.pwr.causes = 0) : (d.clear28When true).lim.latched.getLsbD 28 = false ∧
    (d.clear28When true).pwr.drvEn = d.pwr.drvEn ∧ (d.clear28When true).pwr.causes = d.pwr.causes := by
  unfold Dev.clear28When
  split
  case isTrue =>
    have hc := clear28_cleared d
    exact ⟨hc.unlatched, hc.drvEn, hc.causes⟩
  case isFalse hn =>
    exact ⟨eq_false_of_ne_true fun hl => hn ⟨rfl, hl, h⟩, rfl, rfl⟩

end

/-- Settles O38, clause by clause: the second step of the soft turn-off; a monitor that may not trip and one that does; when the
monitors may; PWR_CLR without the fault, with a cause present, and clearing; DRV_EN falling, and rising after each low
time. -/
theorem powerFaultAndClear : Obligations.PowerFaultAndClear := by
  unfold Obligations.PowerFaultAndClear
  intro s tok cause x low
  refine ⟨?soft, fun h => does_protectionTrip (protectionTrip_off h), fun h => ?trips, fun k lo h => mayTrip_vds h,
    fun k h => mayTrip_overCurrent h, mayTrip_pump, mayTrip_underVoltage, mayTrip_overVoltage, fun ht => ?clear, rfl,
    fun h => ?brief, fun hlow h8 he hu hl => ?short, fun hlow hc => ?clears, fun hlow hc h28 => ?stays⟩
  case soft =>
    refine does_of_effect (f := Dev.softStep2) rfl ?_
    unfold Dev.softStep2
    split
    case isTrue => rfl
    case isFalse => rfl
  case trips =>
    have hrecord := protectionTrip_record h
    refine ⟨_, does_protectionTrip rfl, protectionTrip_opened h, hrecord.diagPhase, hrecord.diagSeq, hrecord.ctstDue,
      hrecord.verdicts, fun h28 => ?_, fun h28 => hrecord.counted (by rw [h28]; rfl), hrecord.causes⟩
    obtain ⟨hcause, hplace, htrips⟩ := hrecord.recorded (by rw [h28]; rfl)
    refine ⟨?_, by rw [hplace, BitVec.ofNat_toNat, BitVec.setWidth_eq], htrips⟩
    rw [hcause, BitVec.toNat_ofNat]
    omega
  case clear =>
    refine ⟨fun h28 => does_command rfl ht (bodyPwrClr_none h28),
      fun h28 hc => does_command rfl ht (bodyPwrClr_refuses h28 hc), fun h28 hc => ?_⟩
    have hclear := clear28_cleared (accepted s.dev tok 0x01)
    refine ⟨_, does_command rfl ht (bodyPwrClr_clears h28 hc), by simp [executed, Cmds.put], hclear.latched,
      hclear.active, hclear.fltCause, hclear.fltWhere, hclear.fires, hclear.seq, hclear.coil,
      fun hl ho hd hr _ => hclear.clears hl ho hd hc hr, hclear.stays⟩
  case brief =>
    refine does_drvEnRise ?_
    rw [drvEnRises_unqualified (by omega), lowSeen_brief h]
    rfl
  case short =>
    have htrip := mayTrip_drvEn (x := drvEnLow) hl he
    have hrise : s.dev.drvEnRises low = enabled (s.dev.protectionTrip 8 drvEnLow) := by
      rw [drvEnRises_unqualified h8, lowSeen_trips hlow he hu]
    refine ⟨_, does_drvEnRise hrise, opened_of_same (protectionTrip_opened htrip) rfl rfl rfl rfl, rfl, ?_, fun h28 => ?_⟩
    · rw [← lowSeen_otherCauses s.dev low, lowSeen_trips hlow he hu]
      rfl
    · obtain ⟨hcause, -, -⟩ := (protectionTrip_record htrip).recorded (by rw [h28]; rfl)
      exact hcause
  case clears =>
    have hnone : (enabled (lowSeen s.dev low)).pwr.causes = 0 := (lowSeen_otherCauses s.dev low).trans hc
    obtain ⟨hlatched, hdrvEn, hcauses⟩ := clear28When_qualified hnone
    have hrise : s.dev.drvEnRises low = (enabled (lowSeen s.dev low)).clear28When true := by
      rw [drvEnRises_eq, qualifies_long hlow]
    exact ⟨_, does_drvEnRise hrise, hlatched, hdrvEn, hcauses.trans hnone⟩
  case stays =>
    have hothers : (enabled (lowSeen s.dev low)).pwr.causes = s.dev.pwr.causes &&& ~~~0x080 := lowSeen_otherCauses s.dev low
    have hrise : s.dev.drvEnRises low = enabled (lowSeen s.dev low) := by
      rw [drvEnRises_eq, clear28When_present (by rwa [hothers])]
    exact ⟨_, does_drvEnRise hrise, lowSeen_latched h28 low, rfl, hothers⟩

end Sys2Proof.Proofs
end

section
/-! The dump chopper, the off-state diagnostics and the self-test of the comparators. -/
namespace Sys2Proof.Proofs

open Sys2Proof.Machine Sys2Proof.Safety Sys2Proof.Laws

/-! ### The dump chopper (R304, R305, R309) -/

/-- A class D fault leaves the power page as the open-now path does. -/
theorem raise_power {d : Dev} {f : Nat} (h : f < 39) (hd : d.faultClass f = .d) (latch : LatchSource) (cause : Byte)
    (src sub inst : Nat) (given : Option Nat) : KeepsPower d.pwr (d.raise f latch cause src sub inst given).pwr := by
  obtain ⟨q, x, ep, hreport, hraise, hx, -⟩ := raise_d d h hd latch cause src sub inst given
  have hpwr : x.pwr = d.pwr := (keeps_same hx .pwr rfl).trans hreport.pwr
  rw [hraise, ← hpwr]
  exact openNow_power ..

/-- Fault 29 is of class D whatever the manifest says (R268, R269). -/
theorem faultClass29 (d : Dev) : d.faultClass 29 = .d := by
  unfold Dev.faultClass
  split
  case h_1 s _ => cases hs : s.cls <;> simp [faultRow]
  case h_2 => rfl

/-- A trip leaves the chopper's own state as it is. -/
theorem powerTrip_chopper (d : Dev) (cause place : Nat) : (d.powerTrip cause place).pwr.dumpOn = d.pwr.dumpOn ∧
    (d.powerTrip cause place).pwr.dumpPause = d.pwr.dumpPause := by
  have hnoted : (tripNoted d cause place).pwr.dumpOn = d.pwr.dumpOn ∧
      (tripNoted d cause place).pwr.dumpPause = d.pwr.dumpPause := by
    unfold tripNoted
    split
    case isTrue => rw [countTrip_pwr]; exact ⟨rfl, rfl⟩
    case isFalse => exact ⟨rfl, rfl⟩
  obtain ⟨given, ep, hshape⟩ : ∃ given ep, (d.powerTrip cause place).pwr =
      { ((tripNoted d cause place).raise 28 .power 0x08 34 cause place given).pwr with episode := ep } := ⟨_, _, rfl⟩
  rw [hshape, raise28_power (tripNoted d cause place) .power 0x08 34 cause place given]
  exact hnoted

/-- The end of a fault's cause, but for class B's event, ends its activity alone. -/
theorem faultGone_kept (d : Dev) (f : Nat) : (d.faultGone f).pwr = d.pwr ∧ (d.faultGone f).saf = d.saf ∧
    (d.faultGone f).lim = { d.lim with active := (d.faultGone f).lim.active } := by
  have hkeeps := keeps_faultGone d f
  refine ⟨keeps_same hkeeps .pwr rfl, keeps_same hkeeps .saf rfl, ?_⟩
  unfold Dev.faultGone
  split
  case isTrue =>
    dsimp only
    split
    case isTrue => simp [Dev.noticeIn]
    case isFalse => rfl
  case isFalse => rfl

section
variable {d : Dev}

theorem dumpTurnsOn_off (h : d.pwr.dumpOn = true ∨ d.pwr.dumpDis = true ∨ d.pwr.dumpPause = true) : d.dumpTurnsOn = d :=
  if_pos (by rcases h with h | h | h <;> simp [h])

/-- The device with GD on: VCOILS has exceeded V_DUMP. -/
def dumping (d : Dev) : Dev :=
  { d with pwr := { d.pwr with dumpOn := true, rail := max d.pwr.rail (500 * d.vDump + 1) } }

theorem dumpTurnsOn_on (ho : d.pwr.dumpOn = false) (hd : d.pwr.dumpDis = false) (hp : d.pwr.dumpPause = false) :
    d.dumpTurnsOn = if d.alive then (dumping d).notice 36 0 0 else dumping d :=
  if_neg (by simp [ho, hd, hp])

theorem dumpTimesOut_off (h : d.pwr.dumpOn = false) : d.dumpTimesOut = d := if_pos (by rw [h]; rfl)

/-- The device with GD in its pause, the cause of the timeout present. -/
def dumpPausing (d : Dev) : Dev :=
  { d with pwr := { d.pwr with dumpOn := false, dumpPause := true, causes := d.pwr.causes ||| 0x100 } }

theorem dumpTimesOut_on (h : d.pwr.dumpOn = true) :
    d.dumpTimesOut = if d.alive then (dumpPausing d).endDiag.powerTrip 9 12 else dumpPausing d :=
  if_neg (by simp [h])

/-- The device with the chopper disabled. -/
def dumpDisabled (d : Dev) : Dev := { d with pwr := { d.pwr with dumpOn := false, dumpDis := true } }

theorem dumpSwitchFails_dead (ha : d.alive = false) : d.dumpSwitchFails = dumpDisabled d :=
  if_neg (ne_true_of_eq_false ha)

theorem dumpSwitchFails_alive (ha : d.alive = true) :
    d.dumpSwitchFails = ((dumpDisabled d).endDiag.raise 29 .power 0x08 37 0 12 none).faultGone 29 := if_pos ha

theorem does_dumpTimeout {s : State} (h : s.dev.dumpTimesOut = d) : does .dumpTimeout s d := h ▸ rfl

theorem does_dumpSwitchFault {s : State} (h : s.dev.dumpSwitchFails = d) : does .dumpSwitchFault s d := h ▸ rfl

end

/-! ### The three bits of a unit in PWR_DIAG.VERDICTS -/

section
variable {v : BitVec 18} {u w code : Nat}

theorem testBit_getVerdict (v : BitVec 18) (u i : Nat) :
    (getVerdict v u).testBit i = (decide (i < 3) && v.getLsbD (3 * u + i)) := by
  unfold getVerdict
  rw [show (8 : Nat) = 2 ^ 3 from rfl, Nat.testBit_mod_two_pow, Nat.testBit_div_two_pow, Nat.add_comm i]
  rfl

theorem getLsbD_setVerdict (v : BitVec 18) (u code : Nat) {j : Nat} (hj : j < 18) : (setVerdict v u code).getLsbD j =
    (v.getLsbD j && !(decide (3 * u ≤ j) && Nat.testBit 7 (j - 3 * u)) ||
      decide (3 * u ≤ j) && code.testBit (j - 3 * u)) := by
  simp only [setVerdict, BitVec.getLsbD_or, BitVec.getLsbD_and, BitVec.getLsbD_not, BitVec.getLsbD_ofNat,
    Nat.testBit_mul_two_pow, hj, decide_true, Bool.true_and]

/-- A number below 8 has no bit above its lowest three. -/
theorem testBit_of_lt_eight (h : code < 8) {i : Nat} (hi : 3 ≤ i) : code.testBit i = false :=
  Nat.testBit_lt_two_pow (Nat.lt_of_lt_of_le h (Nat.pow_le_pow_right Nat.two_pos hi))

theorem getVerdict_setVerdict_self (hu : u < 6) (hc : code < 8) : getVerdict (setVerdict v u code) u = code := by
  refine Nat.eq_of_testBit_eq fun i => ?_
  rw [testBit_getVerdict]
  by_cases hi : i < 3
  · have hseven : Nat.testBit 7 i = true := by
      match i, hi with
      | 0, _ | 1, _ | 2, _ => rfl
    rw [getLsbD_setVerdict v u code (by omega)]
    simp [hi, hseven]
  · simp [hi, testBit_of_lt_eight hc (Nat.not_lt.mp hi)]

theorem getVerdict_setVerdict_ne (hw : w < 6) (h : w ≠ u) (hc : code < 8) :
    getVerdict (setVerdict v u code) w = getVerdict v w := by
  refine Nat.eq_of_testBit_eq fun i => ?_
  rw [testBit_getVerdict, testBit_getVerdict]
  by_cases hi : i < 3
  · rw [getLsbD_setVerdict v u code (by omega)]
    by_cases hle : 3 * u ≤ 3 * w + i
    · have hfar : 3 ≤ 3 * w + i - 3 * u := by omega
      simp [testBit_of_lt_eight hc hfar, testBit_of_lt_eight (code := 7) (by decide) hfar]
    · simp [hle]
  · simp [hi]

theorem getVerdict_lt (v : BitVec 18) (u : Nat) : getVerdict v u < 8 := Nat.mod_lt _ (by decide)

end

/-! ### The verdict of a phase by its nodes (R307) -/

section
variable {n : DiagNodes} {free p code : Nat}

theorem inBand_iff {v : Nat} : inBand v = true ↔ 2500 ≤ v ∧ v ≤ 4500 := by simp [inBand]

theorem freeVerdict_lt (n : Nat) : freeVerdict n < 8 := by
  unfold freeVerdict
  omega

/-! Phase S of a coil channel and of the pump judge a listed pattern alike. -/

theorem sourceVerdict_pass (h1 : 2500 ≤ n.hi) (h2 : n.hi ≤ 4500) (l1 : 2500 ≤ n.lo) (l2 : n.lo ≤ 4500) :
    verdictCoilS n free = 0 ∧ verdictPumpS n free = 0 := by
  simp [verdictCoilS, verdictPumpS, inBand_iff.mpr ⟨h1, h2⟩, inBand_iff.mpr ⟨l1, l2⟩]

theorem sourceVerdict_ground (h : n.hi < 500) : verdictCoilS n free = 1 ∧ verdictPumpS n free = 1 := by
  have hband : inBand n.hi = false := eq_false_of_ne_true (mt inBand_iff.mp (by omega))
  simp [verdictCoilS, verdictPumpS, hband, h]

theorem sourceVerdict_supply (h : 500 ≤ n.hi) (h6 : 6000 < n.hi ∨ 6000 < n.lo) :
    verdictCoilS n free = 2 ∧ verdictPumpS n free = 2 := by
  have hband : (inBand n.hi && inBand n.lo) = false := by
    refine eq_false_of_ne_true fun hb => ?_
    have hboth := Bool.and_eq_true .. |>.mp hb
    simp only [inBand_iff] at hboth
    omega
  simp [verdictCoilS, verdictPumpS, hband, Nat.not_lt.mpr h, h6]

theorem sourceVerdict_open (h : 2500 < n.hi) (h6 : n.hi ≤ 6000) (hl : n.lo < 500) :
    verdictCoilS n free = 3 ∧ verdictPumpS n free = 3 := by
  have hband : inBand n.lo = false := eq_false_of_ne_true (mt inBand_iff.mp (by omega))
  have hground : ¬n.hi < 500 := by omega
  have hsupply : ¬(6000 < n.hi ∨ 6000 < n.lo) := by omega
  simp [verdictCoilS, verdictPumpS, hband, hground, hsupply, h, hl]

theorem verdictSink_pass (h : n.hi < 500) (hl : n.lo < 500) : verdictSink n free = 0 := if_pos ⟨h, hl⟩

theorem verdictSink_supply (h : 6000 < n.lo) : verdictSink n free = 2 := by
  unfold verdictSink
  rw [if_neg (by omega), if_pos h]

theorem verdictDump_pass (h1 : n.vcoils ≤ n.hi + 2000) (h2 : n.hi ≤ n.vcoils + 2000) : verdictDump n free = 0 :=
  if_pos ⟨h1, h2⟩

theorem verdictDump_open (h1 : n.hi + 2000 < n.vcoils) (h2 : n.hi < 500) : verdictDump n free = 4 := by
  unfold verdictDump
  rw [if_neg (by omega), if_pos h2]

/-! Each phase and its unit -/

theorem phaseVerdict_unit (h : p ≤ 10) : (phaseVerdict p n free).1 = p / 2 := by
  unfold phaseVerdict
  split
  · rfl
  · split
    · omega
    · split <;> dsimp only <;> omega

theorem phaseVerdict_source (h : p < 10) (he : p % 2 = 0) (hv : verdictCoilS n free = code ∧ verdictPumpS n free = code) :
    (phaseVerdict p n free).2 = code := by
  obtain ⟨hcoil, hpump⟩ := hv
  unfold phaseVerdict
  by_cases h8 : p < 8
  · simp [h8, he, hcoil]
  · obtain rfl : p = 8 := by omega
    simp [hpump]

theorem phaseVerdict_sink (h : p < 10) (ho : p % 2 = 1) : (phaseVerdict p n free).2 = verdictSink n free := by
  unfold phaseVerdict
  by_cases h8 : p < 8
  · simp [h8, ho]
  · obtain rfl : p = 9 := by omega
    simp

theorem phaseVerdict_dump : (phaseVerdict 10 n free).2 = verdictDump n free := rfl

theorem phaseVerdict_lt (p : Nat) (n : DiagNodes) (free : Nat) : (phaseVerdict p n free).2 < 8 := by
  have hfree := freeVerdict_lt free
  have hcoil : verdictCoilS n free < 8 := by
    unfold verdictCoilS
    repeat' split
    all_goals omega
  have hpump : verdictPumpS n free < 8 := by
    unfold verdictPumpS
    repeat' split
    all_goals omega
  have hsink : verdictSink n free < 8 := by
    unfold verdictSink
    repeat' split
    all_goals omega
  have hdump : verdictDump n free < 8 := by
    unfold verdictDump
    repeat' split
    all_goals omega
  unfold phaseVerdict
  split
  · dsimp only
    split
    · exact hcoil
    · exact hsink
  · split
    · exact hpump
    · split
      · exact hsink
      · exact hdump

end

/-! ### The end of a phase -/

section
variable {d : Dev} {n : DiagNodes} {p : Nat}

/-- The verdict that a phase leaves for its unit: phase K keeps what phase S found. -/
def verdictTaken (d : Dev) (p : Nat) (n : DiagNodes) : Nat :=
  let r := phaseVerdict p n d.free
  let before := getVerdict d.pwr.verdicts r.1
  if (p = 1 ∨ p = 3 ∨ p = 5 ∨ p = 7 ∨ p = 9) ∧ before ≠ 0 then before else r.2

/-- The dump phase has passed where no lockout is due or in force: the chopper is enabled (R309). -/
def dumpEnabled (d : Dev) (p : Nat) (n : DiagNodes) : Bool :=
  p = 10 ∧ (phaseVerdict p n d.free).2 = 0 ∧ d.seq.drover ≠ .lockout ∧ d.mode.lockDue = 0

/-- The power page after the end of phase `p`. -/
def phaseEnded (d : Dev) (p : Nat) (n : DiagNodes) : Pwr :=
  { d.pwr with
    verdicts := setVerdict d.pwr.verdicts (phaseVerdict p n d.free).1 (verdictTaken d p n)
    dumpDis := d.pwr.dumpDis && !dumpEnabled d p n
    diagPhase := if p < 10 then some (p + 1) else none
    ctstDue := d.pwr.ctstDue || decide (10 ≤ p) }

theorem diagPhaseEnds_none (h : d.pwr.diagPhase = none) : d.diagPhaseEnds n = d := by
  simp [Dev.diagPhaseEnds, h]

theorem diagPhaseEnds_some (h : d.pwr.diagPhase = some p) : d.diagPhaseEnds n = { d.tick with pwr := phaseEnded d p n } := by
  unfold Dev.diagPhaseEnds phaseEnded
  rw [h]
  by_cases hp : p < 10
  · simp only [hp, if_true, decide_eq_false (Nat.not_le.mpr hp), Bool.or_false]
    rfl
  · simp only [hp, if_false, decide_eq_true (Nat.not_lt.mp hp), Bool.or_true]
    rfl

theorem does_diagPhaseEnd {s : State} (h : s.dev.diagPhaseEnds n = d) : does (.diagPhaseEnd n) s d := h ▸ rfl

theorem verdictTaken_lt : verdictTaken d p n < 8 := by
  unfold verdictTaken
  dsimp only
  split
  · exact getVerdict_lt ..
  · exact phaseVerdict_lt ..

theorem phaseEnded_own (h : p ≤ 10) : getVerdict (phaseEnded d p n).verdicts (p / 2) = verdictTaken d p n := by
  unfold phaseEnded
  rw [phaseVerdict_unit h]
  exact getVerdict_setVerdict_self (by omega) verdictTaken_lt

theorem phaseEnded_other (h : p ≤ 10) {v : Nat} (hv : v < 6) (hne : v ≠ p / 2) :
    getVerdict (phaseEnded d p n).verdicts v = getVerdict d.pwr.verdicts v := by
  unfold phaseEnded
  rw [phaseVerdict_unit h]
  exact getVerdict_setVerdict_ne hv hne verdictTaken_lt

/-- A source phase and the dump phase take the verdict of their nodes. -/
theorem verdictTaken_even (he : p % 2 = 0) : verdictTaken d p n = (phaseVerdict p n d.free).2 := if_neg (by omega)

theorem phaseEnded_source (hp : p < 10) (he : p % 2 = 0) {code : Nat}
    (hv : verdictCoilS n d.free = code ∧ verdictPumpS n d.free = code) :
    getVerdict (phaseEnded d p n).verdicts (p / 2) = code := by
  rw [phaseEnded_own (Nat.le_of_lt hp), verdictTaken_even he, phaseVerdict_source hp he hv]

/-- Phase K keeps what phase S found. -/
theorem phaseEnded_kept (hp : p < 10) (ho : p % 2 = 1) (h : getVerdict d.pwr.verdicts (p / 2) ≠ 0) :
    getVerdict (phaseEnded d p n).verdicts (p / 2) = getVerdict d.pwr.verdicts (p / 2) := by
  rw [phaseEnded_own (Nat.le_of_lt hp)]
  unfold verdictTaken
  dsimp only
  rw [phaseVerdict_unit (Nat.le_of_lt hp)]
  exact if_pos ⟨by omega, h⟩

theorem phaseEnded_sink (hp : p < 10) (ho : p % 2 = 1) (h : getVerdict d.pwr.verdicts (p / 2) = 0) :
    getVerdict (phaseEnded d p n).verdicts (p / 2) = verdictSink n d.free := by
  rw [phaseEnded_own (Nat.le_of_lt hp)]
  unfold verdictTaken
  dsimp only
  rw [phaseVerdict_unit (Nat.le_of_lt hp), phaseVerdict_sink hp ho]
  exact if_neg fun ⟨_, hfound⟩ => hfound h

theorem phaseEnded_dump : getVerdict (phaseEnded d 10 n).verdicts 5 = verdictDump n d.free :=
  (phaseEnded_own (p := 10) (by decide)).trans (verdictTaken_even rfl)

theorem phaseEnded_dumpDis_kept (h : p < 10 ∨ (phaseVerdict p n d.free).2 ≠ 0) :
    (phaseEnded d p n).dumpDis = d.pwr.dumpDis := by
  have hno : dumpEnabled d p n = false := by
    refine decide_eq_false fun ⟨hlast, hpass, _⟩ => ?_
    rcases h with h | h
    · omega
    · exact h hpass
  simp [phaseEnded, hno]

theorem phaseEnded_dumpDis_passed (h : verdictDump n d.free = 0) : (phaseEnded d 10 n).dumpDis =
    (d.pwr.dumpDis && (decide (d.seq.drover = .lockout) || decide (d.mode.lockDue ≠ 0))) := by
  simp [phaseEnded, dumpEnabled, phaseVerdict_dump, h]

end

/-! ### The pump's gates through the diagnostics (R310) -/

/-- Of the power page, `b` has other diagnostics, self-test results and chopper enable at most. -/
def KeepsDrive (a b : Pwr) : Prop :=
  b = { a with
    dumpDis := b.dumpDis, diagSeq := b.diagSeq, diagPhase := b.diagPhase, ctstDue := b.ctstDue, verdicts := b.verdicts
    diagDone := b.diagDone, diagPass := b.diagPass, passedSince := b.passedSince, ctstPass := b.ctstPass
    ctstFails := b.ctstFails, ctstFirst := b.ctstFirst }

theorem KeepsDrive.refl (a : Pwr) : KeepsDrive a a := rfl

theorem KeepsDrive.trans {a b c : Pwr} (h : KeepsDrive a b) (g : KeepsDrive b c) : KeepsDrive a c := by
  unfold KeepsDrive at g ⊢
  rw [g, show b = _ from h]

/-- The pump's gates depend on the diagnostics by their pump phases alone. -/
theorem pumpGates_congr {a b : Dev} (hmode : b.mode = a.mode) (hseq : b.seq = a.seq) (hsaf : b.saf = a.saf)
    (hdrive : KeepsDrive a.pwr b.pwr) (hphase : b.pumpPhase = a.pumpPhase) : b.pumpGates = a.pumpGates := by
  have hrun : b.pumpMayRun = a.pumpMayRun := by
    unfold Dev.pumpMayRun Dev.gatesOn Dev.inRun
    rw [hmode, hseq, hsaf, show b.pwr = _ from hdrive]
  unfold Dev.pumpGates
  rw [hrun, hphase]
  unfold Dev.pumpExt Dev.loopGates
  rw [show b.pwr = _ from hdrive]

theorem pumpGates_phase {d : Dev} (h : d.pumpPhase = true) : d.pumpGates = 0 := by
  unfold Dev.pumpGates
  rw [if_pos (by rw [h, Bool.or_true])]

theorem pumpPhase_some {d : Dev} {p : Nat} (h : d.pwr.diagPhase = some p) :
    d.pumpPhase = (decide (p = 8) || decide (p = 9)) := by
  simp [Dev.pumpPhase, h]

theorem pumpPhase_none {d : Dev} (h : d.pwr.diagPhase = none) : d.pumpPhase = false := by
  simp [Dev.pumpPhase, h]

/-- The pump stops in its phases alone: the end of a phase outside them leaves the gates as they are. -/
theorem phaseEnded_pumpGates {d : Dev} {p : Nat} {n : DiagNodes} (h : d.pwr.diagPhase = some p) (hp : p < 7 ∨ p = 10) :
    ({ d.tick with pwr := phaseEnded d p n } : Dev).pumpGates = d.pumpGates := by
  refine pumpGates_congr rfl rfl rfl rfl ?_
  rw [pumpPhase_some h]
  rcases hp with hp | rfl
  · rw [pumpPhase_some (p := p + 1) (if_pos (by omega))]
    have h7 : p ≠ 7 := by omega
    have h8 : p ≠ 8 := by omega
    have h9 : p ≠ 9 := by omega
    simp [h7, h8, h9]
  · exact pumpPhase_none rfl

/-! ### The self-test of the comparators (R308) -/

section
variable {d : Dev} {fails : BitVec 23} {first : Nat}

/-- The comparators that fail, in ascending order. -/
def failing (fails : BitVec 23) : List Nat := (List.range 23).filter fun i => fails.getLsbD i

theorem failing_isEmpty (fails : BitVec 23) : (failing fails).isEmpty = decide (fails = 0) := by
  rw [Bool.eq_iff_iff, List.isEmpty_iff, decide_eq_true_iff]
  refine ⟨fun h => BitVec.eq_of_getLsbD_eq fun i hi => ?_, fun h => by subst h; decide⟩
  have hnone := List.filter_eq_nil_iff.mp h i (List.mem_range.mpr hi)
  simpa using hnone

/-- The first that fails is named, 0 where none does. -/
theorem failing_headD (h : fails = 0 ∧ first = 0 ∨
    fails.getLsbD first = true ∧ ∀ j, j < first → fails.getLsbD j = false) : (failing fails).headD 0 = first := by
  rcases h with ⟨rfl, rfl⟩ | ⟨hfails, hbefore⟩
  · decide
  · have hlt : first < 23 := BitVec.lt_of_getLsbD hfails
    have hfirst : (failing fails).head? = some first := by
      unfold failing
      rw [List.head?_filter, List.find?_range_eq_some]
      exact ⟨hfails, List.mem_range.mpr hlt, fun j hj => by rw [hbefore j hj]; rfl⟩
    rw [List.headD_eq_head?_getD, hfirst, Option.getD_some]

/-- The device with PWR_CTSTRES written. -/
def tested (d : Dev) (fails : BitVec 23) : Dev :=
  { d with pwr := { d.pwr with
    ctstDue := false, ctstPass := decide (fails = 0), ctstFails := (failing fails).length
    ctstFirst := (failing fails).headD 0 } }

/-- The power page after a self-test that ends a sequence in progress. -/
def sequenceEnded (d : Dev) (fails : BitVec 23) : Pwr :=
  { (tested d fails).pwr with
    diagSeq := false, diagDone := true, diagPass := decide (d.pwr.verdicts = 0)
    passedSince := decide (d.pwr.verdicts = 0) && decide (fails = 0) }

theorem selfTest_alone (h : d.pwr.diagSeq = false) : d.selfTest fails = { (tested d fails).notice 39 0 0 with
    pwr := { (tested d fails).pwr with passedSince := d.pwr.passedSince && decide (fails = 0) } } := by
  have hempty := failing_isEmpty fails
  unfold failing at hempty
  simp [Dev.selfTest, tested, failing, h, hempty]

theorem selfTest_sequence (h : d.pwr.diagSeq = true) :
    d.selfTest fails = ({ (tested d fails).notice 39 0 0 with pwr := sequenceEnded d fails } : Dev).notice 38 0 0 := by
  have hempty := failing_isEmpty fails
  unfold failing at hempty
  simp [Dev.selfTest, sequenceEnded, tested, failing, h, hempty]

theorem eventsOnly_pwr_put {a b : Dev} (h : eventsOnly a b) (x : Pwr) :
    eventsOnly { a with pwr := x } { b with pwr := x } := by
  obtain ⟨e, s⟩ := h
  refine ⟨?_, s⟩
  rw [e]

/-- A self-test by itself writes its result, and fires its event. -/
theorem selfTest_alone_fires (h : d.pwr.diagSeq = false) : eventsOnly { d with pwr := { (tested d fails).pwr with
    passedSince := d.pwr.passedSince && decide (fails = 0) } } (d.selfTest fails) ∧ fired 39 (d.selfTest fails) := by
  rw [selfTest_alone h]
  exact ⟨eventsOnly_pwr_put (notice_eventsOnly (tested d fails) 39 0 0) _,
    notice_fired (tested d fails) 39 0 0 (by decide)⟩

/-- A self-test that ends a sequence writes both results, and fires both events. -/
theorem selfTest_sequence_fires (h : d.pwr.diagSeq = true) : (d.selfTest fails).pwr = sequenceEnded d fails ∧
    fired 39 (d.selfTest fails) ∧ fired 38 (d.selfTest fails) := by
  rw [selfTest_sequence h]
  refine ⟨notice_pwr .., fired_of_eventsOnly (notice_eventsOnly ..) ?_, notice_fired _ _ _ _ (by decide)⟩
  exact notice_fired (tested d fails) 39 0 0 (by decide)

theorem does_comparatorSelfTest_off {s : State} (h : s.dev.pwr.ctstDue = false) : does (.comparatorSelfTest fails) s s.dev :=
  does_of_effect rfl (if_neg (ne_true_of_eq_false h))

theorem does_comparatorSelfTest {s : State} (h : s.dev.pwr.ctstDue = true) :
    does (.comparatorSelfTest fails) s (s.dev.selfTest fails) :=
  does_of_effect rfl (if_pos h)

end

/-! ### The whole sequence (R307, R310) -/

section
variable {d : Dev}

theorem keepsDrive_startDiag (d : Dev) : KeepsDrive d.pwr d.startDiag.pwr := rfl

/-- The phase that follows. -/
def nextPhase (o : Option Nat) : Option Nat := o.bind fun p => if p < 10 then some (p + 1) else none

theorem diagPhaseEnds_power (d : Dev) (n : DiagNodes) : (d.diagPhaseEnds n).pwr.diagPhase = nextPhase d.pwr.diagPhase ∧
    (d.diagPhaseEnds n).pwr.diagSeq = d.pwr.diagSeq ∧ KeepsDrive d.pwr (d.diagPhaseEnds n).pwr := by
  cases h : d.pwr.diagPhase with
  | none =>
    rw [diagPhaseEnds_none h]
    exact ⟨h, rfl, .refl _⟩
  | some p =>
    rw [diagPhaseEnds_some h]
    exact ⟨rfl, rfl, rfl⟩

/-- Phases that end one after another. -/
theorem diagPhasesEnd_power (l : List DiagNodes) (d : Dev) :
    (l.foldl Dev.diagPhaseEnds d).pwr.diagPhase = l.foldl (fun o _ => nextPhase o) d.pwr.diagPhase ∧
      (l.foldl Dev.diagPhaseEnds d).pwr.diagSeq = d.pwr.diagSeq ∧
      KeepsDrive d.pwr (l.foldl Dev.diagPhaseEnds d).pwr := by
  induction l generalizing d with
  | nil => exact ⟨rfl, rfl, .refl _⟩
  | cons n l ih =>
    obtain ⟨hphase, hseq, hdrive⟩ := diagPhaseEnds_power d n
    obtain ⟨hphase', hseq', hdrive'⟩ := ih (d.diagPhaseEnds n)
    rw [List.foldl_cons, List.foldl_cons, ← hphase, ← hseq]
    exact ⟨hphase', hseq', hdrive.trans hdrive'⟩

/-- The nodes of the eleven phases in their order. -/
def phaseNodes (i : DiagInputs) : List DiagNodes :=
  [i.coilS.get 0, i.coilK.get 0, i.coilS.get 1, i.coilK.get 1, i.coilS.get 2, i.coilK.get 2, i.coilS.get 3,
    i.coilK.get 3, i.pumpS, i.pumpK, i.dump]

/-- The device with every phase of a sequence ended, and the self-test due. -/
def phasesOver (d : Dev) (i : DiagInputs) : Dev := (phaseNodes i).foldl Dev.diagPhaseEnds d.startDiag

theorem phasesOver_power (d : Dev) (i : DiagInputs) : (phasesOver d i).pwr.diagPhase = none ∧
    (phasesOver d i).pwr.diagSeq = true ∧ KeepsDrive d.pwr (phasesOver d i).pwr := by
  obtain ⟨hphase, hseq, hdrive⟩ := diagPhasesEnd_power (phaseNodes i) d.startDiag
  exact ⟨hphase.trans rfl, hseq, (keepsDrive_startDiag d).trans hdrive⟩

theorem runDiagnostics_eq (d : Dev) (i : DiagInputs) : d.runDiagnostics i = (phasesOver d i).selfTest i.compFails := rfl

/-- A sequence outside the pump phases leaves the pump's gates as they are. -/
theorem runDiagnostics_pumpGates (h : d.pumpPhase = false) (i : DiagInputs) :
    (d.runDiagnostics i).pumpGates = d.pumpGates := by
  have hkeeps := keeps_runDiagnostics d i
  obtain ⟨hphase, hseq, hdrive⟩ := phasesOver_power d i
  obtain ⟨hpwr, -, -⟩ := selfTest_sequence_fires (fails := i.compFails) hseq
  rw [← runDiagnostics_eq] at hpwr
  refine pumpGates_congr (keeps_same hkeeps .mode rfl) (keeps_same hkeeps .seq rfl) (keeps_same hkeeps .saf rfl) ?_ ?_
  · rw [hpwr]
    exact hdrive.trans rfl
  · rw [h]
    exact pumpPhase_none (by rw [hpwr]; exact hphase)

theorem does_offStateDiagnostics_off {s : State} (h : s.dev.diagAllowed = false) (i : DiagInputs) :
    does (.offStateDiagnostics i) s s.dev :=
  does_of_effect rfl (if_neg (ne_true_of_eq_false h))

theorem does_offStateDiagnostics {s : State} (h : s.dev.diagAllowed = true) (i : DiagInputs) :
    does (.offStateDiagnostics i) s (s.dev.runDiagnostics i) :=
  does_of_effect rfl (if_pos h)

theorem does_autoDiagnostics_off {s : State} (h : s.dev.diagAllowed = false ∨ s.dev.pwr.diagSeq = true) :
    does .autoDiagnostics s s.dev :=
  does_of_effect rfl (if_neg (by rcases h with h | h <;> simp [h]))

theorem does_autoDiagnostics {s : State} (ha : s.dev.diagAllowed = true) (h : s.dev.pwr.diagSeq = false) :
    does .autoDiagnostics s s.dev.startDiag :=
  does_of_effect rfl (if_pos (by simp [ha, h]))

/-! ### DIAG and CTST (R310, R317) -/

theorem diagCommands_state (h : d.seq.drover ≠ .openS) : bodyDiag d = (d, some 0x11) ∧ bodyCtst d = (d, some 0x11) :=
  ⟨if_pos h, if_pos h⟩

theorem diagCommands_cause (hs : d.seq.drover = .openS) (h : d.lim.latched.getLsbD 28 = true) :
    bodyDiag d = (d, some 0x13) ∧ bodyCtst d = (d, some 0x13) := by
  simp [bodyDiag, bodyCtst, hs, h]

/-- A sequence in progress goes on, and ends with the self-test. -/
theorem diagCommands_running (hs : d.seq.drover = .openS) (hl : d.lim.latched.getLsbD 28 = false)
    (h : d.pwr.diagSeq = true) : bodyDiag d = (d, some 0x01) ∧ bodyCtst d = (d, some 0x01) := by
  simp only [bodyDiag, bodyCtst, hs, hl, h]
  exact ⟨rfl, rfl⟩

theorem diagCommands_starts (hs : d.seq.drover = .openS) (hl : d.lim.latched.getLsbD 28 = false)
    (h : d.pwr.diagSeq = false) : bodyDiag d = (d.startDiag, some 0x01) ∧
      bodyCtst d = ({ d with pwr := { d.pwr with ctstDue := true } }, some 0x01) := by
  simp only [bodyDiag, bodyCtst, hs, hl, h]
  exact ⟨rfl, rfl⟩

end

/-- Settles O39, clause by clause: GD on, off, timed out and rearmed; a dump switch fault; the automatic start of the
diagnostics; the end of a phase; the self-test alone and at the end of a sequence; the whole sequence; DIAG and CTST. -/
theorem dumpAndDiagnostics : Obligations.DumpAndDiagnostics := by
  unfold Obligations.DumpAndDiagnostics
  rintro s tok n fails p rfl
  refine ⟨fun h => does_of_effect rfl (dumpTurnsOn_off h), fun ho hd hp => ?on, rfl,
    fun h => does_dumpTimeout (dumpTimesOut_off h), fun ho ha => ?pauses, fun ho ha => ?trips, rfl,
    fun ha => does_dumpSwitchFault (dumpSwitchFails_dead ha), fun ha => ?switchFault, does_autoDiagnostics_off,
    fun ha h => does_autoDiagnostics ha h, fun h => does_diagPhaseEnd (diagPhaseEnds_none h), ?phaseEnd,
    does_comparatorSelfTest_off, fun first hc hf => ?selfTest,
    fun i => ⟨fun h => does_offStateDiagnostics_off h i, fun h => ?sequence⟩, fun ht => ?commands⟩
  case on =>
    have hon := dumpTurnsOn_on ho hd hp
    refine ⟨fun ha => ⟨_, does_of_effect rfl (hon.trans (if_pos ha)), notice_eventsOnly (dumping s.dev) 36 0 0,
      notice_fired (dumping s.dev) 36 0 0 (by decide)⟩, fun ha => ?_⟩
    exact does_of_effect rfl (hon.trans (if_neg (ne_true_of_eq_false ha)))
  case pauses => exact does_dumpTimeout ((dumpTimesOut_on ho).trans (if_neg (ne_true_of_eq_false ha)))
  case trips =>
    obtain ⟨hopened, hrecord⟩ := powerTrip_spec (dumpPausing s.dev).endDiag 9 12
    obtain ⟨hon, hpause⟩ := powerTrip_chopper (dumpPausing s.dev).endDiag 9 12
    refine ⟨_, does_dumpTimeout ((dumpTimesOut_on ho).trans (if_pos ha)), opened_from hopened rfl rfl rfl, hon, hpause,
      hrecord.causes, hrecord.diagPhase, hrecord.diagSeq, fun h28 => ?_⟩
    obtain ⟨hcause, hplace, -⟩ := hrecord.recorded (Bool.not_eq_true' _ |>.mpr h28)
    exact ⟨hcause, hplace⟩
  case switchFault =>
    have hclass := faultClass29 (dumpDisabled s.dev).endDiag
    have hpower := raise_power (by decide) hclass .power 0x08 37 0 12 none
    obtain ⟨-, hlatched, hlatch, hgranted, hzero, -⟩ := raise_opened _ (by decide) hclass .power 0x08 37 0 12 none
    obtain ⟨hpwr, hsaf, hlim⟩ := faultGone_kept ((dumpDisabled s.dev).endDiag.raise 29 .power 0x08 37 0 12 none) 29
    have hset : s.dev.dumpSwitchFails.saf.latch = true := by rw [dumpSwitchFails_alive ha, hsaf, hlatch]
    refine ⟨_, does_dumpSwitchFault rfl, ?_, ?_, ?_, hset, ?_, ?_, pumpGates_latched _ hset, ?_, ?_⟩
    all_goals rw [dumpSwitchFails_alive ha]
    · rw [hpwr, hpower]; rfl
    · rw [hpwr, hpower]; rfl
    · rw [hlim]; exact hlatched
    · rw [hsaf]; exact hgranted
    · unfold Dev.limitsZero at hzero ⊢; rwa [hlim]
    · rw [hpwr, hpower]; rfl
    · rw [hpwr, hpower]; rfl
  case phaseEnd =>
    rintro i u hi hle rfl
    refine ⟨_, does_diagPhaseEnd (diagPhaseEnds_some hi), fun h => ⟨if_pos h, ?due, phaseEnded_dumpDis_kept (.inl h)⟩,
      fun h => ⟨if_neg (by omega), ?last⟩, fun h => pumpGates_phase ?stopped, phaseEnded_pumpGates hi, fun h => ?resumes,
      fun v hv hne => phaseEnded_other hle hv hne, fun hp he h => phaseEnded_source hp he (sourceVerdict_ground h),
      fun hp he h h6 => phaseEnded_source hp he (sourceVerdict_supply h h6),
      fun hp he h h6 hl => phaseEnded_source hp he (sourceVerdict_open h h6 hl),
      fun hp he h1 h2 l1 l2 => phaseEnded_source hp he (sourceVerdict_pass h1 h2 l1 l2),
      fun hp ho h => phaseEnded_kept hp ho h,
      fun hp ho h0 h hl => (phaseEnded_sink hp ho h0).trans (verdictSink_pass h hl),
      fun hp ho h0 hl => (phaseEnded_sink hp ho h0).trans (verdictSink_supply hl), ?dumpPasses, ?dumpOpen⟩
    case due => simp [phaseEnded, Nat.not_le.mpr h]
    case last => simp [phaseEnded, h]
    case stopped =>
      rw [pumpPhase_some (p := i + 1) (if_pos (by omega))]
      rcases h with rfl | rfl <;> rfl
    case resumes =>
      subst h
      exact pumpGates_congr rfl rfl rfl rfl rfl
    case dumpPasses =>
      rintro rfl h1 h2
      have hpass := verdictDump_pass (free := s.dev.free) h1 h2
      exact ⟨phaseEnded_dump.trans hpass, phaseEnded_dumpDis_passed hpass⟩
    case dumpOpen =>
      rintro rfl h1 h2
      have hopen := verdictDump_open (free := s.dev.free) h1 h2
      exact ⟨phaseEnded_dump.trans hopen, phaseEnded_dumpDis_kept (.inr (by rw [phaseVerdict_dump, hopen]; decide))⟩
  case selfTest =>
    refine ⟨fun hs => ?_, fun hs => ?_⟩
    · obtain ⟨hevents, hfired⟩ := selfTest_alone_fires (fails := fails) hs
      unfold tested at hevents
      rw [failing_headD hf] at hevents
      exact ⟨_, does_comparatorSelfTest hc, hevents, hfired⟩
    · obtain ⟨hpwr, hfired39, hfired38⟩ := selfTest_sequence_fires (fails := fails) hs
      refine ⟨_, does_comparatorSelfTest hc, keeps_selfTest _ _, ?_, hfired39, hfired38⟩
      rw [hpwr]
      unfold sequenceEnded tested
      rw [failing_headD hf]
  case sequence =>
    obtain ⟨hphase, hseq, -⟩ := phasesOver_power s.dev i
    obtain ⟨hpwr, hfired39, hfired38⟩ := selfTest_sequence_fires (fails := i.compFails) hseq
    rw [← runDiagnostics_eq] at hpwr hfired39 hfired38
    refine ⟨_, does_offStateDiagnostics h i, keeps_runDiagnostics _ _, ?_, ?_, ?_, ?_, ?_, ?_,
      fun hp => runDiagnostics_pumpGates hp i, hfired38, hfired39⟩
    all_goals rw [hpwr]
    · rfl
    · exact hphase
    all_goals rfl
  case commands =>
    refine ⟨fun hs => ?_, fun hs => ⟨fun h28 => ?_, fun h28 => ⟨fun h => ?_, fun h => ?_, fun h => ?_, fun h => ?_⟩⟩⟩
    · have hbody (code : Nat) := diagCommands_state (d := accepted s.dev tok code) hs
      exact ⟨does_command rfl ht (hbody 0x03).1, does_command rfl ht (hbody 0x02).2⟩
    · have hbody (code : Nat) := diagCommands_cause (d := accepted s.dev tok code) hs h28
      exact ⟨does_command rfl ht (hbody 0x03).1, does_command rfl ht (hbody 0x02).2⟩
    · exact does_command rfl ht (diagCommands_starts (d := accepted s.dev tok 0x02) hs h28 h).2
    · exact does_command rfl ht (diagCommands_running (d := accepted s.dev tok 0x02) hs h28 h).2
    · exact does_command rfl ht (diagCommands_running (d := accepted s.dev tok 0x03) hs h28 h).1
    · exact does_command rfl ht (diagCommands_starts (d := accepted s.dev tok 0x03) hs h28 h).1

end Sys2Proof.Proofs
end
